-- ==== Sys2Proof/Word.lean ====
section
/-! DEFINITION. The word types of the block: what the manual treats as bits (R11, R13). -/

namespace Sys2Proof

/-- One byte of memory, of a frame or of a record. -/
abbrev Byte := BitVec 8

/-- The contents of one register (R13: every register is 32 bits wide). -/
abbrev Word := BitVec 32

/-- A `_LO`/`_HI` pair (R16), a signature (R95), or one 64-bit stored word. -/
abbrev DWord := BitVec 64

end Sys2Proof
end

