-- ==== Sys2Proof/Syntax.lean ====
section
/-! DEFINITION. The commands of the block: one constructor of `Instr` per row of spec/opcode_table.json, with the row's operands. -/

namespace Sys2Proof

/-- Who makes an access to the address map (R33, R34, R387). The depot gate names the tenant context it acts for; `unit` is any other
fabric unit, by its unit code of R383. -/
inductive Party where
  | hearth (core : Fin 8)
  | island
  | pcie
  | jtag
  | narultil (q : Fin 4)
  | gate (c : Fin 16)
  | unit (code : Byte)
  deriving DecidableEq, Repr

/-- What can be fenced (R412, FCL_FENCE_LIST0 to 3): the units of R344 by mask bit, cameras, point streams, Hearth cores. -/
inductive FenceUnit where
  | unit (u : Fin 78)
  | camera (c : Fin 16)
  | point (j : Fin 8)
  | core (k : Fin 8)
  deriving DecidableEq, Repr

/-- What a debugger halts: a Hearth core, or the island's cores (R367, R368). -/
inductive DebugTarget where
  | hearth (core : Fin 8)
  | island
  deriving DecidableEq, Repr

/-- One 32-byte unit of data with its poison mark (R240). -/
structure DataUnit where
  bytes : List Byte
  poison : Bool
  deriving DecidableEq, Repr

/-- A gPTP Sync or Follow_Up as it arrives (R333, R335, R336): origin in ns, correction in units of 2^-16 ns, and the cumulative rate ratio less 1 in
units of 2^-41. -/
structure SyncMsg where
  domain : Nat
  seq : Nat
  twoStep : Bool
  origin : Nat
  correction : Int
  rate : Int
  deriving DecidableEq, Repr

/-- What a Pdelay exchange measures on a port (R333): the link delay in ns, and the neighbour's rate ratio less 1 in units of 2^-41. -/
structure LinkMeasure where
  delay : Nat
  rate : Int
  deriving DecidableEq, Repr

/-- How far a Tongs channel runs before something else happens (R258, R263): the channel and the 32-byte units it moves. -/
structure TongsRun where
  ch : Fin 32
  units : Nat
  deriving DecidableEq, Repr

/-- A STRIKE_MARK as it arrives (R346): `retried` says that it came through a link replay. -/
structure MarkMsg where
  strikeNo : Word
  strikeTime : DWord
  period : Word
  offset : Word
  retried : Bool
  deriving DecidableEq, Repr

/-- One list of a graph image: the unit it runs on (mask bit of R344), whether it is a Marmer M2 list (R103), the offset of its first
instruction in the image, its count, and how many of its first instructions it asks to pin (R101). -/
structure ListImage where
  unit : Fin 78
  marmer : Bool
  offset : Nat
  count : Nat
  pins : Nat
  deriving DecidableEq, Repr

/-- One split reduction of a graph image: offset of its 8-byte record (R139), K of the whole reduction and kc of its operand pair (R77, R140). -/
structure SplitImage where
  offset : Nat
  k : Nat
  kc : Nat
  deriving DecidableEq, Repr

/-- What a graph image at INPUT declares (R27, R67, R101, R111, R139, R303, R306, R311): the image's format is Gaent's, so where its parts lie
is given here; the lists and split records themselves are read from the image. `bytes` is its length, `results` the RESULT indices it declares as
published, `ages` the stream mask and the limit in µs of each of them, `ageBase` its age base (R375), `configs` the configurations it declares,
`slices` the units of each slice (R344 mask bits), in order. -/
structure GraphImage where
  bytes : Nat
  lists : List ListImage
  splits : List SplitImage
  results : List Nat
  ages : List (Nat × Nat)
  ageBase : Nat
  configs : List Nat
  slices : List (List Nat)
  deriving DecidableEq, Repr

/-- How a CSI-2 packet header arrived (R270, R271). -/
inductive HeaderCheck where
  | clean | corrected | discarded
  deriving DecidableEq, Repr

/-- What the receiver's front-end FIFO and line buffers do with a packet: nothing, an overflow, or a double-bit error when it is read (R271, R293). -/
inductive BufferCheck
  | clean
  | overflow
  | poisoned
  deriving DecidableEq, Repr

/-- A CSI-2 packet: virtual channel, data type, frame number (short packets), payload and its checks (R270, R271). -/
structure CamPacket where
  vc : Fin 16
  dt : Nat
  number : BitVec 16
  payload : List Byte
  header : HeaderCheck
  crcOk : Bool
  buffer : BufferCheck
  deriving DecidableEq, Repr

/-- A point-stream UDP datagram as the bridge hands it over, with its arrival stamp in ns (R279). -/
structure PointDatagram where
  port : Nat
  payload : List Byte
  stamp : Nat
  deriving DecidableEq, Repr

/-- What the fall-back engine delivers at the end of a run (R378): its network is not a programming interface (R377). -/
structure EmberRun where
  status : Fin 5
  result : List Byte
  summary : List Byte
  deriving DecidableEq, Repr

/-- A set of sensor readings, in the units of the registers and records that show them. -/
structure Sensors where
  dieTemp : Int
  vcore : Nat
  vin : Nat
  inW : Nat
  inlet : Int
  deriving DecidableEq, Repr

/-- A Narultil message: its header bytes and the data units that follow (R432 to R438). -/
structure LinkMsg where
  header : List Byte
  data : List DataUnit
  deriving DecidableEq, Repr

/-- How link training ended (R430): lanes 8, 4 or 0 (failed), the far end's highest version, its module number, the one-way delay,
and the far end's generation of each context (R435). -/
structure TrainResult where
  lanes : Nat
  version : Nat
  peer : Fin 4
  delay : BitVec 16
  gens : List (BitVec 16)
  deriving DecidableEq, Repr

/-- The PCIe windows of R440. -/
inductive Bar where
  | bar0 | bar2 | bar4
  deriving DecidableEq, Repr

/-- A host write of configuration space or of the BAR2 table (R442). -/
inductive CfgWrite where
  | msixEnable (on : Bool)
  | functionMask (on : Bool)
  | vectorMask (vector : Byte) (on : Bool)
  | vectorEntry (vector : Byte) (address : DWord) (data : Word)
  | pmeEnable (on : Bool)
  deriving DecidableEq, Repr

/-- An Ethernet frame without its FCS (R443). -/
structure EthFrame where
  bytes : List Byte
  fcsOk : Bool
  deriving DecidableEq, Repr

/-- A CAN or CAN FD frame (R445, R446). -/
structure CanFrame where
  ide : Bool
  id : Nat
  fd : Bool
  data : List Byte
  deriving DecidableEq, Repr

/-- A UDP fragment on J3 (R448): addresses, fragment position, payload, and whether its crossing frames passed their CRC. -/
structure DepotFragment where
  ipv6 : Bool
  source : Nat
  sourcePort : Nat
  dest : Nat
  destPort : Nat
  payload : List Byte
  crossingOk : Bool
  deriving DecidableEq, Repr

/-- What the boot of R463 to R466 finds when a reset reaches it: see `Machine/Boot.lean`. -/
structure BootOutcome where
  vin : Nat
  deriving DecidableEq, Repr

/-- The commands: one constructor per row of the table, in the table's order. -/
inductive Instr where
  /-- REGISTER_WRITE (R17). -/
  | registerWrite (who : Party) (addr : Nat) (size : Nat) (value : Nat)
  /-- PAIR_LO_READ (R16). -/
  | pairLoRead (who : Party) (addr : Nat) (size : Nat)
  /-- TOP_LOCK_SET (R481). -/
  | topLockSet (who : Party)
  /-- KEY_SLOT_REVOKE (R481). -/
  | keySlotRevoke (who : Party) (slots : BitVec 4)
  /-- STRIKE (R341). -/
  | strike
  /-- STRIKE_TABLE_ENTRY_FIRE (R344). -/
  | strikeTableEntryFire (e : Fin 128)
  /-- GOLDEN_RUN_END (R197). -/
  | goldenRunEnd (u : Fin 78)
  /-- STRIKE_RUN_START (R339). -/
  | strikeRunStart (who : Party)
  /-- STRIKE_RUN_STOP (R342). -/
  | strikeRunStop (who : Party)
  /-- SYNC_RECEIVED (R336). -/
  | syncReceived (p : Fin 2) (m : SyncMsg)
  /-- FOLLOW_UP_RECEIVED (R336). -/
  | followUpReceived (p : Fin 2) (m : SyncMsg)
  /-- PDELAY_EXCHANGE (R333). -/
  | pdelayExchange (p : Fin 2) (m : LinkMeasure)
  /-- GM_SYNC_TRANSMIT (R335). -/
  | gmSyncTransmit
  /-- SYNC_TIMEOUT (R338). -/
  | syncTimeout
  /-- STRIKE_MARK_TIMER (R346). -/
  | strikeMarkTimer
  /-- STRIKE_MARK (R347). -/
  | strikeMark (q : Fin 4) (m : MarkMsg)
  /-- MARK_COAST_TIMEOUT (R347). -/
  | markCoastTimeout
  /-- MARK_LOST_TIMEOUT (R347). -/
  | markLostTimeout
  /-- ARRIVE (R349). -/
  | arrive (module : Fin 4) (id : Word) (mask : BitVec 4)
  /-- RELEASE (R349). -/
  | release (id : Word) (strike : Word)
  /-- SQ_TAIL_DOORBELL (R301). -/
  | sqTailDoorbell (who : Party) (c : Fin 16) (r : Fin 8) (value : Word)
  /-- CQ_HEAD_DOORBELL (R301). -/
  | cqHeadDoorbell (who : Party) (c : Fin 16) (r : Fin 8) (value : Word)
  /-- DESCRIPTOR_READ_ERROR (R304). -/
  | descriptorReadError (c : Fin 16) (r : Fin 8)
  /-- NOP (R306). -/
  | nop (c : Fin 16) (r : Fin 8)
  /-- RUN_GRAPH (R25). -/
  | runGraph (c : Fin 16) (r : Fin 8)
  /-- LOAD_MODEL (R306). -/
  | loadModel (c : Fin 16) (r : Fin 8) (image : GraphImage)
  /-- UNLOAD_MODEL (R306). -/
  | unloadModel (c : Fin 16) (r : Fin 8)
  /-- COPY (R306). -/
  | copy (c : Fin 16) (r : Fin 8) (ch : Fin 32)
  /-- DESCRIPTOR_FENCE (R306). -/
  | descriptorFence (c : Fin 16) (r : Fin 8)
  /-- BARRIER (R349). -/
  | barrier (c : Fin 16) (r : Fin 8)
  /-- DEADLINE_EXPIRE (R308). -/
  | deadlineExpire (job : Nat)
  /-- COMPLETION_RECORD_WRITE (R312). -/
  | completionRecordWrite (c : Fin 16) (r : Fin 8)
  /-- MODERATION_TIMER (R317). -/
  | moderationTimer (c : Fin 16) (r : Fin 8)
  /-- CTX_ENABLE (R296). -/
  | ctxEnable (who : Party) (c : Fin 16) (value : Bool)
  /-- TEARDOWN (R323). -/
  | teardown (who : Party) (c : Fin 16)
  /-- TEARDOWN_QUIESCED (R324). -/
  | teardownQuiesced (c : Fin 16)
  /-- QUIESCE_TIMEOUT (R324). -/
  | quiesceTimeout (c : Fin 16)
  /-- SCRUB_DONE (R323). -/
  | scrubDone (who : Party) (c : Fin 16)
  /-- HIC_CLAIM (R321). -/
  | hicClaim (who : Party) (core : Fin 8)
  /-- HIC_COMPLETE (R322). -/
  | hicComplete (who : Party) (core : Fin 8) (source : BitVec 9)
  /-- HIC_XCOMPLETE (R322). -/
  | hicXcomplete (who : Party) (source : BitVec 9)
  /-- HIC_SET (R320). -/
  | hicSet (who : Party) (source : BitVec 9)
  /-- MSIX_SEND (R442). -/
  | msixSend (source : BitVec 9)
  /-- LOADS (R120). -/
  | loads (n : Fin 64)
  /-- SWAP (R122). -/
  | swap (n : Fin 64)
  /-- MMA_P (R116). -/
  | mmaP (n : Fin 64)
  /-- MMA (R114). -/
  | mma (n : Fin 64)
  /-- EPI (R123). -/
  | epi (n : Fin 64)
  /-- STORE (R124). -/
  | store (n : Fin 64)
  /-- SEND (R160). -/
  | send (n : Fin 64)
  /-- WAIT (R128). -/
  | wait (u : Fin 78)
  /-- SIG_OPEN (R131). -/
  | sigOpen (u : Fin 78)
  /-- SIG_CLOSE (R131). -/
  | sigClose (u : Fin 78)
  /-- GOLD (R132). -/
  | gold (u : Fin 78)
  /-- FENCE (R130). -/
  | fence (u : Fin 78)
  /-- SYNC (R129). -/
  | sync (u : Fin 78)
  /-- SCRUB (R133). -/
  | scrub (n : Fin 64)
  /-- SHADOW_FILL_COMPLETE (R74). -/
  | shadowFillComplete (n : Fin 64)
  /-- BLOCK_DRAIN (R75). -/
  | blockDrain (n : Fin 64)
  /-- WRITE_BUFFER_DRAIN (R244). -/
  | writeBufferDrain (n : Fin 64)
  /-- SEND_COMPLETE (R161). -/
  | sendComplete (n : Fin 64)
  /-- SYNC_COUNTER_INCREMENT (R127). -/
  | syncCounterIncrement (index : Nat)
  /-- WAIT_TIMEOUT (R128). -/
  | waitTimeout (u : Fin 78)
  /-- STORE_COMPLETE (R376). -/
  | storeComplete (n : Fin 64)
  /-- TILE_LIST_END (R105). -/
  | tileListEnd (u : Fin 78)
  /-- SOFT_RESET (R414). -/
  | softReset (who : Party) (u : Fin 78)
  /-- UNIT_FENCE (R412). -/
  | unitFence (who : Party) (w : FenceUnit)
  /-- PAIR_REQUEST (R96). -/
  | pairRequest (who : Party) (u : Fin 78) (req : Bool)
  /-- RESIDUE_INJECT (R88). -/
  | residueInject (who : Party) (u : Fin 78)
  /-- INJ_PRO (R163). -/
  | injPro (who : Party) (n : Fin 64)
  /-- INJ_EPI (R163). -/
  | injEpi (who : Party) (n : Fin 64)
  /-- INJ_ROPE (R200). -/
  | injRope (who : Party) (p : Fin 4)
  /-- INJ_OUT (R200). -/
  | injOut (who : Party) (p : Fin 4)
  /-- INJ_A (R231). -/
  | injA (who : Party) (u : Fin 10)
  /-- INJ_B (R231). -/
  | injB (who : Party) (u : Fin 2)
  /-- BS_ECC_INJECT (R266). -/
  | bsEccInject (who : Party) (n : Fin 64)
  /-- CRU_INJECT (R267). -/
  | cruInject (who : Party)
  /-- MEM_CE_INJECT (R268). -/
  | memCeInject (who : Party) (ch : Fin 8)
  /-- MEM_UE_INJECT (R268). -/
  | memUeInject (who : Party) (ch : Fin 8)
  /-- ATTN (R168). -/
  | attn (p : Fin 4)
  /-- KVAPPEND (R187). -/
  | kvappend (p : Fin 4)
  /-- ROLLBACK (R191). -/
  | rollback (p : Fin 4)
  /-- ELT (R208). -/
  | elt (v : Fin 8)
  /-- NORM (R210). -/
  | norm (v : Fin 8)
  /-- RED (R212). -/
  | red (v : Fin 8)
  /-- WIN (R213). -/
  | win (v : Fin 8)
  /-- ACCEPT (R218). -/
  | accept (v : Fin 8)
  /-- DETECT (R220). -/
  | detect (u : Fin 2)
  /-- TONGS_TAIL_WRITE (R269). -/
  | tongsTailWrite (who : Party) (ch : Fin 32) (tail : BitVec 16)
  /-- TONGS_COPY (R258). -/
  | tongsCopy (run : TongsRun)
  /-- TONGS_TRANSPOSE (R258). -/
  | tongsTranspose (run : TongsRun)
  /-- TONGS_GATHER (R258). -/
  | tongsGather (run : TongsRun)
  /-- TONGS_FILL (R258). -/
  | tongsFill (run : TongsRun)
  /-- TONGS_SCRUB (R258). -/
  | tongsScrub (run : TongsRun)
  /-- TONGS_DESCRIPTOR_COMPLETE (R262). -/
  | tongsDescriptorComplete (ch : Fin 32)
  /-- TONGS_ABORT (R263). -/
  | tongsAbort (who : Party) (ch : Fin 32)
  /-- CHANNEL_HANG (R411). -/
  | channelHang (ch : Fin 36)
  /-- CRUCIBLE_PATROL (R249). -/
  | cruciblePatrol
  /-- DRAM_PATROL (R252). -/
  | dramPatrol (ch : Fin 8)
  /-- FRAME_START (R272). -/
  | frameStart (cam : Fin 16) (pkt : CamPacket)
  /-- LINE_PACKET (R271). -/
  | linePacket (cam : Fin 16) (pkt : CamPacket)
  /-- FRAME_END (R271). -/
  | frameEnd (cam : Fin 16) (pkt : CamPacket)
  /-- FRAME_COMPLETE (R278). -/
  | frameComplete (cam : Fin 16)
  /-- FRAME_TABLE_PUBLISH (R284). -/
  | frameTablePublish
  /-- POINT_DATAGRAM (R279). -/
  | pointDatagram (j : Fin 8) (d : PointDatagram)
  /-- SWEEP_COMPLETE (R282). -/
  | sweepComplete (j : Fin 8)
  /-- GOLDEN_FRAME_RUN (R292). -/
  | goldenFrameRun (cam : Fin 16)
  /-- RECORD_TAIL_WRITE (R286). -/
  | recordTailWrite (who : Party) (r : Fin 4) (tail : BitVec 16)
  /-- RECORD_DECODE (R289). -/
  | recordDecode (r : Fin 4)
  /-- RECORD_DESCRIPTOR_COMPLETE (R291). -/
  | recordDescriptorComplete (r : Fin 4)
  /-- RECORD_ABORT (R286). -/
  | recordAbort (who : Party) (r : Fin 4)
  /-- SIGNATURE_CLOSE (R361). -/
  | signatureClose (slot : Fin 39) (checker : Bool)
  /-- COMPARATOR_SELFTEST (R363). -/
  | comparatorSelftest (who : Party)
  /-- COMPARATOR_SELFTEST_DONE (R363). -/
  | comparatorSelftestDone (ok : Bool)
  /-- COMPARATOR_INJECT (R365). -/
  | comparatorInject (who : Party)
  /-- WINDOW_CLOSE (R374). -/
  | windowClose (w : Fin 32)
  /-- AGE_FRAME_TABLE_READ (R375). -/
  | ageFrameTableRead
  /-- EMBER_RUN_START (R378). -/
  | emberRunStart (goldenOk : Bool)
  /-- EMBER_RUN_COMPLETE (R379). -/
  | emberRunComplete (run : EmberRun)
  /-- EMBER_DEADLINE (R378). -/
  | emberDeadline
  /-- SAFE_STATE_FRAME_SENT (R380). -/
  | safeStateFrameSent (k : Fin 2)
  /-- ARM (R390). -/
  | arm (who : Party)
  /-- FAULT_REPORT (R399). -/
  | faultReport (src : BitVec 16) (ctx : Option (Fin 16)) (safety : Bool) (op : Byte) (d0 : DWord) (d1 : DWord)
  /-- HEARTH_JOIN_CSR (R382). -/
  | hearthJoinCsr (j : Fin 4)
  /-- HEARTH_JOIN_TIMEOUT (R382). -/
  | hearthJoinTimeout (j : Fin 4)
  /-- DEBUG_HALT (R367). -/
  | debugHalt (core : DebugTarget)
  /-- DEBUG_REG_WRITE (R367). -/
  | debugRegWrite (core : Fin 8) (reg : BitVec 16) (value : DWord)
  /-- FCL_CLEAR_FIRST (R401). -/
  | fclClearFirst (who : Party)
  /-- FCL_INJECT (R398). -/
  | fclInject (who : Party) (cls : Fin 4) (ctx : Fin 16) (inst : Byte)
  /-- FCL_CTX_N_CLEAR (R400). -/
  | fclCtxNClear (who : Party) (c : Fin 16)
  /-- HANG_KICK (R409). -/
  | hangKick (who : Party) (cores : BitVec 8)
  /-- HEARTH_HANG (R409). -/
  | hearthHang (core : Fin 8)
  /-- UNIT_HANG_STOP (R410). -/
  | unitHangStop (u : Fin 78)
  /-- FENCE_LIST_ADD (R412). -/
  | fenceListAdd (who : Party) (w : FenceUnit)
  /-- FENCE_LIST_CLEAR (R412). -/
  | fenceListClear (who : Party) (w : FenceUnit)
  /-- AUTO_COMPUTE_RESET (R415). -/
  | autoComputeReset
  /-- PRC_RESET_COMPUTE (R416). -/
  | prcResetCompute (who : Party) (key : Byte)
  /-- COMPUTE_RESET_RELEASE (R416). -/
  | computeResetRelease
  /-- PRC_RESET_SYS (R414). -/
  | prcResetSys (who : Party) (key : Byte)
  /-- SNP_DUMP_START (R418). -/
  | snpDumpStart (who : Party)
  /-- SNP_TRIGGER (R421). -/
  | snpTrigger (who : Party)
  /-- FCL_LOG_WINDOW_READ (R426). -/
  | fclLogWindowRead (who : Party)
  /-- EVR_WINDOW_READ (R427). -/
  | evrWindowRead (who : Party)
  /-- SNP_WINDOW_READ (R428). -/
  | snpWindowRead (who : Party)
  /-- EVR_COMMIT (R422). -/
  | evrCommit (who : Party)
  /-- EVR_COMMIT_TIMER (R422). -/
  | evrCommitTimer
  /-- EVR_SAMPLE (R424). -/
  | evrSample (x : Sensors)
  /-- EVR_CLEAR (R424). -/
  | evrClear (who : Party)
  /-- RESET_NOTICE (R420). -/
  | resetNotice (q : Fin 4) (m : LinkMsg)
  /-- GEN_ANNOUNCE (R435). -/
  | genAnnounce (q : Fin 4) (m : LinkMsg)
  /-- READY (R420). -/
  | ready (q : Fin 4) (m : LinkMsg)
  /-- LINK_TRAIN (R430). -/
  | linkTrain (who : Party) (q : Fin 4) (retrain : Bool)
  /-- LINK_TRAINING_COMPLETE (R430). -/
  | linkTrainingComplete (q : Fin 4) (t : TrainResult)
  /-- SEND_DATA (R436). -/
  | sendData (q : Fin 4) (m : LinkMsg)
  /-- SEND_INC (R436). -/
  | sendInc (q : Fin 4) (m : LinkMsg)
  /-- SEND_DONE (R161). -/
  | sendDone (q : Fin 4) (m : LinkMsg)
  /-- LINK_SYNC (R436). -/
  | linkSync (q : Fin 4) (m : LinkMsg)
  /-- MEM_WR (R437). -/
  | memWr (q : Fin 4) (m : LinkMsg)
  /-- MEM_RD (R437). -/
  | memRd (q : Fin 4) (m : LinkMsg)
  /-- MEM_RD_RESP (R437). -/
  | memRdResp (q : Fin 4) (m : LinkMsg)
  /-- LINK_DOORBELL (R437). -/
  | linkDoorbell (q : Fin 4) (m : LinkMsg)
  /-- FM_BAR_CFG (R438). -/
  | fmBarCfg (q : Fin 4) (m : LinkMsg)
  /-- FM_RELAY (R438). -/
  | fmRelay (q : Fin 4) (m : LinkMsg)
  /-- LINK_ACK (R431). -/
  | linkAck (q : Fin 4) (seq : Nat)
  /-- NAK (R431). -/
  | nak (q : Fin 4) (seq : Nat)
  /-- LINK_CREDIT (R433). -/
  | linkCredit (q : Fin 4) (m : LinkMsg)
  /-- PCIE_MEM_READ (R440). -/
  | pcieMemRead (bar : Bar) (off : Nat) (len : Nat)
  /-- PCIE_MEM_WRITE (R440). -/
  | pcieMemWrite (bar : Bar) (off : Nat) (data : List Byte)
  /-- PCIE_PERST (R441). -/
  | pciePerst (level : Bool)
  /-- PCIE_DSTATE_CHANGE (R442). -/
  | pcieDstateChange (d3 : Bool)
  /-- ETH_FRAME_RECEIVED (R443). -/
  | ethFrameReceived (p : Fin 2) (f : EthFrame)
  /-- CAN_FRAME_RECEIVED (R445). -/
  | canFrameReceived (k : Fin 2) (f : CanFrame)
  /-- PARKED_CONFIRMATION (R446). -/
  | parkedConfirmation (k : Fin 2) (f : CanFrame)
  /-- PARK_CONFIRMATION_TIMEOUT (R446). -/
  | parkConfirmationTimeout
  /-- DEPOT_DATAGRAM (R448). -/
  | depotDatagram (f : DepotFragment)
  /-- ARP_REQUEST (R448). -/
  | arpRequest (senderMac : List Byte) (senderIp : Word) (targetIp : Word)
  /-- NEIGHBOR_SOLICITATION (R448). -/
  | neighborSolicitation (senderMac : List Byte) (senderIp : List Byte) (target : List Byte)
  /-- REASSEMBLY_TIMEOUT (R448). -/
  | reassemblyTimeout (key : Nat)
  /-- JOB_SUBMIT (R452). -/
  | jobSubmit (t : Fin 16)
  /-- MODEL_PUT (R452). -/
  | modelPut (t : Fin 16)
  /-- MODEL_PUT_WRITE_COMPLETE (R452). -/
  | modelPutWriteComplete (t : Fin 16)
  /-- MODEL_DROP (R452). -/
  | modelDrop (t : Fin 16)
  /-- STATUS_QUERY (R452). -/
  | statusQuery (t : Fin 16)
  /-- CREDIT (R454). -/
  | credit (t : Fin 16)
  /-- GATE_COMPLETION_CLAIM (R453). -/
  | gateCompletionClaim (t : Fin 16) (r : Fin 8)
  /-- GATE_OUTBOUND_SEND (R454). -/
  | gateOutboundSend (t : Fin 16)
  /-- TIME_HINT (R450). -/
  | timeHint
  /-- GATE_CREDIT_TIMER (R452). -/
  | gateCreditTimer (t : Fin 16)
  /-- RTO_RESEND (R454). -/
  | rtoResend (t : Fin 16)
  /-- STALL_TIMEOUT (R454). -/
  | stallTimeout (t : Fin 16)
  /-- TENANT_KEY_WRITE (R460). -/
  | tenantKeyWrite (who : Party) (t : Fin 16) (k : Fin 8) (word : Word)
  /-- PORST (R467). -/
  | porst (release : BootOutcome)
  /-- VIN_START (R495). -/
  | vinStart
  /-- VIN_LOSS (R496). -/
  | vinLoss
  /-- SUPPLY_MONITOR_TRIP (R497). -/
  | supplyMonitorTrip (monitor : Byte)
  /-- POWER_SAMPLE (R470). -/
  | powerSample (x : Sensors)
  /-- BOOT_CONFIRM (R465). -/
  | bootConfirm (who : Party)
  /-- BOOT_PENDING (R465). -/
  | bootPending (who : Party) (slotB : Bool)
  /-- PARK_REQUEST (R471). -/
  | parkRequest (who : Party)
  /-- DEPOT_REQUEST (R475). -/
  | depotRequest (who : Party)
  /-- LEAVE_DEPOT_REQUEST (R476). -/
  | leaveDepotRequest (who : Party)
  /-- PARK_OK_CHANGE (R476). -/
  | parkOkChange (level : Bool)
  /-- SHORE_PWR_CHANGE (R476). -/
  | shorePwrChange (level : Bool)
  /-- POOL_SCRUB (R477). -/
  | poolScrub (who : Party)
  /-- POOL_SCRUB_COMPLETE (R477). -/
  | poolScrubComplete
  /-- WAKE_N (R472). -/
  | wakeN
  /-- CAN_WAKE (R472). -/
  | canWake
  /-- CAMERA_SAMPLE (R472). -/
  | cameraSample (difference : Nat)
  /-- ACCEL_SAMPLE (R472). -/
  | accelSample (mg : Nat)
  /-- SUPPLY_SAMPLE (R472). -/
  | supplySample (x : Sensors) (parkOk : Bool) (shorePwr : Bool)
  /-- PROOF_TIMER (R473). -/
  | proofTimer
  /-- COOL_REQ_TIMER (R499). -/
  | coolReqTimer
  /-- UNCORRECTABLE_CODEWORD (R431). -/
  | uncorrectableCodeword (q : Fin 4) (seq : Nat)
  /-- ACK_COALESCE_TIMER (R431). -/
  | ackCoalesceTimer (q : Fin 4)
  /-- NARULTIL_PORT_DOWN (R457). -/
  | narultilPortDown (q : Fin 4)
  /-- PCIE_LINK_STATE_CHANGE (R318). -/
  | pcieLinkStateChange (link : Fin 6) (speed : Fin 6) (width : Fin 16)
  /-- PCIE_CONFIG_WRITE (R442). -/
  | pcieConfigWrite (w : CfgWrite)
  /-- PCIE_WAKE_TIMEOUT (R480). -/
  | pcieWakeTimeout
  /-- WAKE_PULSE_END (R473). -/
  | wakePulseEnd
  /-- ETH_PORT_LINK_CHANGE (R459). -/
  | ethPortLinkChange (p : Fin 2) (up : Bool)
  /-- DEPOT_LINK_CHANGE (R460). -/
  | depotLinkChange (up : Bool)
  /-- CAN_BUS_OFF (R445). -/
  | canBusOff (k : Fin 2)
  /-- BUS_OFF_RECOVERY (R445). -/
  | busOffRecovery (k : Fin 2)
  /-- DRAM_CHANNEL_FAILED (R252). -/
  | dramChannelFailed (ch : Fin 8)
  /-- SERVICE_IMAGE_BOOT (R464). -/
  | serviceImageBoot (image : List Byte)
  /-- OOS_SAFE_STATE_FRAME_TIMER (R466). -/
  | oosSafeStateFrameTimer
  /-- DEBUG_RESUME (R367). -/
  | debugResume (core : DebugTarget) (step : Bool)
  deriving DecidableEq, Repr

end Sys2Proof
end

