-- ==== Sys2Proof/Decode.lean ====
section
/-! DEFINITION. The command a word of the table spells: the table gives no row any bits (its rows are commands, not encodings). -/

namespace Sys2Proof

/-- No row of spec/opcode_table.json has bits, so no word spells a command. (DESIGN CHOICE: log 8) -/
def decodeTableWord (_nbits _w : Nat) : Option Instr := none

end Sys2Proof
end

