-- ==== Sys2Proof/Config.lean ====
section
/-! DEFINITION. What an implementation fixes, and the free values: constants without a body, so that no proof can see one. -/

namespace Sys2Proof.Config

/-- Data that the manual calls undefined, byte `i` of use number `n` (R235: the data of a colliding read). (DESIGN CHOICE: log 9) -/
opaque freeByte : Nat → Nat → Byte

/-- A number the manual does not fix, use number `n` (stall and busy cycle counts: no clock is modelled). (DESIGN CHOICE: log 9) -/
opaque freeNat : Nat → Nat

/-- Byte `i` of the Z1 instruction that carries the operands of the 16-byte M2 instruction `v`: the manual names the M2 instructions and
their treatment but not the places of their operands (R99). (DESIGN CHOICE: log 25) -/
opaque m2Byte : Nat → Nat → Byte

/-- Correction of a follower's strike interval, in 2^-32 ns, from the sum of its last 8 phase errors in 0.25 ns: the manual gives the loop the mean but
not its gain (R347). (DESIGN CHOICE: log 72) -/
opaque strikeRate : Int → Int

end Sys2Proof.Config
end

