-- ==== Sys2Proof/Machine/Bits.lean ====
section
/-! DEFINITION. Bit fields, byte order, saturating counters and the cyclic codes the manual names. -/

namespace Sys2Proof.Machine

/-- Field of `width` bits whose lowest bit is `lsb` (R11: bit 0 is the least significant). -/
def bits (v lsb width : Nat) : Nat := (v >>> lsb) % 2 ^ width

/-- `v` with that field replaced by the low bits of `x`. -/
def putBits (v lsb width x : Nat) : Nat :=
  v - (bits v lsb width <<< lsb) + ((x % 2 ^ width) <<< lsb)

/-- One bit as a Bool. -/
def bitAt (v i : Nat) : Bool := (v >>> i) % 2 == 1

/-- A Bool as the number it is stored as. -/
def ofBool (b : Bool) : Nat := if b then 1 else 0

/-- Two's complement reading of the low `w` bits. -/
def signed (w v : Nat) : Int :=
  let u := v % 2 ^ w
  if w = 0 then 0 else if u < 2 ^ (w - 1) then (u : Int) else (u : Int) - (2 ^ w : Nat)

/-- The low `w` bits of an integer (two's complement writing). -/
def unsign (w : Nat) (x : Int) : Nat := (x % ((2 ^ w : Nat) : Int)).toNat

/-- Addition into a counter that saturates at `cap`. -/
def satAdd (cap a b : Nat) : Nat := min cap (a + b)

/-- Quotient rounded up. -/
def ceilDiv (a b : Nat) : Nat := (a + b - 1) / b

/-- Nearest of a range. -/
def clampNat (lo hi v : Nat) : Nat := if v < lo then lo else if hi < v then hi else v

/-- Nearest of a signed range. -/
def clampInt (lo hi v : Int) : Int := if v < lo then lo else if hi < v then hi else v

/-- Little-endian value of a byte list (R11). -/
def leNat : List Byte → Nat
  | [] => 0
  | b :: bs => b.toNat + 256 * leNat bs

/-- `n` little-endian bytes of a value (R11). -/
def leBytes : Nat → Nat → List Byte
  | 0, _ => []
  | n + 1, v => BitVec.ofNat 8 v :: leBytes n (v / 256)

/-- Big-endian value of a byte list (network headers). -/
def beNat (bs : List Byte) : Nat := bs.foldl (fun a b => a * 256 + b.toNat) 0

/-- Big-endian bytes of a value. -/
def beBytes (n v : Nat) : List Byte := (leBytes n v).reverse

/-- Bytes `i` to `i + n - 1` of a list, zero past its end, as a little-endian number. -/
def fieldAt (bs : List Byte) (i n : Nat) : Nat := leNat ((bs.drop i).take n)

/-- Exactly `n` bytes: cut, or filled with zero. -/
def padTo (n : Nat) (bs : List Byte) : List Byte :=
  (bs.take n) ++ List.replicate (n - bs.length) 0

/-- True when every byte from `i` on, for `n` bytes, is zero. -/
def zeroAt (bs : List Byte) (i n : Nat) : Bool := ((bs.drop i).take n).all (· == 0)

/-- One step of a non-reflected CRC of width `w` over one byte. -/
def crcByte (w poly : Nat) (crc : Nat) (b : Byte) : Nat :=
  let start := crc ^^^ (b.toNat <<< (w - 8))
  (List.range 8).foldl (fun c _ =>
    if bitAt c (w - 1) then ((c <<< 1) ^^^ poly) % 2 ^ w else (c <<< 1) % 2 ^ w) start

/-- A non-reflected CRC with final XOR 0. -/
def crcPlain (w poly seed : Nat) (bs : List Byte) : Nat := bs.foldl (crcByte w poly) seed

/-- One step of a reflected CRC (`poly` bit-reversed). -/
def crcByteRefl (poly : Nat) (crc : Nat) (b : Byte) : Nat :=
  let start := crc ^^^ b.toNat
  (List.range 8).foldl (fun c _ => if c % 2 == 1 then (c >>> 1) ^^^ poly else c >>> 1) start

/-- A reflected CRC. -/
def crcRefl (poly seed xorOut : Nat) (bs : List Byte) : Nat :=
  (bs.foldl (crcByteRefl poly) seed) ^^^ xorOut

/-- CRC-64/ECMA-182 (R95). -/
def crc64Ecma (bs : List Byte) : Nat := crcPlain 64 0x42F0E1EBA9EA3693 0 bs

/-- CRC-16/CCITT-FALSE (R380). -/
def crc16Ccitt (bs : List Byte) : Nat := crcPlain 16 0x1021 0xFFFF bs

/-- IEEE 802.3 CRC-32. -/
def crc32 (bs : List Byte) : Nat := crcRefl 0xEDB88320 0xFFFFFFFF 0xFFFFFFFF bs

/-- Signed distance of serial comparison (R351). -/
def serialDiff (w a b : Nat) : Int := signed w (a + 2 ^ w - b % 2 ^ w)

end Sys2Proof.Machine
end

