-- ==== Sys2Proof/Machine/RegMap.lean ====
section
/-! DEFINITION. The register map (R13 to R19, R33, R37 to R39): every block, every register with its fields, access code, reset value and legal set. -/

namespace Sys2Proof.Machine

/-- Access codes of R14; `rsvd` is a RSVD or GROW field (R15). -/
inductive Access where
  | ro | rw | w1c | w1s | rc | wo | rwl | rsvd
  deriving DecidableEq, Repr

/-- Reset value of a field. `type`, `unit` and `unitMod2` depend on the block (R37, R39, R100); `ctx0 a b` is `a` in context 0 and
`b` in every other; `held` is a value taken from fuses, the image or the MRAM, which `State.reset` lists. -/
inductive ResetVal where
  | val (n : Nat) | type | unit | unitMod2 | ctx0 (a b : Nat) | codeMax | held
  deriving DecidableEq, Repr

/-- Legal sets that depend on the state (the rule of each is at `dynLegal`). -/
inductive DynLegal where
  | topSelected | pciWinLo | pciWinHi | chTail | rptHead | ctxEnable | ctxTeardown | cqCount | sqCq
  | hicEnable | hicKind | hicTarget | islandDbg | arm | hrtPairReq | tenBase | tenSize | depotW | pairReq | poolScrub
  deriving DecidableEq, Repr

/-- Legal set of a field (R17). -/
inductive Legal where
  | any
  | range (lo hi : Nat)
  | srange (below above : Nat)
  | evenRange (lo hi : Nat)
  | oneOf (vs : List Nat)
  | align (k : Nat)
  | mask (m : Nat)
  | dyn (k : DynLegal)
  deriving DecidableEq, Repr

/-- One field: lowest bit (within the 64-bit value for a pair, R16), width, access, reset, legal set. -/
structure FieldDesc where
  lsb : Nat
  width : Nat
  access : Access
  reset : ResetVal
  legal : Legal
  deriving DecidableEq, Repr

/-- One register, or the `_LO` of a pair (then the fields span both words), repeated at two strides. -/
structure RegDesc where
  off : Nat
  stride1 : Nat
  count1 : Nat
  stride2 : Nat
  count2 : Nat
  pair : Bool
  fields : List FieldDesc
  deriving DecidableEq, Repr

/-- Block prefixes of R37. -/
inductive Blk where

  | top
  | hrt
  | hic
  | tim
  | sfi
  | fcl
  | evr
  | blw
  | tng
  | mem
  | cru
  | fwl
  | nlk
  | pci
  | eth
  | dgt
  | anv
  | drw
  | vec
  | ppu
  | emb
  | snt
  | prc
  | snp
  deriving DecidableEq, Repr

/-- TYPE of a block's identity register (R37). -/
def Blk.type : Blk → Nat

  | .top => 0x01
  | .hrt => 0x02
  | .hic => 0x03
  | .tim => 0x04
  | .sfi => 0x05
  | .fcl => 0x06
  | .evr => 0x07
  | .blw => 0x08
  | .tng => 0x09
  | .mem => 0x0A
  | .cru => 0x0B
  | .fwl => 0x0C
  | .nlk => 0x0D
  | .pci => 0x0E
  | .eth => 0x0F
  | .dgt => 0x10
  | .anv => 0x11
  | .drw => 0x12
  | .vec => 0x13
  | .ppu => 0x14
  | .emb => 0x15
  | .snt => 0x16
  | .prc => 0x17
  | .snp => 0x18

/-- Data types a camera pipeline accepts (R270). -/
def camDataTypes : List Nat := [0x1E, 0x2A, 0x2B, 0x2C, 0x2D, 0x2E]

/-- Output formats of a camera pipeline (codes of R44). -/
def camOutputFormats : List Nat := [0x1, 0x2, 0x4, 0x5, 0x6]

/-- BLOCK_ID (R39). -/
def blockIdReg : RegDesc := ⟨0, 4, 1, 4, 1, false,
  [⟨24, 8, .ro, .val 1, .any⟩, ⟨20, 4, .rsvd, .val 0, .any⟩, ⟨16, 4, .ro, .val 0, .any⟩, ⟨8, 8, .ro, .type, .any⟩, ⟨0, 8, .ro, .unit, .any⟩]⟩

/-- Registers of the TOP_ block (R41, R481). -/
def topRegs : List RegDesc := [
  -- TOP_VERSION
  ⟨0x8, 0x4, 1, 0x4, 1, false, [
    ⟨24, 8, .rsvd, .val 0, .any⟩,
    ⟨16, 8, .rwl, .val 1, .dyn .topSelected⟩,
    ⟨8, 8, .ro, .val 1, .any⟩,
    ⟨0, 8, .ro, .val 1, .any⟩]⟩,
  -- TOP_IDENT
  ⟨0x10, 0x4, 1, 0x4, 1, false, [
    ⟨28, 4, .rsvd, .val 0, .any⟩,
    ⟨24, 4, .ro, .held, .any⟩,
    ⟨16, 8, .ro, .held, .any⟩,
    ⟨12, 4, .rsvd, .val 0, .any⟩,
    ⟨0, 12, .ro, .held, .any⟩]⟩,
  -- TOP_ANV_MASK_LO/_HI
  ⟨0x14, 0x4, 1, 0x4, 1, true, [
    ⟨32, 32, .ro, .held, .any⟩,
    ⟨0, 32, .ro, .held, .any⟩]⟩,
  -- TOP_LOCK
  ⟨0x20, 0x4, 1, 0x4, 1, false, [
    ⟨1, 31, .rsvd, .val 0, .any⟩,
    ⟨0, 1, .w1s, .val 0, .any⟩]⟩,
  -- TOP_RPT_DROP
  ⟨0x24, 0x4, 1, 0x4, 1, false, [
    ⟨16, 16, .rsvd, .val 0, .any⟩,
    ⟨0, 16, .rc, .val 0, .any⟩]⟩,
  -- TOP_BOOT
  ⟨0x30, 0x4, 1, 0x4, 1, false, [
    ⟨28, 4, .ro, .held, .any⟩,
    ⟨14, 14, .rsvd, .val 0, .any⟩,
    ⟨8, 6, .ro, .held, .any⟩,
    ⟨1, 7, .rsvd, .val 0, .any⟩,
    ⟨0, 1, .ro, .held, .any⟩]⟩,
  -- TOP_SEC
  ⟨0x34, 0x4, 1, 0x4, 1, false, [
    ⟨10, 22, .rsvd, .val 0, .any⟩,
    ⟨4, 6, .ro, .held, .any⟩,
    ⟨0, 4, .w1s, .held, .any⟩]⟩,
  -- TOP_IMG_SEQ
  ⟨0x38, 0x4, 1, 0x4, 1, false, [
    ⟨0, 32, .ro, .held, .any⟩]⟩
  ]

/-- Registers of the HRT_ block (R326). -/
def hrtRegs : List RegDesc := [
  -- HRT_CTL
  ⟨0x10, 0x4, 1, 0x4, 1, false, [
    ⟨28, 4, .rsvd, .val 0, .any⟩,
    ⟨1, 27, .rsvd, .val 0, .any⟩,
    ⟨0, 1, .rw, .val 0, .any⟩]⟩,
  -- HRT_EVT_STATUS
  ⟨0x18, 0x4, 1, 0x4, 1, false, [
    ⟨4, 28, .rsvd, .val 0, .any⟩,
    ⟨3, 1, .w1c, .val 0, .any⟩,
    ⟨2, 1, .w1c, .val 0, .any⟩,
    ⟨1, 1, .w1c, .val 0, .any⟩,
    ⟨0, 1, .w1c, .val 0, .any⟩]⟩,
  -- HRT_EVT_EN
  ⟨0x1C, 0x4, 1, 0x4, 1, false, [
    ⟨4, 28, .rsvd, .val 0, .any⟩,
    ⟨3, 1, .rw, .val 0, .any⟩,
    ⟨2, 1, .rw, .val 0, .any⟩,
    ⟨1, 1, .rw, .val 0, .any⟩,
    ⟨0, 1, .rw, .val 0, .any⟩]⟩,
  -- HRT_RPT_BASE_LO/_HI
  ⟨0x20, 0x4, 1, 0x4, 1, true, [
    ⟨40, 24, .rsvd, .val 0, .any⟩,
    ⟨32, 8, .rw, .val 0, .any⟩,
    ⟨0, 32, .rw, .val 0, .align 5⟩]⟩,
  -- HRT_RPT_CTL
  ⟨0x28, 0x4, 1, 0x4, 1, false, [
    ⟨9, 23, .rsvd, .val 0, .any⟩,
    ⟨8, 1, .rw, .val 0, .any⟩,
    ⟨5, 3, .rsvd, .val 0, .any⟩,
    ⟨0, 5, .rw, .val 4, .range 4 16⟩]⟩,
  -- HRT_RPT_IDX
  ⟨0x2C, 0x4, 1, 0x4, 1, false, [
    ⟨16, 16, .ro, .val 0, .any⟩,
    ⟨0, 16, .rw, .val 0, .dyn .rptHead⟩]⟩,
  -- HRT_CTX_CTL
  ⟨0x1000, 0x100, 16, 0x4, 1, false, [
    ⟨28, 4, .rsvd, .val 0, .any⟩,
    ⟨11, 17, .rsvd, .val 0, .any⟩,
    ⟨8, 3, .rw, .val 7, .any⟩,
    ⟨3, 5, .rsvd, .val 0, .any⟩,
    ⟨2, 1, .wo, .val 0, .any⟩,
    ⟨1, 1, .w1s, .val 0, .dyn .ctxTeardown⟩,
    ⟨0, 1, .rw, .ctx0 1 0, .dyn .ctxEnable⟩]⟩,
  -- HRT_CTX_STATUS
  ⟨0x1004, 0x100, 16, 0x4, 1, false, [
    ⟨16, 16, .ro, .val 1, .any⟩,
    ⟨13, 3, .rsvd, .val 0, .any⟩,
    ⟨4, 9, .ro, .val 0, .any⟩,
    ⟨2, 2, .rsvd, .val 0, .any⟩,
    ⟨0, 2, .ro, .ctx0 1 0, .any⟩]⟩,
  -- HRT_CTX_INFLIGHT
  ⟨0x1008, 0x100, 16, 0x4, 1, false, [
    ⟨16, 16, .rsvd, .val 0, .any⟩,
    ⟨0, 16, .ro, .val 0, .any⟩]⟩,
  -- HRT_CTX_ERR
  ⟨0x100C, 0x100, 16, 0x4, 1, false, [
    ⟨16, 16, .rc, .val 0, .any⟩,
    ⟨0, 16, .rc, .val 0, .any⟩]⟩,
  -- HRT_SQ_BASE_LO/_HI
  ⟨0x20000, 0x1000, 16, 0x40, 8, true, [
    ⟨40, 24, .rsvd, .val 0, .any⟩,
    ⟨32, 8, .rw, .val 0, .any⟩,
    ⟨0, 32, .rw, .val 0, .align 6⟩]⟩,
  -- HRT_SQ_CFG
  ⟨0x20008, 0x1000, 16, 0x40, 8, false, [
    ⟨28, 4, .rsvd, .val 0, .any⟩,
    ⟨12, 16, .rsvd, .val 0, .any⟩,
    ⟨11, 1, .rw, .val 0, .any⟩,
    ⟨8, 3, .rw, .val 0, .dyn .sqCq⟩,
    ⟨5, 3, .rsvd, .val 0, .any⟩,
    ⟨0, 5, .rw, .val 4, .range 4 16⟩]⟩,
  -- HRT_SQ_IDX
  ⟨0x2000C, 0x1000, 16, 0x40, 8, false, [
    ⟨16, 16, .ro, .val 0, .any⟩,
    ⟨0, 16, .ro, .val 0, .any⟩]⟩,
  -- HRT_CQ_BASE_LO/_HI
  ⟨0x20200, 0x1000, 16, 0x40, 8, true, [
    ⟨40, 24, .rsvd, .val 0, .any⟩,
    ⟨32, 8, .rw, .val 0, .any⟩,
    ⟨0, 32, .rw, .val 0, .align 5⟩]⟩,
  -- HRT_CQ_CFG
  ⟨0x20208, 0x1000, 16, 0x40, 8, false, [
    ⟨28, 4, .rsvd, .val 0, .any⟩,
    ⟨13, 15, .rsvd, .val 0, .any⟩,
    ⟨12, 1, .ro, .val 1, .any⟩,
    ⟨11, 1, .rw, .val 0, .any⟩,
    ⟨5, 6, .rsvd, .val 0, .any⟩,
    ⟨0, 5, .rw, .val 4, .range 4 16⟩]⟩,
  -- HRT_CQ_MOD
  ⟨0x2020C, 0x1000, 16, 0x40, 8, false, [
    ⟨16, 16, .rw, .val 0, .any⟩,
    ⟨0, 16, .rw, .val 1, .dyn .cqCount⟩]⟩,
  -- HRT_CQ_IDX
  ⟨0x20210, 0x1000, 16, 0x40, 8, false, [
    ⟨16, 16, .ro, .val 0, .any⟩,
    ⟨0, 16, .ro, .val 0, .any⟩]⟩
  ]

/-- Registers of the HIC_ block (R327). -/
def hicRegs : List RegDesc := [
  -- HIC_CTL
  ⟨0x10, 0x4, 1, 0x4, 1, false, [
    ⟨28, 4, .rsvd, .val 0, .any⟩,
    ⟨1, 27, .rsvd, .val 0, .any⟩,
    ⟨0, 1, .rw, .val 0, .any⟩]⟩,
  -- HIC_CLAIM
  ⟨0x100, 0x10, 8, 0x4, 1, false, [
    ⟨31, 1, .ro, .val 0, .any⟩,
    ⟨24, 7, .rsvd, .val 0, .any⟩,
    ⟨16, 8, .ro, .val 0, .any⟩,
    ⟨9, 7, .rsvd, .val 0, .any⟩,
    ⟨0, 9, .ro, .val 0, .any⟩]⟩,
  -- HIC_COMPLETE
  ⟨0x104, 0x10, 8, 0x4, 1, false, [
    ⟨9, 23, .rsvd, .val 0, .any⟩,
    ⟨0, 9, .wo, .val 0, .any⟩]⟩,
  -- HIC_THRESH
  ⟨0x108, 0x10, 8, 0x4, 1, false, [
    ⟨3, 29, .rsvd, .val 0, .any⟩,
    ⟨0, 3, .rw, .val 0, .any⟩]⟩,
  -- HIC_XCOMPLETE
  ⟨0x200, 0x4, 1, 0x4, 1, false, [
    ⟨9, 23, .rsvd, .val 0, .any⟩,
    ⟨0, 9, .wo, .val 0, .any⟩]⟩,
  -- HIC_SET
  ⟨0x204, 0x4, 1, 0x4, 1, false, [
    ⟨9, 23, .rsvd, .val 0, .any⟩,
    ⟨0, 9, .wo, .val 0, .any⟩]⟩,
  -- HIC_ERR
  ⟨0x208, 0x4, 1, 0x4, 1, false, [
    ⟨16, 16, .rsvd, .val 0, .any⟩,
    ⟨0, 16, .rc, .val 0, .any⟩]⟩,
  -- HIC_SRC_CFG
  ⟨0x1000, 0x4, 512, 0x4, 1, false, [
    ⟨28, 4, .rsvd, .val 0, .any⟩,
    ⟨16, 12, .rsvd, .val 0, .any⟩,
    ⟨15, 1, .rw, .val 0, .dyn .hicEnable⟩,
    ⟨12, 3, .rw, .val 0, .any⟩,
    ⟨10, 2, .rw, .val 0, .dyn .hicKind⟩,
    ⟨8, 2, .rsvd, .val 0, .any⟩,
    ⟨0, 8, .rw, .val 0, .dyn .hicTarget⟩]⟩,
  -- HIC_SRC_STATE
  ⟨0x2000, 0x4, 512, 0x4, 1, false, [
    ⟨10, 22, .rsvd, .val 0, .any⟩,
    ⟨9, 1, .ro, .val 0, .any⟩,
    ⟨8, 1, .ro, .val 0, .any⟩,
    ⟨0, 8, .ro, .val 0, .any⟩]⟩
  ]

/-- Registers of the TIM_ block (R354). -/
def timRegs : List RegDesc := [
  -- TIM_STRIKE_CTL
  ⟨0x10, 0x4, 1, 0x4, 1, false, [
    ⟨28, 4, .rsvd, .val 0, .any⟩,
    ⟨4, 24, .rsvd, .val 0, .any⟩,
    ⟨3, 1, .rw, .val 0, .any⟩,
    ⟨2, 1, .ro, .val 0, .any⟩,
    ⟨1, 1, .rw, .val 0, .any⟩,
    ⟨0, 1, .rw, .val 0, .any⟩]⟩,
  -- TIM_STRIKE_CFG
  ⟨0x14, 0x4, 1, 0x4, 1, false, [
    ⟨28, 4, .rsvd, .val 0, .any⟩,
    ⟨18, 10, .rsvd, .val 0, .any⟩,
    ⟨0, 18, .rw, .val 33333, .range 8000 200000⟩]⟩,
  -- TIM_STRIKE_PHASE
  ⟨0x18, 0x4, 1, 0x4, 1, false, [
    ⟨28, 4, .rsvd, .val 0, .any⟩,
    ⟨0, 28, .rw, .val 0, .range 0 199999999⟩]⟩,
  -- TIM_STRIKE_START
  ⟨0x1C, 0x4, 1, 0x4, 1, false, [
    ⟨0, 32, .rw, .val 0, .any⟩]⟩,
  -- TIM_STRIKE_NUM
  ⟨0x20, 0x4, 1, 0x4, 1, false, [
    ⟨0, 32, .ro, .val 0, .any⟩]⟩,
  -- TIM_STRIKE_TIME_LO/_HI
  ⟨0x24, 0x4, 1, 0x4, 1, true, [
    ⟨32, 32, .ro, .val 0, .any⟩,
    ⟨0, 32, .ro, .val 0, .any⟩]⟩,
  -- TIM_NOW_LO/_HI
  ⟨0x30, 0x4, 1, 0x4, 1, true, [
    ⟨32, 32, .ro, .val 0, .any⟩,
    ⟨0, 32, .ro, .val 0, .any⟩]⟩,
  -- TIM_NOW_FRAC
  ⟨0x38, 0x4, 1, 0x4, 1, false, [
    ⟨0, 32, .ro, .val 0, .any⟩]⟩,
  -- TIM_RATE
  ⟨0x40, 0x4, 1, 0x4, 1, false, [
    ⟨0, 32, .rw, .val 0, .srange 250000 250000⟩]⟩,
  -- TIM_GPTP_CTL
  ⟨0x50, 0x4, 1, 0x4, 1, false, [
    ⟨28, 4, .rsvd, .val 0, .any⟩,
    ⟨16, 12, .rsvd, .val 0, .any⟩,
    ⟨12, 4, .rw, .val 13, .srange 5 0⟩,
    ⟨8, 4, .rw, .val 3, .range 2 8⟩,
    ⟨6, 2, .rw, .val 0, .range 0 2⟩,
    ⟨4, 2, .rw, .val 0, .range 0 2⟩,
    ⟨3, 1, .rsvd, .val 0, .any⟩,
    ⟨2, 1, .rw, .val 0, .any⟩,
    ⟨1, 1, .w1s, .val 1, .any⟩,
    ⟨0, 1, .rw, .val 0, .any⟩]⟩,
  -- TIM_GPTP_STATUS
  ⟨0x54, 0x4, 1, 0x4, 1, false, [
    ⟨30, 2, .ro, .val 0, .any⟩,
    ⟨29, 1, .ro, .val 0, .any⟩,
    ⟨28, 1, .ro, .val 0, .any⟩,
    ⟨24, 4, .rsvd, .val 0, .any⟩,
    ⟨16, 8, .rc, .val 0, .any⟩,
    ⟨0, 16, .rsvd, .val 0, .any⟩]⟩,
  -- TIM_GPTP_OFFSET
  ⟨0x58, 0x4, 1, 0x4, 1, false, [
    ⟨0, 32, .ro, .val 0, .any⟩]⟩,
  -- TIM_PDELAY
  ⟨0x5C, 0x4, 1, 0x4, 1, false, [
    ⟨16, 16, .ro, .val 65535, .any⟩,
    ⟨0, 16, .ro, .val 65535, .any⟩]⟩,
  -- TIM_BAR_CTL
  ⟨0x70, 0x4, 1, 0x4, 1, false, [
    ⟨28, 4, .rsvd, .val 0, .any⟩,
    ⟨16, 12, .rw, .val 100, .range 1 1000⟩,
    ⟨6, 10, .rsvd, .val 0, .any⟩,
    ⟨4, 2, .rw, .val 0, .any⟩,
    ⟨2, 2, .rsvd, .val 0, .any⟩,
    ⟨0, 2, .rw, .val 0, .range 0 2⟩]⟩,
  -- TIM_BAR_STATUS
  ⟨0x74, 0x4, 1, 0x4, 1, false, [
    ⟨29, 3, .ro, .val 0, .any⟩,
    ⟨16, 13, .rsvd, .val 0, .any⟩,
    ⟨0, 16, .ro, .val 0, .any⟩]⟩,
  -- TIM_EVT_STATUS
  ⟨0x80, 0x4, 1, 0x4, 1, false, [
    ⟨10, 22, .rsvd, .val 0, .any⟩,
    ⟨9, 1, .w1c, .val 0, .any⟩,
    ⟨8, 1, .w1c, .val 0, .any⟩,
    ⟨7, 1, .w1c, .val 0, .any⟩,
    ⟨6, 1, .w1c, .val 0, .any⟩,
    ⟨5, 1, .w1c, .val 0, .any⟩,
    ⟨4, 1, .w1c, .val 0, .any⟩,
    ⟨3, 1, .w1c, .val 0, .any⟩,
    ⟨2, 1, .w1c, .val 0, .any⟩,
    ⟨1, 1, .w1c, .val 0, .any⟩,
    ⟨0, 1, .w1c, .val 0, .any⟩]⟩,
  -- TIM_EVT_EN
  ⟨0x84, 0x4, 1, 0x4, 1, false, [
    ⟨10, 22, .rsvd, .val 0, .any⟩,
    ⟨9, 1, .rw, .val 0, .any⟩,
    ⟨8, 1, .rw, .val 0, .any⟩,
    ⟨7, 1, .rw, .val 0, .any⟩,
    ⟨6, 1, .rw, .val 0, .any⟩,
    ⟨5, 1, .rw, .val 0, .any⟩,
    ⟨4, 1, .rw, .val 0, .any⟩,
    ⟨3, 1, .rw, .val 0, .any⟩,
    ⟨2, 1, .rw, .val 0, .any⟩,
    ⟨1, 1, .rw, .val 0, .any⟩,
    ⟨0, 1, .rw, .val 0, .any⟩]⟩,
  -- TIM_ERR
  ⟨0x88, 0x4, 1, 0x4, 1, false, [
    ⟨16, 16, .rc, .val 0, .any⟩,
    ⟨8, 8, .rc, .val 0, .any⟩,
    ⟨0, 8, .rc, .val 0, .any⟩]⟩,
  -- TIM_ST_OFFSET
  ⟨0x10000, 0x1000, 2, 0x20, 128, false, [
    ⟨28, 4, .rsvd, .val 0, .any⟩,
    ⟨0, 28, .rw, .val 0, .range 0 199999999⟩]⟩,
  -- TIM_ST_CTRL
  ⟨0x10004, 0x1000, 2, 0x20, 128, false, [
    ⟨31, 1, .rw, .val 0, .any⟩,
    ⟨28, 3, .rsvd, .val 0, .any⟩,
    ⟨8, 20, .rsvd, .val 0, .any⟩,
    ⟨0, 8, .rw, .val 0, .any⟩]⟩,
  -- TIM_ST_MASK0
  ⟨0x10008, 0x1000, 2, 0x20, 128, false, [
    ⟨0, 32, .rw, .val 0, .any⟩]⟩,
  -- TIM_ST_MASK1
  ⟨0x1000C, 0x1000, 2, 0x20, 128, false, [
    ⟨0, 32, .rw, .val 0, .any⟩]⟩,
  -- TIM_ST_MASK2
  ⟨0x10010, 0x1000, 2, 0x20, 128, false, [
    ⟨14, 18, .rsvd, .val 0, .any⟩,
    ⟨12, 2, .rw, .val 0, .any⟩,
    ⟨4, 8, .rw, .val 0, .any⟩,
    ⟨0, 4, .rw, .val 0, .any⟩]⟩
  ]

/-- Registers of the SFI_ block (R395). -/
def sfiRegs : List RegDesc := [
  -- SFI_CTL
  ⟨0x10, 0x4, 1, 0x4, 1, false, [
    ⟨28, 4, .rsvd, .val 0, .any⟩,
    ⟨9, 19, .rsvd, .val 0, .any⟩,
    ⟨8, 1, .rwl, .val 0, .dyn .islandDbg⟩,
    ⟨6, 2, .rsvd, .val 0, .any⟩,
    ⟨4, 2, .rwl, .val 2, .range 0 2⟩,
    ⟨1, 3, .rsvd, .val 0, .any⟩,
    ⟨0, 1, .w1s, .val 0, .dyn .arm⟩]⟩,
  -- SFI_STATUS
  ⟨0x14, 0x4, 1, 0x4, 1, false, [
    ⟨30, 2, .ro, .val 0, .any⟩,
    ⟨29, 1, .ro, .val 0, .any⟩,
    ⟨28, 1, .ro, .val 0, .any⟩,
    ⟨27, 1, .ro, .val 0, .any⟩,
    ⟨20, 7, .rsvd, .val 0, .any⟩,
    ⟨16, 4, .ro, .val 0, .any⟩,
    ⟨6, 10, .rsvd, .val 0, .any⟩,
    ⟨0, 6, .ro, .val 0, .any⟩]⟩,
  -- SFI_QUENCH_TIME_LO/_HI
  ⟨0x18, 0x4, 1, 0x4, 1, true, [
    ⟨32, 32, .ro, .val 0, .any⟩,
    ⟨0, 32, .ro, .val 0, .any⟩]⟩,
  -- SFI_QUENCH_STRIKE
  ⟨0x20, 0x4, 1, 0x4, 1, false, [
    ⟨0, 32, .ro, .val 0, .any⟩]⟩,
  -- SFI_CMP_CTL
  ⟨0x30, 0x4, 1, 0x4, 1, false, [
    ⟨28, 4, .rsvd, .val 0, .any⟩,
    ⟨14, 14, .rsvd, .val 0, .any⟩,
    ⟨8, 6, .rw, .val 0, .range 0 38⟩,
    ⟨3, 5, .rsvd, .val 0, .any⟩,
    ⟨2, 1, .wo, .val 0, .any⟩,
    ⟨1, 1, .rwl, .val 1, .any⟩,
    ⟨0, 1, .wo, .val 0, .any⟩]⟩,
  -- SFI_CMP_STATUS
  ⟨0x34, 0x4, 1, 0x4, 1, false, [
    ⟨24, 8, .rc, .val 0, .any⟩,
    ⟨16, 8, .rc, .val 0, .any⟩,
    ⟨10, 6, .ro, .val 0, .any⟩,
    ⟨9, 1, .ro, .val 0, .any⟩,
    ⟨8, 1, .w1c, .val 0, .any⟩,
    ⟨7, 1, .ro, .val 0, .any⟩,
    ⟨0, 7, .rsvd, .val 0, .any⟩]⟩,
  -- SFI_HRT_PAIR
  ⟨0x40, 0x4, 1, 0x4, 1, false, [
    ⟨12, 20, .rsvd, .val 0, .any⟩,
    ⟨8, 4, .ro, .val 15, .any⟩,
    ⟨4, 4, .rsvd, .val 0, .any⟩,
    ⟨0, 4, .rw, .val 15, .dyn .hrtPairReq⟩]⟩,
  -- SFI_HRT_CMP
  ⟨0x44, 0x4, 1, 0x4, 1, false, [
    ⟨16, 16, .rc, .val 0, .any⟩,
    ⟨3, 13, .rsvd, .val 0, .any⟩,
    ⟨2, 1, .ro, .val 0, .any⟩,
    ⟨0, 2, .ro, .val 0, .any⟩]⟩,
  -- SFI_AGE_STATUS
  ⟨0x50, 0x4, 1, 0x4, 1, false, [
    ⟨16, 16, .rc, .val 0, .any⟩,
    ⟨8, 8, .ro, .val 0, .any⟩,
    ⟨0, 8, .rc, .val 0, .any⟩]⟩,
  -- SFI_AGE_LAST
  ⟨0x54, 0x4, 1, 0x4, 1, false, [
    ⟨0, 32, .ro, .val 0, .any⟩]⟩,
  -- SFI_WIN_STATUS
  ⟨0x58, 0x4, 1, 0x4, 1, false, [
    ⟨16, 16, .rc, .val 0, .any⟩,
    ⟨8, 8, .rc, .val 0, .any⟩,
    ⟨0, 8, .rc, .val 0, .any⟩]⟩,
  -- SFI_WIN_LAST
  ⟨0x5C, 0x4, 1, 0x4, 1, false, [
    ⟨23, 9, .rsvd, .val 0, .any⟩,
    ⟨16, 7, .ro, .val 0, .any⟩,
    ⟨13, 3, .rsvd, .val 0, .any⟩,
    ⟨8, 5, .ro, .val 0, .any⟩,
    ⟨2, 6, .rsvd, .val 0, .any⟩,
    ⟨0, 2, .ro, .val 0, .any⟩]⟩,
  -- SFI_EVT_STATUS
  ⟨0x60, 0x4, 1, 0x4, 1, false, [
    ⟨8, 24, .rsvd, .val 0, .any⟩,
    ⟨7, 1, .w1c, .val 0, .any⟩,
    ⟨6, 1, .w1c, .val 0, .any⟩,
    ⟨5, 1, .w1c, .val 0, .any⟩,
    ⟨4, 1, .w1c, .val 0, .any⟩,
    ⟨3, 1, .w1c, .val 0, .any⟩,
    ⟨2, 1, .w1c, .val 0, .any⟩,
    ⟨1, 1, .w1c, .val 0, .any⟩,
    ⟨0, 1, .w1c, .val 0, .any⟩]⟩,
  -- SFI_EVT_EN
  ⟨0x64, 0x4, 1, 0x4, 1, false, [
    ⟨8, 24, .rsvd, .val 0, .any⟩,
    ⟨7, 1, .rw, .val 0, .any⟩,
    ⟨6, 1, .rw, .val 0, .any⟩,
    ⟨5, 1, .rw, .val 0, .any⟩,
    ⟨4, 1, .rw, .val 0, .any⟩,
    ⟨3, 1, .rw, .val 0, .any⟩,
    ⟨2, 1, .rw, .val 0, .any⟩,
    ⟨1, 1, .rw, .val 0, .any⟩,
    ⟨0, 1, .rw, .val 0, .any⟩]⟩,
  -- SFI_CAN_CFG
  ⟨0x70, 0x4, 1, 0x4, 1, false, [
    ⟨31, 1, .rwl, .val 0, .any⟩,
    ⟨29, 2, .rsvd, .val 0, .any⟩,
    ⟨0, 29, .rwl, .val 0, .any⟩]⟩,
  -- SFI_CAN_STATUS
  ⟨0x74, 0x4, 1, 0x4, 1, false, [
    ⟨16, 16, .rc, .val 0, .any⟩,
    ⟨0, 16, .ro, .val 0, .any⟩]⟩,
  -- SFI_WIN_OPEN
  ⟨0x1000, 0x20, 32, 0x4, 1, false, [
    ⟨28, 4, .rsvd, .val 0, .any⟩,
    ⟨0, 28, .rw, .val 0, .range 0 199999999⟩]⟩,
  -- SFI_WIN_CLOSE
  ⟨0x1004, 0x20, 32, 0x4, 1, false, [
    ⟨28, 4, .rsvd, .val 0, .any⟩,
    ⟨0, 28, .rw, .val 0, .range 0 199999999⟩]⟩,
  -- SFI_WIN_CTRL
  ⟨0x1008, 0x20, 32, 0x4, 1, false, [
    ⟨31, 1, .rw, .val 0, .any⟩,
    ⟨30, 1, .rw, .val 0, .any⟩,
    ⟨28, 2, .rsvd, .val 0, .any⟩,
    ⟨0, 28, .rw, .val 0, .range 0 199999999⟩]⟩,
  -- SFI_WIN_MASK0
  ⟨0x100C, 0x20, 32, 0x4, 1, false, [
    ⟨0, 32, .rw, .val 0, .any⟩]⟩,
  -- SFI_WIN_MASK1
  ⟨0x1010, 0x20, 32, 0x4, 1, false, [
    ⟨0, 32, .rw, .val 0, .any⟩]⟩,
  -- SFI_WIN_MASK2
  ⟨0x1014, 0x20, 32, 0x4, 1, false, [
    ⟨14, 18, .rsvd, .val 0, .any⟩,
    ⟨12, 2, .rw, .val 0, .any⟩,
    ⟨4, 8, .rw, .val 0, .any⟩,
    ⟨0, 4, .rw, .val 0, .any⟩]⟩,
  -- SFI_AGE_MASK
  ⟨0x2000, 0x8, 256, 0x4, 1, false, [
    ⟨24, 8, .rsvd, .val 0, .any⟩,
    ⟨0, 24, .rw, .val 0, .any⟩]⟩,
  -- SFI_AGE_LIMIT
  ⟨0x2004, 0x8, 256, 0x4, 1, false, [
    ⟨19, 13, .rsvd, .val 0, .any⟩,
    ⟨0, 19, .rw, .val 45000, .range 1000 400000⟩]⟩
  ]

/-- Registers of the FCL_ block (R426). -/
def fclRegs : List RegDesc := [
  -- FCL_FIRST
  ⟨0x10, 0x4, 1, 0x4, 1, false, [
    ⟨31, 1, .ro, .val 0, .any⟩,
    ⟨30, 1, .ro, .val 0, .any⟩,
    ⟨28, 2, .ro, .val 0, .any⟩,
    ⟨24, 4, .ro, .val 0, .any⟩,
    ⟨16, 8, .rsvd, .val 0, .any⟩,
    ⟨0, 16, .ro, .val 0, .any⟩]⟩,
  -- FCL_FIRST_TIME_LO/_HI
  ⟨0x14, 0x4, 1, 0x4, 1, true, [
    ⟨32, 32, .ro, .val 0, .any⟩,
    ⟨0, 32, .ro, .val 0, .any⟩]⟩,
  -- FCL_FIRST_STRIKE
  ⟨0x1C, 0x4, 1, 0x4, 1, false, [
    ⟨0, 32, .ro, .val 0, .any⟩]⟩,
  -- FCL_CLEAR
  ⟨0x20, 0x4, 1, 0x4, 1, false, [
    ⟨1, 31, .rsvd, .val 0, .any⟩,
    ⟨0, 1, .wo, .val 0, .any⟩]⟩,
  -- FCL_CNT
  ⟨0x24, 0x4, 1, 0x4, 1, false, [
    ⟨16, 16, .rc, .val 0, .any⟩,
    ⟨8, 8, .rc, .val 0, .any⟩,
    ⟨0, 8, .rc, .val 0, .any⟩]⟩,
  -- FCL_LOG_CURSOR
  ⟨0x30, 0x4, 1, 0x4, 1, false, [
    ⟨18, 14, .rw, .val 0, .any⟩,
    ⟨4, 14, .rsvd, .val 0, .any⟩,
    ⟨0, 4, .rw, .val 0, .any⟩]⟩,
  -- FCL_LOG_WINDOW
  ⟨0x34, 0x4, 1, 0x4, 1, false, [
    ⟨0, 32, .ro, .val 0, .any⟩]⟩,
  -- FCL_LOG_IDX
  ⟨0x38, 0x4, 1, 0x4, 1, false, [
    ⟨30, 2, .rsvd, .val 0, .any⟩,
    ⟨16, 14, .ro, .val 0, .any⟩,
    ⟨0, 16, .rc, .val 0, .any⟩]⟩,
  -- FCL_RECOVER
  ⟨0x40, 0x4, 1, 0x4, 1, false, [
    ⟨28, 4, .rsvd, .val 0, .any⟩,
    ⟨16, 12, .rwl, .val 600, .range 60 3600⟩,
    ⟨15, 1, .rsvd, .val 0, .any⟩,
    ⟨12, 3, .rwl, .val 3, .range 1 7⟩,
    ⟨8, 4, .rwl, .val 2, .range 1 15⟩,
    ⟨1, 7, .rsvd, .val 0, .any⟩,
    ⟨0, 1, .rwl, .val 1, .any⟩]⟩,
  -- FCL_RESET_HIST
  ⟨0x44, 0x4, 1, 0x4, 1, false, [
    ⟨11, 21, .rsvd, .val 0, .any⟩,
    ⟨8, 3, .ro, .val 0, .any⟩,
    ⟨0, 8, .ro, .val 0, .any⟩]⟩,
  -- FCL_HANG_KICK
  ⟨0x50, 0x4, 1, 0x4, 1, false, [
    ⟨8, 24, .rsvd, .val 0, .any⟩,
    ⟨0, 8, .wo, .val 0, .any⟩]⟩,
  -- FCL_HANG_CFG
  ⟨0x54, 0x4, 1, 0x4, 1, false, [
    ⟨4, 28, .rsvd, .val 0, .any⟩,
    ⟨0, 4, .rwl, .val 2, .range 1 8⟩]⟩,
  -- FCL_HANG_STATUS
  ⟨0x58, 0x4, 1, 0x4, 1, false, [
    ⟨8, 24, .rsvd, .val 0, .any⟩,
    ⟨0, 8, .w1c, .val 0, .any⟩]⟩,
  -- FCL_FENCE_LIST0
  ⟨0x60, 0x4, 1, 0x4, 1, false, [
    ⟨0, 32, .w1s, .val 0, .any⟩]⟩,
  -- FCL_FENCE_LIST1
  ⟨0x64, 0x4, 1, 0x4, 1, false, [
    ⟨0, 32, .w1s, .val 0, .any⟩]⟩,
  -- FCL_FENCE_LIST2
  ⟨0x68, 0x4, 1, 0x4, 1, false, [
    ⟨14, 18, .rsvd, .val 0, .any⟩,
    ⟨12, 2, .w1s, .val 0, .any⟩,
    ⟨4, 8, .w1s, .val 0, .any⟩,
    ⟨0, 4, .w1s, .val 0, .any⟩]⟩,
  -- FCL_FENCE_LIST3
  ⟨0x6C, 0x4, 1, 0x4, 1, false, [
    ⟨24, 8, .w1s, .val 0, .any⟩,
    ⟨16, 8, .w1s, .val 0, .any⟩,
    ⟨0, 16, .w1s, .val 0, .any⟩]⟩,
  -- FCL_FENCE_NOW0
  ⟨0x70, 0x4, 1, 0x4, 1, false, [
    ⟨0, 32, .ro, .val 0, .any⟩]⟩,
  -- FCL_FENCE_NOW1
  ⟨0x74, 0x4, 1, 0x4, 1, false, [
    ⟨0, 32, .ro, .val 0, .any⟩]⟩,
  -- FCL_FENCE_NOW2
  ⟨0x78, 0x4, 1, 0x4, 1, false, [
    ⟨14, 18, .rsvd, .val 0, .any⟩,
    ⟨12, 2, .ro, .val 0, .any⟩,
    ⟨4, 8, .ro, .val 0, .any⟩,
    ⟨0, 4, .ro, .val 0, .any⟩]⟩,
  -- FCL_FENCE_NOW3
  ⟨0x7C, 0x4, 1, 0x4, 1, false, [
    ⟨24, 8, .ro, .val 0, .any⟩,
    ⟨16, 8, .ro, .val 0, .any⟩,
    ⟨0, 16, .ro, .val 0, .any⟩]⟩,
  -- FCL_INJECT
  ⟨0x80, 0x4, 1, 0x4, 1, false, [
    ⟨30, 2, .wo, .val 0, .any⟩,
    ⟨20, 10, .rsvd, .val 0, .any⟩,
    ⟨16, 4, .wo, .val 0, .any⟩,
    ⟨8, 8, .rsvd, .val 0, .any⟩,
    ⟨0, 8, .wo, .val 0, .any⟩]⟩,
  -- FCL_EVT_STATUS
  ⟨0x90, 0x4, 1, 0x4, 1, false, [
    ⟨7, 25, .rsvd, .val 0, .any⟩,
    ⟨6, 1, .w1c, .val 0, .any⟩,
    ⟨5, 1, .w1c, .val 0, .any⟩,
    ⟨4, 1, .w1c, .val 0, .any⟩,
    ⟨3, 1, .w1c, .val 0, .any⟩,
    ⟨2, 1, .w1c, .val 0, .any⟩,
    ⟨1, 1, .w1c, .val 0, .any⟩,
    ⟨0, 1, .w1c, .val 0, .any⟩]⟩,
  -- FCL_EVT_EN
  ⟨0x94, 0x4, 1, 0x4, 1, false, [
    ⟨7, 25, .rsvd, .val 0, .any⟩,
    ⟨6, 1, .rw, .val 0, .any⟩,
    ⟨5, 1, .rw, .val 0, .any⟩,
    ⟨4, 1, .rw, .val 0, .any⟩,
    ⟨3, 1, .rw, .val 0, .any⟩,
    ⟨2, 1, .rw, .val 0, .any⟩,
    ⟨1, 1, .rw, .val 0, .any⟩,
    ⟨0, 1, .rw, .val 0, .any⟩]⟩,
  -- FCL_FENCE_CLR0
  ⟨0xA0, 0x4, 1, 0x4, 1, false, [
    ⟨0, 32, .wo, .val 0, .any⟩]⟩,
  -- FCL_FENCE_CLR1
  ⟨0xA4, 0x4, 1, 0x4, 1, false, [
    ⟨0, 32, .wo, .val 0, .any⟩]⟩,
  -- FCL_FENCE_CLR2
  ⟨0xA8, 0x4, 1, 0x4, 1, false, [
    ⟨14, 18, .rsvd, .val 0, .any⟩,
    ⟨12, 2, .wo, .val 0, .any⟩,
    ⟨4, 8, .wo, .val 0, .any⟩,
    ⟨0, 4, .wo, .val 0, .any⟩]⟩,
  -- FCL_FENCE_CLR3
  ⟨0xAC, 0x4, 1, 0x4, 1, false, [
    ⟨24, 8, .wo, .val 0, .any⟩,
    ⟨16, 8, .wo, .val 0, .any⟩,
    ⟨0, 16, .wo, .val 0, .any⟩]⟩,
  -- FCL_CTX_N
  ⟨0x100, 0x4, 16, 0x4, 1, false, [
    ⟨31, 1, .w1c, .val 0, .any⟩,
    ⟨30, 1, .ro, .val 0, .any⟩,
    ⟨16, 14, .rc, .val 0, .any⟩,
    ⟨0, 16, .ro, .val 0, .any⟩]⟩
  ]

/-- Registers of the EVR_ block (R427). -/
def evrRegs : List RegDesc := [
  -- EVR_CTL
  ⟨0x10, 0x4, 1, 0x4, 1, false, [
    ⟨10, 22, .rsvd, .val 0, .any⟩,
    ⟨9, 1, .wo, .val 0, .any⟩,
    ⟨8, 1, .wo, .val 0, .any⟩,
    ⟨1, 7, .rsvd, .val 0, .any⟩,
    ⟨0, 1, .rwl, .val 1, .any⟩]⟩,
  -- EVR_CURSOR
  ⟨0x14, 0x4, 1, 0x4, 1, false, [
    ⟨13, 19, .rsvd, .val 0, .any⟩,
    ⟨6, 7, .rw, .val 0, .range 0 15⟩,
    ⟨0, 6, .rw, .val 0, .any⟩]⟩,
  -- EVR_WINDOW
  ⟨0x18, 0x4, 1, 0x4, 1, false, [
    ⟨0, 32, .ro, .val 0, .any⟩]⟩,
  -- EVR_INFO
  ⟨0x1C, 0x4, 1, 0x4, 1, false, [
    ⟨16, 16, .ro, .val 16, .any⟩,
    ⟨0, 16, .ro, .val 0, .any⟩]⟩,
  -- EVR_HOURS
  ⟨0x20, 0x4, 1, 0x4, 1, false, [
    ⟨0, 32, .ro, .held, .any⟩]⟩,
  -- EVR_PCYCLES
  ⟨0x24, 0x4, 1, 0x4, 1, false, [
    ⟨0, 32, .ro, .held, .any⟩]⟩
  ]

/-- Registers of the BLW_ block (R269, R294). -/
def blwRegs : List RegDesc := [
  -- BLW_CTL
  ⟨0x10, 0x4, 1, 0x4, 1, false, [
    ⟨28, 4, .rsvd, .val 0, .any⟩,
    ⟨1, 27, .rsvd, .val 0, .any⟩,
    ⟨0, 1, .rw, .val 0, .any⟩]⟩,
  -- BLW_STALE
  ⟨0x14, 0x4, 1, 0x4, 1, false, [
    ⟨19, 13, .rsvd, .val 0, .any⟩,
    ⟨0, 19, .rw, .val 40000, .range 1000 400000⟩]⟩,
  -- BLW_FTAB_LO/_HI
  ⟨0x18, 0x4, 1, 0x4, 1, true, [
    ⟨40, 24, .rsvd, .val 0, .any⟩,
    ⟨32, 8, .rw, .val 0, .any⟩,
    ⟨0, 32, .rw, .val 0, .align 11⟩]⟩,
  -- BLW_GOLD_CTL
  ⟨0x20, 0x4, 1, 0x4, 1, false, [
    ⟨2, 30, .rsvd, .val 0, .any⟩,
    ⟨1, 1, .w1c, .val 0, .any⟩,
    ⟨0, 1, .rwl, .val 0, .any⟩]⟩,
  -- BLW_GOLD_LO/_HI
  ⟨0x24, 0x4, 1, 0x4, 1, true, [
    ⟨40, 24, .rsvd, .val 0, .any⟩,
    ⟨32, 8, .rwl, .val 0, .any⟩,
    ⟨0, 32, .rwl, .val 0, .align 5⟩]⟩,
  -- BLW_EVT_STATUS
  ⟨0x30, 0x4, 1, 0x4, 1, false, [
    ⟨3, 29, .rsvd, .val 0, .any⟩,
    ⟨2, 1, .w1c, .val 0, .any⟩,
    ⟨1, 1, .w1c, .val 0, .any⟩,
    ⟨0, 1, .w1c, .val 0, .any⟩]⟩,
  -- BLW_EVT_EN
  ⟨0x34, 0x4, 1, 0x4, 1, false, [
    ⟨3, 29, .rsvd, .val 0, .any⟩,
    ⟨2, 1, .rw, .val 0, .any⟩,
    ⟨1, 1, .rw, .val 0, .any⟩,
    ⟨0, 1, .rw, .val 0, .any⟩]⟩,
  -- BLW_CAM_CTL
  ⟨0x1000, 0x100, 16, 0x4, 1, false, [
    ⟨28, 4, .rsvd, .val 0, .any⟩,
    ⟨13, 15, .rsvd, .val 0, .any⟩,
    ⟨12, 1, .w1s, .val 0, .any⟩,
    ⟨11, 1, .rsvd, .val 0, .any⟩,
    ⟨8, 3, .rw, .val 3, .range 3 4⟩,
    ⟨4, 4, .rw, .val 0, .any⟩,
    ⟨2, 2, .rw, .val 2, .range 0 2⟩,
    ⟨1, 1, .rsvd, .val 0, .any⟩,
    ⟨0, 1, .rw, .val 0, .any⟩]⟩,
  -- BLW_CAM_FMT
  ⟨0x1004, 0x100, 16, 0x4, 1, false, [
    ⟨26, 6, .rw, .val 44, .oneOf camDataTypes⟩,
    ⟨24, 2, .rw, .val 0, .any⟩,
    ⟨23, 1, .rw, .val 0, .any⟩,
    ⟨22, 1, .rw, .val 0, .any⟩,
    ⟨21, 1, .rw, .val 0, .any⟩,
    ⟨17, 4, .rw, .val 4, .oneOf camOutputFormats⟩,
    ⟨0, 17, .rsvd, .val 0, .any⟩]⟩,
  -- BLW_CAM_SIZE
  ⟨0x1008, 0x100, 16, 0x4, 1, false, [
    ⟨16, 16, .rw, .val 16, .range 16 4096⟩,
    ⟨0, 16, .rw, .val 16, .evenRange 16 4096⟩]⟩,
  -- BLW_CAM_PARAM_LO/_HI
  ⟨0x100C, 0x100, 16, 0x4, 1, true, [
    ⟨40, 24, .rsvd, .val 0, .any⟩,
    ⟨32, 8, .rw, .val 0, .any⟩,
    ⟨0, 32, .rw, .val 0, .align 5⟩]⟩,
  -- BLW_CAM_OUT_LO/_HI
  ⟨0x1014, 0x100, 16, 0x4, 1, true, [
    ⟨40, 24, .rsvd, .val 0, .any⟩,
    ⟨32, 8, .rw, .val 0, .any⟩,
    ⟨0, 32, .rw, .val 0, .align 5⟩]⟩,
  -- BLW_CAM_TS_ADJ
  ⟨0x101C, 0x100, 16, 0x4, 1, false, [
    ⟨0, 32, .rw, .val 0, .srange 10000000 10000000⟩]⟩,
  -- BLW_CAM_STATUS
  ⟨0x1020, 0x100, 16, 0x4, 1, false, [
    ⟨16, 16, .ro, .val 0, .any⟩,
    ⟨13, 3, .rsvd, .val 0, .any⟩,
    ⟨12, 1, .ro, .val 0, .any⟩,
    ⟨8, 4, .ro, .val 15, .any⟩,
    ⟨4, 4, .ro, .val 15, .any⟩,
    ⟨2, 2, .ro, .val 0, .any⟩,
    ⟨0, 2, .rsvd, .val 0, .any⟩]⟩,
  -- BLW_CAM_ERR
  ⟨0x1024, 0x100, 16, 0x4, 1, false, [
    ⟨24, 8, .rc, .val 0, .any⟩,
    ⟨16, 8, .rc, .val 0, .any⟩,
    ⟨8, 8, .rc, .val 0, .any⟩,
    ⟨0, 8, .rc, .val 0, .any⟩]⟩,
  -- BLW_CAM_DROP
  ⟨0x1028, 0x100, 16, 0x4, 1, false, [
    ⟨16, 16, .rc, .val 0, .any⟩,
    ⟨0, 16, .rc, .val 0, .any⟩]⟩,
  -- BLW_CAM_EVT
  ⟨0x102C, 0x100, 16, 0x4, 1, false, [
    ⟨20, 12, .rsvd, .val 0, .any⟩,
    ⟨16, 4, .rw, .val 0, .any⟩,
    ⟨4, 12, .rsvd, .val 0, .any⟩,
    ⟨3, 1, .w1c, .val 0, .any⟩,
    ⟨2, 1, .w1c, .val 0, .any⟩,
    ⟨1, 1, .w1c, .val 0, .any⟩,
    ⟨0, 1, .w1c, .val 0, .any⟩]⟩,
  -- BLW_PT_CTL
  ⟨0x2000, 0x100, 8, 0x4, 1, false, [
    ⟨28, 4, .rsvd, .val 0, .any⟩,
    ⟨13, 15, .rsvd, .val 0, .any⟩,
    ⟨12, 1, .w1s, .val 0, .any⟩,
    ⟨11, 1, .rw, .val 0, .any⟩,
    ⟨8, 3, .rw, .val 3, .range 3 4⟩,
    ⟨5, 3, .rsvd, .val 0, .any⟩,
    ⟨4, 1, .rw, .val 0, .any⟩,
    ⟨1, 3, .rsvd, .val 0, .any⟩,
    ⟨0, 1, .rw, .val 0, .any⟩]⟩,
  -- BLW_PT_TMPL_LO/_HI
  ⟨0x2004, 0x100, 8, 0x4, 1, true, [
    ⟨40, 24, .rsvd, .val 0, .any⟩,
    ⟨32, 8, .rw, .val 0, .any⟩,
    ⟨0, 32, .rw, .val 0, .align 5⟩]⟩,
  -- BLW_PT_BUF_LO/_HI
  ⟨0x200C, 0x100, 8, 0x4, 1, true, [
    ⟨40, 24, .rsvd, .val 0, .any⟩,
    ⟨32, 8, .rw, .val 0, .any⟩,
    ⟨0, 32, .rw, .val 0, .align 5⟩]⟩,
  -- BLW_PT_STATUS
  ⟨0x2014, 0x100, 8, 0x4, 1, false, [
    ⟨17, 15, .rc, .val 0, .any⟩,
    ⟨16, 1, .ro, .val 0, .any⟩,
    ⟨0, 16, .rc, .val 0, .any⟩]⟩,
  -- BLW_PT_EVT
  ⟨0x2018, 0x100, 8, 0x4, 1, false, [
    ⟨20, 12, .rsvd, .val 0, .any⟩,
    ⟨16, 4, .rw, .val 0, .any⟩,
    ⟨4, 12, .rsvd, .val 0, .any⟩,
    ⟨3, 1, .w1c, .val 0, .any⟩,
    ⟨2, 1, .w1c, .val 0, .any⟩,
    ⟨1, 1, .w1c, .val 0, .any⟩,
    ⟨0, 1, .w1c, .val 0, .any⟩]⟩,
  -- BLW_REC_CTL
  ⟨0x3000, 0x100, 4, 0x4, 1, false, [
    ⟨28, 4, .rsvd, .val 0, .any⟩,
    ⟨10, 18, .rsvd, .val 0, .any⟩,
    ⟨8, 2, .rw, .val 0, .any⟩,
    ⟨2, 6, .rsvd, .val 0, .any⟩,
    ⟨1, 1, .w1s, .val 0, .any⟩,
    ⟨0, 1, .rw, .val 0, .any⟩]⟩,
  -- BLW_REC_CTX
  ⟨0x3004, 0x100, 4, 0x4, 1, false, [
    ⟨16, 16, .ro, .val 1, .any⟩,
    ⟨4, 12, .rsvd, .val 0, .any⟩,
    ⟨0, 4, .rw, .val 0, .any⟩]⟩,
  -- BLW_REC_RING_LO/_HI
  ⟨0x3008, 0x100, 4, 0x4, 1, true, [
    ⟨40, 24, .rsvd, .val 0, .any⟩,
    ⟨32, 8, .rw, .val 0, .any⟩,
    ⟨0, 32, .rw, .val 0, .align 6⟩]⟩,
  -- BLW_REC_RING_SIZE
  ⟨0x3010, 0x100, 4, 0x4, 1, false, [
    ⟨5, 27, .rsvd, .val 0, .any⟩,
    ⟨0, 5, .rw, .val 4, .range 4 16⟩]⟩,
  -- BLW_REC_TAIL
  ⟨0x3014, 0x100, 4, 0x4, 1, false, [
    ⟨16, 16, .rsvd, .val 0, .any⟩,
    ⟨0, 16, .rw, .val 0, .dyn .chTail⟩]⟩,
  -- BLW_REC_HEAD
  ⟨0x3018, 0x100, 4, 0x4, 1, false, [
    ⟨16, 16, .rsvd, .val 0, .any⟩,
    ⟨0, 16, .ro, .val 0, .any⟩]⟩,
  -- BLW_REC_STATUS
  ⟨0x301C, 0x100, 4, 0x4, 1, false, [
    ⟨24, 8, .ro, .val 0, .any⟩,
    ⟨16, 8, .ro, .val 0, .any⟩,
    ⟨2, 14, .rsvd, .val 0, .any⟩,
    ⟨0, 2, .ro, .val 0, .any⟩]⟩
  ]

/-- Registers of the TNG_ block (R269). -/
def tngRegs : List RegDesc := [
  -- TNG_CTL
  ⟨0x10, 0x4, 1, 0x4, 1, false, [
    ⟨28, 4, .rsvd, .val 0, .any⟩,
    ⟨1, 27, .rsvd, .val 0, .any⟩,
    ⟨0, 1, .rw, .val 0, .any⟩]⟩,
  -- TNG_BUSY
  ⟨0x14, 0x4, 1, 0x4, 1, false, [
    ⟨0, 32, .ro, .val 0, .any⟩]⟩,
  -- TNG_CH_CTL
  ⟨0x1000, 0x100, 32, 0x4, 1, false, [
    ⟨28, 4, .rsvd, .val 0, .any⟩,
    ⟨10, 18, .rsvd, .val 0, .any⟩,
    ⟨8, 2, .rw, .val 0, .any⟩,
    ⟨2, 6, .rsvd, .val 0, .any⟩,
    ⟨1, 1, .w1s, .val 0, .any⟩,
    ⟨0, 1, .rw, .val 0, .any⟩]⟩,
  -- TNG_CH_CTX
  ⟨0x1004, 0x100, 32, 0x4, 1, false, [
    ⟨16, 16, .ro, .val 1, .any⟩,
    ⟨4, 12, .rsvd, .val 0, .any⟩,
    ⟨0, 4, .rw, .val 0, .any⟩]⟩,
  -- TNG_CH_RING_LO/_HI
  ⟨0x1008, 0x100, 32, 0x4, 1, true, [
    ⟨40, 24, .rsvd, .val 0, .any⟩,
    ⟨32, 8, .rw, .val 0, .any⟩,
    ⟨0, 32, .rw, .val 0, .align 6⟩]⟩,
  -- TNG_CH_RING_SIZE
  ⟨0x1010, 0x100, 32, 0x4, 1, false, [
    ⟨5, 27, .rsvd, .val 0, .any⟩,
    ⟨0, 5, .rw, .val 4, .range 4 16⟩]⟩,
  -- TNG_CH_TAIL
  ⟨0x1014, 0x100, 32, 0x4, 1, false, [
    ⟨16, 16, .rsvd, .val 0, .any⟩,
    ⟨0, 16, .rw, .val 0, .dyn .chTail⟩]⟩,
  -- TNG_CH_HEAD
  ⟨0x1018, 0x100, 32, 0x4, 1, false, [
    ⟨16, 16, .rsvd, .val 0, .any⟩,
    ⟨0, 16, .ro, .val 0, .any⟩]⟩,
  -- TNG_CH_STATUS
  ⟨0x101C, 0x100, 32, 0x4, 1, false, [
    ⟨24, 8, .ro, .val 0, .any⟩,
    ⟨16, 8, .ro, .val 0, .any⟩,
    ⟨2, 14, .rsvd, .val 0, .any⟩,
    ⟨0, 2, .ro, .val 0, .any⟩]⟩
  ]

/-- Registers of the MEM_ block (R268). -/
def memRegs : List RegDesc := [
  -- MEM_CTL
  ⟨0x10, 0x4, 1, 0x4, 1, false, [
    ⟨28, 4, .rsvd, .val 0, .any⟩,
    ⟨1, 27, .rsvd, .val 0, .any⟩,
    ⟨0, 1, .rw, .val 1, .any⟩]⟩,
  -- MEM_PATROL
  ⟨0x14, 0x4, 1, 0x4, 1, false, [
    ⟨8, 24, .rsvd, .val 0, .any⟩,
    ⟨0, 8, .rw, .val 24, .range 1 168⟩]⟩,
  -- MEM_CH_STATUS
  ⟨0x1000, 0x100, 8, 0x4, 1, false, [
    ⟨30, 2, .ro, .val 2, .any⟩,
    ⟨10, 20, .rsvd, .val 0, .any⟩,
    ⟨0, 10, .ro, .val 0, .any⟩]⟩,
  -- MEM_CH_ECC
  ⟨0x1004, 0x100, 8, 0x4, 1, false, [
    ⟨16, 16, .rc, .val 0, .any⟩,
    ⟨0, 16, .rc, .val 0, .any⟩]⟩,
  -- MEM_CH_ERR_LO/_HI
  ⟨0x1008, 0x100, 8, 0x4, 1, true, [
    ⟨40, 24, .rsvd, .val 0, .any⟩,
    ⟨32, 8, .ro, .val 0, .any⟩,
    ⟨0, 32, .ro, .val 0, .any⟩]⟩,
  -- MEM_CH_BYTES_LO/_HI
  ⟨0x1010, 0x100, 8, 0x4, 1, true, [
    ⟨32, 32, .ro, .val 0, .any⟩,
    ⟨0, 32, .ro, .val 0, .any⟩]⟩,
  -- MEM_CH_INJECT
  ⟨0x1018, 0x100, 8, 0x4, 1, false, [
    ⟨2, 30, .rsvd, .val 0, .any⟩,
    ⟨1, 1, .wo, .val 0, .any⟩,
    ⟨0, 1, .wo, .val 0, .any⟩]⟩
  ]

/-- Registers of the CRU_ block (R267). -/
def cruRegs : List RegDesc := [
  -- CRU_CTL
  ⟨0x10, 0x4, 1, 0x4, 1, false, [
    ⟨28, 4, .rsvd, .val 0, .any⟩,
    ⟨9, 19, .rsvd, .val 0, .any⟩,
    ⟨8, 1, .wo, .val 0, .any⟩,
    ⟨1, 7, .rsvd, .val 0, .any⟩,
    ⟨0, 1, .rw, .val 1, .any⟩]⟩,
  -- CRU_ECC
  ⟨0x20, 0x4, 1, 0x4, 1, false, [
    ⟨16, 16, .rc, .val 0, .any⟩,
    ⟨0, 16, .rc, .val 0, .any⟩]⟩,
  -- CRU_ERR_LO/_HI
  ⟨0x24, 0x4, 1, 0x4, 1, true, [
    ⟨40, 24, .rsvd, .val 0, .any⟩,
    ⟨32, 8, .ro, .val 0, .any⟩,
    ⟨0, 32, .ro, .val 0, .any⟩]⟩,
  -- CRU_ATOMIC
  ⟨0x30, 0x4, 1, 0x4, 1, false, [
    ⟨0, 32, .rc, .val 0, .any⟩]⟩,
  -- CRU_PATROL
  ⟨0x40, 0x4, 1, 0x4, 1, false, [
    ⟨16, 16, .rsvd, .val 0, .any⟩,
    ⟨0, 16, .rw, .val 1000, .range 100 10000⟩]⟩
  ]

/-- Registers of the FWL_ block (R397). -/
def fwlRegs : List RegDesc := [
  -- FWL_DB
  ⟨0x10, 0x4, 1, 0x4, 1, false, [
    ⟨2, 30, .rsvd, .val 0, .any⟩,
    ⟨1, 1, .rwl, .val 0, .any⟩,
    ⟨0, 1, .rwl, .val 1, .any⟩]⟩,
  -- FWL_REG_RD
  ⟨0x14, 0x4, 1, 0x4, 1, false, [
    ⟨24, 8, .rsvd, .val 0, .any⟩,
    ⟨0, 24, .rwl, .val 16777215, .any⟩]⟩,
  -- FWL_REG_WR
  ⟨0x18, 0x4, 1, 0x4, 1, false, [
    ⟨24, 8, .rsvd, .val 0, .any⟩,
    ⟨0, 24, .rwl, .val 0, .mask 0xAFF7CE⟩]⟩,
  -- FWL_QOS
  ⟨0x1C, 0x4, 1, 0x4, 1, false, [
    ⟨5, 27, .rsvd, .val 0, .any⟩,
    ⟨0, 5, .rwl, .val 4, .range 1 16⟩]⟩,
  -- FWL_VIOL
  ⟨0x20, 0x4, 1, 0x4, 1, false, [
    ⟨16, 16, .rc, .val 0, .any⟩,
    ⟨4, 12, .ro, .val 0, .any⟩,
    ⟨3, 1, .ro, .val 0, .any⟩,
    ⟨2, 1, .ro, .val 0, .any⟩,
    ⟨0, 2, .rsvd, .val 0, .any⟩]⟩,
  -- FWL_VIOL_ADDR_LO/_HI
  ⟨0x24, 0x4, 1, 0x4, 1, true, [
    ⟨40, 24, .rsvd, .val 0, .any⟩,
    ⟨32, 8, .ro, .val 0, .any⟩,
    ⟨0, 32, .ro, .val 0, .any⟩]⟩,
  -- FWL_RGN_BASE_LO/_HI
  ⟨0x1000, 0x20, 64, 0x4, 1, true, [
    ⟨40, 24, .rsvd, .val 0, .any⟩,
    ⟨32, 8, .rw, .val 0, .any⟩,
    ⟨16, 16, .rw, .val 0, .any⟩,
    ⟨0, 16, .rsvd, .val 0, .any⟩]⟩,
  -- FWL_RGN_LIMIT_LO/_HI
  ⟨0x1008, 0x20, 64, 0x4, 1, true, [
    ⟨40, 24, .rsvd, .val 0, .any⟩,
    ⟨32, 8, .rw, .val 0, .any⟩,
    ⟨16, 16, .rw, .val 0, .any⟩,
    ⟨0, 16, .rsvd, .val 0, .any⟩]⟩,
  -- FWL_RGN_PERM
  ⟨0x1010, 0x20, 64, 0x4, 1, false, [
    ⟨16, 16, .rw, .val 0, .any⟩,
    ⟨0, 16, .rw, .val 0, .any⟩]⟩,
  -- FWL_RGN_CTL
  ⟨0x1014, 0x20, 64, 0x4, 1, false, [
    ⟨28, 4, .rsvd, .val 0, .any⟩,
    ⟨2, 26, .rsvd, .val 0, .any⟩,
    ⟨1, 1, .w1s, .val 0, .any⟩,
    ⟨0, 1, .rw, .val 0, .any⟩]⟩
  ]

/-- Registers of the NLK_ block (R457). -/
def nlkRegs : List RegDesc := [
  -- NLK_CFG
  ⟨0x10, 0x4, 1, 0x4, 1, false, [
    ⟨28, 4, .rsvd, .val 0, .any⟩,
    ⟨5, 23, .rsvd, .val 0, .any⟩,
    ⟨4, 1, .rwl, .val 0, .any⟩,
    ⟨2, 2, .rsvd, .val 0, .any⟩,
    ⟨0, 2, .rwl, .val 0, .any⟩]⟩,
  -- NLK_EVT
  ⟨0x14, 0x4, 1, 0x4, 1, false, [
    ⟨18, 14, .rsvd, .val 0, .any⟩,
    ⟨16, 2, .rw, .val 0, .any⟩,
    ⟨2, 14, .rsvd, .val 0, .any⟩,
    ⟨1, 1, .w1c, .val 0, .any⟩,
    ⟨0, 1, .w1c, .val 0, .any⟩]⟩,
  -- NLK_PORT_CTL
  ⟨0x1000, 0x100, 4, 0x4, 1, false, [
    ⟨28, 4, .rsvd, .val 0, .any⟩,
    ⟨10, 18, .rsvd, .val 0, .any⟩,
    ⟨8, 2, .rw, .val 0, .any⟩,
    ⟨5, 3, .rsvd, .val 0, .any⟩,
    ⟨4, 1, .rw, .val 1, .any⟩,
    ⟨2, 2, .rsvd, .val 0, .any⟩,
    ⟨1, 1, .w1s, .val 0, .any⟩,
    ⟨0, 1, .rw, .val 0, .any⟩]⟩,
  -- NLK_PORT_STATUS
  ⟨0x1004, 0x100, 4, 0x4, 1, false, [
    ⟨29, 3, .ro, .val 0, .any⟩,
    ⟨24, 5, .rsvd, .val 0, .any⟩,
    ⟨16, 8, .ro, .val 0, .any⟩,
    ⟨0, 16, .ro, .val 0, .any⟩]⟩,
  -- NLK_PORT_ERR
  ⟨0x1008, 0x100, 4, 0x4, 1, false, [
    ⟨16, 16, .rc, .val 0, .any⟩,
    ⟨8, 8, .rc, .val 0, .any⟩,
    ⟨0, 8, .rc, .val 0, .any⟩]⟩,
  -- NLK_PORT_CTX
  ⟨0x100C, 0x100, 4, 0x4, 1, false, [
    ⟨16, 16, .rsvd, .val 0, .any⟩,
    ⟨0, 16, .rw, .val 1, .any⟩]⟩,
  -- NLK_PORT_RWIN_LO/_HI
  ⟨0x1010, 0x100, 4, 0x4, 1, true, [
    ⟨40, 24, .rsvd, .val 0, .any⟩,
    ⟨32, 8, .rw, .val 0, .any⟩,
    ⟨16, 16, .rw, .val 0, .any⟩,
    ⟨0, 16, .rsvd, .val 0, .any⟩]⟩,
  -- NLK_PORT_RWIN_SIZE
  ⟨0x1018, 0x100, 4, 0x4, 1, false, [
    ⟨16, 16, .rsvd, .val 0, .any⟩,
    ⟨0, 16, .rw, .val 0, .any⟩]⟩,
  -- NLK_PORT_EVT
  ⟨0x101C, 0x100, 4, 0x4, 1, false, [
    ⟨20, 12, .rsvd, .val 0, .any⟩,
    ⟨16, 4, .rw, .val 0, .any⟩,
    ⟨4, 12, .rsvd, .val 0, .any⟩,
    ⟨3, 1, .w1c, .val 0, .any⟩,
    ⟨2, 1, .w1c, .val 0, .any⟩,
    ⟨1, 1, .w1c, .val 0, .any⟩,
    ⟨0, 1, .w1c, .val 0, .any⟩]⟩
  ]

/-- Registers of the PCI_ block (R458). -/
def pciRegs : List RegDesc := [
  -- PCI_CTL
  ⟨0x10, 0x4, 1, 0x4, 1, false, [
    ⟨28, 4, .rsvd, .val 0, .any⟩,
    ⟨1, 27, .rsvd, .val 0, .any⟩,
    ⟨0, 1, .rwl, .val 1, .any⟩]⟩,
  -- PCI_WIN_LO/_HI
  ⟨0x14, 0x4, 1, 0x4, 1, true, [
    ⟨40, 24, .rsvd, .val 0, .any⟩,
    ⟨32, 8, .rwl, .val 0, .dyn .pciWinHi⟩,
    ⟨16, 16, .rwl, .val 0, .dyn .pciWinLo⟩,
    ⟨0, 16, .rsvd, .val 0, .any⟩]⟩,
  -- PCI_WIN_SIZE
  ⟨0x1C, 0x4, 1, 0x4, 1, false, [
    ⟨6, 26, .rsvd, .val 0, .any⟩,
    ⟨0, 6, .rwl, .val 26, .range 26 34⟩]⟩,
  -- PCI_STATUS
  ⟨0x20, 0x4, 1, 0x4, 1, false, [
    ⟨29, 3, .ro, .val 0, .any⟩,
    ⟨27, 2, .ro, .val 0, .any⟩,
    ⟨24, 3, .ro, .val 0, .any⟩,
    ⟨20, 4, .ro, .val 0, .any⟩,
    ⟨19, 1, .ro, .val 0, .any⟩,
    ⟨18, 1, .w1c, .val 0, .any⟩,
    ⟨16, 2, .rsvd, .val 0, .any⟩,
    ⟨0, 16, .rc, .val 0, .any⟩]⟩,
  -- PCI_EVT_STATUS
  ⟨0x24, 0x4, 1, 0x4, 1, false, [
    ⟨4, 28, .rsvd, .val 0, .any⟩,
    ⟨3, 1, .w1c, .val 0, .any⟩,
    ⟨2, 1, .w1c, .val 0, .any⟩,
    ⟨1, 1, .w1c, .val 0, .any⟩,
    ⟨0, 1, .w1c, .val 0, .any⟩]⟩,
  -- PCI_EVT_EN
  ⟨0x28, 0x4, 1, 0x4, 1, false, [
    ⟨4, 28, .rsvd, .val 0, .any⟩,
    ⟨3, 1, .rw, .val 0, .any⟩,
    ⟨2, 1, .rw, .val 0, .any⟩,
    ⟨1, 1, .rw, .val 0, .any⟩,
    ⟨0, 1, .rw, .val 0, .any⟩]⟩
  ]

/-- Registers of the ETH_ block (R459). -/
def ethRegs : List RegDesc := [
  -- ETH_MAC_LO/_HI
  ⟨0x10, 0x4, 1, 0x4, 1, true, [
    ⟨48, 16, .rsvd, .val 0, .any⟩,
    ⟨32, 16, .rwl, .val 0, .any⟩,
    ⟨0, 32, .rwl, .val 0, .any⟩]⟩,
  -- ETH_DROP
  ⟨0x18, 0x4, 1, 0x4, 1, false, [
    ⟨16, 16, .rc, .val 0, .any⟩,
    ⟨0, 16, .rc, .val 0, .any⟩]⟩,
  -- ETH_EVT_STATUS
  ⟨0x20, 0x4, 1, 0x4, 1, false, [
    ⟨2, 30, .rsvd, .val 0, .any⟩,
    ⟨1, 1, .w1c, .val 0, .any⟩,
    ⟨0, 1, .w1c, .val 0, .any⟩]⟩,
  -- ETH_EVT_EN
  ⟨0x24, 0x4, 1, 0x4, 1, false, [
    ⟨2, 30, .rsvd, .val 0, .any⟩,
    ⟨1, 1, .rw, .val 0, .any⟩,
    ⟨0, 1, .rw, .val 0, .any⟩]⟩,
  -- ETH_CAN_PARK
  ⟨0x30, 0x4, 1, 0x4, 1, false, [
    ⟨31, 1, .rwl, .val 0, .any⟩,
    ⟨30, 1, .rwl, .val 0, .any⟩,
    ⟨29, 1, .rsvd, .val 0, .any⟩,
    ⟨0, 29, .rwl, .val 0, .any⟩]⟩,
  -- ETH_CAN_PARK_TMO
  ⟨0x34, 0x4, 1, 0x4, 1, false, [
    ⟨13, 19, .rsvd, .val 0, .any⟩,
    ⟨0, 13, .rwl, .val 1000, .range 100 5000⟩]⟩,
  -- ETH_PORT_CTL
  ⟨0x1000, 0x100, 2, 0x4, 1, false, [
    ⟨2, 30, .rsvd, .val 0, .any⟩,
    ⟨1, 1, .rw, .val 0, .any⟩,
    ⟨0, 1, .rw, .val 0, .any⟩]⟩,
  -- ETH_PORT_STATUS
  ⟨0x1004, 0x100, 2, 0x4, 1, false, [
    ⟨31, 1, .ro, .val 0, .any⟩,
    ⟨16, 15, .rsvd, .val 0, .any⟩,
    ⟨0, 16, .rc, .val 0, .any⟩]⟩,
  -- ETH_FWD
  ⟨0x2000, 0x8, 64, 0x4, 1, false, [
    ⟨31, 1, .rw, .val 0, .any⟩,
    ⟨19, 12, .rsvd, .val 0, .any⟩,
    ⟨16, 3, .rw, .val 0, .any⟩,
    ⟨12, 4, .rsvd, .val 0, .any⟩,
    ⟨0, 12, .rw, .val 0, .any⟩]⟩,
  -- ETH_FWD_MAC
  ⟨0x2004, 0x8, 64, 0x4, 1, false, [
    ⟨0, 32, .rw, .val 0, .any⟩]⟩,
  -- ETH_CAN_CTL
  ⟨0x4000, 0x100, 2, 0x4, 1, false, [
    ⟨28, 4, .rsvd, .val 0, .any⟩,
    ⟨25, 3, .rsvd, .val 0, .any⟩,
    ⟨12, 13, .rw, .val 2000, .range 500 5000⟩,
    ⟨1, 11, .rw, .val 500, .range 125 1000⟩,
    ⟨0, 1, .rw, .val 0, .any⟩]⟩,
  -- ETH_CAN_STATUS
  ⟨0x4004, 0x100, 2, 0x4, 1, false, [
    ⟨30, 2, .ro, .val 0, .any⟩,
    ⟨20, 10, .rsvd, .val 0, .any⟩,
    ⟨16, 4, .rw, .val 0, .any⟩,
    ⟨8, 8, .rc, .val 0, .any⟩,
    ⟨4, 4, .rsvd, .val 0, .any⟩,
    ⟨3, 1, .ro, .val 0, .any⟩,
    ⟨2, 1, .w1c, .val 0, .any⟩,
    ⟨1, 1, .w1c, .val 0, .any⟩,
    ⟨0, 1, .w1c, .val 0, .any⟩]⟩
  ]

/-- Registers of the DGT_ block (R460). -/
def dgtRegs : List RegDesc := [
  -- DGT_CFG
  ⟨0x10, 0x4, 1, 0x4, 1, false, [
    ⟨18, 14, .rsvd, .val 0, .any⟩,
    ⟨17, 1, .rw, .val 0, .any⟩,
    ⟨16, 1, .rw, .val 0, .any⟩,
    ⟨0, 16, .rw, .val 0, .any⟩]⟩,
  -- DGT_TIMER
  ⟨0x14, 0x4, 1, 0x4, 1, false, [
    ⟨16, 16, .rw, .val 2000, .range 100 60000⟩,
    ⟨0, 16, .rw, .val 20, .range 5 1000⟩]⟩,
  -- DGT_MAC_LO/_HI
  ⟨0x18, 0x4, 1, 0x4, 1, true, [
    ⟨48, 16, .rsvd, .val 0, .any⟩,
    ⟨32, 16, .rw, .val 0, .any⟩,
    ⟨0, 32, .rw, .val 0, .any⟩]⟩,
  -- DGT_IP4
  ⟨0x20, 0x4, 1, 0x4, 1, false, [
    ⟨0, 32, .rw, .val 0, .any⟩]⟩,
  -- DGT_DROP
  ⟨0x24, 0x4, 1, 0x4, 1, false, [
    ⟨28, 4, .ro, .val 0, .any⟩,
    ⟨24, 4, .ro, .val 0, .any⟩,
    ⟨0, 24, .rc, .val 0, .any⟩]⟩,
  -- DGT_EVT_STATUS
  ⟨0x28, 0x4, 1, 0x4, 1, false, [
    ⟨3, 29, .rsvd, .val 0, .any⟩,
    ⟨2, 1, .w1c, .val 0, .any⟩,
    ⟨1, 1, .w1c, .val 0, .any⟩,
    ⟨0, 1, .w1c, .val 0, .any⟩]⟩,
  -- DGT_EVT_EN
  ⟨0x2C, 0x4, 1, 0x4, 1, false, [
    ⟨3, 29, .rsvd, .val 0, .any⟩,
    ⟨2, 1, .rw, .val 0, .any⟩,
    ⟨1, 1, .rw, .val 0, .any⟩,
    ⟨0, 1, .rw, .val 0, .any⟩]⟩,
  -- DGT_TEN_BASE
  ⟨0x1100, 0x100, 15, 0x4, 1, false, [
    ⟨16, 16, .rsvd, .val 0, .any⟩,
    ⟨0, 16, .rw, .val 0, .dyn .tenBase⟩]⟩,
  -- DGT_TEN_SIZE
  ⟨0x1104, 0x100, 15, 0x4, 1, false, [
    ⟨16, 16, .rsvd, .val 0, .any⟩,
    ⟨0, 16, .rw, .val 0, .dyn .tenSize⟩]⟩,
  -- DGT_TEN_KEY0
  ⟨0x1110, 0x100, 15, 0x4, 1, false, [
    ⟨0, 32, .wo, .val 0, .any⟩]⟩,
  -- DGT_TEN_KEY1
  ⟨0x1114, 0x100, 15, 0x4, 1, false, [
    ⟨0, 32, .wo, .val 0, .any⟩]⟩,
  -- DGT_TEN_KEY2
  ⟨0x1118, 0x100, 15, 0x4, 1, false, [
    ⟨0, 32, .wo, .val 0, .any⟩]⟩,
  -- DGT_TEN_KEY3
  ⟨0x111C, 0x100, 15, 0x4, 1, false, [
    ⟨0, 32, .wo, .val 0, .any⟩]⟩,
  -- DGT_TEN_KEY4
  ⟨0x1120, 0x100, 15, 0x4, 1, false, [
    ⟨0, 32, .wo, .val 0, .any⟩]⟩,
  -- DGT_TEN_KEY5
  ⟨0x1124, 0x100, 15, 0x4, 1, false, [
    ⟨0, 32, .wo, .val 0, .any⟩]⟩,
  -- DGT_TEN_KEY6
  ⟨0x1128, 0x100, 15, 0x4, 1, false, [
    ⟨0, 32, .wo, .val 0, .any⟩]⟩,
  -- DGT_TEN_KEY7
  ⟨0x112C, 0x100, 15, 0x4, 1, false, [
    ⟨0, 32, .wo, .val 0, .any⟩]⟩,
  -- DGT_TEN_STATUS
  ⟨0x1130, 0x100, 15, 0x4, 1, false, [
    ⟨31, 1, .ro, .val 0, .any⟩,
    ⟨30, 1, .ro, .val 0, .any⟩,
    ⟨28, 2, .rsvd, .val 0, .any⟩,
    ⟨20, 8, .rw, .val 0, .any⟩,
    ⟨18, 2, .rsvd, .val 0, .any⟩,
    ⟨17, 1, .w1c, .val 0, .any⟩,
    ⟨16, 1, .w1c, .val 0, .any⟩,
    ⟨9, 7, .rsvd, .val 0, .any⟩,
    ⟨0, 9, .ro, .val 0, .any⟩]⟩
  ]

/-- Registers of the ANV_ block (R100, R113, R163, R266). -/
def anvRegs : List RegDesc := [
  -- ANV_CTL
  ⟨0x10, 0x4, 1, 0x4, 1, false, [
    ⟨16, 16, .rsvd, .val 0, .any⟩,
    ⟨12, 4, .rsvd, .val 0, .any⟩,
    ⟨11, 1, .wo, .val 0, .any⟩,
    ⟨10, 1, .w1s, .val 0, .any⟩,
    ⟨8, 2, .rw, .val 0, .range 0 1⟩,
    ⟨1, 7, .rsvd, .val 0, .any⟩,
    ⟨0, 1, .rw, .val 0, .any⟩]⟩,
  -- ANV_PAIR_CTL
  ⟨0x14, 0x4, 1, 0x4, 1, false, [
    ⟨28, 4, .rsvd, .val 0, .any⟩,
    ⟨9, 19, .rsvd, .val 0, .any⟩,
    ⟨8, 1, .rw, .val 0, .dyn .pairReq⟩,
    ⟨4, 4, .rsvd, .val 0, .any⟩,
    ⟨2, 2, .ro, .val 0, .any⟩,
    ⟨1, 1, .ro, .unitMod2, .any⟩,
    ⟨0, 1, .ro, .val 0, .any⟩]⟩,
  -- ANV_STATUS
  ⟨0x18, 0x4, 1, 0x4, 1, false, [
    ⟨20, 12, .ro, .val 0, .any⟩,
    ⟨16, 4, .rsvd, .val 0, .any⟩,
    ⟨8, 8, .ro, .val 0, .any⟩,
    ⟨4, 4, .rsvd, .val 0, .any⟩,
    ⟨3, 1, .ro, .val 0, .any⟩,
    ⟨2, 1, .ro, .val 0, .any⟩,
    ⟨1, 1, .ro, .val 0, .any⟩,
    ⟨0, 1, .ro, .val 0, .any⟩]⟩,
  -- ANV_TL_BASE_LO/_HI
  ⟨0x20, 0x4, 1, 0x4, 1, true, [
    ⟨40, 24, .rsvd, .val 0, .any⟩,
    ⟨32, 8, .rw, .val 0, .any⟩,
    ⟨0, 32, .rw, .val 0, .align 5⟩]⟩,
  -- ANV_TL_COUNT
  ⟨0x28, 0x4, 1, 0x4, 1, false, [
    ⟨16, 16, .rsvd, .val 0, .any⟩,
    ⟨0, 16, .rw, .val 1, .range 1 65535⟩]⟩,
  -- ANV_PORTMAP
  ⟨0x30, 0x4, 1, 0x4, 1, false, [
    ⟨30, 2, .rw, .val 3, .any⟩,
    ⟨28, 2, .rw, .val 3, .any⟩,
    ⟨26, 2, .rw, .val 3, .any⟩,
    ⟨24, 2, .rw, .val 3, .any⟩,
    ⟨22, 2, .rw, .val 3, .any⟩,
    ⟨20, 2, .rw, .val 3, .any⟩,
    ⟨18, 2, .rw, .val 3, .any⟩,
    ⟨16, 2, .rw, .val 3, .any⟩,
    ⟨14, 2, .rw, .val 3, .any⟩,
    ⟨12, 2, .rw, .val 3, .any⟩,
    ⟨10, 2, .rw, .val 3, .any⟩,
    ⟨8, 2, .rw, .val 3, .any⟩,
    ⟨6, 2, .rw, .val 3, .any⟩,
    ⟨4, 2, .rw, .val 3, .any⟩,
    ⟨2, 2, .rw, .val 3, .any⟩,
    ⟨0, 2, .rw, .val 3, .any⟩]⟩,
  -- ANV_PORT_STATUS
  ⟨0x34, 0x4, 1, 0x4, 1, false, [
    ⟨16, 16, .rc, .val 0, .any⟩,
    ⟨12, 4, .rsvd, .val 0, .any⟩,
    ⟨8, 4, .ro, .val 0, .any⟩,
    ⟨6, 2, .rsvd, .val 0, .any⟩,
    ⟨4, 2, .ro, .val 0, .any⟩,
    ⟨2, 2, .rsvd, .val 0, .any⟩,
    ⟨0, 2, .ro, .val 0, .any⟩]⟩,
  -- ANV_BS_ECC
  ⟨0x38, 0x4, 1, 0x4, 1, false, [
    ⟨16, 16, .rc, .val 0, .any⟩,
    ⟨8, 8, .rc, .val 0, .any⟩,
    ⟨4, 4, .ro, .val 0, .any⟩,
    ⟨1, 3, .rsvd, .val 0, .any⟩,
    ⟨0, 1, .wo, .val 0, .any⟩]⟩,
  -- ANV_WB_STATUS
  ⟨0x3C, 0x4, 1, 0x4, 1, false, [
    ⟨16, 16, .rc, .val 0, .any⟩,
    ⟨0, 16, .rc, .val 0, .any⟩]⟩,
  -- ANV_RES_CTL
  ⟨0x40, 0x4, 1, 0x4, 1, false, [
    ⟨28, 4, .rsvd, .val 0, .any⟩,
    ⟨9, 19, .rsvd, .val 0, .any⟩,
    ⟨8, 1, .wo, .val 0, .any⟩,
    ⟨2, 6, .rsvd, .val 0, .any⟩,
    ⟨1, 1, .rwl, .val 1, .any⟩,
    ⟨0, 1, .rwl, .val 1, .any⟩]⟩,
  -- ANV_RES_STATUS
  ⟨0x44, 0x4, 1, 0x4, 1, false, [
    ⟨16, 16, .rc, .val 0, .any⟩,
    ⟨12, 4, .rsvd, .val 0, .any⟩,
    ⟨11, 1, .w1c, .val 0, .any⟩,
    ⟨8, 3, .ro, .val 0, .any⟩,
    ⟨6, 2, .rsvd, .val 0, .any⟩,
    ⟨0, 6, .ro, .val 0, .any⟩]⟩,
  -- ANV_RANGE_CNT
  ⟨0x48, 0x4, 1, 0x4, 1, false, [
    ⟨16, 16, .rsvd, .val 0, .any⟩,
    ⟨0, 16, .rc, .val 0, .any⟩]⟩,
  -- ANV_EVT_STATUS
  ⟨0x50, 0x4, 1, 0x4, 1, false, [
    ⟨6, 26, .rsvd, .val 0, .any⟩,
    ⟨5, 1, .w1c, .val 0, .any⟩,
    ⟨4, 1, .w1c, .val 0, .any⟩,
    ⟨3, 1, .w1c, .val 0, .any⟩,
    ⟨2, 1, .w1c, .val 0, .any⟩,
    ⟨1, 1, .w1c, .val 0, .any⟩,
    ⟨0, 1, .w1c, .val 0, .any⟩]⟩,
  -- ANV_EVT_EN
  ⟨0x54, 0x4, 1, 0x4, 1, false, [
    ⟨6, 26, .rsvd, .val 0, .any⟩,
    ⟨5, 1, .rw, .val 0, .any⟩,
    ⟨4, 1, .rw, .val 0, .any⟩,
    ⟨3, 1, .rw, .val 0, .any⟩,
    ⟨2, 1, .rw, .val 0, .any⟩,
    ⟨1, 1, .rw, .val 0, .any⟩,
    ⟨0, 1, .rw, .val 0, .any⟩]⟩,
  -- ANV_SIG_LO/_HI
  ⟨0x60, 0x4, 1, 0x4, 1, true, [
    ⟨32, 32, .ro, .val 0, .any⟩,
    ⟨0, 32, .ro, .val 0, .any⟩]⟩,
  -- ANV_SIG_SEQ
  ⟨0x68, 0x4, 1, 0x4, 1, false, [
    ⟨0, 32, .ro, .val 0, .any⟩]⟩,
  -- ANV_BUSY_LO/_HI
  ⟨0x70, 0x4, 1, 0x4, 1, true, [
    ⟨32, 32, .ro, .val 0, .any⟩,
    ⟨0, 32, .ro, .val 0, .any⟩]⟩,
  -- ANV_STALL
  ⟨0x78, 0x4, 1, 0x4, 1, false, [
    ⟨0, 32, .rc, .val 0, .any⟩]⟩,
  -- ANV_MARMER_CFG
  ⟨0x80, 0x4, 1, 0x4, 1, false, [
    ⟨28, 4, .rsvd, .val 0, .any⟩,
    ⟨1, 27, .rsvd, .val 0, .any⟩,
    ⟨0, 1, .rw, .val 0, .any⟩]⟩,
  -- ANV_REFUSE
  ⟨0x90, 0x4, 1, 0x4, 1, false, [
    ⟨24, 8, .ro, .val 0, .any⟩,
    ⟨16, 8, .rsvd, .val 0, .any⟩,
    ⟨0, 16, .ro, .val 0, .any⟩]⟩,
  -- ANV_TL_PC
  ⟨0x94, 0x4, 1, 0x4, 1, false, [
    ⟨16, 16, .rsvd, .val 0, .any⟩,
    ⟨0, 16, .ro, .val 0, .any⟩]⟩,
  -- ANV_FUS_STATUS
  ⟨0xA0, 0x4, 1, 0x4, 1, false, [
    ⟨16, 16, .rc, .val 0, .any⟩,
    ⟨9, 7, .rsvd, .val 0, .any⟩,
    ⟨8, 1, .ro, .val 0, .any⟩,
    ⟨3, 5, .rsvd, .val 0, .any⟩,
    ⟨0, 3, .ro, .val 0, .any⟩]⟩,
  -- ANV_FUS_CTL
  ⟨0xA4, 0x4, 1, 0x4, 1, false, [
    ⟨28, 4, .rsvd, .val 0, .any⟩,
    ⟨2, 26, .rsvd, .val 0, .any⟩,
    ⟨1, 1, .wo, .val 0, .any⟩,
    ⟨0, 1, .wo, .val 0, .any⟩]⟩,
  -- ANV_SEND_STATUS
  ⟨0xA8, 0x4, 1, 0x4, 1, false, [
    ⟨16, 16, .rc, .val 0, .any⟩,
    ⟨8, 8, .ro, .val 0, .any⟩,
    ⟨6, 2, .rsvd, .val 0, .any⟩,
    ⟨0, 6, .ro, .val 0, .any⟩]⟩
  ]

/-- Registers of the DRW_ block (R200). -/
def drwRegs : List RegDesc := [
  -- DRW_CTL
  ⟨0x10, 0x4, 1, 0x4, 1, false, [
    ⟨16, 16, .rsvd, .val 0, .any⟩,
    ⟨12, 4, .rsvd, .val 0, .any⟩,
    ⟨11, 1, .wo, .val 0, .any⟩,
    ⟨10, 1, .w1s, .val 0, .any⟩,
    ⟨1, 9, .rsvd, .val 0, .any⟩,
    ⟨0, 1, .rw, .val 0, .any⟩]⟩,
  -- DRW_PAIR_CTL
  ⟨0x14, 0x4, 1, 0x4, 1, false, [
    ⟨28, 4, .rsvd, .val 0, .any⟩,
    ⟨9, 19, .rsvd, .val 0, .any⟩,
    ⟨8, 1, .rw, .val 0, .dyn .pairReq⟩,
    ⟨4, 4, .rsvd, .val 0, .any⟩,
    ⟨2, 2, .ro, .val 0, .any⟩,
    ⟨1, 1, .ro, .unitMod2, .any⟩,
    ⟨0, 1, .ro, .val 0, .any⟩]⟩,
  -- DRW_STATUS
  ⟨0x18, 0x4, 1, 0x4, 1, false, [
    ⟨20, 12, .ro, .val 0, .any⟩,
    ⟨5, 15, .rsvd, .val 0, .any⟩,
    ⟨4, 1, .ro, .val 0, .any⟩,
    ⟨3, 1, .ro, .val 0, .any⟩,
    ⟨2, 1, .ro, .val 0, .any⟩,
    ⟨1, 1, .ro, .val 0, .any⟩,
    ⟨0, 1, .ro, .val 0, .any⟩]⟩,
  -- DRW_DL_BASE_LO/_HI
  ⟨0x20, 0x4, 1, 0x4, 1, true, [
    ⟨40, 24, .rsvd, .val 0, .any⟩,
    ⟨32, 8, .rw, .val 0, .any⟩,
    ⟨0, 32, .rw, .val 0, .align 5⟩]⟩,
  -- DRW_DL_COUNT
  ⟨0x28, 0x4, 1, 0x4, 1, false, [
    ⟨16, 16, .rsvd, .val 0, .any⟩,
    ⟨0, 16, .rw, .val 1, .range 1 65535⟩]⟩,
  -- DRW_RES_CTL
  ⟨0x40, 0x4, 1, 0x4, 1, false, [
    ⟨28, 4, .rsvd, .val 0, .any⟩,
    ⟨9, 19, .rsvd, .val 0, .any⟩,
    ⟨8, 1, .wo, .val 0, .any⟩,
    ⟨2, 6, .rsvd, .val 0, .any⟩,
    ⟨1, 1, .rwl, .val 1, .any⟩,
    ⟨0, 1, .rwl, .val 1, .any⟩]⟩,
  -- DRW_RES_STATUS
  ⟨0x44, 0x4, 1, 0x4, 1, false, [
    ⟨16, 16, .rc, .val 0, .any⟩,
    ⟨12, 4, .rsvd, .val 0, .any⟩,
    ⟨11, 1, .w1c, .val 0, .any⟩,
    ⟨7, 4, .rsvd, .val 0, .any⟩,
    ⟨0, 7, .ro, .val 0, .any⟩]⟩,
  -- DRW_EVT_STATUS
  ⟨0x50, 0x4, 1, 0x4, 1, false, [
    ⟨7, 25, .rsvd, .val 0, .any⟩,
    ⟨6, 1, .w1c, .val 0, .any⟩,
    ⟨5, 1, .w1c, .val 0, .any⟩,
    ⟨4, 1, .w1c, .val 0, .any⟩,
    ⟨3, 1, .w1c, .val 0, .any⟩,
    ⟨2, 1, .w1c, .val 0, .any⟩,
    ⟨1, 1, .w1c, .val 0, .any⟩,
    ⟨0, 1, .w1c, .val 0, .any⟩]⟩,
  -- DRW_EVT_EN
  ⟨0x54, 0x4, 1, 0x4, 1, false, [
    ⟨7, 25, .rsvd, .val 0, .any⟩,
    ⟨6, 1, .rw, .val 0, .any⟩,
    ⟨5, 1, .rw, .val 0, .any⟩,
    ⟨4, 1, .rw, .val 0, .any⟩,
    ⟨3, 1, .rw, .val 0, .any⟩,
    ⟨2, 1, .rw, .val 0, .any⟩,
    ⟨1, 1, .rw, .val 0, .any⟩,
    ⟨0, 1, .rw, .val 0, .any⟩]⟩,
  -- DRW_SIG_LO/_HI
  ⟨0x60, 0x4, 1, 0x4, 1, true, [
    ⟨32, 32, .ro, .val 0, .any⟩,
    ⟨0, 32, .ro, .val 0, .any⟩]⟩,
  -- DRW_SIG_SEQ
  ⟨0x68, 0x4, 1, 0x4, 1, false, [
    ⟨0, 32, .ro, .val 0, .any⟩]⟩,
  -- DRW_BUSY_LO/_HI
  ⟨0x70, 0x4, 1, 0x4, 1, true, [
    ⟨32, 32, .ro, .val 0, .any⟩,
    ⟨0, 32, .ro, .val 0, .any⟩]⟩,
  -- DRW_STALL
  ⟨0x78, 0x4, 1, 0x4, 1, false, [
    ⟨0, 32, .rc, .val 0, .any⟩]⟩,
  -- DRW_REFUSE
  ⟨0x90, 0x4, 1, 0x4, 1, false, [
    ⟨24, 8, .ro, .val 0, .any⟩,
    ⟨16, 8, .rsvd, .val 0, .any⟩,
    ⟨0, 16, .ro, .val 0, .any⟩]⟩,
  -- DRW_DL_PC
  ⟨0x94, 0x4, 1, 0x4, 1, false, [
    ⟨16, 16, .rsvd, .val 0, .any⟩,
    ⟨0, 16, .ro, .val 0, .any⟩]⟩,
  -- DRW_DUP_STATUS
  ⟨0xA0, 0x4, 1, 0x4, 1, false, [
    ⟨16, 16, .rc, .val 0, .any⟩,
    ⟨9, 7, .rsvd, .val 0, .any⟩,
    ⟨8, 1, .ro, .val 0, .any⟩,
    ⟨0, 8, .rsvd, .val 0, .any⟩]⟩,
  -- DRW_DUP_CTL
  ⟨0xA4, 0x4, 1, 0x4, 1, false, [
    ⟨28, 4, .rsvd, .val 0, .any⟩,
    ⟨2, 26, .rsvd, .val 0, .any⟩,
    ⟨1, 1, .wo, .val 0, .any⟩,
    ⟨0, 1, .wo, .val 0, .any⟩]⟩,
  -- DRW_GOLD_BASE_LO/_HI
  ⟨0xB0, 0x4, 1, 0x4, 1, true, [
    ⟨40, 24, .rsvd, .val 0, .any⟩,
    ⟨32, 8, .rwl, .val 0, .any⟩,
    ⟨0, 32, .rwl, .val 0, .align 5⟩]⟩,
  -- DRW_GOLD_COUNT
  ⟨0xB8, 0x4, 1, 0x4, 1, false, [
    ⟨16, 16, .rsvd, .val 0, .any⟩,
    ⟨0, 16, .rwl, .val 1, .range 1 65535⟩]⟩,
  -- DRW_GOLD_CTL
  ⟨0xBC, 0x4, 1, 0x4, 1, false, [
    ⟨2, 30, .rsvd, .val 0, .any⟩,
    ⟨1, 1, .w1c, .val 0, .any⟩,
    ⟨0, 1, .rwl, .val 0, .any⟩]⟩,
  -- DRW_ROW_STATUS
  ⟨0xD0, 0x4, 1, 0x4, 1, false, [
    ⟨16, 16, .rc, .val 0, .any⟩,
    ⟨0, 16, .rc, .val 0, .any⟩]⟩
  ]

/-- Registers of the VEC_ block (R231). -/
def vecRegs : List RegDesc := [
  -- VEC_CTL
  ⟨0x10, 0x4, 1, 0x4, 1, false, [
    ⟨16, 16, .rsvd, .val 0, .any⟩,
    ⟨12, 4, .rsvd, .val 0, .any⟩,
    ⟨11, 1, .wo, .val 0, .any⟩,
    ⟨10, 1, .w1s, .val 0, .any⟩,
    ⟨1, 9, .rsvd, .val 0, .any⟩,
    ⟨0, 1, .rw, .val 0, .any⟩]⟩,
  -- VEC_PAIR_CTL
  ⟨0x14, 0x4, 1, 0x4, 1, false, [
    ⟨28, 4, .rsvd, .val 0, .any⟩,
    ⟨9, 19, .rsvd, .val 0, .any⟩,
    ⟨8, 1, .rw, .val 0, .dyn .pairReq⟩,
    ⟨4, 4, .rsvd, .val 0, .any⟩,
    ⟨2, 2, .ro, .val 0, .any⟩,
    ⟨1, 1, .ro, .unitMod2, .any⟩,
    ⟨0, 1, .ro, .val 0, .any⟩]⟩,
  -- VEC_STATUS
  ⟨0x18, 0x4, 1, 0x4, 1, false, [
    ⟨20, 12, .ro, .val 0, .any⟩,
    ⟨5, 15, .rsvd, .val 0, .any⟩,
    ⟨4, 1, .ro, .val 0, .any⟩,
    ⟨3, 1, .ro, .val 0, .any⟩,
    ⟨2, 1, .ro, .val 0, .any⟩,
    ⟨1, 1, .ro, .val 0, .any⟩,
    ⟨0, 1, .ro, .val 0, .any⟩]⟩,
  -- VEC_LIST_BASE_LO/_HI
  ⟨0x20, 0x4, 1, 0x4, 1, true, [
    ⟨40, 24, .rsvd, .val 0, .any⟩,
    ⟨32, 8, .rw, .val 0, .any⟩,
    ⟨0, 32, .rw, .val 0, .align 5⟩]⟩,
  -- VEC_LIST_CNT
  ⟨0x28, 0x4, 1, 0x4, 1, false, [
    ⟨16, 16, .ro, .val 0, .any⟩,
    ⟨0, 16, .rw, .val 1, .range 1 65535⟩]⟩,
  -- VEC_RES
  ⟨0x40, 0x4, 1, 0x4, 1, false, [
    ⟨16, 16, .rc, .val 0, .any⟩,
    ⟨12, 4, .rsvd, .val 0, .any⟩,
    ⟨11, 1, .w1c, .val 0, .any⟩,
    ⟨9, 2, .rsvd, .val 0, .any⟩,
    ⟨8, 1, .wo, .val 0, .any⟩,
    ⟨2, 6, .rsvd, .val 0, .any⟩,
    ⟨1, 1, .rwl, .val 1, .any⟩,
    ⟨0, 1, .rwl, .val 1, .any⟩]⟩,
  -- VEC_EVT_STATUS
  ⟨0x50, 0x4, 1, 0x4, 1, false, [
    ⟨7, 25, .rsvd, .val 0, .any⟩,
    ⟨6, 1, .w1c, .val 0, .any⟩,
    ⟨5, 1, .w1c, .val 0, .any⟩,
    ⟨4, 1, .w1c, .val 0, .any⟩,
    ⟨3, 1, .w1c, .val 0, .any⟩,
    ⟨2, 1, .w1c, .val 0, .any⟩,
    ⟨1, 1, .w1c, .val 0, .any⟩,
    ⟨0, 1, .w1c, .val 0, .any⟩]⟩,
  -- VEC_EVT_EN
  ⟨0x54, 0x4, 1, 0x4, 1, false, [
    ⟨7, 25, .rsvd, .val 0, .any⟩,
    ⟨6, 1, .rw, .val 0, .any⟩,
    ⟨5, 1, .rw, .val 0, .any⟩,
    ⟨4, 1, .rw, .val 0, .any⟩,
    ⟨3, 1, .rw, .val 0, .any⟩,
    ⟨2, 1, .rw, .val 0, .any⟩,
    ⟨1, 1, .rw, .val 0, .any⟩,
    ⟨0, 1, .rw, .val 0, .any⟩]⟩,
  -- VEC_SIG_LO/_HI
  ⟨0x60, 0x4, 1, 0x4, 1, true, [
    ⟨32, 32, .ro, .val 0, .any⟩,
    ⟨0, 32, .ro, .val 0, .any⟩]⟩,
  -- VEC_SIG_SEQ
  ⟨0x68, 0x4, 1, 0x4, 1, false, [
    ⟨0, 32, .ro, .val 0, .any⟩]⟩,
  -- VEC_STALL
  ⟨0x78, 0x4, 1, 0x4, 1, false, [
    ⟨0, 32, .rc, .val 0, .any⟩]⟩,
  -- VEC_REFUSE
  ⟨0x90, 0x4, 1, 0x4, 1, false, [
    ⟨24, 8, .ro, .val 0, .any⟩,
    ⟨16, 8, .rsvd, .val 0, .any⟩,
    ⟨0, 16, .ro, .val 0, .any⟩]⟩,
  -- VEC_DUP
  ⟨0xA0, 0x4, 1, 0x4, 1, false, [
    ⟨16, 16, .rc, .val 0, .any⟩,
    ⟨9, 7, .rsvd, .val 0, .any⟩,
    ⟨8, 1, .ro, .val 0, .any⟩,
    ⟨2, 6, .rsvd, .val 0, .any⟩,
    ⟨1, 1, .wo, .val 0, .any⟩,
    ⟨0, 1, .wo, .val 0, .any⟩]⟩,
  -- VEC_GOLD_BASE_LO/_HI
  ⟨0xB0, 0x4, 1, 0x4, 1, true, [
    ⟨40, 24, .rsvd, .val 0, .any⟩,
    ⟨32, 8, .rwl, .val 0, .any⟩,
    ⟨0, 32, .rwl, .val 0, .align 5⟩]⟩,
  -- VEC_GOLD_CTL
  ⟨0xB8, 0x4, 1, 0x4, 1, false, [
    ⟨16, 16, .rwl, .val 1, .range 1 65535⟩,
    ⟨2, 14, .rsvd, .val 0, .any⟩,
    ⟨1, 1, .w1c, .val 0, .any⟩,
    ⟨0, 1, .rwl, .val 0, .any⟩]⟩
  ]

/-- Registers of the PPU_ block (R231). -/
def ppuRegs : List RegDesc := [
  -- PPU_CTL
  ⟨0x10, 0x1000, 2, 0x4, 1, false, [
    ⟨16, 16, .rsvd, .val 0, .any⟩,
    ⟨12, 4, .rsvd, .val 0, .any⟩,
    ⟨11, 1, .wo, .val 0, .any⟩,
    ⟨10, 1, .w1s, .val 0, .any⟩,
    ⟨1, 9, .rsvd, .val 0, .any⟩,
    ⟨0, 1, .rw, .val 0, .any⟩]⟩,
  -- PPU_PAIR_CTL
  ⟨0x14, 0x1000, 2, 0x4, 1, false, [
    ⟨28, 4, .rsvd, .val 0, .any⟩,
    ⟨9, 19, .rsvd, .val 0, .any⟩,
    ⟨8, 1, .rw, .val 0, .dyn .pairReq⟩,
    ⟨4, 4, .rsvd, .val 0, .any⟩,
    ⟨2, 2, .ro, .val 0, .any⟩,
    ⟨1, 1, .ro, .unitMod2, .any⟩,
    ⟨0, 1, .ro, .val 0, .any⟩]⟩,
  -- PPU_STATUS
  ⟨0x18, 0x1000, 2, 0x4, 1, false, [
    ⟨20, 12, .ro, .val 0, .any⟩,
    ⟨5, 15, .rsvd, .val 0, .any⟩,
    ⟨4, 1, .ro, .val 0, .any⟩,
    ⟨3, 1, .ro, .val 0, .any⟩,
    ⟨2, 1, .ro, .val 0, .any⟩,
    ⟨1, 1, .ro, .val 0, .any⟩,
    ⟨0, 1, .ro, .val 0, .any⟩]⟩,
  -- PPU_LIST_BASE_LO/_HI
  ⟨0x20, 0x1000, 2, 0x4, 1, true, [
    ⟨40, 24, .rsvd, .val 0, .any⟩,
    ⟨32, 8, .rw, .val 0, .any⟩,
    ⟨0, 32, .rw, .val 0, .align 5⟩]⟩,
  -- PPU_LIST_CNT
  ⟨0x28, 0x1000, 2, 0x4, 1, false, [
    ⟨16, 16, .ro, .val 0, .any⟩,
    ⟨0, 16, .rw, .val 1, .range 1 65535⟩]⟩,
  -- PPU_EVT_STATUS
  ⟨0x50, 0x1000, 2, 0x4, 1, false, [
    ⟨7, 25, .rsvd, .val 0, .any⟩,
    ⟨6, 1, .w1c, .val 0, .any⟩,
    ⟨5, 1, .w1c, .val 0, .any⟩,
    ⟨4, 1, .w1c, .val 0, .any⟩,
    ⟨3, 1, .w1c, .val 0, .any⟩,
    ⟨2, 1, .w1c, .val 0, .any⟩,
    ⟨1, 1, .w1c, .val 0, .any⟩,
    ⟨0, 1, .w1c, .val 0, .any⟩]⟩,
  -- PPU_EVT_EN
  ⟨0x54, 0x1000, 2, 0x4, 1, false, [
    ⟨7, 25, .rsvd, .val 0, .any⟩,
    ⟨6, 1, .rw, .val 0, .any⟩,
    ⟨5, 1, .rw, .val 0, .any⟩,
    ⟨4, 1, .rw, .val 0, .any⟩,
    ⟨3, 1, .rw, .val 0, .any⟩,
    ⟨2, 1, .rw, .val 0, .any⟩,
    ⟨1, 1, .rw, .val 0, .any⟩,
    ⟨0, 1, .rw, .val 0, .any⟩]⟩,
  -- PPU_SIG_LO/_HI
  ⟨0x60, 0x1000, 2, 0x4, 1, true, [
    ⟨32, 32, .ro, .val 0, .any⟩,
    ⟨0, 32, .ro, .val 0, .any⟩]⟩,
  -- PPU_SIG_SEQ
  ⟨0x68, 0x1000, 2, 0x4, 1, false, [
    ⟨0, 32, .ro, .val 0, .any⟩]⟩,
  -- PPU_STALL
  ⟨0x78, 0x1000, 2, 0x4, 1, false, [
    ⟨0, 32, .rc, .val 0, .any⟩]⟩,
  -- PPU_REFUSE
  ⟨0x90, 0x1000, 2, 0x4, 1, false, [
    ⟨24, 8, .ro, .val 0, .any⟩,
    ⟨16, 8, .rsvd, .val 0, .any⟩,
    ⟨0, 16, .ro, .val 0, .any⟩]⟩,
  -- PPU_DUP
  ⟨0xA0, 0x1000, 2, 0x4, 1, false, [
    ⟨16, 16, .rc, .val 0, .any⟩,
    ⟨9, 7, .rsvd, .val 0, .any⟩,
    ⟨8, 1, .ro, .val 0, .any⟩,
    ⟨2, 6, .rsvd, .val 0, .any⟩,
    ⟨1, 1, .wo, .val 0, .any⟩,
    ⟨0, 1, .wo, .val 0, .any⟩]⟩,
  -- PPU_GOLD_BASE_LO/_HI
  ⟨0xB0, 0x1000, 2, 0x4, 1, true, [
    ⟨40, 24, .rsvd, .val 0, .any⟩,
    ⟨32, 8, .rwl, .val 0, .any⟩,
    ⟨0, 32, .rwl, .val 0, .align 5⟩]⟩,
  -- PPU_GOLD_CTL
  ⟨0xB8, 0x1000, 2, 0x4, 1, false, [
    ⟨16, 16, .rwl, .val 1, .range 1 65535⟩,
    ⟨2, 14, .rsvd, .val 0, .any⟩,
    ⟨1, 1, .w1c, .val 0, .any⟩,
    ⟨0, 1, .rwl, .val 0, .any⟩]⟩,
  -- PPU_RESULT
  ⟨0xD0, 0x1000, 2, 0x4, 1, false, [
    ⟨16, 16, .rc, .val 0, .any⟩,
    ⟨0, 16, .rc, .val 0, .any⟩]⟩
  ]

/-- Registers of the EMB_ block (R396). -/
def embRegs : List RegDesc := [
  -- EMB_CTL
  ⟨0x10, 0x4, 1, 0x4, 1, false, [
    ⟨28, 4, .rsvd, .val 0, .any⟩,
    ⟨1, 27, .rsvd, .val 0, .any⟩,
    ⟨0, 1, .rwl, .val 0, .any⟩]⟩,
  -- EMB_OFFSET
  ⟨0x14, 0x4, 1, 0x4, 1, false, [
    ⟨18, 14, .rsvd, .val 0, .any⟩,
    ⟨0, 18, .rw, .val 0, .range 0 199999⟩]⟩,
  -- EMB_DEADLINE
  ⟨0x18, 0x4, 1, 0x4, 1, false, [
    ⟨18, 14, .rsvd, .val 0, .any⟩,
    ⟨0, 18, .rw, .val 199999, .range 0 199999⟩]⟩,
  -- EMB_IN
  ⟨0x1C, 0x4, 1, 0x4, 1, false, [
    ⟨24, 8, .rsvd, .val 0, .any⟩,
    ⟨0, 24, .rw, .val 0, .any⟩]⟩,
  -- EMB_OUT_LO/_HI
  ⟨0x20, 0x4, 1, 0x4, 1, true, [
    ⟨40, 24, .rsvd, .val 0, .any⟩,
    ⟨32, 8, .rw, .val 0, .any⟩,
    ⟨0, 32, .rw, .val 0, .align 17⟩]⟩,
  -- EMB_RESULT
  ⟨0x28, 0x4, 1, 0x4, 1, false, [
    ⟨17, 15, .rsvd, .val 0, .any⟩,
    ⟨0, 17, .ro, .val 0, .any⟩]⟩,
  -- EMB_DEG
  ⟨0x2C, 0x4, 1, 0x4, 1, false, [
    ⟨1, 31, .rsvd, .val 0, .any⟩,
    ⟨0, 1, .rwl, .val 0, .any⟩]⟩,
  -- EMB_DEG_TAG
  ⟨0x30, 0x4, 1, 0x4, 1, false, [
    ⟨0, 32, .rw, .val 0, .any⟩]⟩,
  -- EMB_STATUS
  ⟨0x34, 0x4, 1, 0x4, 1, false, [
    ⟨29, 3, .ro, .val 0, .any⟩,
    ⟨28, 1, .ro, .val 0, .any⟩,
    ⟨24, 4, .rsvd, .val 0, .any⟩,
    ⟨16, 8, .rc, .val 0, .any⟩,
    ⟨8, 8, .rc, .val 0, .any⟩,
    ⟨0, 8, .rc, .val 0, .any⟩]⟩,
  -- EMB_LAST_STRIKE
  ⟨0x38, 0x4, 1, 0x4, 1, false, [
    ⟨0, 32, .ro, .val 0, .any⟩]⟩,
  -- EMB_LAST_AGE
  ⟨0x3C, 0x4, 1, 0x4, 1, false, [
    ⟨0, 32, .ro, .val 0, .any⟩]⟩
  ]

/-- Registers of the SNT_ block (R482). -/
def sntRegs : List RegDesc := [
  -- SNT_CTL
  ⟨0x10, 0x4, 1, 0x4, 1, false, [
    ⟨28, 4, .rsvd, .val 0, .any⟩,
    ⟨8, 20, .rsvd, .val 0, .any⟩,
    ⟨7, 1, .rw, .val 1, .any⟩,
    ⟨6, 1, .rw, .val 1, .any⟩,
    ⟨5, 1, .rw, .val 0, .any⟩,
    ⟨4, 1, .rwl, .val 1, .any⟩,
    ⟨3, 1, .rw, .val 0, .any⟩,
    ⟨2, 1, .rw, .val 0, .any⟩,
    ⟨1, 1, .rw, .val 1, .any⟩,
    ⟨0, 1, .rw, .val 1, .any⟩]⟩,
  -- SNT_CAM_CFG
  ⟨0x14, 0x4, 1, 0x4, 1, false, [
    ⟨24, 8, .rw, .val 32, .range 1 255⟩,
    ⟨16, 8, .rw, .val 5, .range 1 60⟩,
    ⟨4, 12, .rsvd, .val 0, .any⟩,
    ⟨0, 4, .rw, .val 0, .any⟩]⟩,
  -- SNT_ACC_CFG
  ⟨0x18, 0x4, 1, 0x4, 1, false, [
    ⟨16, 16, .rw, .val 300, .range 50 8000⟩,
    ⟨8, 8, .rsvd, .val 0, .any⟩,
    ⟨0, 8, .rw, .val 50, .range 10 200⟩]⟩,
  -- SNT_PROOF
  ⟨0x1C, 0x4, 1, 0x4, 1, false, [
    ⟨10, 22, .rsvd, .val 0, .any⟩,
    ⟨0, 10, .rwl, .val 720, .range 60 720⟩]⟩,
  -- SNT_SUPPLY
  ⟨0x20, 0x4, 1, 0x4, 1, false, [
    ⟨16, 16, .rsvd, .val 0, .any⟩,
    ⟨0, 16, .rw, .val 360, .range 300 480⟩]⟩,
  -- SNT_WAKE
  ⟨0x24, 0x4, 1, 0x4, 1, false, [
    ⟨24, 8, .rsvd, .val 0, .any⟩,
    ⟨16, 8, .rc, .val 0, .any⟩,
    ⟨7, 9, .rsvd, .val 0, .any⟩,
    ⟨0, 7, .ro, .val 0, .any⟩]⟩,
  -- SNT_PARK_LO/_HI
  ⟨0x28, 0x4, 1, 0x4, 1, true, [
    ⟨32, 32, .ro, .val 0, .any⟩,
    ⟨0, 32, .ro, .val 0, .any⟩]⟩
  ]

/-- Registers of the PRC_ block (R483). -/
def prcRegs : List RegDesc := [
  -- PRC_MODE
  ⟨0x10, 0x4, 1, 0x4, 1, false, [
    ⟨30, 2, .ro, .val 0, .any⟩,
    ⟨29, 1, .ro, .val 0, .any⟩,
    ⟨24, 5, .rsvd, .val 0, .any⟩,
    ⟨20, 4, .ro, .val 0, .any⟩,
    ⟨6, 14, .rsvd, .val 0, .any⟩,
    ⟨5, 1, .w1s, .val 0, .dyn .poolScrub⟩,
    ⟨4, 1, .ro, .held, .any⟩,
    ⟨3, 1, .rwl, .val 0, .any⟩,
    ⟨2, 1, .rsvd, .val 0, .any⟩,
    ⟨0, 2, .rw, .val 0, .any⟩]⟩,
  -- PRC_RESET
  ⟨0x14, 0x4, 1, 0x4, 1, false, [
    ⟨16, 16, .rsvd, .val 0, .any⟩,
    ⟨8, 8, .wo, .val 0, .any⟩,
    ⟨2, 6, .rsvd, .val 0, .any⟩,
    ⟨1, 1, .wo, .val 0, .any⟩,
    ⟨0, 1, .wo, .val 0, .any⟩]⟩,
  -- PRC_CAP
  ⟨0x18, 0x4, 1, 0x4, 1, false, [
    ⟨25, 7, .rsvd, .val 0, .any⟩,
    ⟨16, 9, .rwl, .codeMax, .dyn .depotW⟩,
    ⟨9, 7, .rsvd, .val 0, .any⟩,
    ⟨0, 9, .rwl, .val 220, .range 100 220⟩]⟩,
  -- PRC_POWER
  ⟨0x1C, 0x4, 1, 0x4, 1, false, [
    ⟨16, 16, .ro, .val 0, .any⟩,
    ⟨0, 16, .ro, .val 0, .any⟩]⟩,
  -- PRC_THERMAL
  ⟨0x20, 0x4, 1, 0x4, 1, false, [
    ⟨16, 16, .ro, .val 0, .any⟩,
    ⟨9, 7, .rsvd, .val 0, .any⟩,
    ⟨0, 9, .ro, .val 220, .any⟩]⟩,
  -- PRC_OVER
  ⟨0x24, 0x4, 1, 0x4, 1, false, [
    ⟨16, 16, .rc, .val 0, .any⟩,
    ⟨0, 16, .rc, .val 0, .any⟩]⟩,
  -- PRC_BOOT
  ⟨0x28, 0x4, 1, 0x4, 1, false, [
    ⟨12, 20, .rsvd, .val 0, .any⟩,
    ⟨10, 2, .ro, .held, .any⟩,
    ⟨8, 2, .ro, .held, .any⟩,
    ⟨5, 3, .rsvd, .val 0, .any⟩,
    ⟨4, 1, .w1s, .val 0, .any⟩,
    ⟨3, 1, .w1s, .val 0, .any⟩,
    ⟨1, 2, .rsvd, .val 0, .any⟩,
    ⟨0, 1, .w1s, .val 0, .any⟩]⟩,
  -- PRC_HANDOVER
  ⟨0x2C, 0x4, 1, 0x4, 1, false, [
    ⟨28, 4, .ro, .val 0, .any⟩,
    ⟨20, 8, .rsvd, .val 0, .any⟩,
    ⟨0, 20, .ro, .val 0, .any⟩]⟩
  ]

/-- Registers of the SNP_ block (R428). -/
def snpRegs : List RegDesc := [
  -- SNP_CTL
  ⟨0x10, 0x4, 1, 0x4, 1, false, [
    ⟨10, 22, .rsvd, .val 0, .any⟩,
    ⟨9, 1, .rw, .val 0, .any⟩,
    ⟨8, 1, .rw, .val 1, .any⟩,
    ⟨2, 6, .rsvd, .val 0, .any⟩,
    ⟨1, 1, .wo, .val 0, .any⟩,
    ⟨0, 1, .rw, .val 1, .any⟩]⟩,
  -- SNP_STATUS
  ⟨0x14, 0x4, 1, 0x4, 1, false, [
    ⟨31, 1, .w1c, .val 0, .any⟩,
    ⟨28, 3, .ro, .val 0, .any⟩,
    ⟨8, 20, .rsvd, .val 0, .any⟩,
    ⟨0, 8, .rc, .val 0, .any⟩]⟩,
  -- SNP_TIME_LO/_HI
  ⟨0x18, 0x4, 1, 0x4, 1, true, [
    ⟨32, 32, .ro, .val 0, .any⟩,
    ⟨0, 32, .ro, .val 0, .any⟩]⟩,
  -- SNP_CURSOR
  ⟨0x20, 0x4, 1, 0x4, 1, false, [
    ⟨31, 1, .rw, .val 0, .any⟩,
    ⟨27, 4, .rw, .val 0, .any⟩,
    ⟨12, 15, .rsvd, .val 0, .any⟩,
    ⟨0, 12, .rw, .val 0, .any⟩]⟩,
  -- SNP_WINDOW
  ⟨0x24, 0x4, 1, 0x4, 1, false, [
    ⟨0, 32, .ro, .val 0, .any⟩]⟩,
  -- SNP_DUMP
  ⟨0x30, 0x4, 1, 0x4, 1, false, [
    ⟨12, 20, .rsvd, .val 0, .any⟩,
    ⟨8, 4, .ro, .held, .any⟩,
    ⟨3, 5, .rsvd, .val 0, .any⟩,
    ⟨2, 1, .w1c, .val 0, .any⟩,
    ⟨1, 1, .ro, .val 0, .any⟩,
    ⟨0, 1, .wo, .val 0, .any⟩]⟩
  ]

/-- The registers of a block, its identity register first. -/
def Blk.regs : Blk → List RegDesc
  | .top => blockIdReg :: topRegs
  | .hrt => blockIdReg :: hrtRegs
  | .hic => blockIdReg :: hicRegs
  | .tim => blockIdReg :: timRegs
  | .sfi => blockIdReg :: sfiRegs
  | .fcl => blockIdReg :: fclRegs
  | .evr => blockIdReg :: evrRegs
  | .blw => blockIdReg :: blwRegs
  | .tng => blockIdReg :: tngRegs
  | .mem => blockIdReg :: memRegs
  | .cru => blockIdReg :: cruRegs
  | .fwl => blockIdReg :: fwlRegs
  | .nlk => blockIdReg :: nlkRegs
  | .pci => blockIdReg :: pciRegs
  | .eth => blockIdReg :: ethRegs
  | .dgt => blockIdReg :: dgtRegs
  | .anv => blockIdReg :: anvRegs
  | .drw => blockIdReg :: drwRegs
  | .vec => blockIdReg :: vecRegs
  | .ppu => blockIdReg :: ppuRegs
  | .emb => blockIdReg :: embRegs
  | .snt => blockIdReg :: sntRegs
  | .prc => blockIdReg :: prcRegs
  | .snp => blockIdReg :: snpRegs

/-- Base of the register window (R33). -/
def regBase : Nat := 0x3000000000

/-- Last address of the register window (R33). -/
def regTop : Nat := 0x303FFFFFFF

/-- Fixed blocks of R37 by megabyte. -/
def fixedBlock (i : Nat) : Option Blk :=
  match i with
  | 0 => some .top | 1 => some .hrt | 2 => some .hic | 3 => some .tim | 4 => some .sfi | 5 => some .fcl
  | 6 => some .evr | 7 => some .blw | 8 => some .tng | 9 => some .mem | 10 => some .cru | 11 => some .fwl
  | 12 => some .nlk | 13 => some .pci | 14 => some .eth | 15 => some .dgt
  | 0x22 => some .ppu | 0x23 => some .emb | 0x24 => some .snt | 0x25 => some .prc | 0x26 => some .snp
  | _ => none

/-- Where an address of the window lies: block, unit of an indexed block, offset in the block (R37). -/
def locate (a : Nat) : Option (Blk × Nat × Nat) :=
  if a < regBase then none
  else
    let o := a - regBase
    if o < 0x1000000 then (fixedBlock (o / 0x100000)).map (fun b => (b, 0, o % 0x100000))
    else if o < 0x1400000 then some (.anv, (o - 0x1000000) / 0x10000, o % 0x10000)
    else if 0x2000000 ≤ o ∧ o < 0x2040000 then some (.drw, (o - 0x2000000) / 0x10000, o % 0x10000)
    else if 0x2100000 ≤ o ∧ o < 0x2180000 then some (.vec, (o - 0x2100000) / 0x10000, o % 0x10000)
    else if 0x2200000 ≤ o ∧ o < 0x2700000 then (fixedBlock (o / 0x100000)).map (fun b => (b, 0, o % 0x100000))
    else none

/-- The unit indices (outer, inner) of the copy of a register at an offset; `hi` selects the `_HI` word of a pair. -/
def RegDesc.hit (d : RegDesc) (o : Nat) (hi : Bool) : Option (Nat × Nat) :=
  let first := d.off + (if hi then 4 else 0)
  if o < first then none
  else
    let x := o - first
    let i := x / d.stride1
    let r := x % d.stride1
    let j := r / d.stride2
    if d.count1 ≤ i ∨ d.count2 ≤ j ∨ r % d.stride2 ≠ 0 then none else some (i, j)

/-- What the map says of an address: block, unit, descriptor, indices, and whether it is the `_HI` word of a pair. -/
structure RegHit where
  blk : Blk
  unit : Nat
  off : Nat
  desc : RegDesc
  i : Nat
  j : Nat
  hi : Bool
  deriving DecidableEq, Repr

/-- Search of a block's registers. -/
def findReg (b : Blk) (u o : Nat) : List RegDesc → Option RegHit
  | [] => none
  | d :: ds =>
    match d.hit o false with
    | some (i, j) => some ⟨b, u, o, d, i, j, false⟩
    | none =>
      match (if d.pair then d.hit o true else none) with
      | some (i, j) => some ⟨b, u, o, d, i, j, true⟩
      | none => findReg b u o ds

/-- The register at an address, if any (R38). -/
def regAt (a : Nat) : Option RegHit :=
  match locate a with
  | none => none
  | some (b, u, o) => if o % 4 = 0 then findReg b u o b.regs else none

/-- The unit a register belongs to: the block's, or the post-processing unit of its offset (R231). -/
def RegHit.unitNo (h : RegHit) : Nat := match h.blk with | .ppu => h.i | _ => h.unit

/-- Reset value of one field in one copy of a register. -/
def RegHit.fieldReset (h : RegHit) (f : FieldDesc) : Nat :=
  match f.reset with
  | .val n => n
  | .type => h.blk.type
  | .unit => h.unit
  | .unitMod2 => h.unitNo % 2
  | .ctx0 a b => if h.i = 0 then a else b
  | .codeMax => 320
  | .held => 0

/-- Reset value of all fields, as one 32- or 64-bit number. -/
def RegHit.resetValue (h : RegHit) : Nat :=
  h.desc.fields.foldl (fun v f => v + (h.fieldReset f <<< f.lsb)) 0

/-- What an unlisted register word reads as: its reset value (0 where the window holds no register, R38). -/
def resetWord (a : Nat) : Word :=
  match regAt a with
  | none => 0
  | some h => BitVec.ofNat 32 (if h.hi then h.resetValue >>> 32 else h.resetValue)

/-- A named field of one register. -/
structure FRef where
  addr : Nat
  lsb : Nat
  width : Nat
  deriving DecidableEq, Repr

namespace Reg

def TOP_VERSION : Nat := 0x3000000008
def TOP_VERSION.SELECTED : FRef := ⟨TOP_VERSION, 16, 8⟩
def TOP_VERSION.LOWEST : FRef := ⟨TOP_VERSION, 8, 8⟩
def TOP_VERSION.HIGHEST : FRef := ⟨TOP_VERSION, 0, 8⟩
def TOP_IDENT : Nat := 0x3000000010
def TOP_IDENT.CODE : FRef := ⟨TOP_IDENT, 24, 4⟩
def TOP_IDENT.DRAM_GIB : FRef := ⟨TOP_IDENT, 16, 8⟩
def TOP_IDENT.ACLK_MHZ : FRef := ⟨TOP_IDENT, 0, 12⟩
def TOP_ANV_MASK_LO : Nat := 0x3000000014
def TOP_ANV_MASK_LO.MASK_LO : FRef := ⟨TOP_ANV_MASK_LO, 0, 32⟩
def TOP_ANV_MASK_HI : Nat := 0x3000000018
def TOP_ANV_MASK_HI.MASK_HI : FRef := ⟨TOP_ANV_MASK_HI, 0, 32⟩
def TOP_LOCK : Nat := 0x3000000020
def TOP_LOCK.LOCK : FRef := ⟨TOP_LOCK, 0, 1⟩
def TOP_RPT_DROP : Nat := 0x3000000024
def TOP_RPT_DROP.CNT : FRef := ⟨TOP_RPT_DROP, 0, 16⟩
def TOP_BOOT : Nat := 0x3000000030
def TOP_BOOT.CAUSE : FRef := ⟨TOP_BOOT, 28, 4⟩
def TOP_BOOT.SECVER : FRef := ⟨TOP_BOOT, 8, 6⟩
def TOP_BOOT.SLOT : FRef := ⟨TOP_BOOT, 0, 1⟩
def TOP_SEC : Nat := 0x3000000034
def TOP_SEC.MIN_SECVER : FRef := ⟨TOP_SEC, 4, 6⟩
def TOP_SEC.REVOKED : FRef := ⟨TOP_SEC, 0, 4⟩
def TOP_IMG_SEQ : Nat := 0x3000000038
def TOP_IMG_SEQ.SEQ : FRef := ⟨TOP_IMG_SEQ, 0, 32⟩
def HRT_CTL : Nat := 0x3000100010
def HRT_CTL.ENABLE : FRef := ⟨HRT_CTL, 0, 1⟩
def HRT_EVT_STATUS : Nat := 0x3000100018
def HRT_EVT_STATUS.QUIESCE_TIMEOUT : FRef := ⟨HRT_EVT_STATUS, 3, 1⟩
def HRT_EVT_STATUS.TEARDOWN_DONE : FRef := ⟨HRT_EVT_STATUS, 2, 1⟩
def HRT_EVT_STATUS.BAD_DOORBELL : FRef := ⟨HRT_EVT_STATUS, 1, 1⟩
def HRT_EVT_STATUS.RPT : FRef := ⟨HRT_EVT_STATUS, 0, 1⟩
def HRT_EVT_EN : Nat := 0x300010001C
def HRT_EVT_EN.QUIESCE_TIMEOUT : FRef := ⟨HRT_EVT_EN, 3, 1⟩
def HRT_EVT_EN.TEARDOWN_DONE : FRef := ⟨HRT_EVT_EN, 2, 1⟩
def HRT_EVT_EN.BAD_DOORBELL : FRef := ⟨HRT_EVT_EN, 1, 1⟩
def HRT_EVT_EN.RPT : FRef := ⟨HRT_EVT_EN, 0, 1⟩
def HRT_RPT_BASE_LO : Nat := 0x3000100020
def HRT_RPT_BASE_LO.ADDR_LO : FRef := ⟨HRT_RPT_BASE_LO, 0, 32⟩
def HRT_RPT_BASE_HI : Nat := 0x3000100024
def HRT_RPT_BASE_HI.ADDR_HI : FRef := ⟨HRT_RPT_BASE_HI, 0, 8⟩
def HRT_RPT_CTL : Nat := 0x3000100028
def HRT_RPT_CTL.ENABLE : FRef := ⟨HRT_RPT_CTL, 8, 1⟩
def HRT_RPT_CTL.LOG2 : FRef := ⟨HRT_RPT_CTL, 0, 5⟩
def HRT_RPT_IDX : Nat := 0x300010002C
def HRT_RPT_IDX.TAIL : FRef := ⟨HRT_RPT_IDX, 16, 16⟩
def HRT_RPT_IDX.HEAD : FRef := ⟨HRT_RPT_IDX, 0, 16⟩
def HRT_CTX_CTL (i : Nat) : Nat := 0x3000101000 + i * 0x100
def HRT_CTX_CTL.PRIO_CEIL (i : Nat) : FRef := ⟨HRT_CTX_CTL i, 8, 3⟩
def HRT_CTX_CTL.SCRUB_DONE (i : Nat) : FRef := ⟨HRT_CTX_CTL i, 2, 1⟩
def HRT_CTX_CTL.TEARDOWN (i : Nat) : FRef := ⟨HRT_CTX_CTL i, 1, 1⟩
def HRT_CTX_CTL.ENABLE (i : Nat) : FRef := ⟨HRT_CTX_CTL i, 0, 1⟩
def HRT_CTX_STATUS (i : Nat) : Nat := 0x3000101004 + i * 0x100
def HRT_CTX_STATUS.GEN (i : Nat) : FRef := ⟨HRT_CTX_STATUS i, 16, 16⟩
def HRT_CTX_STATUS.JOBS (i : Nat) : FRef := ⟨HRT_CTX_STATUS i, 4, 9⟩
def HRT_CTX_STATUS.STATE (i : Nat) : FRef := ⟨HRT_CTX_STATUS i, 0, 2⟩
def HRT_CTX_INFLIGHT (i : Nat) : Nat := 0x3000101008 + i * 0x100
def HRT_CTX_INFLIGHT.COUNT (i : Nat) : FRef := ⟨HRT_CTX_INFLIGHT i, 0, 16⟩
def HRT_CTX_ERR (i : Nat) : Nat := 0x300010100C + i * 0x100
def HRT_CTX_ERR.DB_BAD_CNT (i : Nat) : FRef := ⟨HRT_CTX_ERR i, 16, 16⟩
def HRT_CTX_ERR.REFUSED_CNT (i : Nat) : FRef := ⟨HRT_CTX_ERR i, 0, 16⟩
def HRT_SQ_BASE_LO (i j : Nat) : Nat := 0x3000120000 + i * 0x1000 + j * 0x40
def HRT_SQ_BASE_LO.ADDR_LO (i j : Nat) : FRef := ⟨HRT_SQ_BASE_LO i j, 0, 32⟩
def HRT_SQ_BASE_HI (i j : Nat) : Nat := 0x3000120004 + i * 0x1000 + j * 0x40
def HRT_SQ_BASE_HI.ADDR_HI (i j : Nat) : FRef := ⟨HRT_SQ_BASE_HI i j, 0, 8⟩
def HRT_SQ_CFG (i j : Nat) : Nat := 0x3000120008 + i * 0x1000 + j * 0x40
def HRT_SQ_CFG.ENABLE (i j : Nat) : FRef := ⟨HRT_SQ_CFG i j, 11, 1⟩
def HRT_SQ_CFG.CQ (i j : Nat) : FRef := ⟨HRT_SQ_CFG i j, 8, 3⟩
def HRT_SQ_CFG.LOG2 (i j : Nat) : FRef := ⟨HRT_SQ_CFG i j, 0, 5⟩
def HRT_SQ_IDX (i j : Nat) : Nat := 0x300012000C + i * 0x1000 + j * 0x40
def HRT_SQ_IDX.TAIL (i j : Nat) : FRef := ⟨HRT_SQ_IDX i j, 16, 16⟩
def HRT_SQ_IDX.HEAD (i j : Nat) : FRef := ⟨HRT_SQ_IDX i j, 0, 16⟩
def HRT_CQ_BASE_LO (i j : Nat) : Nat := 0x3000120200 + i * 0x1000 + j * 0x40
def HRT_CQ_BASE_LO.ADDR_LO (i j : Nat) : FRef := ⟨HRT_CQ_BASE_LO i j, 0, 32⟩
def HRT_CQ_BASE_HI (i j : Nat) : Nat := 0x3000120204 + i * 0x1000 + j * 0x40
def HRT_CQ_BASE_HI.ADDR_HI (i j : Nat) : FRef := ⟨HRT_CQ_BASE_HI i j, 0, 8⟩
def HRT_CQ_CFG (i j : Nat) : Nat := 0x3000120208 + i * 0x1000 + j * 0x40
def HRT_CQ_CFG.PHASE (i j : Nat) : FRef := ⟨HRT_CQ_CFG i j, 12, 1⟩
def HRT_CQ_CFG.ENABLE (i j : Nat) : FRef := ⟨HRT_CQ_CFG i j, 11, 1⟩
def HRT_CQ_CFG.LOG2 (i j : Nat) : FRef := ⟨HRT_CQ_CFG i j, 0, 5⟩
def HRT_CQ_MOD (i j : Nat) : Nat := 0x300012020C + i * 0x1000 + j * 0x40
def HRT_CQ_MOD.TIME_US (i j : Nat) : FRef := ⟨HRT_CQ_MOD i j, 16, 16⟩
def HRT_CQ_MOD.COUNT (i j : Nat) : FRef := ⟨HRT_CQ_MOD i j, 0, 16⟩
def HRT_CQ_IDX (i j : Nat) : Nat := 0x3000120210 + i * 0x1000 + j * 0x40
def HRT_CQ_IDX.TAIL (i j : Nat) : FRef := ⟨HRT_CQ_IDX i j, 16, 16⟩
def HRT_CQ_IDX.HEAD (i j : Nat) : FRef := ⟨HRT_CQ_IDX i j, 0, 16⟩
def HIC_CTL : Nat := 0x3000200010
def HIC_CTL.ENABLE : FRef := ⟨HIC_CTL, 0, 1⟩
def HIC_CLAIM (i : Nat) : Nat := 0x3000200100 + i * 0x10
def HIC_CLAIM.VALID (i : Nat) : FRef := ⟨HIC_CLAIM i, 31, 1⟩
def HIC_CLAIM.COUNT (i : Nat) : FRef := ⟨HIC_CLAIM i, 16, 8⟩
def HIC_CLAIM.SOURCE (i : Nat) : FRef := ⟨HIC_CLAIM i, 0, 9⟩
def HIC_COMPLETE (i : Nat) : Nat := 0x3000200104 + i * 0x10
def HIC_COMPLETE.SOURCE (i : Nat) : FRef := ⟨HIC_COMPLETE i, 0, 9⟩
def HIC_THRESH (i : Nat) : Nat := 0x3000200108 + i * 0x10
def HIC_THRESH.LEVEL (i : Nat) : FRef := ⟨HIC_THRESH i, 0, 3⟩
def HIC_XCOMPLETE : Nat := 0x3000200200
def HIC_XCOMPLETE.SOURCE : FRef := ⟨HIC_XCOMPLETE, 0, 9⟩
def HIC_SET : Nat := 0x3000200204
def HIC_SET.SOURCE : FRef := ⟨HIC_SET, 0, 9⟩
def HIC_ERR : Nat := 0x3000200208
def HIC_ERR.BAD_COMPLETE_CNT : FRef := ⟨HIC_ERR, 0, 16⟩
def HIC_SRC_CFG (i : Nat) : Nat := 0x3000201000 + i * 0x4
def HIC_SRC_CFG.ENABLE (i : Nat) : FRef := ⟨HIC_SRC_CFG i, 15, 1⟩
def HIC_SRC_CFG.PRIORITY (i : Nat) : FRef := ⟨HIC_SRC_CFG i, 12, 3⟩
def HIC_SRC_CFG.KIND (i : Nat) : FRef := ⟨HIC_SRC_CFG i, 10, 2⟩
def HIC_SRC_CFG.TARGET (i : Nat) : FRef := ⟨HIC_SRC_CFG i, 0, 8⟩
def HIC_SRC_STATE (i : Nat) : Nat := 0x3000202000 + i * 0x4
def HIC_SRC_STATE.ACTIVE (i : Nat) : FRef := ⟨HIC_SRC_STATE i, 9, 1⟩
def HIC_SRC_STATE.PENDING (i : Nat) : FRef := ⟨HIC_SRC_STATE i, 8, 1⟩
def HIC_SRC_STATE.COUNT (i : Nat) : FRef := ⟨HIC_SRC_STATE i, 0, 8⟩
def TIM_STRIKE_CTL : Nat := 0x3000300010
def TIM_STRIKE_CTL.ALIGN : FRef := ⟨TIM_STRIKE_CTL, 3, 1⟩
def TIM_STRIKE_CTL.BANK : FRef := ⟨TIM_STRIKE_CTL, 2, 1⟩
def TIM_STRIKE_CTL.NEXT_BANK : FRef := ⟨TIM_STRIKE_CTL, 1, 1⟩
def TIM_STRIKE_CTL.RUN : FRef := ⟨TIM_STRIKE_CTL, 0, 1⟩
def TIM_STRIKE_CFG : Nat := 0x3000300014
def TIM_STRIKE_CFG.PERIOD : FRef := ⟨TIM_STRIKE_CFG, 0, 18⟩
def TIM_STRIKE_PHASE : Nat := 0x3000300018
def TIM_STRIKE_PHASE.NS : FRef := ⟨TIM_STRIKE_PHASE, 0, 28⟩
def TIM_STRIKE_START : Nat := 0x300030001C
def TIM_STRIKE_START.NUM : FRef := ⟨TIM_STRIKE_START, 0, 32⟩
def TIM_STRIKE_NUM : Nat := 0x3000300020
def TIM_STRIKE_NUM.NUM : FRef := ⟨TIM_STRIKE_NUM, 0, 32⟩
def TIM_STRIKE_TIME_LO : Nat := 0x3000300024
def TIM_STRIKE_TIME_LO.TIME_LO : FRef := ⟨TIM_STRIKE_TIME_LO, 0, 32⟩
def TIM_STRIKE_TIME_HI : Nat := 0x3000300028
def TIM_STRIKE_TIME_HI.TIME_HI : FRef := ⟨TIM_STRIKE_TIME_HI, 0, 32⟩
def TIM_NOW_LO : Nat := 0x3000300030
def TIM_NOW_LO.NS_LO : FRef := ⟨TIM_NOW_LO, 0, 32⟩
def TIM_NOW_HI : Nat := 0x3000300034
def TIM_NOW_HI.NS_HI : FRef := ⟨TIM_NOW_HI, 0, 32⟩
def TIM_NOW_FRAC : Nat := 0x3000300038
def TIM_NOW_FRAC.FRAC : FRef := ⟨TIM_NOW_FRAC, 0, 32⟩
def TIM_RATE : Nat := 0x3000300040
def TIM_RATE.PPB : FRef := ⟨TIM_RATE, 0, 32⟩
def TIM_GPTP_CTL : Nat := 0x3000300050
def TIM_GPTP_CTL.SYNC_LOG : FRef := ⟨TIM_GPTP_CTL, 12, 4⟩
def TIM_GPTP_CTL.SYNC_TIMEOUT : FRef := ⟨TIM_GPTP_CTL, 8, 4⟩
def TIM_GPTP_CTL.PORT1_ROLE : FRef := ⟨TIM_GPTP_CTL, 6, 2⟩
def TIM_GPTP_CTL.PORT0_ROLE : FRef := ⟨TIM_GPTP_CTL, 4, 2⟩
def TIM_GPTP_CTL.GM : FRef := ⟨TIM_GPTP_CTL, 2, 1⟩
def TIM_GPTP_CTL.STEP_ARM : FRef := ⟨TIM_GPTP_CTL, 1, 1⟩
def TIM_GPTP_CTL.ENABLE : FRef := ⟨TIM_GPTP_CTL, 0, 1⟩
def TIM_GPTP_STATUS : Nat := 0x3000300054
def TIM_GPTP_STATUS.STATE : FRef := ⟨TIM_GPTP_STATUS, 30, 2⟩
def TIM_GPTP_STATUS.CFG_BAD : FRef := ⟨TIM_GPTP_STATUS, 29, 1⟩
def TIM_GPTP_STATUS.STEPPED : FRef := ⟨TIM_GPTP_STATUS, 28, 1⟩
def TIM_GPTP_STATUS.LOST_CNT : FRef := ⟨TIM_GPTP_STATUS, 16, 8⟩
def TIM_GPTP_OFFSET : Nat := 0x3000300058
def TIM_GPTP_OFFSET.NS : FRef := ⟨TIM_GPTP_OFFSET, 0, 32⟩
def TIM_PDELAY : Nat := 0x300030005C
def TIM_PDELAY.PORT1 : FRef := ⟨TIM_PDELAY, 16, 16⟩
def TIM_PDELAY.PORT0 : FRef := ⟨TIM_PDELAY, 0, 16⟩
def TIM_BAR_CTL : Nat := 0x3000300070
def TIM_BAR_CTL.TRIM_MAX : FRef := ⟨TIM_BAR_CTL, 16, 12⟩
def TIM_BAR_CTL.PORT : FRef := ⟨TIM_BAR_CTL, 4, 2⟩
def TIM_BAR_CTL.ROLE : FRef := ⟨TIM_BAR_CTL, 0, 2⟩
def TIM_BAR_STATUS : Nat := 0x3000300074
def TIM_BAR_STATUS.STATE : FRef := ⟨TIM_BAR_STATUS, 29, 3⟩
def TIM_BAR_STATUS.ERR : FRef := ⟨TIM_BAR_STATUS, 0, 16⟩
def TIM_EVT_STATUS : Nat := 0x3000300080
def TIM_EVT_STATUS.DUP : FRef := ⟨TIM_EVT_STATUS, 9, 1⟩
def TIM_EVT_STATUS.BAR_MISMATCH : FRef := ⟨TIM_EVT_STATUS, 8, 1⟩
def TIM_EVT_STATUS.BAR_LOST : FRef := ⟨TIM_EVT_STATUS, 7, 1⟩
def TIM_EVT_STATUS.BAR_LOCKED : FRef := ⟨TIM_EVT_STATUS, 6, 1⟩
def TIM_EVT_STATUS.SYNC_REGAINED : FRef := ⟨TIM_EVT_STATUS, 5, 1⟩
def TIM_EVT_STATUS.SYNC_LOST : FRef := ⟨TIM_EVT_STATUS, 4, 1⟩
def TIM_EVT_STATUS.STEP : FRef := ⟨TIM_EVT_STATUS, 3, 1⟩
def TIM_EVT_STATUS.SKIP : FRef := ⟨TIM_EVT_STATUS, 2, 1⟩
def TIM_EVT_STATUS.BARRIER : FRef := ⟨TIM_EVT_STATUS, 1, 1⟩
def TIM_EVT_STATUS.STRIKE : FRef := ⟨TIM_EVT_STATUS, 0, 1⟩
def TIM_EVT_EN : Nat := 0x3000300084
def TIM_EVT_EN.DUP : FRef := ⟨TIM_EVT_EN, 9, 1⟩
def TIM_EVT_EN.BAR_MISMATCH : FRef := ⟨TIM_EVT_EN, 8, 1⟩
def TIM_EVT_EN.BAR_LOST : FRef := ⟨TIM_EVT_EN, 7, 1⟩
def TIM_EVT_EN.BAR_LOCKED : FRef := ⟨TIM_EVT_EN, 6, 1⟩
def TIM_EVT_EN.SYNC_REGAINED : FRef := ⟨TIM_EVT_EN, 5, 1⟩
def TIM_EVT_EN.SYNC_LOST : FRef := ⟨TIM_EVT_EN, 4, 1⟩
def TIM_EVT_EN.STEP : FRef := ⟨TIM_EVT_EN, 3, 1⟩
def TIM_EVT_EN.SKIP : FRef := ⟨TIM_EVT_EN, 2, 1⟩
def TIM_EVT_EN.BARRIER : FRef := ⟨TIM_EVT_EN, 1, 1⟩
def TIM_EVT_EN.STRIKE : FRef := ⟨TIM_EVT_EN, 0, 1⟩
def TIM_ERR : Nat := 0x3000300088
def TIM_ERR.SKIP_CNT : FRef := ⟨TIM_ERR, 16, 16⟩
def TIM_ERR.DUP_CNT : FRef := ⟨TIM_ERR, 8, 8⟩
def TIM_ERR.MISSED_MARK_CNT : FRef := ⟨TIM_ERR, 0, 8⟩
def TIM_ST_OFFSET (i j : Nat) : Nat := 0x3000310000 + i * 0x1000 + j * 0x20
def TIM_ST_OFFSET.NS (i j : Nat) : FRef := ⟨TIM_ST_OFFSET i j, 0, 28⟩
def TIM_ST_CTRL (i j : Nat) : Nat := 0x3000310004 + i * 0x1000 + j * 0x20
def TIM_ST_CTRL.VALID (i j : Nat) : FRef := ⟨TIM_ST_CTRL i j, 31, 1⟩
def TIM_ST_CTRL.EVENT (i j : Nat) : FRef := ⟨TIM_ST_CTRL i j, 0, 8⟩
def TIM_ST_MASK0 (i j : Nat) : Nat := 0x3000310008 + i * 0x1000 + j * 0x20
def TIM_ST_MASK0.ANVIL_LO (i j : Nat) : FRef := ⟨TIM_ST_MASK0 i j, 0, 32⟩
def TIM_ST_MASK1 (i j : Nat) : Nat := 0x300031000C + i * 0x1000 + j * 0x20
def TIM_ST_MASK1.ANVIL_HI (i j : Nat) : FRef := ⟨TIM_ST_MASK1 i j, 0, 32⟩
def TIM_ST_MASK2 (i j : Nat) : Nat := 0x3000310010 + i * 0x1000 + j * 0x20
def TIM_ST_MASK2.PPU (i j : Nat) : FRef := ⟨TIM_ST_MASK2 i j, 12, 2⟩
def TIM_ST_MASK2.SWAGE (i j : Nat) : FRef := ⟨TIM_ST_MASK2 i j, 4, 8⟩
def TIM_ST_MASK2.DRAW (i j : Nat) : FRef := ⟨TIM_ST_MASK2 i j, 0, 4⟩
def SFI_CTL : Nat := 0x3000400010
def SFI_CTL.ISLAND_DBG : FRef := ⟨SFI_CTL, 8, 1⟩
def SFI_CTL.CAN_SEL : FRef := ⟨SFI_CTL, 4, 2⟩
def SFI_CTL.ARM : FRef := ⟨SFI_CTL, 0, 1⟩
def SFI_STATUS : Nat := 0x3000400014
def SFI_STATUS.STATE : FRef := ⟨SFI_STATUS, 30, 2⟩
def SFI_STATUS.FAULT_PIN : FRef := ⟨SFI_STATUS, 29, 1⟩
def SFI_STATUS.CMP_ST_OK : FRef := ⟨SFI_STATUS, 28, 1⟩
def SFI_STATUS.EMBER_OK : FRef := ⟨SFI_STATUS, 27, 1⟩
def SFI_STATUS.HRT_PAIRED : FRef := ⟨SFI_STATUS, 16, 4⟩
def SFI_STATUS.ARM_BLOCK : FRef := ⟨SFI_STATUS, 0, 6⟩
def SFI_QUENCH_TIME_LO : Nat := 0x3000400018
def SFI_QUENCH_TIME_LO.TIME_LO : FRef := ⟨SFI_QUENCH_TIME_LO, 0, 32⟩
def SFI_QUENCH_TIME_HI : Nat := 0x300040001C
def SFI_QUENCH_TIME_HI.TIME_HI : FRef := ⟨SFI_QUENCH_TIME_HI, 0, 32⟩
def SFI_QUENCH_STRIKE : Nat := 0x3000400020
def SFI_QUENCH_STRIKE.NUM : FRef := ⟨SFI_QUENCH_STRIKE, 0, 32⟩
def SFI_CMP_CTL : Nat := 0x3000400030
def SFI_CMP_CTL.INJ_SLOT : FRef := ⟨SFI_CMP_CTL, 8, 6⟩
def SFI_CMP_CTL.INJ : FRef := ⟨SFI_CMP_CTL, 2, 1⟩
def SFI_CMP_CTL.ST_STRIKE : FRef := ⟨SFI_CMP_CTL, 1, 1⟩
def SFI_CMP_CTL.ST_RUN : FRef := ⟨SFI_CMP_CTL, 0, 1⟩
def SFI_CMP_STATUS : Nat := 0x3000400034
def SFI_CMP_STATUS.MISMATCH_CNT : FRef := ⟨SFI_CMP_STATUS, 24, 8⟩
def SFI_CMP_STATUS.MISSING_CNT : FRef := ⟨SFI_CMP_STATUS, 16, 8⟩
def SFI_CMP_STATUS.LAST_SLOT : FRef := ⟨SFI_CMP_STATUS, 10, 6⟩
def SFI_CMP_STATUS.LAST_KIND : FRef := ⟨SFI_CMP_STATUS, 9, 1⟩
def SFI_CMP_STATUS.ST_FAIL : FRef := ⟨SFI_CMP_STATUS, 8, 1⟩
def SFI_CMP_STATUS.ST_DONE : FRef := ⟨SFI_CMP_STATUS, 7, 1⟩
def SFI_HRT_PAIR : Nat := 0x3000400040
def SFI_HRT_PAIR.STATE : FRef := ⟨SFI_HRT_PAIR, 8, 4⟩
def SFI_HRT_PAIR.REQ : FRef := ⟨SFI_HRT_PAIR, 0, 4⟩
def SFI_HRT_CMP : Nat := 0x3000400044
def SFI_HRT_CMP.MISMATCH_CNT : FRef := ⟨SFI_HRT_CMP, 16, 16⟩
def SFI_HRT_CMP.LAST_REPLAY : FRef := ⟨SFI_HRT_CMP, 2, 1⟩
def SFI_HRT_CMP.LAST_PAIR : FRef := ⟨SFI_HRT_CMP, 0, 2⟩
def SFI_AGE_STATUS : Nat := 0x3000400050
def SFI_AGE_STATUS.BREACH_CNT : FRef := ⟨SFI_AGE_STATUS, 16, 16⟩
def SFI_AGE_STATUS.LAST_ENTRY : FRef := ⟨SFI_AGE_STATUS, 8, 8⟩
def SFI_AGE_STATUS.FTAB_CNT : FRef := ⟨SFI_AGE_STATUS, 0, 8⟩
def SFI_AGE_LAST : Nat := 0x3000400054
def SFI_AGE_LAST.AGE_NS : FRef := ⟨SFI_AGE_LAST, 0, 32⟩
def SFI_WIN_STATUS : Nat := 0x3000400058
def SFI_WIN_STATUS.LATE_CNT : FRef := ⟨SFI_WIN_STATUS, 16, 16⟩
def SFI_WIN_STATUS.NOSTART_CNT : FRef := ⟨SFI_WIN_STATUS, 8, 8⟩
def SFI_WIN_STATUS.EARLY_CNT : FRef := ⟨SFI_WIN_STATUS, 0, 8⟩
def SFI_WIN_LAST : Nat := 0x300040005C
def SFI_WIN_LAST.UNIT : FRef := ⟨SFI_WIN_LAST, 16, 7⟩
def SFI_WIN_LAST.WINDOW : FRef := ⟨SFI_WIN_LAST, 8, 5⟩
def SFI_WIN_LAST.KIND : FRef := ⟨SFI_WIN_LAST, 0, 2⟩
def SFI_EVT_STATUS : Nat := 0x3000400060
def SFI_EVT_STATUS.FIREWALL : FRef := ⟨SFI_EVT_STATUS, 7, 1⟩
def SFI_EVT_STATUS.EMBER : FRef := ⟨SFI_EVT_STATUS, 6, 1⟩
def SFI_EVT_STATUS.AGE : FRef := ⟨SFI_EVT_STATUS, 5, 1⟩
def SFI_EVT_STATUS.WINDOW : FRef := ⟨SFI_EVT_STATUS, 4, 1⟩
def SFI_EVT_STATUS.CMP : FRef := ⟨SFI_EVT_STATUS, 3, 1⟩
def SFI_EVT_STATUS.HRT_JOIN : FRef := ⟨SFI_EVT_STATUS, 2, 1⟩
def SFI_EVT_STATUS.ARMED : FRef := ⟨SFI_EVT_STATUS, 1, 1⟩
def SFI_EVT_STATUS.QUENCH : FRef := ⟨SFI_EVT_STATUS, 0, 1⟩
def SFI_EVT_EN : Nat := 0x3000400064
def SFI_EVT_EN.FIREWALL : FRef := ⟨SFI_EVT_EN, 7, 1⟩
def SFI_EVT_EN.EMBER : FRef := ⟨SFI_EVT_EN, 6, 1⟩
def SFI_EVT_EN.AGE : FRef := ⟨SFI_EVT_EN, 5, 1⟩
def SFI_EVT_EN.WINDOW : FRef := ⟨SFI_EVT_EN, 4, 1⟩
def SFI_EVT_EN.CMP : FRef := ⟨SFI_EVT_EN, 3, 1⟩
def SFI_EVT_EN.HRT_JOIN : FRef := ⟨SFI_EVT_EN, 2, 1⟩
def SFI_EVT_EN.ARMED : FRef := ⟨SFI_EVT_EN, 1, 1⟩
def SFI_EVT_EN.QUENCH : FRef := ⟨SFI_EVT_EN, 0, 1⟩
def SFI_CAN_CFG : Nat := 0x3000400070
def SFI_CAN_CFG.IDE : FRef := ⟨SFI_CAN_CFG, 31, 1⟩
def SFI_CAN_CFG.ID : FRef := ⟨SFI_CAN_CFG, 0, 29⟩
def SFI_CAN_STATUS : Nat := 0x3000400074
def SFI_CAN_STATUS.SENT_CNT : FRef := ⟨SFI_CAN_STATUS, 16, 16⟩
def SFI_CAN_STATUS.SEQ : FRef := ⟨SFI_CAN_STATUS, 0, 16⟩
def SFI_WIN_OPEN (i : Nat) : Nat := 0x3000401000 + i * 0x20
def SFI_WIN_OPEN.NS (i : Nat) : FRef := ⟨SFI_WIN_OPEN i, 0, 28⟩
def SFI_WIN_CLOSE (i : Nat) : Nat := 0x3000401004 + i * 0x20
def SFI_WIN_CLOSE.NS (i : Nat) : FRef := ⟨SFI_WIN_CLOSE i, 0, 28⟩
def SFI_WIN_CTRL (i : Nat) : Nat := 0x3000401008 + i * 0x20
def SFI_WIN_CTRL.VALID (i : Nat) : FRef := ⟨SFI_WIN_CTRL i, 31, 1⟩
def SFI_WIN_CTRL.EXPECT (i : Nat) : FRef := ⟨SFI_WIN_CTRL i, 30, 1⟩
def SFI_WIN_CTRL.MIN_NS (i : Nat) : FRef := ⟨SFI_WIN_CTRL i, 0, 28⟩
def SFI_WIN_MASK0 (i : Nat) : Nat := 0x300040100C + i * 0x20
def SFI_WIN_MASK0.ANVIL_LO (i : Nat) : FRef := ⟨SFI_WIN_MASK0 i, 0, 32⟩
def SFI_WIN_MASK1 (i : Nat) : Nat := 0x3000401010 + i * 0x20
def SFI_WIN_MASK1.ANVIL_HI (i : Nat) : FRef := ⟨SFI_WIN_MASK1 i, 0, 32⟩
def SFI_WIN_MASK2 (i : Nat) : Nat := 0x3000401014 + i * 0x20
def SFI_WIN_MASK2.PPU (i : Nat) : FRef := ⟨SFI_WIN_MASK2 i, 12, 2⟩
def SFI_WIN_MASK2.SWAGE (i : Nat) : FRef := ⟨SFI_WIN_MASK2 i, 4, 8⟩
def SFI_WIN_MASK2.DRAW (i : Nat) : FRef := ⟨SFI_WIN_MASK2 i, 0, 4⟩
def SFI_AGE_MASK (i : Nat) : Nat := 0x3000402000 + i * 0x8
def SFI_AGE_MASK.STREAMS (i : Nat) : FRef := ⟨SFI_AGE_MASK i, 0, 24⟩
def SFI_AGE_LIMIT (i : Nat) : Nat := 0x3000402004 + i * 0x8
def SFI_AGE_LIMIT.LIMIT_US (i : Nat) : FRef := ⟨SFI_AGE_LIMIT i, 0, 19⟩
def FCL_FIRST : Nat := 0x3000500010
def FCL_FIRST.VALID : FRef := ⟨FCL_FIRST, 31, 1⟩
def FCL_FIRST.OVERFLOW : FRef := ⟨FCL_FIRST, 30, 1⟩
def FCL_FIRST.CLASS : FRef := ⟨FCL_FIRST, 28, 2⟩
def FCL_FIRST.CONTEXT : FRef := ⟨FCL_FIRST, 24, 4⟩
def FCL_FIRST.SOURCE : FRef := ⟨FCL_FIRST, 0, 16⟩
def FCL_FIRST_TIME_LO : Nat := 0x3000500014
def FCL_FIRST_TIME_LO.TIME_LO : FRef := ⟨FCL_FIRST_TIME_LO, 0, 32⟩
def FCL_FIRST_TIME_HI : Nat := 0x3000500018
def FCL_FIRST_TIME_HI.TIME_HI : FRef := ⟨FCL_FIRST_TIME_HI, 0, 32⟩
def FCL_FIRST_STRIKE : Nat := 0x300050001C
def FCL_FIRST_STRIKE.NUM : FRef := ⟨FCL_FIRST_STRIKE, 0, 32⟩
def FCL_CLEAR : Nat := 0x3000500020
def FCL_CLEAR.FIRST : FRef := ⟨FCL_CLEAR, 0, 1⟩
def FCL_CNT : Nat := 0x3000500024
def FCL_CNT.C_CNT : FRef := ⟨FCL_CNT, 16, 16⟩
def FCL_CNT.S_CNT : FRef := ⟨FCL_CNT, 8, 8⟩
def FCL_CNT.F_CNT : FRef := ⟨FCL_CNT, 0, 8⟩
def FCL_LOG_CURSOR : Nat := 0x3000500030
def FCL_LOG_CURSOR.ENTRY : FRef := ⟨FCL_LOG_CURSOR, 18, 14⟩
def FCL_LOG_CURSOR.WORD : FRef := ⟨FCL_LOG_CURSOR, 0, 4⟩
def FCL_LOG_WINDOW : Nat := 0x3000500034
def FCL_LOG_WINDOW.DATA : FRef := ⟨FCL_LOG_WINDOW, 0, 32⟩
def FCL_LOG_IDX : Nat := 0x3000500038
def FCL_LOG_IDX.NEWEST : FRef := ⟨FCL_LOG_IDX, 16, 14⟩
def FCL_LOG_IDX.DROP_CNT : FRef := ⟨FCL_LOG_IDX, 0, 16⟩
def FCL_RECOVER : Nat := 0x3000500040
def FCL_RECOVER.WINDOW_S : FRef := ⟨FCL_RECOVER, 16, 12⟩
def FCL_RECOVER.COUNT : FRef := ⟨FCL_RECOVER, 12, 3⟩
def FCL_RECOVER.DELAY : FRef := ⟨FCL_RECOVER, 8, 4⟩
def FCL_RECOVER.AUTO : FRef := ⟨FCL_RECOVER, 0, 1⟩
def FCL_RESET_HIST : Nat := 0x3000500044
def FCL_RESET_HIST.IN_WINDOW : FRef := ⟨FCL_RESET_HIST, 8, 3⟩
def FCL_RESET_HIST.SINCE_SYS : FRef := ⟨FCL_RESET_HIST, 0, 8⟩
def FCL_HANG_KICK : Nat := 0x3000500050
def FCL_HANG_KICK.CORE : FRef := ⟨FCL_HANG_KICK, 0, 8⟩
def FCL_HANG_CFG : Nat := 0x3000500054
def FCL_HANG_CFG.STRIKES : FRef := ⟨FCL_HANG_CFG, 0, 4⟩
def FCL_HANG_STATUS : Nat := 0x3000500058
def FCL_HANG_STATUS.HUNG : FRef := ⟨FCL_HANG_STATUS, 0, 8⟩
def FCL_FENCE_LIST0 : Nat := 0x3000500060
def FCL_FENCE_LIST0.ANVIL_LO : FRef := ⟨FCL_FENCE_LIST0, 0, 32⟩
def FCL_FENCE_LIST1 : Nat := 0x3000500064
def FCL_FENCE_LIST1.ANVIL_HI : FRef := ⟨FCL_FENCE_LIST1, 0, 32⟩
def FCL_FENCE_LIST2 : Nat := 0x3000500068
def FCL_FENCE_LIST2.PPU : FRef := ⟨FCL_FENCE_LIST2, 12, 2⟩
def FCL_FENCE_LIST2.SWAGE : FRef := ⟨FCL_FENCE_LIST2, 4, 8⟩
def FCL_FENCE_LIST2.DRAW : FRef := ⟨FCL_FENCE_LIST2, 0, 4⟩
def FCL_FENCE_LIST3 : Nat := 0x300050006C
def FCL_FENCE_LIST3.HEARTH : FRef := ⟨FCL_FENCE_LIST3, 24, 8⟩
def FCL_FENCE_LIST3.POINT : FRef := ⟨FCL_FENCE_LIST3, 16, 8⟩
def FCL_FENCE_LIST3.CAMERA : FRef := ⟨FCL_FENCE_LIST3, 0, 16⟩
def FCL_FENCE_NOW0 : Nat := 0x3000500070
def FCL_FENCE_NOW0.ANVIL_LO : FRef := ⟨FCL_FENCE_NOW0, 0, 32⟩
def FCL_FENCE_NOW1 : Nat := 0x3000500074
def FCL_FENCE_NOW1.ANVIL_HI : FRef := ⟨FCL_FENCE_NOW1, 0, 32⟩
def FCL_FENCE_NOW2 : Nat := 0x3000500078
def FCL_FENCE_NOW2.PPU : FRef := ⟨FCL_FENCE_NOW2, 12, 2⟩
def FCL_FENCE_NOW2.SWAGE : FRef := ⟨FCL_FENCE_NOW2, 4, 8⟩
def FCL_FENCE_NOW2.DRAW : FRef := ⟨FCL_FENCE_NOW2, 0, 4⟩
def FCL_FENCE_NOW3 : Nat := 0x300050007C
def FCL_FENCE_NOW3.HEARTH : FRef := ⟨FCL_FENCE_NOW3, 24, 8⟩
def FCL_FENCE_NOW3.POINT : FRef := ⟨FCL_FENCE_NOW3, 16, 8⟩
def FCL_FENCE_NOW3.CAMERA : FRef := ⟨FCL_FENCE_NOW3, 0, 16⟩
def FCL_INJECT : Nat := 0x3000500080
def FCL_INJECT.CLASS : FRef := ⟨FCL_INJECT, 30, 2⟩
def FCL_INJECT.CONTEXT : FRef := ⟨FCL_INJECT, 16, 4⟩
def FCL_INJECT.INSTANCE : FRef := ⟨FCL_INJECT, 0, 8⟩
def FCL_EVT_STATUS : Nat := 0x3000500090
def FCL_EVT_STATUS.OOS : FRef := ⟨FCL_EVT_STATUS, 6, 1⟩
def FCL_EVT_STATUS.RESET_RELEASED : FRef := ⟨FCL_EVT_STATUS, 5, 1⟩
def FCL_EVT_STATUS.HANG : FRef := ⟨FCL_EVT_STATUS, 4, 1⟩
def FCL_EVT_STATUS.PROOF_FAIL : FRef := ⟨FCL_EVT_STATUS, 3, 1⟩
def FCL_EVT_STATUS.FENCE : FRef := ⟨FCL_EVT_STATUS, 2, 1⟩
def FCL_EVT_STATUS.N_LATCH : FRef := ⟨FCL_EVT_STATUS, 1, 1⟩
def FCL_EVT_STATUS.FIRST : FRef := ⟨FCL_EVT_STATUS, 0, 1⟩
def FCL_EVT_EN : Nat := 0x3000500094
def FCL_EVT_EN.OOS : FRef := ⟨FCL_EVT_EN, 6, 1⟩
def FCL_EVT_EN.RESET_RELEASED : FRef := ⟨FCL_EVT_EN, 5, 1⟩
def FCL_EVT_EN.HANG : FRef := ⟨FCL_EVT_EN, 4, 1⟩
def FCL_EVT_EN.PROOF_FAIL : FRef := ⟨FCL_EVT_EN, 3, 1⟩
def FCL_EVT_EN.FENCE : FRef := ⟨FCL_EVT_EN, 2, 1⟩
def FCL_EVT_EN.N_LATCH : FRef := ⟨FCL_EVT_EN, 1, 1⟩
def FCL_EVT_EN.FIRST : FRef := ⟨FCL_EVT_EN, 0, 1⟩
def FCL_FENCE_CLR0 : Nat := 0x30005000A0
def FCL_FENCE_CLR0.ANVIL_LO : FRef := ⟨FCL_FENCE_CLR0, 0, 32⟩
def FCL_FENCE_CLR1 : Nat := 0x30005000A4
def FCL_FENCE_CLR1.ANVIL_HI : FRef := ⟨FCL_FENCE_CLR1, 0, 32⟩
def FCL_FENCE_CLR2 : Nat := 0x30005000A8
def FCL_FENCE_CLR2.PPU : FRef := ⟨FCL_FENCE_CLR2, 12, 2⟩
def FCL_FENCE_CLR2.SWAGE : FRef := ⟨FCL_FENCE_CLR2, 4, 8⟩
def FCL_FENCE_CLR2.DRAW : FRef := ⟨FCL_FENCE_CLR2, 0, 4⟩
def FCL_FENCE_CLR3 : Nat := 0x30005000AC
def FCL_FENCE_CLR3.HEARTH : FRef := ⟨FCL_FENCE_CLR3, 24, 8⟩
def FCL_FENCE_CLR3.POINT : FRef := ⟨FCL_FENCE_CLR3, 16, 8⟩
def FCL_FENCE_CLR3.CAMERA : FRef := ⟨FCL_FENCE_CLR3, 0, 16⟩
def FCL_CTX_N (i : Nat) : Nat := 0x3000500100 + i * 0x4
def FCL_CTX_N.VALID (i : Nat) : FRef := ⟨FCL_CTX_N i, 31, 1⟩
def FCL_CTX_N.OVERFLOW (i : Nat) : FRef := ⟨FCL_CTX_N i, 30, 1⟩
def FCL_CTX_N.CNT (i : Nat) : FRef := ⟨FCL_CTX_N i, 16, 14⟩
def FCL_CTX_N.SOURCE (i : Nat) : FRef := ⟨FCL_CTX_N i, 0, 16⟩
def EVR_CTL : Nat := 0x3000600010
def EVR_CTL.CLEAR : FRef := ⟨EVR_CTL, 9, 1⟩
def EVR_CTL.COMMIT : FRef := ⟨EVR_CTL, 8, 1⟩
def EVR_CTL.ENABLE : FRef := ⟨EVR_CTL, 0, 1⟩
def EVR_CURSOR : Nat := 0x3000600014
def EVR_CURSOR.RECORD : FRef := ⟨EVR_CURSOR, 6, 7⟩
def EVR_CURSOR.WORD : FRef := ⟨EVR_CURSOR, 0, 6⟩
def EVR_WINDOW : Nat := 0x3000600018
def EVR_WINDOW.DATA : FRef := ⟨EVR_WINDOW, 0, 32⟩
def EVR_INFO : Nat := 0x300060001C
def EVR_INFO.RECORDS : FRef := ⟨EVR_INFO, 16, 16⟩
def EVR_INFO.SEQ : FRef := ⟨EVR_INFO, 0, 16⟩
def EVR_HOURS : Nat := 0x3000600020
def EVR_HOURS.SIXTEENTHS : FRef := ⟨EVR_HOURS, 0, 32⟩
def EVR_PCYCLES : Nat := 0x3000600024
def EVR_PCYCLES.COUNT : FRef := ⟨EVR_PCYCLES, 0, 32⟩
def BLW_CTL : Nat := 0x3000700010
def BLW_CTL.ENABLE : FRef := ⟨BLW_CTL, 0, 1⟩
def BLW_STALE : Nat := 0x3000700014
def BLW_STALE.LIMIT_US : FRef := ⟨BLW_STALE, 0, 19⟩
def BLW_FTAB_LO : Nat := 0x3000700018
def BLW_FTAB_LO.ADDR_LO : FRef := ⟨BLW_FTAB_LO, 0, 32⟩
def BLW_FTAB_HI : Nat := 0x300070001C
def BLW_FTAB_HI.ADDR_HI : FRef := ⟨BLW_FTAB_HI, 0, 8⟩
def BLW_GOLD_CTL : Nat := 0x3000700020
def BLW_GOLD_CTL.FAIL : FRef := ⟨BLW_GOLD_CTL, 1, 1⟩
def BLW_GOLD_CTL.EN : FRef := ⟨BLW_GOLD_CTL, 0, 1⟩
def BLW_GOLD_LO : Nat := 0x3000700024
def BLW_GOLD_LO.ADDR_LO : FRef := ⟨BLW_GOLD_LO, 0, 32⟩
def BLW_GOLD_HI : Nat := 0x3000700028
def BLW_GOLD_HI.ADDR_HI : FRef := ⟨BLW_GOLD_HI, 0, 8⟩
def BLW_EVT_STATUS : Nat := 0x3000700030
def BLW_EVT_STATUS.GOLD_FAIL : FRef := ⟨BLW_EVT_STATUS, 2, 1⟩
def BLW_EVT_STATUS.STALE : FRef := ⟨BLW_EVT_STATUS, 1, 1⟩
def BLW_EVT_STATUS.FTAB : FRef := ⟨BLW_EVT_STATUS, 0, 1⟩
def BLW_EVT_EN : Nat := 0x3000700034
def BLW_EVT_EN.GOLD_FAIL : FRef := ⟨BLW_EVT_EN, 2, 1⟩
def BLW_EVT_EN.STALE : FRef := ⟨BLW_EVT_EN, 1, 1⟩
def BLW_EVT_EN.FTAB : FRef := ⟨BLW_EVT_EN, 0, 1⟩
def BLW_CAM_CTL (i : Nat) : Nat := 0x3000701000 + i * 0x100
def BLW_CAM_CTL.FENCE (i : Nat) : FRef := ⟨BLW_CAM_CTL i, 12, 1⟩
def BLW_CAM_CTL.SLOTS (i : Nat) : FRef := ⟨BLW_CAM_CTL i, 8, 3⟩
def BLW_CAM_CTL.VC (i : Nat) : FRef := ⟨BLW_CAM_CTL i, 4, 4⟩
def BLW_CAM_CTL.LANES (i : Nat) : FRef := ⟨BLW_CAM_CTL i, 2, 2⟩
def BLW_CAM_CTL.ENABLE (i : Nat) : FRef := ⟨BLW_CAM_CTL i, 0, 1⟩
def BLW_CAM_FMT (i : Nat) : Nat := 0x3000701004 + i * 0x100
def BLW_CAM_FMT.DT (i : Nat) : FRef := ⟨BLW_CAM_FMT i, 26, 6⟩
def BLW_CAM_FMT.CFA (i : Nat) : FRef := ⟨BLW_CAM_FMT i, 24, 2⟩
def BLW_CAM_FMT.MONO (i : Nat) : FRef := ⟨BLW_CAM_FMT i, 23, 1⟩
def BLW_CAM_FMT.BGR (i : Nat) : FRef := ⟨BLW_CAM_FMT i, 22, 1⟩
def BLW_CAM_FMT.GAMMA_EN (i : Nat) : FRef := ⟨BLW_CAM_FMT i, 21, 1⟩
def BLW_CAM_FMT.OFMT (i : Nat) : FRef := ⟨BLW_CAM_FMT i, 17, 4⟩
def BLW_CAM_SIZE (i : Nat) : Nat := 0x3000701008 + i * 0x100
def BLW_CAM_SIZE.HEIGHT (i : Nat) : FRef := ⟨BLW_CAM_SIZE i, 16, 16⟩
def BLW_CAM_SIZE.WIDTH (i : Nat) : FRef := ⟨BLW_CAM_SIZE i, 0, 16⟩
def BLW_CAM_PARAM_LO (i : Nat) : Nat := 0x300070100C + i * 0x100
def BLW_CAM_PARAM_LO.ADDR_LO (i : Nat) : FRef := ⟨BLW_CAM_PARAM_LO i, 0, 32⟩
def BLW_CAM_PARAM_HI (i : Nat) : Nat := 0x3000701010 + i * 0x100
def BLW_CAM_PARAM_HI.ADDR_HI (i : Nat) : FRef := ⟨BLW_CAM_PARAM_HI i, 0, 8⟩
def BLW_CAM_OUT_LO (i : Nat) : Nat := 0x3000701014 + i * 0x100
def BLW_CAM_OUT_LO.ADDR_LO (i : Nat) : FRef := ⟨BLW_CAM_OUT_LO i, 0, 32⟩
def BLW_CAM_OUT_HI (i : Nat) : Nat := 0x3000701018 + i * 0x100
def BLW_CAM_OUT_HI.ADDR_HI (i : Nat) : FRef := ⟨BLW_CAM_OUT_HI i, 0, 8⟩
def BLW_CAM_TS_ADJ (i : Nat) : Nat := 0x300070101C + i * 0x100
def BLW_CAM_TS_ADJ.NS (i : Nat) : FRef := ⟨BLW_CAM_TS_ADJ i, 0, 32⟩
def BLW_CAM_STATUS (i : Nat) : Nat := 0x3000701020 + i * 0x100
def BLW_CAM_STATUS.LAST_FRAME_NO (i : Nat) : FRef := ⟨BLW_CAM_STATUS i, 16, 16⟩
def BLW_CAM_STATUS.PARAM_BAD (i : Nat) : FRef := ⟨BLW_CAM_STATUS i, 12, 1⟩
def BLW_CAM_STATUS.NEWEST (i : Nat) : FRef := ⟨BLW_CAM_STATUS i, 8, 4⟩
def BLW_CAM_STATUS.WRITING (i : Nat) : FRef := ⟨BLW_CAM_STATUS i, 4, 4⟩
def BLW_CAM_STATUS.STATE (i : Nat) : FRef := ⟨BLW_CAM_STATUS i, 2, 2⟩
def BLW_CAM_ERR (i : Nat) : Nat := 0x3000701024 + i * 0x100
def BLW_CAM_ERR.ECC_CE_CNT (i : Nat) : FRef := ⟨BLW_CAM_ERR i, 24, 8⟩
def BLW_CAM_ERR.ECC_UE_CNT (i : Nat) : FRef := ⟨BLW_CAM_ERR i, 16, 8⟩
def BLW_CAM_ERR.CRC_CNT (i : Nat) : FRef := ⟨BLW_CAM_ERR i, 8, 8⟩
def BLW_CAM_ERR.GEOM_CNT (i : Nat) : FRef := ⟨BLW_CAM_ERR i, 0, 8⟩
def BLW_CAM_DROP (i : Nat) : Nat := 0x3000701028 + i * 0x100
def BLW_CAM_DROP.STALE_CNT (i : Nat) : FRef := ⟨BLW_CAM_DROP i, 16, 16⟩
def BLW_CAM_DROP.FAULTY_CNT (i : Nat) : FRef := ⟨BLW_CAM_DROP i, 0, 16⟩
def BLW_CAM_EVT (i : Nat) : Nat := 0x300070102C + i * 0x100
def BLW_CAM_EVT.EN (i : Nat) : FRef := ⟨BLW_CAM_EVT i, 16, 4⟩
def BLW_CAM_EVT.GOLD_FAIL (i : Nat) : FRef := ⟨BLW_CAM_EVT i, 3, 1⟩
def BLW_CAM_EVT.STALE (i : Nat) : FRef := ⟨BLW_CAM_EVT i, 2, 1⟩
def BLW_CAM_EVT.FAULTY (i : Nat) : FRef := ⟨BLW_CAM_EVT i, 1, 1⟩
def BLW_CAM_EVT.FRAME_DONE (i : Nat) : FRef := ⟨BLW_CAM_EVT i, 0, 1⟩
def BLW_PT_CTL (i : Nat) : Nat := 0x3000702000 + i * 0x100
def BLW_PT_CTL.FENCE (i : Nat) : FRef := ⟨BLW_PT_CTL i, 12, 1⟩
def BLW_PT_CTL.OFMT16 (i : Nat) : FRef := ⟨BLW_PT_CTL i, 11, 1⟩
def BLW_PT_CTL.SLOTS (i : Nat) : FRef := ⟨BLW_PT_CTL i, 8, 3⟩
def BLW_PT_CTL.MODE (i : Nat) : FRef := ⟨BLW_PT_CTL i, 4, 1⟩
def BLW_PT_CTL.ENABLE (i : Nat) : FRef := ⟨BLW_PT_CTL i, 0, 1⟩
def BLW_PT_TMPL_LO (i : Nat) : Nat := 0x3000702004 + i * 0x100
def BLW_PT_TMPL_LO.ADDR_LO (i : Nat) : FRef := ⟨BLW_PT_TMPL_LO i, 0, 32⟩
def BLW_PT_TMPL_HI (i : Nat) : Nat := 0x3000702008 + i * 0x100
def BLW_PT_TMPL_HI.ADDR_HI (i : Nat) : FRef := ⟨BLW_PT_TMPL_HI i, 0, 8⟩
def BLW_PT_BUF_LO (i : Nat) : Nat := 0x300070200C + i * 0x100
def BLW_PT_BUF_LO.ADDR_LO (i : Nat) : FRef := ⟨BLW_PT_BUF_LO i, 0, 32⟩
def BLW_PT_BUF_HI (i : Nat) : Nat := 0x3000702010 + i * 0x100
def BLW_PT_BUF_HI.ADDR_HI (i : Nat) : FRef := ⟨BLW_PT_BUF_HI i, 0, 8⟩
def BLW_PT_STATUS (i : Nat) : Nat := 0x3000702014 + i * 0x100
def BLW_PT_STATUS.PKT_BAD_CNT (i : Nat) : FRef := ⟨BLW_PT_STATUS i, 17, 15⟩
def BLW_PT_STATUS.TMPL_BAD (i : Nat) : FRef := ⟨BLW_PT_STATUS i, 16, 1⟩
def BLW_PT_STATUS.PT_DROP_CNT (i : Nat) : FRef := ⟨BLW_PT_STATUS i, 0, 16⟩
def BLW_PT_EVT (i : Nat) : Nat := 0x3000702018 + i * 0x100
def BLW_PT_EVT.EN (i : Nat) : FRef := ⟨BLW_PT_EVT i, 16, 4⟩
def BLW_PT_EVT.DUP (i : Nat) : FRef := ⟨BLW_PT_EVT i, 3, 1⟩
def BLW_PT_EVT.STALE (i : Nat) : FRef := ⟨BLW_PT_EVT i, 2, 1⟩
def BLW_PT_EVT.TRUNCATED (i : Nat) : FRef := ⟨BLW_PT_EVT i, 1, 1⟩
def BLW_PT_EVT.SWEEP_DONE (i : Nat) : FRef := ⟨BLW_PT_EVT i, 0, 1⟩
def BLW_REC_CTL (i : Nat) : Nat := 0x3000703000 + i * 0x100
def BLW_REC_CTL.PRIORITY (i : Nat) : FRef := ⟨BLW_REC_CTL i, 8, 2⟩
def BLW_REC_CTL.ABORT (i : Nat) : FRef := ⟨BLW_REC_CTL i, 1, 1⟩
def BLW_REC_CTL.ENABLE (i : Nat) : FRef := ⟨BLW_REC_CTL i, 0, 1⟩
def BLW_REC_CTX (i : Nat) : Nat := 0x3000703004 + i * 0x100
def BLW_REC_CTX.GEN (i : Nat) : FRef := ⟨BLW_REC_CTX i, 16, 16⟩
def BLW_REC_CTX.CONTEXT (i : Nat) : FRef := ⟨BLW_REC_CTX i, 0, 4⟩
def BLW_REC_RING_LO (i : Nat) : Nat := 0x3000703008 + i * 0x100
def BLW_REC_RING_LO.ADDR_LO (i : Nat) : FRef := ⟨BLW_REC_RING_LO i, 0, 32⟩
def BLW_REC_RING_HI (i : Nat) : Nat := 0x300070300C + i * 0x100
def BLW_REC_RING_HI.ADDR_HI (i : Nat) : FRef := ⟨BLW_REC_RING_HI i, 0, 8⟩
def BLW_REC_RING_SIZE (i : Nat) : Nat := 0x3000703010 + i * 0x100
def BLW_REC_RING_SIZE.LOG2 (i : Nat) : FRef := ⟨BLW_REC_RING_SIZE i, 0, 5⟩
def BLW_REC_TAIL (i : Nat) : Nat := 0x3000703014 + i * 0x100
def BLW_REC_TAIL.TAIL (i : Nat) : FRef := ⟨BLW_REC_TAIL i, 0, 16⟩
def BLW_REC_HEAD (i : Nat) : Nat := 0x3000703018 + i * 0x100
def BLW_REC_HEAD.HEAD (i : Nat) : FRef := ⟨BLW_REC_HEAD i, 0, 16⟩
def BLW_REC_STATUS (i : Nat) : Nat := 0x300070301C + i * 0x100
def BLW_REC_STATUS.LAST_STATUS (i : Nat) : FRef := ⟨BLW_REC_STATUS i, 24, 8⟩
def BLW_REC_STATUS.LAST_REASON (i : Nat) : FRef := ⟨BLW_REC_STATUS i, 16, 8⟩
def BLW_REC_STATUS.STATE (i : Nat) : FRef := ⟨BLW_REC_STATUS i, 0, 2⟩
def TNG_CTL : Nat := 0x3000800010
def TNG_CTL.ENABLE : FRef := ⟨TNG_CTL, 0, 1⟩
def TNG_BUSY : Nat := 0x3000800014
def TNG_BUSY.CH : FRef := ⟨TNG_BUSY, 0, 32⟩
def TNG_CH_CTL (i : Nat) : Nat := 0x3000801000 + i * 0x100
def TNG_CH_CTL.PRIORITY (i : Nat) : FRef := ⟨TNG_CH_CTL i, 8, 2⟩
def TNG_CH_CTL.ABORT (i : Nat) : FRef := ⟨TNG_CH_CTL i, 1, 1⟩
def TNG_CH_CTL.ENABLE (i : Nat) : FRef := ⟨TNG_CH_CTL i, 0, 1⟩
def TNG_CH_CTX (i : Nat) : Nat := 0x3000801004 + i * 0x100
def TNG_CH_CTX.GEN (i : Nat) : FRef := ⟨TNG_CH_CTX i, 16, 16⟩
def TNG_CH_CTX.CONTEXT (i : Nat) : FRef := ⟨TNG_CH_CTX i, 0, 4⟩
def TNG_CH_RING_LO (i : Nat) : Nat := 0x3000801008 + i * 0x100
def TNG_CH_RING_LO.ADDR_LO (i : Nat) : FRef := ⟨TNG_CH_RING_LO i, 0, 32⟩
def TNG_CH_RING_HI (i : Nat) : Nat := 0x300080100C + i * 0x100
def TNG_CH_RING_HI.ADDR_HI (i : Nat) : FRef := ⟨TNG_CH_RING_HI i, 0, 8⟩
def TNG_CH_RING_SIZE (i : Nat) : Nat := 0x3000801010 + i * 0x100
def TNG_CH_RING_SIZE.LOG2 (i : Nat) : FRef := ⟨TNG_CH_RING_SIZE i, 0, 5⟩
def TNG_CH_TAIL (i : Nat) : Nat := 0x3000801014 + i * 0x100
def TNG_CH_TAIL.TAIL (i : Nat) : FRef := ⟨TNG_CH_TAIL i, 0, 16⟩
def TNG_CH_HEAD (i : Nat) : Nat := 0x3000801018 + i * 0x100
def TNG_CH_HEAD.HEAD (i : Nat) : FRef := ⟨TNG_CH_HEAD i, 0, 16⟩
def TNG_CH_STATUS (i : Nat) : Nat := 0x300080101C + i * 0x100
def TNG_CH_STATUS.LAST_STATUS (i : Nat) : FRef := ⟨TNG_CH_STATUS i, 24, 8⟩
def TNG_CH_STATUS.LAST_REASON (i : Nat) : FRef := ⟨TNG_CH_STATUS i, 16, 8⟩
def TNG_CH_STATUS.STATE (i : Nat) : FRef := ⟨TNG_CH_STATUS i, 0, 2⟩
def MEM_CTL : Nat := 0x3000900010
def MEM_CTL.PATROL_EN : FRef := ⟨MEM_CTL, 0, 1⟩
def MEM_PATROL : Nat := 0x3000900014
def MEM_PATROL.HOURS : FRef := ⟨MEM_PATROL, 0, 8⟩
def MEM_CH_STATUS (i : Nat) : Nat := 0x3000901000 + i * 0x100
def MEM_CH_STATUS.STATE (i : Nat) : FRef := ⟨MEM_CH_STATUS i, 30, 2⟩
def MEM_CH_STATUS.OUTSTANDING (i : Nat) : FRef := ⟨MEM_CH_STATUS i, 0, 10⟩
def MEM_CH_ECC (i : Nat) : Nat := 0x3000901004 + i * 0x100
def MEM_CH_ECC.CE_CNT (i : Nat) : FRef := ⟨MEM_CH_ECC i, 16, 16⟩
def MEM_CH_ECC.UE_CNT (i : Nat) : FRef := ⟨MEM_CH_ECC i, 0, 16⟩
def MEM_CH_ERR_LO (i : Nat) : Nat := 0x3000901008 + i * 0x100
def MEM_CH_ERR_LO.ADDR_LO (i : Nat) : FRef := ⟨MEM_CH_ERR_LO i, 0, 32⟩
def MEM_CH_ERR_HI (i : Nat) : Nat := 0x300090100C + i * 0x100
def MEM_CH_ERR_HI.ADDR_HI (i : Nat) : FRef := ⟨MEM_CH_ERR_HI i, 0, 8⟩
def MEM_CH_BYTES_LO (i : Nat) : Nat := 0x3000901010 + i * 0x100
def MEM_CH_BYTES_LO.BYTES_LO (i : Nat) : FRef := ⟨MEM_CH_BYTES_LO i, 0, 32⟩
def MEM_CH_BYTES_HI (i : Nat) : Nat := 0x3000901014 + i * 0x100
def MEM_CH_BYTES_HI.BYTES_HI (i : Nat) : FRef := ⟨MEM_CH_BYTES_HI i, 0, 32⟩
def MEM_CH_INJECT (i : Nat) : Nat := 0x3000901018 + i * 0x100
def MEM_CH_INJECT.UE (i : Nat) : FRef := ⟨MEM_CH_INJECT i, 1, 1⟩
def MEM_CH_INJECT.CE (i : Nat) : FRef := ⟨MEM_CH_INJECT i, 0, 1⟩
def CRU_CTL : Nat := 0x3000A00010
def CRU_CTL.INJECT : FRef := ⟨CRU_CTL, 8, 1⟩
def CRU_CTL.PATROL_EN : FRef := ⟨CRU_CTL, 0, 1⟩
def CRU_ECC : Nat := 0x3000A00020
def CRU_ECC.CE_CNT : FRef := ⟨CRU_ECC, 16, 16⟩
def CRU_ECC.UE_CNT : FRef := ⟨CRU_ECC, 0, 16⟩
def CRU_ERR_LO : Nat := 0x3000A00024
def CRU_ERR_LO.ADDR_LO : FRef := ⟨CRU_ERR_LO, 0, 32⟩
def CRU_ERR_HI : Nat := 0x3000A00028
def CRU_ERR_HI.ADDR_HI : FRef := ⟨CRU_ERR_HI, 0, 8⟩
def CRU_ATOMIC : Nat := 0x3000A00030
def CRU_ATOMIC.COUNT : FRef := ⟨CRU_ATOMIC, 0, 32⟩
def CRU_PATROL : Nat := 0x3000A00040
def CRU_PATROL.PERIOD_MS : FRef := ⟨CRU_PATROL, 0, 16⟩
def FWL_DB : Nat := 0x3000B00010
def FWL_DB.NLK : FRef := ⟨FWL_DB, 1, 1⟩
def FWL_DB.PCI : FRef := ⟨FWL_DB, 0, 1⟩
def FWL_REG_RD : Nat := 0x3000B00014
def FWL_REG_RD.BLOCKS : FRef := ⟨FWL_REG_RD, 0, 24⟩
def FWL_REG_WR : Nat := 0x3000B00018
def FWL_REG_WR.BLOCKS : FRef := ⟨FWL_REG_WR, 0, 24⟩
def FWL_QOS : Nat := 0x3000B0001C
def FWL_QOS.OTHER_CAP : FRef := ⟨FWL_QOS, 0, 5⟩
def FWL_VIOL : Nat := 0x3000B00020
def FWL_VIOL.CNT : FRef := ⟨FWL_VIOL, 16, 16⟩
def FWL_VIOL.STREAM : FRef := ⟨FWL_VIOL, 4, 12⟩
def FWL_VIOL.WRITE : FRef := ⟨FWL_VIOL, 3, 1⟩
def FWL_VIOL.REG : FRef := ⟨FWL_VIOL, 2, 1⟩
def FWL_VIOL_ADDR_LO : Nat := 0x3000B00024
def FWL_VIOL_ADDR_LO.ADDR_LO : FRef := ⟨FWL_VIOL_ADDR_LO, 0, 32⟩
def FWL_VIOL_ADDR_HI : Nat := 0x3000B00028
def FWL_VIOL_ADDR_HI.ADDR_HI : FRef := ⟨FWL_VIOL_ADDR_HI, 0, 8⟩
def FWL_RGN_BASE_LO (i : Nat) : Nat := 0x3000B01000 + i * 0x20
def FWL_RGN_BASE_LO.ADDR (i : Nat) : FRef := ⟨FWL_RGN_BASE_LO i, 16, 16⟩
def FWL_RGN_BASE_HI (i : Nat) : Nat := 0x3000B01004 + i * 0x20
def FWL_RGN_BASE_HI.ADDR_HI (i : Nat) : FRef := ⟨FWL_RGN_BASE_HI i, 0, 8⟩
def FWL_RGN_LIMIT_LO (i : Nat) : Nat := 0x3000B01008 + i * 0x20
def FWL_RGN_LIMIT_LO.ADDR (i : Nat) : FRef := ⟨FWL_RGN_LIMIT_LO i, 16, 16⟩
def FWL_RGN_LIMIT_HI (i : Nat) : Nat := 0x3000B0100C + i * 0x20
def FWL_RGN_LIMIT_HI.ADDR_HI (i : Nat) : FRef := ⟨FWL_RGN_LIMIT_HI i, 0, 8⟩
def FWL_RGN_PERM (i : Nat) : Nat := 0x3000B01010 + i * 0x20
def FWL_RGN_PERM.WR (i : Nat) : FRef := ⟨FWL_RGN_PERM i, 16, 16⟩
def FWL_RGN_PERM.RD (i : Nat) : FRef := ⟨FWL_RGN_PERM i, 0, 16⟩
def FWL_RGN_CTL (i : Nat) : Nat := 0x3000B01014 + i * 0x20
def FWL_RGN_CTL.LOCK (i : Nat) : FRef := ⟨FWL_RGN_CTL i, 1, 1⟩
def FWL_RGN_CTL.ENABLE (i : Nat) : FRef := ⟨FWL_RGN_CTL i, 0, 1⟩
def NLK_CFG : Nat := 0x3000C00010
def NLK_CFG.FM : FRef := ⟨NLK_CFG, 4, 1⟩
def NLK_CFG.MODULE : FRef := ⟨NLK_CFG, 0, 2⟩
def NLK_EVT : Nat := 0x3000C00014
def NLK_EVT.EN : FRef := ⟨NLK_EVT, 16, 2⟩
def NLK_EVT.FOREIGN_FM : FRef := ⟨NLK_EVT, 1, 1⟩
def NLK_EVT.FM_MSG : FRef := ⟨NLK_EVT, 0, 1⟩
def NLK_PORT_CTL (i : Nat) : Nat := 0x3000C01000 + i * 0x100
def NLK_PORT_CTL.PEER (i : Nat) : FRef := ⟨NLK_PORT_CTL i, 8, 2⟩
def NLK_PORT_CTL.WIDTH4_OK (i : Nat) : FRef := ⟨NLK_PORT_CTL i, 4, 1⟩
def NLK_PORT_CTL.RETRAIN (i : Nat) : FRef := ⟨NLK_PORT_CTL i, 1, 1⟩
def NLK_PORT_CTL.ENABLE (i : Nat) : FRef := ⟨NLK_PORT_CTL i, 0, 1⟩
def NLK_PORT_STATUS (i : Nat) : Nat := 0x3000C01004 + i * 0x100
def NLK_PORT_STATUS.STATE (i : Nat) : FRef := ⟨NLK_PORT_STATUS i, 29, 3⟩
def NLK_PORT_STATUS.VERSION (i : Nat) : FRef := ⟨NLK_PORT_STATUS i, 16, 8⟩
def NLK_PORT_STATUS.LINK_DELAY (i : Nat) : FRef := ⟨NLK_PORT_STATUS i, 0, 16⟩
def NLK_PORT_ERR (i : Nat) : Nat := 0x3000C01008 + i * 0x100
def NLK_PORT_ERR.RETRY_CNT (i : Nat) : FRef := ⟨NLK_PORT_ERR i, 16, 16⟩
def NLK_PORT_ERR.ROUTE_DOWN_CNT (i : Nat) : FRef := ⟨NLK_PORT_ERR i, 8, 8⟩
def NLK_PORT_ERR.DROP_CNT (i : Nat) : FRef := ⟨NLK_PORT_ERR i, 0, 8⟩
def NLK_PORT_CTX (i : Nat) : Nat := 0x3000C0100C + i * 0x100
def NLK_PORT_CTX.ALLOW (i : Nat) : FRef := ⟨NLK_PORT_CTX i, 0, 16⟩
def NLK_PORT_RWIN_LO (i : Nat) : Nat := 0x3000C01010 + i * 0x100
def NLK_PORT_RWIN_LO.ADDR (i : Nat) : FRef := ⟨NLK_PORT_RWIN_LO i, 16, 16⟩
def NLK_PORT_RWIN_HI (i : Nat) : Nat := 0x3000C01014 + i * 0x100
def NLK_PORT_RWIN_HI.ADDR_HI (i : Nat) : FRef := ⟨NLK_PORT_RWIN_HI i, 0, 8⟩
def NLK_PORT_RWIN_SIZE (i : Nat) : Nat := 0x3000C01018 + i * 0x100
def NLK_PORT_RWIN_SIZE.GRANULES (i : Nat) : FRef := ⟨NLK_PORT_RWIN_SIZE i, 0, 16⟩
def NLK_PORT_EVT (i : Nat) : Nat := 0x3000C0101C + i * 0x100
def NLK_PORT_EVT.EN (i : Nat) : FRef := ⟨NLK_PORT_EVT i, 16, 4⟩
def NLK_PORT_EVT.DROP (i : Nat) : FRef := ⟨NLK_PORT_EVT i, 3, 1⟩
def NLK_PORT_EVT.ROUTE_DOWN (i : Nat) : FRef := ⟨NLK_PORT_EVT i, 2, 1⟩
def NLK_PORT_EVT.DOWN (i : Nat) : FRef := ⟨NLK_PORT_EVT i, 1, 1⟩
def NLK_PORT_EVT.UP (i : Nat) : FRef := ⟨NLK_PORT_EVT i, 0, 1⟩
def PCI_CTL : Nat := 0x3000D00010
def PCI_CTL.WAKE_EN : FRef := ⟨PCI_CTL, 0, 1⟩
def PCI_WIN_LO : Nat := 0x3000D00014
def PCI_WIN_LO.ADDR : FRef := ⟨PCI_WIN_LO, 16, 16⟩
def PCI_WIN_HI : Nat := 0x3000D00018
def PCI_WIN_HI.ADDR_HI : FRef := ⟨PCI_WIN_HI, 0, 8⟩
def PCI_WIN_SIZE : Nat := 0x3000D0001C
def PCI_WIN_SIZE.LOG2 : FRef := ⟨PCI_WIN_SIZE, 0, 6⟩
def PCI_STATUS : Nat := 0x3000D00020
def PCI_STATUS.LINK : FRef := ⟨PCI_STATUS, 29, 3⟩
def PCI_STATUS.DSTATE : FRef := ⟨PCI_STATUS, 27, 2⟩
def PCI_STATUS.SPEED : FRef := ⟨PCI_STATUS, 24, 3⟩
def PCI_STATUS.WIDTH : FRef := ⟨PCI_STATUS, 20, 4⟩
def PCI_STATUS.COMPUTE_RESET : FRef := ⟨PCI_STATUS, 19, 1⟩
def PCI_STATUS.AER : FRef := ⟨PCI_STATUS, 18, 1⟩
def PCI_STATUS.UR_CNT : FRef := ⟨PCI_STATUS, 0, 16⟩
def PCI_EVT_STATUS : Nat := 0x3000D00024
def PCI_EVT_STATUS.PERST : FRef := ⟨PCI_EVT_STATUS, 3, 1⟩
def PCI_EVT_STATUS.DSTATE : FRef := ⟨PCI_EVT_STATUS, 2, 1⟩
def PCI_EVT_STATUS.LINK_DOWN : FRef := ⟨PCI_EVT_STATUS, 1, 1⟩
def PCI_EVT_STATUS.LINK_UP : FRef := ⟨PCI_EVT_STATUS, 0, 1⟩
def PCI_EVT_EN : Nat := 0x3000D00028
def PCI_EVT_EN.PERST : FRef := ⟨PCI_EVT_EN, 3, 1⟩
def PCI_EVT_EN.DSTATE : FRef := ⟨PCI_EVT_EN, 2, 1⟩
def PCI_EVT_EN.LINK_DOWN : FRef := ⟨PCI_EVT_EN, 1, 1⟩
def PCI_EVT_EN.LINK_UP : FRef := ⟨PCI_EVT_EN, 0, 1⟩
def ETH_MAC_LO : Nat := 0x3000E00010
def ETH_MAC_LO.MAC_LO : FRef := ⟨ETH_MAC_LO, 0, 32⟩
def ETH_MAC_HI : Nat := 0x3000E00014
def ETH_MAC_HI.MAC_HI : FRef := ⟨ETH_MAC_HI, 0, 16⟩
def ETH_DROP : Nat := 0x3000E00018
def ETH_DROP.NOFWD_CNT : FRef := ⟨ETH_DROP, 16, 16⟩
def ETH_DROP.E2_CNT : FRef := ⟨ETH_DROP, 0, 16⟩
def ETH_EVT_STATUS : Nat := 0x3000E00020
def ETH_EVT_STATUS.E2_DROP : FRef := ⟨ETH_EVT_STATUS, 1, 1⟩
def ETH_EVT_STATUS.NOFWD : FRef := ⟨ETH_EVT_STATUS, 0, 1⟩
def ETH_EVT_EN : Nat := 0x3000E00024
def ETH_EVT_EN.E2_DROP : FRef := ⟨ETH_EVT_EN, 1, 1⟩
def ETH_EVT_EN.NOFWD : FRef := ⟨ETH_EVT_EN, 0, 1⟩
def ETH_CAN_PARK : Nat := 0x3000E00030
def ETH_CAN_PARK.IDE : FRef := ⟨ETH_CAN_PARK, 31, 1⟩
def ETH_CAN_PARK.CH : FRef := ⟨ETH_CAN_PARK, 30, 1⟩
def ETH_CAN_PARK.ID : FRef := ⟨ETH_CAN_PARK, 0, 29⟩
def ETH_CAN_PARK_TMO : Nat := 0x3000E00034
def ETH_CAN_PARK_TMO.TIMEOUT_MS : FRef := ⟨ETH_CAN_PARK_TMO, 0, 13⟩
def ETH_PORT_CTL (i : Nat) : Nat := 0x3000E01000 + i * 0x100
def ETH_PORT_CTL.MASTER (i : Nat) : FRef := ⟨ETH_PORT_CTL i, 1, 1⟩
def ETH_PORT_CTL.ENABLE (i : Nat) : FRef := ⟨ETH_PORT_CTL i, 0, 1⟩
def ETH_PORT_STATUS (i : Nat) : Nat := 0x3000E01004 + i * 0x100
def ETH_PORT_STATUS.LINK (i : Nat) : FRef := ⟨ETH_PORT_STATUS i, 31, 1⟩
def ETH_PORT_STATUS.CRC_CNT (i : Nat) : FRef := ⟨ETH_PORT_STATUS i, 0, 16⟩
def ETH_FWD (i : Nat) : Nat := 0x3000E02000 + i * 0x8
def ETH_FWD.VALID (i : Nat) : FRef := ⟨ETH_FWD i, 31, 1⟩
def ETH_FWD.PORTS (i : Nat) : FRef := ⟨ETH_FWD i, 16, 3⟩
def ETH_FWD.VLAN (i : Nat) : FRef := ⟨ETH_FWD i, 0, 12⟩
def ETH_FWD_MAC (i : Nat) : Nat := 0x3000E02004 + i * 0x8
def ETH_FWD_MAC.MAC_LO (i : Nat) : FRef := ⟨ETH_FWD_MAC i, 0, 32⟩
def ETH_CAN_CTL (i : Nat) : Nat := 0x3000E04000 + i * 0x100
def ETH_CAN_CTL.DATA_KBPS (i : Nat) : FRef := ⟨ETH_CAN_CTL i, 12, 13⟩
def ETH_CAN_CTL.NOM_KBPS (i : Nat) : FRef := ⟨ETH_CAN_CTL i, 1, 11⟩
def ETH_CAN_CTL.ENABLE (i : Nat) : FRef := ⟨ETH_CAN_CTL i, 0, 1⟩
def ETH_CAN_STATUS (i : Nat) : Nat := 0x3000E04004 + i * 0x100
def ETH_CAN_STATUS.STATE (i : Nat) : FRef := ⟨ETH_CAN_STATUS i, 30, 2⟩
def ETH_CAN_STATUS.EN (i : Nat) : FRef := ⟨ETH_CAN_STATUS i, 16, 4⟩
def ETH_CAN_STATUS.PARK_BAD_CNT (i : Nat) : FRef := ⟨ETH_CAN_STATUS i, 8, 8⟩
def ETH_CAN_STATUS.PARK_VALID (i : Nat) : FRef := ⟨ETH_CAN_STATUS i, 3, 1⟩
def ETH_CAN_STATUS.PARK_LOST (i : Nat) : FRef := ⟨ETH_CAN_STATUS i, 2, 1⟩
def ETH_CAN_STATUS.BUS_OFF (i : Nat) : FRef := ⟨ETH_CAN_STATUS i, 1, 1⟩
def ETH_CAN_STATUS.RX (i : Nat) : FRef := ⟨ETH_CAN_STATUS i, 0, 1⟩
def DGT_CFG : Nat := 0x3000F00010
def DGT_CFG.MASTER : FRef := ⟨DGT_CFG, 17, 1⟩
def DGT_CFG.ENABLE : FRef := ⟨DGT_CFG, 16, 1⟩
def DGT_CFG.UDP_PORT : FRef := ⟨DGT_CFG, 0, 16⟩
def DGT_TIMER : Nat := 0x3000F00014
def DGT_TIMER.STALL_MS : FRef := ⟨DGT_TIMER, 16, 16⟩
def DGT_TIMER.RTO_MS : FRef := ⟨DGT_TIMER, 0, 16⟩
def DGT_MAC_LO : Nat := 0x3000F00018
def DGT_MAC_LO.MAC_LO : FRef := ⟨DGT_MAC_LO, 0, 32⟩
def DGT_MAC_HI : Nat := 0x3000F0001C
def DGT_MAC_HI.MAC_HI : FRef := ⟨DGT_MAC_HI, 0, 16⟩
def DGT_IP4 : Nat := 0x3000F00020
def DGT_IP4.ADDR : FRef := ⟨DGT_IP4, 0, 32⟩
def DGT_DROP : Nat := 0x3000F00024
def DGT_DROP.LAST_REASON : FRef := ⟨DGT_DROP, 28, 4⟩
def DGT_DROP.LAST_TENANT : FRef := ⟨DGT_DROP, 24, 4⟩
def DGT_DROP.CNT : FRef := ⟨DGT_DROP, 0, 24⟩
def DGT_EVT_STATUS : Nat := 0x3000F00028
def DGT_EVT_STATUS.CROSSING : FRef := ⟨DGT_EVT_STATUS, 2, 1⟩
def DGT_EVT_STATUS.LINK : FRef := ⟨DGT_EVT_STATUS, 1, 1⟩
def DGT_EVT_STATUS.DROP : FRef := ⟨DGT_EVT_STATUS, 0, 1⟩
def DGT_EVT_EN : Nat := 0x3000F0002C
def DGT_EVT_EN.CROSSING : FRef := ⟨DGT_EVT_EN, 2, 1⟩
def DGT_EVT_EN.LINK : FRef := ⟨DGT_EVT_EN, 1, 1⟩
def DGT_EVT_EN.DROP : FRef := ⟨DGT_EVT_EN, 0, 1⟩
def DGT_TEN_BASE (i : Nat) : Nat := 0x3000F01100 + i * 0x100
def DGT_TEN_BASE.GRANULE (i : Nat) : FRef := ⟨DGT_TEN_BASE i, 0, 16⟩
def DGT_TEN_SIZE (i : Nat) : Nat := 0x3000F01104 + i * 0x100
def DGT_TEN_SIZE.GRANULES (i : Nat) : FRef := ⟨DGT_TEN_SIZE i, 0, 16⟩
def DGT_TEN_KEY0 (i : Nat) : Nat := 0x3000F01110 + i * 0x100
def DGT_TEN_KEY0.KEY (i : Nat) : FRef := ⟨DGT_TEN_KEY0 i, 0, 32⟩
def DGT_TEN_KEY1 (i : Nat) : Nat := 0x3000F01114 + i * 0x100
def DGT_TEN_KEY1.KEY (i : Nat) : FRef := ⟨DGT_TEN_KEY1 i, 0, 32⟩
def DGT_TEN_KEY2 (i : Nat) : Nat := 0x3000F01118 + i * 0x100
def DGT_TEN_KEY2.KEY (i : Nat) : FRef := ⟨DGT_TEN_KEY2 i, 0, 32⟩
def DGT_TEN_KEY3 (i : Nat) : Nat := 0x3000F0111C + i * 0x100
def DGT_TEN_KEY3.KEY (i : Nat) : FRef := ⟨DGT_TEN_KEY3 i, 0, 32⟩
def DGT_TEN_KEY4 (i : Nat) : Nat := 0x3000F01120 + i * 0x100
def DGT_TEN_KEY4.KEY (i : Nat) : FRef := ⟨DGT_TEN_KEY4 i, 0, 32⟩
def DGT_TEN_KEY5 (i : Nat) : Nat := 0x3000F01124 + i * 0x100
def DGT_TEN_KEY5.KEY (i : Nat) : FRef := ⟨DGT_TEN_KEY5 i, 0, 32⟩
def DGT_TEN_KEY6 (i : Nat) : Nat := 0x3000F01128 + i * 0x100
def DGT_TEN_KEY6.KEY (i : Nat) : FRef := ⟨DGT_TEN_KEY6 i, 0, 32⟩
def DGT_TEN_KEY7 (i : Nat) : Nat := 0x3000F0112C + i * 0x100
def DGT_TEN_KEY7.KEY (i : Nat) : FRef := ⟨DGT_TEN_KEY7 i, 0, 32⟩
def DGT_TEN_STATUS (i : Nat) : Nat := 0x3000F01130 + i * 0x100
def DGT_TEN_STATUS.KEY_SET (i : Nat) : FRef := ⟨DGT_TEN_STATUS i, 31, 1⟩
def DGT_TEN_STATUS.STALLED (i : Nat) : FRef := ⟨DGT_TEN_STATUS i, 30, 1⟩
def DGT_TEN_STATUS.EN (i : Nat) : FRef := ⟨DGT_TEN_STATUS i, 20, 8⟩
def DGT_TEN_STATUS.QUEUE_FULL (i : Nat) : FRef := ⟨DGT_TEN_STATUS i, 17, 1⟩
def DGT_TEN_STATUS.STALL (i : Nat) : FRef := ⟨DGT_TEN_STATUS i, 16, 1⟩
def DGT_TEN_STATUS.OUT_Q (i : Nat) : FRef := ⟨DGT_TEN_STATUS i, 0, 9⟩
def ANV_CTL (n : Nat) : Nat := 0x3001000010 + n * 0x10000
def ANV_CTL.SOFT_RESET (n : Nat) : FRef := ⟨ANV_CTL n, 11, 1⟩
def ANV_CTL.FENCE (n : Nat) : FRef := ⟨ANV_CTL n, 10, 1⟩
def ANV_CTL.MODE (n : Nat) : FRef := ⟨ANV_CTL n, 8, 2⟩
def ANV_CTL.ENABLE (n : Nat) : FRef := ⟨ANV_CTL n, 0, 1⟩
def ANV_PAIR_CTL (n : Nat) : Nat := 0x3001000014 + n * 0x10000
def ANV_PAIR_CTL.REQ (n : Nat) : FRef := ⟨ANV_PAIR_CTL n, 8, 1⟩
def ANV_PAIR_CTL.STATE (n : Nat) : FRef := ⟨ANV_PAIR_CTL n, 2, 2⟩
def ANV_PAIR_CTL.ROLE (n : Nat) : FRef := ⟨ANV_PAIR_CTL n, 1, 1⟩
def ANV_PAIR_CTL.PARTNER_OK (n : Nat) : FRef := ⟨ANV_PAIR_CTL n, 0, 1⟩
def ANV_STATUS (n : Nat) : Nat := 0x3001000018 + n * 0x10000
def ANV_STATUS.STREAM (n : Nat) : FRef := ⟨ANV_STATUS n, 20, 12⟩
def ANV_STATUS.LANES_BUSY (n : Nat) : FRef := ⟨ANV_STATUS n, 8, 8⟩
def ANV_STATUS.HELD (n : Nat) : FRef := ⟨ANV_STATUS n, 3, 1⟩
def ANV_STATUS.SELFTEST_OK (n : Nat) : FRef := ⟨ANV_STATUS n, 2, 1⟩
def ANV_STATUS.FENCED (n : Nat) : FRef := ⟨ANV_STATUS n, 1, 1⟩
def ANV_STATUS.BUSY (n : Nat) : FRef := ⟨ANV_STATUS n, 0, 1⟩
def ANV_TL_BASE_LO (n : Nat) : Nat := 0x3001000020 + n * 0x10000
def ANV_TL_BASE_LO.ADDR_LO (n : Nat) : FRef := ⟨ANV_TL_BASE_LO n, 0, 32⟩
def ANV_TL_BASE_HI (n : Nat) : Nat := 0x3001000024 + n * 0x10000
def ANV_TL_BASE_HI.ADDR_HI (n : Nat) : FRef := ⟨ANV_TL_BASE_HI n, 0, 8⟩
def ANV_TL_COUNT (n : Nat) : Nat := 0x3001000028 + n * 0x10000
def ANV_TL_COUNT.COUNT (n : Nat) : FRef := ⟨ANV_TL_COUNT n, 0, 16⟩
def ANV_PORTMAP (n : Nat) : Nat := 0x3001000030 + n * 0x10000
def ANV_PORTMAP.BANK15 (n : Nat) : FRef := ⟨ANV_PORTMAP n, 30, 2⟩
def ANV_PORTMAP.BANK14 (n : Nat) : FRef := ⟨ANV_PORTMAP n, 28, 2⟩
def ANV_PORTMAP.BANK13 (n : Nat) : FRef := ⟨ANV_PORTMAP n, 26, 2⟩
def ANV_PORTMAP.BANK12 (n : Nat) : FRef := ⟨ANV_PORTMAP n, 24, 2⟩
def ANV_PORTMAP.BANK11 (n : Nat) : FRef := ⟨ANV_PORTMAP n, 22, 2⟩
def ANV_PORTMAP.BANK10 (n : Nat) : FRef := ⟨ANV_PORTMAP n, 20, 2⟩
def ANV_PORTMAP.BANK9 (n : Nat) : FRef := ⟨ANV_PORTMAP n, 18, 2⟩
def ANV_PORTMAP.BANK8 (n : Nat) : FRef := ⟨ANV_PORTMAP n, 16, 2⟩
def ANV_PORTMAP.BANK7 (n : Nat) : FRef := ⟨ANV_PORTMAP n, 14, 2⟩
def ANV_PORTMAP.BANK6 (n : Nat) : FRef := ⟨ANV_PORTMAP n, 12, 2⟩
def ANV_PORTMAP.BANK5 (n : Nat) : FRef := ⟨ANV_PORTMAP n, 10, 2⟩
def ANV_PORTMAP.BANK4 (n : Nat) : FRef := ⟨ANV_PORTMAP n, 8, 2⟩
def ANV_PORTMAP.BANK3 (n : Nat) : FRef := ⟨ANV_PORTMAP n, 6, 2⟩
def ANV_PORTMAP.BANK2 (n : Nat) : FRef := ⟨ANV_PORTMAP n, 4, 2⟩
def ANV_PORTMAP.BANK1 (n : Nat) : FRef := ⟨ANV_PORTMAP n, 2, 2⟩
def ANV_PORTMAP.BANK0 (n : Nat) : FRef := ⟨ANV_PORTMAP n, 0, 2⟩
def ANV_PORT_STATUS (n : Nat) : Nat := 0x3001000034 + n * 0x10000
def ANV_PORT_STATUS.COLL_CNT (n : Nat) : FRef := ⟨ANV_PORT_STATUS n, 16, 16⟩
def ANV_PORT_STATUS.LAST_BANK (n : Nat) : FRef := ⟨ANV_PORT_STATUS n, 8, 4⟩
def ANV_PORT_STATUS.ACCESS_PORT (n : Nat) : FRef := ⟨ANV_PORT_STATUS n, 4, 2⟩
def ANV_PORT_STATUS.MAP_PORT (n : Nat) : FRef := ⟨ANV_PORT_STATUS n, 0, 2⟩
def ANV_BS_ECC (n : Nat) : Nat := 0x3001000038 + n * 0x10000
def ANV_BS_ECC.CE_CNT (n : Nat) : FRef := ⟨ANV_BS_ECC n, 16, 16⟩
def ANV_BS_ECC.UE_CNT (n : Nat) : FRef := ⟨ANV_BS_ECC n, 8, 8⟩
def ANV_BS_ECC.LAST_BANK (n : Nat) : FRef := ⟨ANV_BS_ECC n, 4, 4⟩
def ANV_BS_ECC.INJECT (n : Nat) : FRef := ⟨ANV_BS_ECC n, 0, 1⟩
def ANV_WB_STATUS (n : Nat) : Nat := 0x300100003C + n * 0x10000
def ANV_WB_STATUS.FWD_CNT (n : Nat) : FRef := ⟨ANV_WB_STATUS n, 16, 16⟩
def ANV_WB_STATUS.WAIT_CNT (n : Nat) : FRef := ⟨ANV_WB_STATUS n, 0, 16⟩
def ANV_RES_CTL (n : Nat) : Nat := 0x3001000040 + n * 0x10000
def ANV_RES_CTL.INJECT (n : Nat) : FRef := ⟨ANV_RES_CTL n, 8, 1⟩
def ANV_RES_CTL.SELFTEST (n : Nat) : FRef := ⟨ANV_RES_CTL n, 1, 1⟩
def ANV_RES_CTL.ENABLE (n : Nat) : FRef := ⟨ANV_RES_CTL n, 0, 1⟩
def ANV_RES_STATUS (n : Nat) : Nat := 0x3001000044 + n * 0x10000
def ANV_RES_STATUS.MISMATCH_CNT (n : Nat) : FRef := ⟨ANV_RES_STATUS n, 16, 16⟩
def ANV_RES_STATUS.SELFTEST_FAIL (n : Nat) : FRef := ⟨ANV_RES_STATUS n, 11, 1⟩
def ANV_RES_STATUS.LAST_LANE (n : Nat) : FRef := ⟨ANV_RES_STATUS n, 8, 3⟩
def ANV_RES_STATUS.LAST_ROW (n : Nat) : FRef := ⟨ANV_RES_STATUS n, 0, 6⟩
def ANV_RANGE_CNT (n : Nat) : Nat := 0x3001000048 + n * 0x10000
def ANV_RANGE_CNT.COUNT (n : Nat) : FRef := ⟨ANV_RANGE_CNT n, 0, 16⟩
def ANV_EVT_STATUS (n : Nat) : Nat := 0x3001000050 + n * 0x10000
def ANV_EVT_STATUS.PAIR_CHANGED (n : Nat) : FRef := ⟨ANV_EVT_STATUS n, 5, 1⟩
def ANV_EVT_STATUS.REFUSED (n : Nat) : FRef := ⟨ANV_EVT_STATUS n, 4, 1⟩
def ANV_EVT_STATUS.PORT_COLLISION (n : Nat) : FRef := ⟨ANV_EVT_STATUS n, 3, 1⟩
def ANV_EVT_STATUS.RESIDUE (n : Nat) : FRef := ⟨ANV_EVT_STATUS n, 2, 1⟩
def ANV_EVT_STATUS.RANGE (n : Nat) : FRef := ⟨ANV_EVT_STATUS n, 1, 1⟩
def ANV_EVT_STATUS.DONE (n : Nat) : FRef := ⟨ANV_EVT_STATUS n, 0, 1⟩
def ANV_EVT_EN (n : Nat) : Nat := 0x3001000054 + n * 0x10000
def ANV_EVT_EN.PAIR_CHANGED (n : Nat) : FRef := ⟨ANV_EVT_EN n, 5, 1⟩
def ANV_EVT_EN.REFUSED (n : Nat) : FRef := ⟨ANV_EVT_EN n, 4, 1⟩
def ANV_EVT_EN.PORT_COLLISION (n : Nat) : FRef := ⟨ANV_EVT_EN n, 3, 1⟩
def ANV_EVT_EN.RESIDUE (n : Nat) : FRef := ⟨ANV_EVT_EN n, 2, 1⟩
def ANV_EVT_EN.RANGE (n : Nat) : FRef := ⟨ANV_EVT_EN n, 1, 1⟩
def ANV_EVT_EN.DONE (n : Nat) : FRef := ⟨ANV_EVT_EN n, 0, 1⟩
def ANV_SIG_LO (n : Nat) : Nat := 0x3001000060 + n * 0x10000
def ANV_SIG_LO.SIG_LO (n : Nat) : FRef := ⟨ANV_SIG_LO n, 0, 32⟩
def ANV_SIG_HI (n : Nat) : Nat := 0x3001000064 + n * 0x10000
def ANV_SIG_HI.SIG_HI (n : Nat) : FRef := ⟨ANV_SIG_HI n, 0, 32⟩
def ANV_SIG_SEQ (n : Nat) : Nat := 0x3001000068 + n * 0x10000
def ANV_SIG_SEQ.SEQ (n : Nat) : FRef := ⟨ANV_SIG_SEQ n, 0, 32⟩
def ANV_BUSY_LO (n : Nat) : Nat := 0x3001000070 + n * 0x10000
def ANV_BUSY_LO.BUSY_LO (n : Nat) : FRef := ⟨ANV_BUSY_LO n, 0, 32⟩
def ANV_BUSY_HI (n : Nat) : Nat := 0x3001000074 + n * 0x10000
def ANV_BUSY_HI.BUSY_HI (n : Nat) : FRef := ⟨ANV_BUSY_HI n, 0, 32⟩
def ANV_STALL (n : Nat) : Nat := 0x3001000078 + n * 0x10000
def ANV_STALL.CYCLES (n : Nat) : FRef := ⟨ANV_STALL n, 0, 32⟩
def ANV_MARMER_CFG (n : Nat) : Nat := 0x3001000080 + n * 0x10000
def ANV_MARMER_CFG.ROUND (n : Nat) : FRef := ⟨ANV_MARMER_CFG n, 0, 1⟩
def ANV_REFUSE (n : Nat) : Nat := 0x3001000090 + n * 0x10000
def ANV_REFUSE.REASON (n : Nat) : FRef := ⟨ANV_REFUSE n, 24, 8⟩
def ANV_REFUSE.INDEX (n : Nat) : FRef := ⟨ANV_REFUSE n, 0, 16⟩
def ANV_TL_PC (n : Nat) : Nat := 0x3001000094 + n * 0x10000
def ANV_TL_PC.PC (n : Nat) : FRef := ⟨ANV_TL_PC n, 0, 16⟩
def ANV_FUS_STATUS (n : Nat) : Nat := 0x30010000A0 + n * 0x10000
def ANV_FUS_STATUS.DUP_CNT (n : Nat) : FRef := ⟨ANV_FUS_STATUS n, 16, 16⟩
def ANV_FUS_STATUS.LAST_UNIT (n : Nat) : FRef := ⟨ANV_FUS_STATUS n, 8, 1⟩
def ANV_FUS_STATUS.LAST_SLOT (n : Nat) : FRef := ⟨ANV_FUS_STATUS n, 0, 3⟩
def ANV_FUS_CTL (n : Nat) : Nat := 0x30010000A4 + n * 0x10000
def ANV_FUS_CTL.INJ_PRO (n : Nat) : FRef := ⟨ANV_FUS_CTL n, 1, 1⟩
def ANV_FUS_CTL.INJ_EPI (n : Nat) : FRef := ⟨ANV_FUS_CTL n, 0, 1⟩
def ANV_SEND_STATUS (n : Nat) : Nat := 0x30010000A8 + n * 0x10000
def ANV_SEND_STATUS.FAIL_CNT (n : Nat) : FRef := ⟨ANV_SEND_STATUS n, 16, 16⟩
def ANV_SEND_STATUS.LAST_REASON (n : Nat) : FRef := ⟨ANV_SEND_STATUS n, 8, 8⟩
def ANV_SEND_STATUS.OUTSTANDING (n : Nat) : FRef := ⟨ANV_SEND_STATUS n, 0, 6⟩
def DRW_CTL (n : Nat) : Nat := 0x3002000010 + n * 0x10000
def DRW_CTL.SOFT_RESET (n : Nat) : FRef := ⟨DRW_CTL n, 11, 1⟩
def DRW_CTL.FENCE (n : Nat) : FRef := ⟨DRW_CTL n, 10, 1⟩
def DRW_CTL.ENABLE (n : Nat) : FRef := ⟨DRW_CTL n, 0, 1⟩
def DRW_PAIR_CTL (n : Nat) : Nat := 0x3002000014 + n * 0x10000
def DRW_PAIR_CTL.REQ (n : Nat) : FRef := ⟨DRW_PAIR_CTL n, 8, 1⟩
def DRW_PAIR_CTL.STATE (n : Nat) : FRef := ⟨DRW_PAIR_CTL n, 2, 2⟩
def DRW_PAIR_CTL.ROLE (n : Nat) : FRef := ⟨DRW_PAIR_CTL n, 1, 1⟩
def DRW_PAIR_CTL.PARTNER_OK (n : Nat) : FRef := ⟨DRW_PAIR_CTL n, 0, 1⟩
def DRW_STATUS (n : Nat) : Nat := 0x3002000018 + n * 0x10000
def DRW_STATUS.STREAM (n : Nat) : FRef := ⟨DRW_STATUS n, 20, 12⟩
def DRW_STATUS.GOLD_RUN (n : Nat) : FRef := ⟨DRW_STATUS n, 4, 1⟩
def DRW_STATUS.HELD (n : Nat) : FRef := ⟨DRW_STATUS n, 3, 1⟩
def DRW_STATUS.GOLD_OK (n : Nat) : FRef := ⟨DRW_STATUS n, 2, 1⟩
def DRW_STATUS.FENCED (n : Nat) : FRef := ⟨DRW_STATUS n, 1, 1⟩
def DRW_STATUS.BUSY (n : Nat) : FRef := ⟨DRW_STATUS n, 0, 1⟩
def DRW_DL_BASE_LO (n : Nat) : Nat := 0x3002000020 + n * 0x10000
def DRW_DL_BASE_LO.ADDR_LO (n : Nat) : FRef := ⟨DRW_DL_BASE_LO n, 0, 32⟩
def DRW_DL_BASE_HI (n : Nat) : Nat := 0x3002000024 + n * 0x10000
def DRW_DL_BASE_HI.ADDR_HI (n : Nat) : FRef := ⟨DRW_DL_BASE_HI n, 0, 8⟩
def DRW_DL_COUNT (n : Nat) : Nat := 0x3002000028 + n * 0x10000
def DRW_DL_COUNT.COUNT (n : Nat) : FRef := ⟨DRW_DL_COUNT n, 0, 16⟩
def DRW_RES_CTL (n : Nat) : Nat := 0x3002000040 + n * 0x10000
def DRW_RES_CTL.INJECT (n : Nat) : FRef := ⟨DRW_RES_CTL n, 8, 1⟩
def DRW_RES_CTL.SELFTEST (n : Nat) : FRef := ⟨DRW_RES_CTL n, 1, 1⟩
def DRW_RES_CTL.ENABLE (n : Nat) : FRef := ⟨DRW_RES_CTL n, 0, 1⟩
def DRW_RES_STATUS (n : Nat) : Nat := 0x3002000044 + n * 0x10000
def DRW_RES_STATUS.MISMATCH_CNT (n : Nat) : FRef := ⟨DRW_RES_STATUS n, 16, 16⟩
def DRW_RES_STATUS.SELFTEST_FAIL (n : Nat) : FRef := ⟨DRW_RES_STATUS n, 11, 1⟩
def DRW_RES_STATUS.LAST_ROW (n : Nat) : FRef := ⟨DRW_RES_STATUS n, 0, 7⟩
def DRW_EVT_STATUS (n : Nat) : Nat := 0x3002000050 + n * 0x10000
def DRW_EVT_STATUS.PAIR_CHANGED (n : Nat) : FRef := ⟨DRW_EVT_STATUS n, 6, 1⟩
def DRW_EVT_STATUS.GOLD_FAIL (n : Nat) : FRef := ⟨DRW_EVT_STATUS n, 5, 1⟩
def DRW_EVT_STATUS.DUP (n : Nat) : FRef := ⟨DRW_EVT_STATUS n, 4, 1⟩
def DRW_EVT_STATUS.REFUSED (n : Nat) : FRef := ⟨DRW_EVT_STATUS n, 3, 1⟩
def DRW_EVT_STATUS.RESIDUE (n : Nat) : FRef := ⟨DRW_EVT_STATUS n, 2, 1⟩
def DRW_EVT_STATUS.EMPTY_ROW (n : Nat) : FRef := ⟨DRW_EVT_STATUS n, 1, 1⟩
def DRW_EVT_STATUS.DONE (n : Nat) : FRef := ⟨DRW_EVT_STATUS n, 0, 1⟩
def DRW_EVT_EN (n : Nat) : Nat := 0x3002000054 + n * 0x10000
def DRW_EVT_EN.PAIR_CHANGED (n : Nat) : FRef := ⟨DRW_EVT_EN n, 6, 1⟩
def DRW_EVT_EN.GOLD_FAIL (n : Nat) : FRef := ⟨DRW_EVT_EN n, 5, 1⟩
def DRW_EVT_EN.DUP (n : Nat) : FRef := ⟨DRW_EVT_EN n, 4, 1⟩
def DRW_EVT_EN.REFUSED (n : Nat) : FRef := ⟨DRW_EVT_EN n, 3, 1⟩
def DRW_EVT_EN.RESIDUE (n : Nat) : FRef := ⟨DRW_EVT_EN n, 2, 1⟩
def DRW_EVT_EN.EMPTY_ROW (n : Nat) : FRef := ⟨DRW_EVT_EN n, 1, 1⟩
def DRW_EVT_EN.DONE (n : Nat) : FRef := ⟨DRW_EVT_EN n, 0, 1⟩
def DRW_SIG_LO (n : Nat) : Nat := 0x3002000060 + n * 0x10000
def DRW_SIG_LO.SIG_LO (n : Nat) : FRef := ⟨DRW_SIG_LO n, 0, 32⟩
def DRW_SIG_HI (n : Nat) : Nat := 0x3002000064 + n * 0x10000
def DRW_SIG_HI.SIG_HI (n : Nat) : FRef := ⟨DRW_SIG_HI n, 0, 32⟩
def DRW_SIG_SEQ (n : Nat) : Nat := 0x3002000068 + n * 0x10000
def DRW_SIG_SEQ.SEQ (n : Nat) : FRef := ⟨DRW_SIG_SEQ n, 0, 32⟩
def DRW_BUSY_LO (n : Nat) : Nat := 0x3002000070 + n * 0x10000
def DRW_BUSY_LO.BUSY_LO (n : Nat) : FRef := ⟨DRW_BUSY_LO n, 0, 32⟩
def DRW_BUSY_HI (n : Nat) : Nat := 0x3002000074 + n * 0x10000
def DRW_BUSY_HI.BUSY_HI (n : Nat) : FRef := ⟨DRW_BUSY_HI n, 0, 32⟩
def DRW_STALL (n : Nat) : Nat := 0x3002000078 + n * 0x10000
def DRW_STALL.CYCLES (n : Nat) : FRef := ⟨DRW_STALL n, 0, 32⟩
def DRW_REFUSE (n : Nat) : Nat := 0x3002000090 + n * 0x10000
def DRW_REFUSE.REASON (n : Nat) : FRef := ⟨DRW_REFUSE n, 24, 8⟩
def DRW_REFUSE.INDEX (n : Nat) : FRef := ⟨DRW_REFUSE n, 0, 16⟩
def DRW_DL_PC (n : Nat) : Nat := 0x3002000094 + n * 0x10000
def DRW_DL_PC.PC (n : Nat) : FRef := ⟨DRW_DL_PC n, 0, 16⟩
def DRW_DUP_STATUS (n : Nat) : Nat := 0x30020000A0 + n * 0x10000
def DRW_DUP_STATUS.DUP_CNT (n : Nat) : FRef := ⟨DRW_DUP_STATUS n, 16, 16⟩
def DRW_DUP_STATUS.LAST_UNIT (n : Nat) : FRef := ⟨DRW_DUP_STATUS n, 8, 1⟩
def DRW_DUP_CTL (n : Nat) : Nat := 0x30020000A4 + n * 0x10000
def DRW_DUP_CTL.INJ_ROPE (n : Nat) : FRef := ⟨DRW_DUP_CTL n, 1, 1⟩
def DRW_DUP_CTL.INJ_OUT (n : Nat) : FRef := ⟨DRW_DUP_CTL n, 0, 1⟩
def DRW_GOLD_BASE_LO (n : Nat) : Nat := 0x30020000B0 + n * 0x10000
def DRW_GOLD_BASE_LO.ADDR_LO (n : Nat) : FRef := ⟨DRW_GOLD_BASE_LO n, 0, 32⟩
def DRW_GOLD_BASE_HI (n : Nat) : Nat := 0x30020000B4 + n * 0x10000
def DRW_GOLD_BASE_HI.ADDR_HI (n : Nat) : FRef := ⟨DRW_GOLD_BASE_HI n, 0, 8⟩
def DRW_GOLD_COUNT (n : Nat) : Nat := 0x30020000B8 + n * 0x10000
def DRW_GOLD_COUNT.COUNT (n : Nat) : FRef := ⟨DRW_GOLD_COUNT n, 0, 16⟩
def DRW_GOLD_CTL (n : Nat) : Nat := 0x30020000BC + n * 0x10000
def DRW_GOLD_CTL.FAIL (n : Nat) : FRef := ⟨DRW_GOLD_CTL n, 1, 1⟩
def DRW_GOLD_CTL.EN (n : Nat) : FRef := ⟨DRW_GOLD_CTL n, 0, 1⟩
def DRW_ROW_STATUS (n : Nat) : Nat := 0x30020000D0 + n * 0x10000
def DRW_ROW_STATUS.EMPTY_CNT (n : Nat) : FRef := ⟨DRW_ROW_STATUS n, 16, 16⟩
def DRW_ROW_STATUS.NAN_CNT (n : Nat) : FRef := ⟨DRW_ROW_STATUS n, 0, 16⟩
def VEC_CTL (n : Nat) : Nat := 0x3002100010 + n * 0x10000
def VEC_CTL.SOFT_RESET (n : Nat) : FRef := ⟨VEC_CTL n, 11, 1⟩
def VEC_CTL.FENCE (n : Nat) : FRef := ⟨VEC_CTL n, 10, 1⟩
def VEC_CTL.ENABLE (n : Nat) : FRef := ⟨VEC_CTL n, 0, 1⟩
def VEC_PAIR_CTL (n : Nat) : Nat := 0x3002100014 + n * 0x10000
def VEC_PAIR_CTL.REQ (n : Nat) : FRef := ⟨VEC_PAIR_CTL n, 8, 1⟩
def VEC_PAIR_CTL.STATE (n : Nat) : FRef := ⟨VEC_PAIR_CTL n, 2, 2⟩
def VEC_PAIR_CTL.ROLE (n : Nat) : FRef := ⟨VEC_PAIR_CTL n, 1, 1⟩
def VEC_PAIR_CTL.PARTNER_OK (n : Nat) : FRef := ⟨VEC_PAIR_CTL n, 0, 1⟩
def VEC_STATUS (n : Nat) : Nat := 0x3002100018 + n * 0x10000
def VEC_STATUS.STREAM (n : Nat) : FRef := ⟨VEC_STATUS n, 20, 12⟩
def VEC_STATUS.GOLD_RUN (n : Nat) : FRef := ⟨VEC_STATUS n, 4, 1⟩
def VEC_STATUS.HELD (n : Nat) : FRef := ⟨VEC_STATUS n, 3, 1⟩
def VEC_STATUS.GOLD_OK (n : Nat) : FRef := ⟨VEC_STATUS n, 2, 1⟩
def VEC_STATUS.FENCED (n : Nat) : FRef := ⟨VEC_STATUS n, 1, 1⟩
def VEC_STATUS.BUSY (n : Nat) : FRef := ⟨VEC_STATUS n, 0, 1⟩
def VEC_LIST_BASE_LO (n : Nat) : Nat := 0x3002100020 + n * 0x10000
def VEC_LIST_BASE_LO.ADDR_LO (n : Nat) : FRef := ⟨VEC_LIST_BASE_LO n, 0, 32⟩
def VEC_LIST_BASE_HI (n : Nat) : Nat := 0x3002100024 + n * 0x10000
def VEC_LIST_BASE_HI.ADDR_HI (n : Nat) : FRef := ⟨VEC_LIST_BASE_HI n, 0, 8⟩
def VEC_LIST_CNT (n : Nat) : Nat := 0x3002100028 + n * 0x10000
def VEC_LIST_CNT.PC (n : Nat) : FRef := ⟨VEC_LIST_CNT n, 16, 16⟩
def VEC_LIST_CNT.COUNT (n : Nat) : FRef := ⟨VEC_LIST_CNT n, 0, 16⟩
def VEC_RES (n : Nat) : Nat := 0x3002100040 + n * 0x10000
def VEC_RES.MISMATCH_CNT (n : Nat) : FRef := ⟨VEC_RES n, 16, 16⟩
def VEC_RES.SELFTEST_FAIL (n : Nat) : FRef := ⟨VEC_RES n, 11, 1⟩
def VEC_RES.INJECT (n : Nat) : FRef := ⟨VEC_RES n, 8, 1⟩
def VEC_RES.SELFTEST (n : Nat) : FRef := ⟨VEC_RES n, 1, 1⟩
def VEC_RES.ENABLE (n : Nat) : FRef := ⟨VEC_RES n, 0, 1⟩
def VEC_EVT_STATUS (n : Nat) : Nat := 0x3002100050 + n * 0x10000
def VEC_EVT_STATUS.PAIR_CHANGED (n : Nat) : FRef := ⟨VEC_EVT_STATUS n, 6, 1⟩
def VEC_EVT_STATUS.GOLD_FAIL (n : Nat) : FRef := ⟨VEC_EVT_STATUS n, 5, 1⟩
def VEC_EVT_STATUS.DUP (n : Nat) : FRef := ⟨VEC_EVT_STATUS n, 4, 1⟩
def VEC_EVT_STATUS.REFUSED (n : Nat) : FRef := ⟨VEC_EVT_STATUS n, 3, 1⟩
def VEC_EVT_STATUS.RESIDUE (n : Nat) : FRef := ⟨VEC_EVT_STATUS n, 2, 1⟩
def VEC_EVT_STATUS.CAPACITY (n : Nat) : FRef := ⟨VEC_EVT_STATUS n, 1, 1⟩
def VEC_EVT_STATUS.DONE (n : Nat) : FRef := ⟨VEC_EVT_STATUS n, 0, 1⟩
def VEC_EVT_EN (n : Nat) : Nat := 0x3002100054 + n * 0x10000
def VEC_EVT_EN.PAIR_CHANGED (n : Nat) : FRef := ⟨VEC_EVT_EN n, 6, 1⟩
def VEC_EVT_EN.GOLD_FAIL (n : Nat) : FRef := ⟨VEC_EVT_EN n, 5, 1⟩
def VEC_EVT_EN.DUP (n : Nat) : FRef := ⟨VEC_EVT_EN n, 4, 1⟩
def VEC_EVT_EN.REFUSED (n : Nat) : FRef := ⟨VEC_EVT_EN n, 3, 1⟩
def VEC_EVT_EN.RESIDUE (n : Nat) : FRef := ⟨VEC_EVT_EN n, 2, 1⟩
def VEC_EVT_EN.CAPACITY (n : Nat) : FRef := ⟨VEC_EVT_EN n, 1, 1⟩
def VEC_EVT_EN.DONE (n : Nat) : FRef := ⟨VEC_EVT_EN n, 0, 1⟩
def VEC_SIG_LO (n : Nat) : Nat := 0x3002100060 + n * 0x10000
def VEC_SIG_LO.SIG_LO (n : Nat) : FRef := ⟨VEC_SIG_LO n, 0, 32⟩
def VEC_SIG_HI (n : Nat) : Nat := 0x3002100064 + n * 0x10000
def VEC_SIG_HI.SIG_HI (n : Nat) : FRef := ⟨VEC_SIG_HI n, 0, 32⟩
def VEC_SIG_SEQ (n : Nat) : Nat := 0x3002100068 + n * 0x10000
def VEC_SIG_SEQ.SEQ (n : Nat) : FRef := ⟨VEC_SIG_SEQ n, 0, 32⟩
def VEC_STALL (n : Nat) : Nat := 0x3002100078 + n * 0x10000
def VEC_STALL.CYCLES (n : Nat) : FRef := ⟨VEC_STALL n, 0, 32⟩
def VEC_REFUSE (n : Nat) : Nat := 0x3002100090 + n * 0x10000
def VEC_REFUSE.REASON (n : Nat) : FRef := ⟨VEC_REFUSE n, 24, 8⟩
def VEC_REFUSE.INDEX (n : Nat) : FRef := ⟨VEC_REFUSE n, 0, 16⟩
def VEC_DUP (n : Nat) : Nat := 0x30021000A0 + n * 0x10000
def VEC_DUP.DUP_CNT (n : Nat) : FRef := ⟨VEC_DUP n, 16, 16⟩
def VEC_DUP.LAST_UNIT (n : Nat) : FRef := ⟨VEC_DUP n, 8, 1⟩
def VEC_DUP.INJ_B (n : Nat) : FRef := ⟨VEC_DUP n, 1, 1⟩
def VEC_DUP.INJ_A (n : Nat) : FRef := ⟨VEC_DUP n, 0, 1⟩
def VEC_GOLD_BASE_LO (n : Nat) : Nat := 0x30021000B0 + n * 0x10000
def VEC_GOLD_BASE_LO.ADDR_LO (n : Nat) : FRef := ⟨VEC_GOLD_BASE_LO n, 0, 32⟩
def VEC_GOLD_BASE_HI (n : Nat) : Nat := 0x30021000B4 + n * 0x10000
def VEC_GOLD_BASE_HI.ADDR_HI (n : Nat) : FRef := ⟨VEC_GOLD_BASE_HI n, 0, 8⟩
def VEC_GOLD_CTL (n : Nat) : Nat := 0x30021000B8 + n * 0x10000
def VEC_GOLD_CTL.COUNT (n : Nat) : FRef := ⟨VEC_GOLD_CTL n, 16, 16⟩
def VEC_GOLD_CTL.FAIL (n : Nat) : FRef := ⟨VEC_GOLD_CTL n, 1, 1⟩
def VEC_GOLD_CTL.EN (n : Nat) : FRef := ⟨VEC_GOLD_CTL n, 0, 1⟩
def PPU_CTL (i : Nat) : Nat := 0x3002200010 + i * 0x1000
def PPU_CTL.SOFT_RESET (i : Nat) : FRef := ⟨PPU_CTL i, 11, 1⟩
def PPU_CTL.FENCE (i : Nat) : FRef := ⟨PPU_CTL i, 10, 1⟩
def PPU_CTL.ENABLE (i : Nat) : FRef := ⟨PPU_CTL i, 0, 1⟩
def PPU_PAIR_CTL (i : Nat) : Nat := 0x3002200014 + i * 0x1000
def PPU_PAIR_CTL.REQ (i : Nat) : FRef := ⟨PPU_PAIR_CTL i, 8, 1⟩
def PPU_PAIR_CTL.STATE (i : Nat) : FRef := ⟨PPU_PAIR_CTL i, 2, 2⟩
def PPU_PAIR_CTL.ROLE (i : Nat) : FRef := ⟨PPU_PAIR_CTL i, 1, 1⟩
def PPU_PAIR_CTL.PARTNER_OK (i : Nat) : FRef := ⟨PPU_PAIR_CTL i, 0, 1⟩
def PPU_STATUS (i : Nat) : Nat := 0x3002200018 + i * 0x1000
def PPU_STATUS.STREAM (i : Nat) : FRef := ⟨PPU_STATUS i, 20, 12⟩
def PPU_STATUS.GOLD_RUN (i : Nat) : FRef := ⟨PPU_STATUS i, 4, 1⟩
def PPU_STATUS.HELD (i : Nat) : FRef := ⟨PPU_STATUS i, 3, 1⟩
def PPU_STATUS.GOLD_OK (i : Nat) : FRef := ⟨PPU_STATUS i, 2, 1⟩
def PPU_STATUS.FENCED (i : Nat) : FRef := ⟨PPU_STATUS i, 1, 1⟩
def PPU_STATUS.BUSY (i : Nat) : FRef := ⟨PPU_STATUS i, 0, 1⟩
def PPU_LIST_BASE_LO (i : Nat) : Nat := 0x3002200020 + i * 0x1000
def PPU_LIST_BASE_LO.ADDR_LO (i : Nat) : FRef := ⟨PPU_LIST_BASE_LO i, 0, 32⟩
def PPU_LIST_BASE_HI (i : Nat) : Nat := 0x3002200024 + i * 0x1000
def PPU_LIST_BASE_HI.ADDR_HI (i : Nat) : FRef := ⟨PPU_LIST_BASE_HI i, 0, 8⟩
def PPU_LIST_CNT (i : Nat) : Nat := 0x3002200028 + i * 0x1000
def PPU_LIST_CNT.PC (i : Nat) : FRef := ⟨PPU_LIST_CNT i, 16, 16⟩
def PPU_LIST_CNT.COUNT (i : Nat) : FRef := ⟨PPU_LIST_CNT i, 0, 16⟩
def PPU_EVT_STATUS (i : Nat) : Nat := 0x3002200050 + i * 0x1000
def PPU_EVT_STATUS.PAIR_CHANGED (i : Nat) : FRef := ⟨PPU_EVT_STATUS i, 6, 1⟩
def PPU_EVT_STATUS.GOLD_FAIL (i : Nat) : FRef := ⟨PPU_EVT_STATUS i, 5, 1⟩
def PPU_EVT_STATUS.DUP (i : Nat) : FRef := ⟨PPU_EVT_STATUS i, 4, 1⟩
def PPU_EVT_STATUS.REFUSED (i : Nat) : FRef := ⟨PPU_EVT_STATUS i, 3, 1⟩
def PPU_EVT_STATUS.RESIDUE (i : Nat) : FRef := ⟨PPU_EVT_STATUS i, 2, 1⟩
def PPU_EVT_STATUS.CAPACITY (i : Nat) : FRef := ⟨PPU_EVT_STATUS i, 1, 1⟩
def PPU_EVT_STATUS.DONE (i : Nat) : FRef := ⟨PPU_EVT_STATUS i, 0, 1⟩
def PPU_EVT_EN (i : Nat) : Nat := 0x3002200054 + i * 0x1000
def PPU_EVT_EN.PAIR_CHANGED (i : Nat) : FRef := ⟨PPU_EVT_EN i, 6, 1⟩
def PPU_EVT_EN.GOLD_FAIL (i : Nat) : FRef := ⟨PPU_EVT_EN i, 5, 1⟩
def PPU_EVT_EN.DUP (i : Nat) : FRef := ⟨PPU_EVT_EN i, 4, 1⟩
def PPU_EVT_EN.REFUSED (i : Nat) : FRef := ⟨PPU_EVT_EN i, 3, 1⟩
def PPU_EVT_EN.RESIDUE (i : Nat) : FRef := ⟨PPU_EVT_EN i, 2, 1⟩
def PPU_EVT_EN.CAPACITY (i : Nat) : FRef := ⟨PPU_EVT_EN i, 1, 1⟩
def PPU_EVT_EN.DONE (i : Nat) : FRef := ⟨PPU_EVT_EN i, 0, 1⟩
def PPU_SIG_LO (i : Nat) : Nat := 0x3002200060 + i * 0x1000
def PPU_SIG_LO.SIG_LO (i : Nat) : FRef := ⟨PPU_SIG_LO i, 0, 32⟩
def PPU_SIG_HI (i : Nat) : Nat := 0x3002200064 + i * 0x1000
def PPU_SIG_HI.SIG_HI (i : Nat) : FRef := ⟨PPU_SIG_HI i, 0, 32⟩
def PPU_SIG_SEQ (i : Nat) : Nat := 0x3002200068 + i * 0x1000
def PPU_SIG_SEQ.SEQ (i : Nat) : FRef := ⟨PPU_SIG_SEQ i, 0, 32⟩
def PPU_STALL (i : Nat) : Nat := 0x3002200078 + i * 0x1000
def PPU_STALL.CYCLES (i : Nat) : FRef := ⟨PPU_STALL i, 0, 32⟩
def PPU_REFUSE (i : Nat) : Nat := 0x3002200090 + i * 0x1000
def PPU_REFUSE.REASON (i : Nat) : FRef := ⟨PPU_REFUSE i, 24, 8⟩
def PPU_REFUSE.INDEX (i : Nat) : FRef := ⟨PPU_REFUSE i, 0, 16⟩
def PPU_DUP (i : Nat) : Nat := 0x30022000A0 + i * 0x1000
def PPU_DUP.DUP_CNT (i : Nat) : FRef := ⟨PPU_DUP i, 16, 16⟩
def PPU_DUP.LAST_UNIT (i : Nat) : FRef := ⟨PPU_DUP i, 8, 1⟩
def PPU_DUP.INJ_B (i : Nat) : FRef := ⟨PPU_DUP i, 1, 1⟩
def PPU_DUP.INJ_A (i : Nat) : FRef := ⟨PPU_DUP i, 0, 1⟩
def PPU_GOLD_BASE_LO (i : Nat) : Nat := 0x30022000B0 + i * 0x1000
def PPU_GOLD_BASE_LO.ADDR_LO (i : Nat) : FRef := ⟨PPU_GOLD_BASE_LO i, 0, 32⟩
def PPU_GOLD_BASE_HI (i : Nat) : Nat := 0x30022000B4 + i * 0x1000
def PPU_GOLD_BASE_HI.ADDR_HI (i : Nat) : FRef := ⟨PPU_GOLD_BASE_HI i, 0, 8⟩
def PPU_GOLD_CTL (i : Nat) : Nat := 0x30022000B8 + i * 0x1000
def PPU_GOLD_CTL.COUNT (i : Nat) : FRef := ⟨PPU_GOLD_CTL i, 16, 16⟩
def PPU_GOLD_CTL.FAIL (i : Nat) : FRef := ⟨PPU_GOLD_CTL i, 1, 1⟩
def PPU_GOLD_CTL.EN (i : Nat) : FRef := ⟨PPU_GOLD_CTL i, 0, 1⟩
def PPU_RESULT (i : Nat) : Nat := 0x30022000D0 + i * 0x1000
def PPU_RESULT.DROP_CNT (i : Nat) : FRef := ⟨PPU_RESULT i, 16, 16⟩
def PPU_RESULT.NAN_CNT (i : Nat) : FRef := ⟨PPU_RESULT i, 0, 16⟩
def EMB_CTL : Nat := 0x3002300010
def EMB_CTL.ENABLE : FRef := ⟨EMB_CTL, 0, 1⟩
def EMB_OFFSET : Nat := 0x3002300014
def EMB_OFFSET.US : FRef := ⟨EMB_OFFSET, 0, 18⟩
def EMB_DEADLINE : Nat := 0x3002300018
def EMB_DEADLINE.US : FRef := ⟨EMB_DEADLINE, 0, 18⟩
def EMB_IN : Nat := 0x300230001C
def EMB_IN.STREAMS : FRef := ⟨EMB_IN, 0, 24⟩
def EMB_OUT_LO : Nat := 0x3002300020
def EMB_OUT_LO.ADDR_LO : FRef := ⟨EMB_OUT_LO, 0, 32⟩
def EMB_OUT_HI : Nat := 0x3002300024
def EMB_OUT_HI.ADDR_HI : FRef := ⟨EMB_OUT_HI, 0, 8⟩
def EMB_RESULT : Nat := 0x3002300028
def EMB_RESULT.BYTES : FRef := ⟨EMB_RESULT, 0, 17⟩
def EMB_DEG : Nat := 0x300230002C
def EMB_DEG.EN : FRef := ⟨EMB_DEG, 0, 1⟩
def EMB_DEG_TAG : Nat := 0x3002300030
def EMB_DEG_TAG.TAG : FRef := ⟨EMB_DEG_TAG, 0, 32⟩
def EMB_STATUS : Nat := 0x3002300034
def EMB_STATUS.LAST : FRef := ⟨EMB_STATUS, 29, 3⟩
def EMB_STATUS.RUNNING : FRef := ⟨EMB_STATUS, 28, 1⟩
def EMB_STATUS.LATE_CNT : FRef := ⟨EMB_STATUS, 16, 8⟩
def EMB_STATUS.FAULT_CNT : FRef := ⟨EMB_STATUS, 8, 8⟩
def EMB_STATUS.DROP_CNT : FRef := ⟨EMB_STATUS, 0, 8⟩
def EMB_LAST_STRIKE : Nat := 0x3002300038
def EMB_LAST_STRIKE.NUM : FRef := ⟨EMB_LAST_STRIKE, 0, 32⟩
def EMB_LAST_AGE : Nat := 0x300230003C
def EMB_LAST_AGE.NS : FRef := ⟨EMB_LAST_AGE, 0, 32⟩
def SNT_CTL : Nat := 0x3002400010
def SNT_CTL.PCIE_WAKE : FRef := ⟨SNT_CTL, 7, 1⟩
def SNT_CTL.VEH_WAKE : FRef := ⟨SNT_CTL, 6, 1⟩
def SNT_CTL.DEPOT_WAKE : FRef := ⟨SNT_CTL, 5, 1⟩
def SNT_CTL.PROOF_EN : FRef := ⟨SNT_CTL, 4, 1⟩
def SNT_CTL.CAM_EN : FRef := ⟨SNT_CTL, 3, 1⟩
def SNT_CTL.ACC_EN : FRef := ⟨SNT_CTL, 2, 1⟩
def SNT_CTL.CANW_EN : FRef := ⟨SNT_CTL, 1, 1⟩
def SNT_CTL.PIN_EN : FRef := ⟨SNT_CTL, 0, 1⟩
def SNT_CAM_CFG : Nat := 0x3002400014
def SNT_CAM_CFG.THRESH : FRef := ⟨SNT_CAM_CFG, 24, 8⟩
def SNT_CAM_CFG.PERIOD_S : FRef := ⟨SNT_CAM_CFG, 16, 8⟩
def SNT_CAM_CFG.CAMERA : FRef := ⟨SNT_CAM_CFG, 0, 4⟩
def SNT_ACC_CFG : Nat := 0x3002400018
def SNT_ACC_CFG.THRESH_MG : FRef := ⟨SNT_ACC_CFG, 16, 16⟩
def SNT_ACC_CFG.RATE_HZ : FRef := ⟨SNT_ACC_CFG, 0, 8⟩
def SNT_PROOF : Nat := 0x300240001C
def SNT_PROOF.INTERVAL_MIN : FRef := ⟨SNT_PROOF, 0, 10⟩
def SNT_SUPPLY : Nat := 0x3002400020
def SNT_SUPPLY.VIN_MIN : FRef := ⟨SNT_SUPPLY, 0, 16⟩
def SNT_WAKE : Nat := 0x3002400024
def SNT_WAKE.VEH_WAKES : FRef := ⟨SNT_WAKE, 16, 8⟩
def SNT_WAKE.CAUSE : FRef := ⟨SNT_WAKE, 0, 7⟩
def SNT_PARK_LO : Nat := 0x3002400028
def SNT_PARK_LO.NS_LO : FRef := ⟨SNT_PARK_LO, 0, 32⟩
def SNT_PARK_HI : Nat := 0x300240002C
def SNT_PARK_HI.NS_HI : FRef := ⟨SNT_PARK_HI, 0, 32⟩
def PRC_MODE : Nat := 0x3002500010
def PRC_MODE.MODE : FRef := ⟨PRC_MODE, 30, 2⟩
def PRC_MODE.HANDOVER : FRef := ⟨PRC_MODE, 29, 1⟩
def PRC_MODE.DEPOT_BLOCK : FRef := ⟨PRC_MODE, 20, 4⟩
def PRC_MODE.POOL_SCRUB : FRef := ⟨PRC_MODE, 5, 1⟩
def PRC_MODE.POOL_DIRTY : FRef := ⟨PRC_MODE, 4, 1⟩
def PRC_MODE.DEPOT_EN : FRef := ⟨PRC_MODE, 3, 1⟩
def PRC_MODE.REQ : FRef := ⟨PRC_MODE, 0, 2⟩
def PRC_RESET : Nat := 0x3002500014
def PRC_RESET.KEY : FRef := ⟨PRC_RESET, 8, 8⟩
def PRC_RESET.SYS : FRef := ⟨PRC_RESET, 1, 1⟩
def PRC_RESET.COMPUTE : FRef := ⟨PRC_RESET, 0, 1⟩
def PRC_CAP : Nat := 0x3002500018
def PRC_CAP.DEPOT_W : FRef := ⟨PRC_CAP, 16, 9⟩
def PRC_CAP.DRIVE_W : FRef := ⟨PRC_CAP, 0, 9⟩
def PRC_POWER : Nat := 0x300250001C
def PRC_POWER.IN_W : FRef := ⟨PRC_POWER, 16, 16⟩
def PRC_POWER.VIN : FRef := ⟨PRC_POWER, 0, 16⟩
def PRC_THERMAL : Nat := 0x3002500020
def PRC_THERMAL.INLET : FRef := ⟨PRC_THERMAL, 16, 16⟩
def PRC_THERMAL.CAP_W : FRef := ⟨PRC_THERMAL, 0, 9⟩
def PRC_OVER : Nat := 0x3002500024
def PRC_OVER.DRIVE_OVER_CNT : FRef := ⟨PRC_OVER, 16, 16⟩
def PRC_OVER.THROTTLE_CNT : FRef := ⟨PRC_OVER, 0, 16⟩
def PRC_BOOT : Nat := 0x3002500028
def PRC_BOOT.STATE_B : FRef := ⟨PRC_BOOT, 10, 2⟩
def PRC_BOOT.STATE_A : FRef := ⟨PRC_BOOT, 8, 2⟩
def PRC_BOOT.PENDING_B : FRef := ⟨PRC_BOOT, 4, 1⟩
def PRC_BOOT.PENDING_A : FRef := ⟨PRC_BOOT, 3, 1⟩
def PRC_BOOT.CONFIRM : FRef := ⟨PRC_BOOT, 0, 1⟩
def PRC_HANDOVER : Nat := 0x300250002C
def PRC_HANDOVER.CAUSE : FRef := ⟨PRC_HANDOVER, 28, 4⟩
def PRC_HANDOVER.LAST_US : FRef := ⟨PRC_HANDOVER, 0, 20⟩
def SNP_CTL : Nat := 0x3002600010
def SNP_CTL.ON_N : FRef := ⟨SNP_CTL, 9, 1⟩
def SNP_CTL.ON_FIRST : FRef := ⟨SNP_CTL, 8, 1⟩
def SNP_CTL.TRIGGER : FRef := ⟨SNP_CTL, 1, 1⟩
def SNP_CTL.ARM : FRef := ⟨SNP_CTL, 0, 1⟩
def SNP_STATUS : Nat := 0x3002600014
def SNP_STATUS.VALID : FRef := ⟨SNP_STATUS, 31, 1⟩
def SNP_STATUS.CAUSE : FRef := ⟨SNP_STATUS, 28, 3⟩
def SNP_STATUS.MISSED : FRef := ⟨SNP_STATUS, 0, 8⟩
def SNP_TIME_LO : Nat := 0x3002600018
def SNP_TIME_LO.TIME_LO : FRef := ⟨SNP_TIME_LO, 0, 32⟩
def SNP_TIME_HI : Nat := 0x300260001C
def SNP_TIME_HI.TIME_HI : FRef := ⟨SNP_TIME_HI, 0, 32⟩
def SNP_CURSOR : Nat := 0x3002600020
def SNP_CURSOR.SPACE : FRef := ⟨SNP_CURSOR, 31, 1⟩
def SNP_CURSOR.SLOT : FRef := ⟨SNP_CURSOR, 27, 4⟩
def SNP_CURSOR.WORD : FRef := ⟨SNP_CURSOR, 0, 12⟩
def SNP_WINDOW : Nat := 0x3002600024
def SNP_WINDOW.DATA : FRef := ⟨SNP_WINDOW, 0, 32⟩
def SNP_DUMP : Nat := 0x3002600030
def SNP_DUMP.NEWEST : FRef := ⟨SNP_DUMP, 8, 4⟩
def SNP_DUMP.DONE : FRef := ⟨SNP_DUMP, 2, 1⟩
def SNP_DUMP.BUSY : FRef := ⟨SNP_DUMP, 1, 1⟩
def SNP_DUMP.START : FRef := ⟨SNP_DUMP, 0, 1⟩

end Reg

end Sys2Proof.Machine
end

