-- ==== Sys2Proof/Machine/SMap.lean ====
section
/-! DEFINITION. Sparse data by key: a list of (key, value) pairs with strictly rising keys, so that equal maps are equal lists. -/

namespace Sys2Proof.Machine

/-- A sparse map; the canonical form is `SMap.wf`. -/
abbrev SMap (α : Type) := List (Nat × α)

/-- The value of a key, if listed. -/
def SMap.find? {α : Type} : SMap α → Nat → Option α
  | [], _ => none
  | (k', v) :: t, k => if k' = k then some v else SMap.find? t k

/-- Insert or replace. -/
def SMap.insert {α : Type} : SMap α → Nat → α → SMap α
  | [], k, v => [(k, v)]
  | (k', v') :: t, k, v =>
    if k < k' then (k, v) :: (k', v') :: t
    else if k' = k then (k, v) :: t
    else (k', v') :: SMap.insert t k v

/-- Remove a key. -/
def SMap.erase {α : Type} : SMap α → Nat → SMap α
  | [], _ => []
  | (k', v') :: t, k => if k' = k then t else (k', v') :: SMap.erase t k

/-- Keep the entries whose key satisfies `p`. -/
def SMap.keep {α : Type} (p : Nat → Bool) (m : SMap α) : SMap α := m.filter (fun e => p e.1)

/-- Every key of the map lies above `lo`, and the keys rise strictly. -/
def SMap.above {α : Type} : Nat → SMap α → Bool
  | _, [] => true
  | lo, (k, _) :: t => decide (lo < k) && SMap.above k t

/-- The canonical form: keys strictly rising. -/
def SMap.wf {α : Type} : SMap α → Bool
  | [] => true
  | (k, _) :: t => SMap.above k t

/-- The value of a key, with the value of an unlisted key. -/
def SMap.getD {α : Type} (m : SMap α) (k : Nat) (d : α) : α := (SMap.find? m k).getD d

/-- Write a value: the value an unlisted key reads as removes the entry. -/
def SMap.put {α : Type} [DecidableEq α] (m : SMap α) (k : Nat) (dflt v : α) : SMap α :=
  if v = dflt then SMap.erase m k else SMap.insert m k v

/-- Change the value of a key. -/
def SMap.modify {α : Type} (m : SMap α) (k : Nat) (d : α) (f : α → α) : SMap α :=
  SMap.insert m k (f (SMap.getD m k d))

/-- A sorted list of distinct numbers: insertion. -/
def setInsert : List Nat → Nat → List Nat
  | [], k => [k]
  | x :: t, k => if k < x then k :: x :: t else if x = k then x :: t else x :: setInsert t k

/-- Removal from such a list. -/
def setErase (l : List Nat) (k : Nat) : List Nat := l.filter (· != k)

/-- Sorted, without repeats. -/
def setWf : List Nat → Bool
  | [] => true
  | [_] => true
  | a :: b :: t => decide (a < b) && setWf (b :: t)

end Sys2Proof.Machine
end

