-- ==== Sys2Proof/Machine/State.lean ====
section
/-! DEFINITION. The state of the block as plain data, its faults and refusals, and the state after reset. -/

namespace Sys2Proof.Machine

/-- Why a command stops the machine. -/
inductive Fault where
  /-- Raised by no meaning at present: every command of the table has an effect in every state. Safe. -/
  | unreachable
  deriving DecidableEq, Repr

/-- Why a command is refused. -/
inductive Refusal where
  /-- Raised by the dispatch alone, for a command whose meaning is not written. Safe. -/
  | notModelled (mnemonic : String)
  deriving DecidableEq, Repr

/-- What the device sends out, in order (the outside world's view of an effect). -/
inductive OutMsg where
  /-- Data returned to a reader of a register (R13, R16). -/
  | readData (addr : Nat) (value : Word)
  /-- Data returned by an inbound PCIe or link read. -/
  | memData (addr : Nat) (data : List DataUnit)
  /-- An unsuccessful completion of an inbound PCIe request. -/
  | pcieError (off : Nat)
  /-- An MSI-X message: its vector and the address and data of its table entry (R442). -/
  | msix (vector address data : Nat)
  /-- A frame on a CAN controller: IDE, identifier, data (R380, R445). -/
  | can (k : Nat) (ide : Bool) (id : Nat) (data : List Byte)
  /-- A message on a Narultil port. -/
  | link (q : Nat) (msg : LinkMsg)
  /-- An Ethernet frame on E0, E1 or E2. -/
  | eth (port : Nat) (bytes : List Byte)
  /-- A gPTP message on a port: kind 0 Sync, 1 Follow_Up, 2 Pdelay response; its sequence number, its egress stamp (for a Follow_Up its Sync's) and origin
  in ns, correction in 2^-16 ns, rate ratio less 1 in 2^-41. -/
  | gptp (port kind seq stamp origin : Nat) (correction rate : Int)
  /-- A UDP payload to a tenant: one fragment of a depot message, with the message's class and MSG_SEQ (R448, R449). -/
  | depot (tenant cls seq : Nat) (bytes : List Byte)
  /-- A reply of the gate's address resolution. -/
  | resolve (bytes : List Byte)
  /-- A pin pulse or level that has no register: 0 WAKE_n, 1 PCIE_WAKE_n, 2 COOL_REQ, 3 PME. -/
  | pin (which : Nat) (level : Bool)
  deriving DecidableEq, Repr

/-- A write held while a list runs (R100): the unit; the address of the register or of the low word of a pair; the value written; the bits
of the fields held; SOURCE and the place of the record it may make (R18). -/
structure HeldWrite where
  unit : Nat
  base : Nat
  total : Nat
  mask : Nat
  source : Nat
  place : Option Nat
  deriving DecidableEq, Repr

/-- Injection arms that a write set and that the next matching event spends (R266 to R268). -/
structure Arms where
  bsEcc : List Nat
  cru : Bool
  memCe : List Nat
  memUe : List Nat
  deriving DecidableEq, Repr

/-- A split reduction of a loaded graph (R67, R139, R140): its record, what its image declares of it, and the piece count in force. -/
structure SplitSt where
  id : Nat
  adaptive : Bool
  exact : Bool
  image : SplitImage
  pieces : Nat
  deriving DecidableEq, Repr

/-- A loaded graph (R101, R306, R307): where its image lies; its pinned instructions as Anvil, address, bytes. -/
structure Model where
  handle : Nat
  base : Nat
  image : GraphImage
  splits : List SplitSt
  pinned : List (Nat × Nat × List Byte)
  unloading : Bool
  deriving DecidableEq, Repr

/-- What an accepted job does (R306). -/
inductive JobKind where
  | runGraph (handle : Nat)
  | loadModel
  | unloadModel (handle : Nat)
  | copy (ch : Nat)
  | fence
  | barrier (id mask : Nat)
  deriving DecidableEq, Repr

/-- A configuration report record before it is written (R18). -/
structure CfgNote where
  lsb : Nat
  width : Nat
  reason : Nat
  written : Nat
  applied : Nat
  deriving DecidableEq, Repr

/-- An accepted job that has not completed (R305). -/
structure Job where
  id : Nat
  ctx : Nat
  ring : Nat
  cq : Nat
  gen : Nat
  kind : JobKind
  tag : Nat
  config : Nat
  prio : Nat
  noIrq : Bool
  immediate : Bool
  dlUs : Bool
  deadline : Nat
  sqHead : Nat
  output : Nat
  ageBase : Nat
  /-- Units of the current grant or strike, and those of the slices that follow (R27, R315). -/
  units : List Nat
  slices : List (List Nat)
  /-- It holds the grant of its current slice (R315). -/
  granted : Bool
  results : List Nat
  launchStrike : Option Nat
  launchTime : Nat
  lastStrike : Nat
  started : List Nat
  ended : List Nat
  published : List Nat
  poisoned : Bool
  late : Bool
  age : Nat
  status : Nat
  detail : Nat
  unitKind : Nat
  index : Nat
  unit : Nat
  /-- Closes that wait for their comparison; one has failed (R362). -/
  openWindows : Nat
  mismatch : Bool
  /-- A class N fault of the context has damaged it (R311). -/
  damaged : Bool
  /-- Its lists held a problem; one of them was not empty (R135). -/
  sawProblem : Bool
  sawWork : Bool
  /-- Captures held at the end of its launch strike (R376). -/
  captures : Option (SMap Nat)
  /-- It has consumed poison: a second consumption is no further fault (R242). -/
  ate : Bool
  /-- Its deadline has expired: no further stage of it starts (R308). -/
  expired : Bool
  deriving DecidableEq, Repr

/-- A completion record before it is written: the phase is added when it is (R309, R312, R313). -/
structure CqRec where
  verdict : Nat
  status : Nat
  detail : Nat
  tag : Nat
  /-- Launch strike; none for a job that did not launch. -/
  strike : Option Nat
  age : Nat
  time : Nat
  sqHead : Nat
  sq : Nat
  unitKind : Nat
  index : Nat
  unit : Nat
  noIrq : Bool
  safety : Bool
  gen : Nat
  deriving DecidableEq, Repr

/-- Moderation of one completion ring (R317). -/
structure Moder where
  u : Nat
  oldest : Nat
  deriving DecidableEq, Repr

/-- Flags of an accumulator (R52, R55). -/
structure AccFlags where
  nan : Bool
  pinf : Bool
  ninf : Bool
  range : Bool
  deriving DecidableEq, Repr

/-- State of an accumulator: exact value in register units and flags, or an FP32 code; the residue plane's sum and its own flags (R52, R58, R63,
R83, R84). -/
structure AccSt where
  value : Int
  flags : AccFlags
  residue : Nat
  seen : AccFlags
  fp : Option Nat
  deriving DecidableEq, Repr

/-- One element of a block: its problem, logical position, physical lane and drained row (R77), its own accumulator, what the received
pieces made of it (R117), the stream values of its epilogue: scale, bias, residual, gate (R146), and whether an operand element that it uses was
poisoned after a prologue mismatch (R158). A Marmer element keeps the length of its chain so far in `par` (R53). -/
structure Elem where
  slot : Nat
  m : Nat
  n : Nat
  lane : Nat
  row : Nat
  acc : AccSt
  comb : Option AccSt
  par : List Nat
  bad : Bool
  deriving DecidableEq, Repr

/-- An element that waits in the ZB gather (R152): its exact or FP32 value as sign, significand and exponent, or 1 infinite, 2 NaN. -/
structure Gathered where
  n : Nat
  kind : Nat
  neg : Bool
  mant : Nat
  exp : Int
  poison : Bool
  deriving DecidableEq, Repr

/-- One problem of a pass in progress: its instruction, the epilogue slot it copied, and whether it read poison (R114, R123, R242). -/
structure ProbSt where
  ins : List Byte
  epi : List Byte
  poison : Bool
  deriving DecidableEq, Repr

/-- A pass in progress: its number on the Anvil, instruction index of its first problem, problems, blocks that have yet to enter a half in
drain order, whether it was issued inside the open window, whether its pieces have been awaited, and its ZB gather by
2^40 × slot + 2^20 × row + block. -/
structure PassSt where
  no : Nat
  index : Nat
  probs : List ProbSt
  blocks : List (List Elem)
  window : Bool
  awaited : Bool
  gather : SMap (List Gathered)
  deriving DecidableEq, Repr

/-- A half of the accumulator array (R70, R75): the pass whose block it holds, and the accumulators of that block's elements in drain order. -/
structure Half where
  pass : Nat
  elems : List Elem
  deriving DecidableEq, Repr

/-- One 64-byte entry of the write buffer: bank word number, valid bytes, poison of its two units (R244). -/
structure WbEntry where
  word : Nat
  bytes : SMap Byte
  poison : List Nat
  deriving DecidableEq, Repr

/-- One lane of a stationary plane: element codes by 16 × chunk position + column, block exponents by 16 × block + column, poisoned
cells, how the cells are packed (1000 × chunk length + element bits), and whether the manual leaves the content open. -/
structure LaneSt where
  cells : SMap Nat
  scales : SMap Nat
  poison : List Nat
  shape : Nat
  unknown : Bool
  deriving DecidableEq, Repr

/-- A STORE on its way: PUBLISH, RESULT, poison, whether a write of it failed. -/
structure StoreSt where
  publish : Bool
  result : Nat
  poison : Bool
  failed : Bool
  deriving DecidableEq, Repr

/-- A SEND on its way: local destination (mask bit) or port and tag, counter, increment, code of R161, whether its end is known. -/
structure SendSt where
  dst : Option Nat
  port : Nat
  tag : Nat
  sc : Nat
  inc : Nat
  code : Nat
  ended : Bool
  deriving DecidableEq, Repr

/-- What an Anvil holds besides its registers and its unit entry (R70 to R75, R101 to R125, R244). -/
structure AnvSt where
  /-- Prologue and epilogue slots loaded by this list: keys 0 to 7 epilogue, 8 to 15 prologue. -/
  slots : SMap (List Byte)
  /-- Problems of the pass under construction and the index of its first one. -/
  pend : List (List Byte)
  pendAt : Nat
  passes : List PassSt
  /-- Halves H0 and H1, the half that the next block takes, and the number of the next pass. -/
  h0 : Option Half
  h1 : Option Half
  turn : Bool
  nextPass : Nat
  /-- Active and shadow planes, lane by lane. -/
  active : List LaneSt
  shadow : List LaneSt
  filling : Bool
  swapWait : Bool
  /-- Bytes that a LOADS with NEXT has prefetched, by store offset, with their poison. -/
  pre : Option (SMap (Byte × Bool))
  wb : List WbEntry
  stores : List StoreSt
  sends : List SendSt
  /-- Marmer accumulators, and the M2_MAC that ran last (R99). -/
  marmer : List Elem
  m2 : Option (List Byte)
  deriving DecidableEq, Repr

/-- A lane that holds zeros. -/
def LaneSt.zero : LaneSt := ⟨[], [], [], 0, false⟩

/-- An idle Anvil. -/
def AnvSt.idle : AnvSt :=
  ⟨[], [], 0, [], none, none, false, 0, List.replicate 8 LaneSt.zero, List.replicate 8 LaneSt.zero, false, false, none, [], [], [], [], none⟩

/-- A close on its way to the comparator or waiting in it (R361). -/
structure Close where
  window : Nat
  sig : Nat
  strike : Nat
  /-- It is the member's i-th close of that strike. -/
  ordinal : Nat
  /-- The job whose record waits for its match (R362). -/
  job : Option Nat
  deriving DecidableEq, Repr

/-- The comparator (R359 to R365): closes on the wires and closes that wait unmatched, by 2 × slot + member; ordinals of the closes of a slot
that were reported Missing in the strike; slots with an inversion armed; a start-up test in progress, and whether it skipped a slot. -/
structure CmpSt where
  wires : SMap (List Close)
  waiting : SMap (List Close)
  missed : SMap (List Nat)
  inverted : List Nat
  testing : Bool
  skipped : Bool
  deriving DecidableEq, Repr

/-- What a unit that runs lists holds besides its registers (R102, R127; the Anvil's own part is `AnvSt`). The unit is keyed by its
mask bit of R344: 0 to 63 Anvils, 64 to 67 Draw pipes, 68 to 75 Swages, 76 and 77 post-processing units. -/
structure UnitSt where
  /-- The accepted job the running list belongs to; none for a firmware list (R102). -/
  job : Option Nat
  /-- 0 PAIRED, 1 SUPERVISED, 2 FREE, 3 the unit holds no work. -/
  config : Nat
  ctx : Nat
  gen : Nat
  /-- Its list: first byte, instructions, Marmer mode, as the start found them (R94, R100). -/
  base : Nat
  count : Nat
  m2 : Bool
  /-- Instruction buffer: fetched instructions by index (R101). -/
  buf : SMap (List Byte)
  /-- Device time (ns) of the start of its list in the current strike, if it started in it (R373). -/
  start : Option Nat
  /-- The stage window that start belongs to (R373). -/
  window : Option Nat
  startStrike : Nat
  event : Nat
  /-- It ran PAIRED or SUPERVISED work in this strike (R371, R374), and for which context. -/
  ranSafety : Bool
  ranCtx : Nat
  /-- A GOLD window or golden run passed in this strike (R197, R370). -/
  goldOk : Bool
  goldTried : Bool
  /-- Sixteen sync counters (R127). -/
  sc : List Nat
  /-- Device time at which the WAIT at the head of issue was first tried (R128). -/
  waitFrom : Option Nat
  /-- The open signature window: number, signature so far, records (R95, R131). -/
  sig : Option (Nat × Nat)
  /-- Windows closed in this strike (R361). -/
  closed : Nat
  /-- Injections armed on this unit (R88, R163, R200, R231): 0 residue, 1 and 2 as the register numbers them. 3 to 5: the same unit's checker has
  reported a mismatch, and the element it concerns comes next (R88, R158). -/
  armed : List Nat
  /-- The golden list is running (R197); its launch's list follows. -/
  goldRun : Bool
  /-- A launch event of this strike has found it enabled (R89, R197). -/
  launched : Bool
  /-- The list has stopped; the status its part of the job ends with once every effect is complete (R108, R110). -/
  stopping : Option Nat
  /-- A PUBLISH of SUPERVISED work has been made in this strike (R371). -/
  publishedNow : Bool
  /-- It has consumed poison since its list started (R242). -/
  ate : Bool
  /-- Index of the instruction after a FENCE, which waits for every earlier effect (R130). -/
  fenceAt : Option Nat
  deriving DecidableEq, Repr

/-- A unit that holds no work. -/
def UnitSt.none : UnitSt :=
  ⟨Option.none, 3, 0, 0, 0, 0, false, [], Option.none, Option.none, 0, 0, false, 0, false, false, List.replicate 16 0, Option.none,
    Option.none, 0, [], false, false, Option.none, false, false, Option.none⟩

/-- A sync counter increment on its way (R127, R129, R160): the unit's mask bit, or none for an absent one, with its unit code. -/
structure Inc where
  /-- Mask bit of the unit that sent it; 255 for a mover, 254 for a link. -/
  src : Nat
  unit : Option Nat
  code : Nat
  sc : Nat
  amount : Nat
  ctx : Nat
  /-- The SEND of an Anvil whose end waits for this increment. -/
  send : Option Nat
  deriving DecidableEq, Repr

/-- One segment of a Tongs status record (R261, R262). -/
structure Seg where
  target : Nat
  code : Nat
  poison : Nat
  done : Nat
  deriving DecidableEq, Repr

/-- A Tongs or record channel: what its running descriptor has come to (R256 to R263, R286 to R291). Keys 0 to 31 are Tongs channels,
32 to 35 record channels. -/
structure ChanSt where
  /-- The descriptor in the channel; empty when none runs. -/
  desc : List Byte
  /-- It came with a COPY submission descriptor: job number and where its status record goes (R306). -/
  job : Option (Nat × Nat)
  /-- It has passed its checks; the steps of its movement that have been made, its GATHER indices (number, poisoned, failed); all is moved. -/
  started : Bool
  pos : Nat
  idx : List (Nat × Bool × Bool)
  moved : Bool
  gen : Nat
  reason : Nat
  aborted : Bool
  segs : List Seg
  zeroed : Nat
  /-- Status record words of a record channel: records, bad records, samples, rows (R291). -/
  counts : List Nat
  status : Nat
  /-- Device time (ns) of the last unit written (R411). -/
  lastWrite : Nat
  /-- It has given its one fault (R262). -/
  faulted : Bool
  deriving DecidableEq, Repr

/-- A channel with nothing in it. -/
def ChanSt.idle : ChanSt := ⟨[], none, false, 0, [], false, 0, 0, false, [], 0, [], 0, 0, false⟩

/-- A complete frame or sweep in its slot (R278, R282): its number, capture time in ns, points, TRUNCATED, and whether a frame table has
named it (R283). -/
structure Frame where
  slot : Nat
  no : Nat
  capture : Nat
  points : Nat
  truncated : Bool
  named : Bool
  deriving DecidableEq, Repr

/-- A camera frame in progress (R271, R276, R277): its slot, parameter record, gamma table, tensor descriptor of the slot, lines so far and
the next output row. -/
structure OpenFrame where
  slot : Nat
  no : Nat
  capture : Nat
  faulty : Bool
  params : List Byte
  gamma : List Byte
  tensor : List Byte
  lines : List (List Byte)
  row : Nat
  deriving DecidableEq, Repr

/-- A sweep in progress (R281, R282). -/
structure OpenSweep where
  slot : Nat
  addr : Nat
  capacity : Nat
  first : Nat
  points : Nat
  datagrams : Nat
  dropped : Nat
  deriving DecidableEq, Repr

/-- A stream's entry for the current frame table (R283, R284). -/
structure IntakeEntry where
  status : Nat
  slot : Nat
  flags : Nat
  no : Nat
  capture : Nat
  age : Nat
  points : Nat
  deriving DecidableEq, Repr

/-- A camera or point stream of Bellows (R270 to R284, R292). -/
structure IntakeSt where
  frame : Option OpenFrame
  sweep : Option OpenSweep
  /-- The sweep that the last strike closed, while it is not complete (R282). -/
  closed : Option OpenSweep
  /-- The template read last (R280), and sweeps closed. -/
  tmpl : List Byte
  sweeps : Nat
  /-- Ended, not yet complete; newest complete; slots from the least to the most recently completed. -/
  ended : List Frame
  newest : Option Frame
  order : List Nat
  /-- Slots named by the current strike's table and by the last table whose header was written. -/
  pick : Option Nat
  held : Option Nat
  entry : IntakeEntry
  faultySince : Bool
  /-- Golden run of the strike: due, run, passed; the previous strike's run passed; a frame has ended since the strike. -/
  goldDue : Bool
  goldRan : Bool
  goldOk : Bool
  goldPrev : Bool
  frameEnd : Bool
  deriving DecidableEq, Repr

/-- A stream that runs nothing. -/
def IntakeSt.idle : IntakeSt :=
  ⟨none, none, none, [], 0, [], none, [0, 1, 2, 3], none, none, ⟨4, 0xFF, 0, 0, 0, 0, 0⟩, false, false, false, false, false, false⟩

/-- Ember (R377 to R380): the run in progress and the last completed one. -/
structure EmbSt where
  running : Bool
  runStrike : Nat
  goldOk : Bool
  oldest : Option Nat
  noInput : Bool
  faulted : Bool
  /-- A run has started, and one has completed, in this strike; a result waits to be published (R379). -/
  started : Bool
  completed : Bool
  pubDue : Bool
  lastEnd : Nat
  haveLast : Bool
  lastStatus : Nat
  lastStrike : Nat
  /-- Age of its oldest input in ns, if it had one. -/
  lastAge : Option Nat
  result : List Byte
  summary : List Byte
  deriving DecidableEq, Repr

/-- The quench (R392 to R394) and the safe-state frames (R380). -/
structure QuenchSt where
  /-- Launch wires inhibited until the next COMPUTE reset. -/
  inhibit : Bool
  /-- Ember publication and safe-state frames run. -/
  publishing : Bool
  cls : Nat
  source : Nat
  strike : Nat
  /-- SEQ of the next frame. -/
  frameSeq : Nat
  /-- Frames waiting for a controller, oldest first. -/
  frames : List (Nat × List Byte)
  /-- The frame from the fixed template was sent (R394). -/
  templated : Bool
  deriving DecidableEq, Repr

/-- A two-step Sync that waits for its Follow_Up, with its ingress stamp and the egress stamp of the relayed one (R335, R336). -/
structure SyncWait where
  msg : SyncMsg
  ingress : Nat
  egress : Nat
  deriving DecidableEq, Repr

/-- What the time unit holds besides its registers (R336 to R349). Times are in units of 2^-32 ns unless they say ns. -/
structure TimeSt where
  /-- When the next strike falls, and its number; none while none is due (R339, R347). -/
  next : Option Nat
  nextNum : Nat
  /-- When the current strike fell. -/
  strikeAt : Nat
  /-- P in force for the current interval, in ns (R340). -/
  period : Nat
  /-- A strike has fallen since RUN was set, and its entries may fire (R342). -/
  live : Bool
  /-- Entries of the bank in force that have fired, and events marked fired, in this strike (R128, R344). -/
  fired : List Nat
  events : List Nat
  /-- Pdelay exchanges completed on each gPTP port (R337). -/
  pdelays : List Nat
  /-- Two-step Syncs that wait for their Follow_Up, by port (R336). -/
  twoStep : SMap SyncWait
  /-- gPTP runs; when (ns) the grandmaster's next Sync and each port's next Pdelay exchange fall; the grandmaster's sequence number; the neighbour's
  rate ratio less 1 (2^-41) of each port that has measured one (R333, R335). -/
  gptp : Bool
  gmDue : Nat
  pdelayDue : List Nat
  gmSeq : Nat
  rates : SMap Int
  /-- Device time (ns) of the last valid Sync; consecutive OFFSETs within 100 ns (R338). -/
  lastSync : Nat
  goodSyncs : Nat
  /-- A follower's own strike phase before its first strike (R347). -/
  phase : Option Nat
  /-- Send stamp of the last mark on each port, in 0.5 ns (R346). -/
  markSent : SMap Nat
  /-- Period carried by the last used mark (ns), last phase errors (0.25 ns), rate correction of one interval (2^-32 ns). -/
  markPeriod : Nat
  errors : List Int
  rateTrim : Int
  /-- Consecutive used marks within 2 ns; device time (ns) of the last used mark; no lock before RUN is written 0 and 1. -/
  goodMarks : Nat
  lastMark : Nat
  barred : Bool
  /-- Latest ARRIVE of each module at the master, as (BARRIER_ID, mask); the RELEASE that waits here, as (BARRIER_ID, R), R none for the next
  strike (R349). -/
  arrivals : SMap (Nat × Nat)
  release : Option (Nat × Option Nat)
  deriving DecidableEq, Repr

/-- One message on its way on a Narultil port: codeword sequence number, replays so far (R431). -/
structure Flight where
  seq : Nat
  retries : Nat
  msg : LinkMsg
  deriving DecidableEq, Repr

/-- What a Narultil port holds besides its registers (R430 to R437). -/
structure LinkSt where
  /-- The peer's generation of each context (R435). -/
  gens : List Nat
  nextSeq : Nat
  inflight : List Flight
  /-- Messages that wait for credit; credit units of VC0 to VC2 (R433). -/
  queue : List LinkMsg
  credits : List Nat
  /-- Last codeword received, and codewords received since the last acknowledgement (R431). -/
  rxSeq : Nat
  owed : Nat
  nextTag : Nat
  /-- Data messages received of a SEND in progress: (context, TAG, count, failed code) (R436). -/
  recv : List (Nat × Nat × Nat × Nat)
  /-- Own memory reads that wait for a response, by tag. -/
  reads : List Nat
  /-- SYNC messages sent, by tag: the unit that sent it (R129, R436). -/
  syncs : SMap Nat
  /-- VC2 is first in the round robin of VC1 and VC2 (R433). -/
  turn : Bool
  /-- The peer has sent RESET_NOTICE and not yet READY (R420). -/
  resetting : Bool
  deriving DecidableEq, Repr

/-- A port that has not trained. -/
def LinkSt.fresh : LinkSt := ⟨List.replicate 16 0, 0, [], [], [256, 256, 256], 0, 0, 0, [], [], [], false, false⟩

/-- MSI-X and PME state of the function (R440, R442): the host's writes of configuration space and of the BAR2 table. -/
structure MsixSt where
  enabled : Bool
  masked : Bool
  unmasked : List Nat
  entries : SMap (Nat × Nat)
  pmeEn : Bool
  /-- PM_PME was sent for the sources that are pending now. -/
  pmeSent : Bool
  deriving DecidableEq, Repr

/-- MSI-X after reset: disabled, every vector masked. -/
def MsixSt.fresh : MsixSt := ⟨false, false, [], [], false, false⟩

/-- A message in reassembly on the depot side (R448): who sent it, its tenant and number, when its first fragment came, its length,
its fragments by index. -/
structure Reasm where
  ipv6 : Bool
  source : Nat
  port : Nat
  tenant : Nat
  id : Nat
  first : Nat
  total : Nat
  frags : SMap (List Byte)
  deriving DecidableEq, Repr

/-- A sequenced message in a tenant's outbound queue (R450, R453, R454): its number and class; the fixed body; the range of the share that
follows it; when it was last sent. -/
structure DepotOut where
  seq : Nat
  cls : Nat
  body : List Byte
  addr : Nat
  len : Nat
  sent : Option Nat
  deriving DecidableEq, Repr

/-- A tenant at the gate (R448 to R455). -/
structure TenSt where
  key : Nat
  /-- Highest NONCE accepted and the last 64 accepted; ACK_SEQ given to the tenant. -/
  rxNonce : Nat
  rxSeen : List Nat
  ackSeq : Nat
  /-- NONCE sent last, MSG_SEQ assigned last, MSG_ID sent last. -/
  txNonce : Nat
  txSeq : Nat
  txId : Nat
  /-- ACK_SEQ and WINDOW that the tenant gave, when ACK_SEQ last advanced or sending last began, and resends since. -/
  peerAck : Nat
  window : Nat
  ackTime : Nat
  resends : Nat
  /-- Accepted messages that wait (class and body); MODEL_PUT loads whose data is written; jobs' result ranges by ring and tag. -/
  inbox : List (Nat × List Byte)
  loads : List (List Byte)
  results : List (Nat × Nat × Nat × Nat)
  outbox : List DepotOut
  /-- Where its last accepted message came from. -/
  peer : Option (Bool × Nat × Nat)
  drops : List Nat
  lastDrop : Nat
  deriving DecidableEq, Repr

/-- A tenant as after reset. (DEDUCED: log 116) -/
def TenSt.fresh : TenSt := ⟨0, 0, [], 0, 0, 0, 0, 0, 0, 0, 0, [], [], [], [], none, List.replicate 12 0, 0⟩

/-- The control cores as the island and the debugger see them (R366, R367, R382, R409). -/
structure HearthSt where
  /-- Cores that kicked since the last strike; consecutive strikes without a kick, by core. -/
  kicked : List Nat
  missed : List Nat
  /-- Pairs that are joining, with the device time (ns) of the boundary. -/
  joins : SMap Nat
  halted : List Nat
  /-- Registers written through the debugger, by 65536 × core + register. -/
  regs : SMap Nat
  /-- Replay buffers, by pair: (register, value), oldest first. -/
  replay : SMap (List (Nat × Nat))
  /-- The island's cores are halted by debug (R368). -/
  island : Bool
  /-- Cores found hung since the last COMPUTE reset (R409). -/
  hung : List Nat
  deriving DecidableEq, Repr

/-- No kick, no join, no debugger. -/
def HearthSt.fresh : HearthSt := ⟨[], List.replicate 8 0, [], [], [], [], false, []⟩

/-- Recovery (R415 to R419). -/
structure RecoverSt where
  /-- Device times (ns) of the last accepted COMPUTE reset requests. -/
  stamps : List Nat
  /-- A Hearth hang waits for its reset. -/
  hangReset : Bool
  /-- DUMP_SEQ of the next dump (kept in MRAM); records lost in the reset in progress. -/
  dumpSeq : Nat
  lost : Nat
  deriving DecidableEq, Repr

/-- Boot flash, fuses without a register, the boot record in MRAM, and what the running image placed outside the address map
(R461 to R466, R474). -/
structure BootSt where
  /-- Flash bytes by offset; an unlisted byte is 0. -/
  flash : List Host.Cell
  /-- SHA-384 of the public key of each slot. -/
  keyHashes : List (List Byte)
  /-- Try counts of slots A and B. -/
  tries : List Nat
  /-- No image was accepted: the device waits for a service image. -/
  waiting : Bool
  islandMem : List Byte
  sentinelMem : List Byte
  proofs : List Byte
  /-- Ranges that the image's FIRMWARE records fill, and their SHA-384 in MRAM. -/
  firmware : List (Nat × Nat)
  digest : List Byte
  /-- Bytes of Ember's image, and the digest of its copy in MRAM (R377). -/
  ember : Nat
  emberDigest : List Byte
  /-- The running image is a service image (R464). -/
  service : Bool
  /-- Device time (ns) of the next frame of a device that waits for an image (R466). -/
  frameAt : Nat
  /-- CONFIG 4 to 6 of R463. -/
  stepWaitMs : Nat
  bootTries : Nat
  drivePeriodUs : Nat
  deriving DecidableEq, Repr

/-- An empty flash, no key, defaults of R463. -/
def BootSt.fresh : BootSt := ⟨[], List.replicate 4 [], [0, 0], false, [], [], [], [], [], 0, [], false, 0, 1500, 3, 33333⟩

/-- Modes, pins and the sentinel (R470 to R480, R491 to R499), the parked confirmation (R446). -/
structure ModeSt where
  /-- VIN is present and the sentinel rail is up; PORST_n is still low (R495). -/
  powered : Bool
  inReset : Bool
  /-- PARK_OK, SHORE_PWR and PCIE_PERST_n as they are passed on. -/
  parkOk : Bool
  shorePwr : Bool
  perst : Bool
  /-- The sentinel's count since PARKED entry, in cycles of 48 MHz; device time at the entry, in 2^-32 ns. -/
  sentinel : Nat
  parkedAt : Nat
  /-- When WAKE_n was driven and PCIE_WAKE_n asserted, in ns of device time, which the sentinel's count carries on. -/
  wakeAt : Option Nat
  pcieWakeAt : Option Nat
  coolReq : Bool
  /-- Consecutive accelerometer samples above the threshold. -/
  accHits : Nat
  /-- The wake that firmware serves: 0 none, 1 vehicle, 2 proof, 3 depot; a proof wake is overdue. -/
  wake : Nat
  proofDue : Bool
  /-- DEPOT was requested and its conditions held: the entry waits for the strike boundary; the tenant pool scrub is the entry's. -/
  entering : Bool
  /-- Device time (ns) of the trigger of the hand-over in progress; a park request that waits for its end. -/
  handAt : Option Nat
  parkWaits : Bool
  /-- Consecutive input power samples above DRIVE_W. -/
  overs : Nat
  /-- Parked confirmation: COUNTER and device time (ns) of the last accepted frame. -/
  confCounter : Option Nat
  confAt : Nat
  /-- BAR4 size in force. -/
  barLog2 : Nat
  deriving DecidableEq, Repr

/-- Powered, in DRIVE, with open control inputs (R491: they read deasserted); COOL_REQ is high (R499). -/
def ModeSt.fresh : ModeSt :=
  ⟨true, false, false, false, false, 0, 0, none, none, true, 0, 0, false, false, none, false, 0, none, 0, 26⟩

/-- The block. -/
structure State where
  /-- Commands that wait, first in first out. -/
  pending : List Instr
  /-- Every register word, by address; an unlisted word holds its reset value (`resetWord`). -/
  regs : SMap Word
  /-- Low words written and not yet followed by their high word (R16). -/
  heldLo : SMap Word
  /-- High words captured by a read of the low word (R16). -/
  capHi : SMap Word
  /-- Writes held until a list ends (R100). -/
  heldWrites : List HeldWrite
  /-- Memory bytes by address; an unlisted byte reads as 0. -/
  mem : List Host.Cell
  /-- 32-byte units that hold poison, by address / 32 (R240). -/
  poison : List Nat
  /-- Units stored with inverted bits, by address / 32: 1 single, 2 double (R239, R251). -/
  damage : SMap Nat
  arms : Arms
  /-- MRAM bytes by offset (R425); an unlisted byte is 0. -/
  mram : List Host.Cell
  /-- Device time in units of 2^-32 ns (R330). -/
  now : Nat
  sensors : Sensors
  /-- HIC sources whose level input is asserted (R320). -/
  hicLevel : List Nat
  /-- Who claimed an active source: 0 to 7 a core, 8 an MSI-X message, 9 the gate (R322). -/
  hicClaimer : SMap Nat
  /-- Device times of the last class C and N log entries (R402). -/
  logTimes : List Nat
  /-- Device time of the report latched in FCL_FIRST, in units of 2^-32 ns (R399). -/
  firstAt : Nat
  /-- Error-log entries ever written: SEQ and ring position of the next (R402). -/
  logSeq : Nat
  /-- The held snapshot, 256 entries of 32 bytes, or nothing (R421). -/
  snap : List Byte
  /-- Event-recorder words accumulated since the last commit, by 64 × TYPE + word (R422 to R424). -/
  evr : SMap Nat
  /-- Ranges of the running image's GOLDEN records (R384, R463). -/
  golden : List (Nat × Nat)
  /-- Tenant pool size in GiB, from the image (R35); the fabric manager it names, 4 for the domain controller (R10, R463). -/
  poolGiB : Nat
  fm : Nat
  units : SMap UnitSt
  models : List Model
  /-- Last serial assigned, by context (R307). -/
  serials : SMap Nat
  jobs : List Job
  jobSeq : Nat
  /-- Context granted last, and the ring granted last in each context (R315). -/
  rrCtx : Nat
  rrRing : SMap Nat
  /-- Stage windows in force: the register words latched at the strike boundary (R372). -/
  winForce : SMap Word
  /-- Primaries whose pair has ended by a fence or reset since REQ was last written 1 (R96). -/
  pairBar : List Nat
  /-- Starts of this strike that belong to a window, as 128 × window + unit, and the windows that have closed in it (R373). -/
  winStarts : List Nat
  winClosed : List Nat
  /-- Jobs to which units were assigned for this strike: unit, configuration, context (R374). -/
  assigns : List (Nat × Nat × Nat)
  incs : List Inc
  chans : SMap ChanSt
  /-- Bellows streams: cameras 0 to 15, point streams 16 to 23; the strike number and time of the frame table that is due (R284). -/
  intake : SMap IntakeSt
  ftab : Option (Nat × Nat)
  /-- Completion records that wait, by 8 × context + ring (R313). -/
  waiting : SMap (List CqRec)
  moder : SMap Moder
  emb : EmbSt
  /-- Ember's registers in force: the words latched at the strike (R396). -/
  embForce : SMap Word
  quench : QuenchSt
  /-- Anvils, by number. -/
  anvils : SMap AnvSt
  cmp : CmpSt
  /-- Last captures of the age monitor since arming, in ns by stream (R375). -/
  captures : SMap Nat
  /-- Strike number of a frame table that the island has yet to read (R375). -/
  ageDue : Option Nat
  /-- End (ns after the strike) of the last list of this strike; a LATE breach of this strike (R424). -/
  stageEnd : Nat
  lateSeen : Bool
  time : TimeSt
  links : SMap LinkSt
  /-- Messages in reassembly, oldest first; tenants; the depot link is up (R447 to R455). -/
  reasm : List Reasm
  tenants : SMap TenSt
  depotUp : Bool
  msix : MsixSt
  /-- When the generation of a DRAINING context advanced, in ns (R323). -/
  draining : SMap Nat
  /-- Exact slots of ZB partials, by address: ZANCHOR of the accumulator, and the bytes it was read out to (R64). -/
  anchors : SMap (Int × List Byte)
  hearth : HearthSt
  recover : RecoverSt
  boot : BootSt
  modes : ModeSt
  /-- The last frame received on each CAN controller, with its stamp in ns (R445). -/
  canRx : SMap (CanFrame × Nat)
  /-- Frames received on E0 and E1 (R443). -/
  ethRx : List Nat
  /-- When (ns) each periodic event was last due: 0 EVR_SAMPLE, 1 EVR_COMMIT_TIMER, 2 TIME_HINT, 3 POWER_SAMPLE, 4 SUPPLY_SAMPLE, 5 CAMERA_SAMPLE,
  6 ACCEL_SAMPLE, 7 CRUCIBLE_PATROL, 8 + k DRAM_PATROL, 16 + t the last CREDIT to a tenant, 32 + q the first codeword of a port without its
  acknowledgement. -/
  timers : SMap Nat
  /-- What was sent, oldest first. -/
  out : List OutMsg
  /-- Counter of free values already used: the model's own field. -/
  freeCtr : Nat
  deriving DecidableEq, Repr

/-- Register words that fuses, the image and the MRAM give (R5, R6, R481): an MA part with 64 Anvils whose last boot was a PORST. (PRESUMED: log 6; DESIGN CHOICE: log 147) -/
def fuseWords : SMap Word :=
  [(0x3000000010, 0x01400640), (0x3000000014, 0xFFFFFFFF), (0x3000000018, 0xFFFFFFFF), (0x3000000030, 0x10000000)]

/-- The time unit at reset (R339). -/
def TimeSt.fresh : TimeSt :=
  ⟨none, 0, 0, 33333000, false, [], [], [0, 0], [], false, 0, [0, 0], 0, [], 0, 0, none, [], 0, [], 0, 0, 0, false, [], none⟩

/-- Ember at reset. -/
def EmbSt.fresh : EmbSt := ⟨false, 0, false, none, false, false, false, false, false, 0, false, 0, 0, none, [], []⟩

/-- No quench. -/
def QuenchSt.fresh : QuenchSt := ⟨false, false, 0, 0, 0, 0, [], false⟩

/-- The machine right after reset (R414: DRIVE, SAFE_INIT, time 0, RUN 0, generations 0x0001). (PRESUMED: log 6, 67; DESIGN CHOICE: log 63, 103, 104, 147, 148; DEDUCED: log 94) -/
def State.reset : State :=
  { pending := [], regs := fuseWords, heldLo := [], capHi := [], heldWrites := [], mem := [], poison := [], damage := []
    arms := ⟨[], false, [], []⟩, mram := [], now := 0, sensors := ⟨0, 0, 0, 0, 0⟩, hicLevel := [], hicClaimer := [], logTimes := [], firstAt := 0
    logSeq := 0, snap := [], evr := [], golden := [], poolGiB := 0, fm := 4, units := [], models := [], serials := [], jobs := []
    jobSeq := 0, rrCtx := 15, rrRing := [], winForce := [], pairBar := [], winStarts := [], winClosed := [], assigns := [], incs := [], chans := [], intake := []
    ftab := none, waiting := [], moder := [], emb := .fresh, embForce := [], quench := .fresh, anvils := []
    cmp := ⟨[], [], [], [], false, false⟩, captures := [], ageDue := none, stageEnd := 0, lateSeen := false, time := .fresh, links := []
    reasm := [], tenants := [], depotUp := false, msix := .fresh, draining := [], anchors := [], hearth := .fresh, recover := ⟨[], false, 0, 0⟩
    boot := .fresh, modes := .fresh, canRx := [], ethRx := [0, 0], timers := [], out := [], freeCtr := 0 }

end Sys2Proof.Machine
end

