-- ==== Sys2Proof/Machine/Regs.lean ====
section
/-! DEFINITION. Registers and their fields, status events, and the counters of the interrupt controller. -/

namespace Sys2Proof.Machine

/-- A register word (an unlisted one holds its reset value). -/
def State.rd (s : State) (a : Nat) : Word := SMap.getD s.regs a (resetWord a)

/-- Store a register word, in canonical form. -/
def State.wr (s : State) (a : Nat) (v : Word) : State :=
  { s with regs := SMap.put s.regs a (resetWord a) v }

/-- A field. -/
def State.fld (s : State) (f : FRef) : Nat := bits (s.rd f.addr).toNat f.lsb f.width

/-- A one-bit field. -/
def State.flag (s : State) (f : FRef) : Bool := s.fld f == 1

/-- Store a field. -/
def State.setFld (s : State) (f : FRef) (v : Nat) : State :=
  s.wr f.addr (BitVec.ofNat 32 (putBits (s.rd f.addr).toNat f.lsb f.width v))

/-- Store a one-bit field. -/
def State.setFlag (s : State) (f : FRef) (b : Bool) : State := s.setFld f (ofBool b)

/-- Add to a field that saturates at its largest value (R14: the counters of the register tables). -/
def State.count (s : State) (f : FRef) (n : Nat) : State :=
  s.setFld f (satAdd (2 ^ f.width - 1) (s.fld f) n)

/-- Add to a field that wraps. -/
def State.wrapAdd (s : State) (f : FRef) (n : Nat) : State := s.setFld f (s.fld f + n)

/-- The 64-bit value of a `_LO`/`_HI` pair at its low address. -/
def State.rd64 (s : State) (a : Nat) : Nat := (s.rd a).toNat + 2 ^ 32 * (s.rd (a + 4)).toNat

/-- Store a pair. -/
def State.wr64 (s : State) (a v : Nat) : State :=
  (s.wr a (BitVec.ofNat 32 v)).wr (a + 4) (BitVec.ofNat 32 (v >>> 32))

/-- A number of ns in the units of device time (R330). -/
def ofNs (n : Nat) : Nat := n * 2 ^ 32

/-- Device time in ns (R330). -/
def State.nowNs (s : State) : Nat := (s.now >>> 32) % 2 ^ 64

/-- The strike number in force (R341). -/
def State.strikeNo (s : State) : Nat := s.fld Reg.TIM_STRIKE_NUM.NUM

/-- Device time of the current strike (R341). -/
def State.strikeTime (s : State) : Nat := s.rd64 Reg.TIM_STRIKE_TIME_LO

/-- Advance of device time in one comparison cycle, in units of 2^-32 ns (R328). (DEDUCED: log 69) -/
def State.cycleStep (s : State) : Nat :=
  (2 ^ 31 * (1000000000 + signed 32 (s.fld Reg.TIM_RATE.PPB)) / 1000000000).toNat

/-- The comparison cycle of the last strike has not ended (R350). -/
def State.strikeCycle (s : State) : Bool := s.time.live && decide (s.now < s.time.strikeAt + s.cycleStep)

/-- Strike period of the current interval, in ns (R339, R340). -/
def State.periodNs (s : State) : Nat := s.time.period

/-- A value the manual does not fix: the next free number. (DESIGN CHOICE: log 9) -/
def State.free (s : State) : State × Nat := ({ s with freeCtr := s.freeCtr + 1 }, Config.freeNat s.freeCtr)

/-- The quotient of an exact amount: a free choice of the neighbours when it is not whole. (DESIGN CHOICE: log 9, 70; DEDUCED: log 58) -/
def State.openQuotient (s : State) (x : Int) (d : Nat) : State × Int :=
  if x % (d : Int) = 0 then (s, x / (d : Int))
  else
    let (s, k) := s.free
    (s, x / (d : Int) + ((k % 2 : Nat) : Int))

/-- Append to what the device sends. -/
def State.send (s : State) (m : OutMsg) : State := { s with out := s.out ++ [m] }

/-- Operating modes of R29, as PRC_MODE.MODE codes them. -/
def State.mode (s : State) : Nat := s.fld Reg.PRC_MODE.MODE
def State.inDrive (s : State) : Bool := s.mode == 0
def State.inParked (s : State) : Bool := s.mode == 1
def State.inDepot (s : State) : Bool := s.mode == 2
def State.outOfService (s : State) : Bool := s.mode == 3

/-- Power is up and PORST_n is released (R495). -/
def State.operates (s : State) : Bool := s.modes.powered && !s.modes.inReset

/-- Safety-island states (SFI_STATUS.STATE). -/
def State.island (s : State) : Nat := s.fld Reg.SFI_STATUS.STATE
def State.safeInit (s : State) : Bool := s.island == 0
def State.armed (s : State) : Bool := s.island == 1
def State.quenched (s : State) : Bool := s.island == 2
def State.fatal (s : State) : Bool := s.island == 3

/-- TOP_LOCK (R481). -/
def State.locked (s : State) : Bool := s.flag Reg.TOP_LOCK.LOCK

/-- Anvil n is enabled in the fuse mask (R6). -/
def State.fusedIn (s : State) (n : Nat) : Bool := bitAt (s.rd64 Reg.TOP_ANV_MASK_LO) n

/-- ZT64-MB (R5). -/
def State.isMB (s : State) : Bool := s.fld Reg.TOP_IDENT.CODE == 2

/-- One event on a source: the counter adds 1, saturating at 255, and PENDING follows (R320). -/
def State.hicEvent (s : State) (src : Nat) : State :=
  let s := s.count (Reg.HIC_SRC_STATE.COUNT src) 1
  s.setFlag (Reg.HIC_SRC_STATE.PENDING src) (!s.flag (Reg.HIC_SRC_STATE.ACTIVE src))

/-- Any bit of a STATUS word whose bit of an EN word is set. -/
def State.anyEnabled (s : State) (st en : Nat) : Bool :=
  ((s.rd st).toNat &&& (s.rd en).toNat) != 0

/-- The same within one register that holds the enables at `enLsb`. -/
def State.anyEnabledIn (s : State) (a lsb enLsb width : Nat) : Bool :=
  (bits (s.rd a).toNat lsb width &&& bits (s.rd a).toNat enLsb width) != 0

/-- One status bit and its enable bit. -/
def State.bitEnabled (s : State) (st en i : Nat) : Bool :=
  bitAt ((s.rd st).toNat &&& (s.rd en).toNat) i

/-- The level input of each source (R319; R456 for 288 to 319). Pulse sources answer false. -/
def State.hicInput (s : State) (src : Nat) : Bool :=
  if src < 64 then s.anyEnabled (Reg.ANV_EVT_STATUS src) (Reg.ANV_EVT_EN src)
  else if src < 68 then s.anyEnabled (Reg.DRW_EVT_STATUS (src - 64)) (Reg.DRW_EVT_EN (src - 64))
  else if src < 76 then s.anyEnabled (Reg.VEC_EVT_STATUS (src - 68)) (Reg.VEC_EVT_EN (src - 68))
  else if src < 78 then s.anyEnabled (Reg.PPU_EVT_STATUS (src - 76)) (Reg.PPU_EVT_EN (src - 76))
  else if src = 79 then s.anyEnabled Reg.HRT_EVT_STATUS Reg.HRT_EVT_EN
  else if 112 ≤ src ∧ src < 128 then s.anyEnabledIn (Reg.BLW_CAM_EVT (src - 112)) 0 16 4
  else if 128 ≤ src ∧ src < 136 then s.anyEnabledIn (Reg.BLW_PT_EVT (src - 128)) 0 16 4
  else if src = 141 then s.anyEnabled Reg.BLW_EVT_STATUS Reg.BLW_EVT_EN
  else if 272 ≤ src ∧ src < 282 then s.bitEnabled Reg.TIM_EVT_STATUS Reg.TIM_EVT_EN (src - 272)
  else if 288 ≤ src ∧ src < 292 then s.anyEnabledIn (Reg.NLK_PORT_EVT (src - 288)) 0 16 4
  else if src = 292 then s.anyEnabledIn Reg.NLK_EVT 0 16 2
  else if 293 ≤ src ∧ src < 297 then s.anyEnabledIn (Reg.NLK_PORT_EVT (src - 293)) 2 18 1
  else if src = 297 then s.anyEnabled Reg.PCI_EVT_STATUS Reg.PCI_EVT_EN
  else if src = 298 then s.anyEnabled Reg.ETH_EVT_STATUS Reg.ETH_EVT_EN
  else if src = 299 ∨ src = 300 then s.anyEnabledIn (Reg.ETH_CAN_STATUS (src - 299)) 0 16 4
  else if src = 301 then s.anyEnabled Reg.DGT_EVT_STATUS Reg.DGT_EVT_EN
  else if 302 ≤ src ∧ src < 317 then s.anyEnabledIn (Reg.DGT_TEN_STATUS (src - 302)) 16 20 2
  else if src = 317 then s.flag Reg.PCI_STATUS.AER
  else if src = 318 ∨ src = 319 then s.flag (Reg.ETH_PORT_STATUS.LINK (src - 318))
  else if 320 ≤ src ∧ src < 328 then s.bitEnabled Reg.SFI_EVT_STATUS Reg.SFI_EVT_EN (src - 320)
  else if 336 ≤ src ∧ src < 343 then s.bitEnabled Reg.FCL_EVT_STATUS Reg.FCL_EVT_EN (src - 336)
  else false

/-- Follow the level input of a source: a rising edge is an event (R320). -/
def State.syncSrc (s : State) (src : Nat) : State :=
  let now := s.hicInput src
  if now && !s.hicLevel.contains src then
    ({ s with hicLevel := setInsert s.hicLevel src }).hicEvent src
  else if !now && s.hicLevel.contains src then { s with hicLevel := setErase s.hicLevel src }
  else s

/-- Set a status bit whose source is `src`. -/
def State.event (s : State) (f : FRef) (src : Nat) : State := (s.setFld f 1).syncSrc src

/-- A source has an input (R319). -/
def hasInput (src : Nat) : Bool :=
  !(src == 78 || src == 140 || src == 142 || src == 143 || (282 ≤ src && src ≤ 287) || (328 ≤ src && src ≤ 335)
    || 343 ≤ src)

end Sys2Proof.Machine
end

