-- ==== Sys2Proof/Machine/Log.lean ====
section
/-! DEFINITION. What a fault report leaves: classes and sources, the error log, the latches, the snapshot (R391, R398 to R402, R421). -/

namespace Sys2Proof.Machine

/-- Unit code of R383 of a unit's mask bit of R344. -/
def unitCode (u : Nat) : Nat := if u < 68 then u else u + 4

/-- Mask bit of R344 of a unit code, for the units that run lists. -/
def unitOfCode (c : Nat) : Option Nat :=
  if c < 0x44 then some c else if 0x48 ≤ c ∧ c < 0x52 then some (c - 4) else none

/-- The unit's entry. -/
def State.unit (s : State) (u : Nat) : UnitSt := SMap.getD s.units u UnitSt.none

/-- Store a unit's entry. -/
def State.setUnit (s : State) (u : Nat) (x : UnitSt) : State := { s with units := SMap.put s.units u UnitSt.none x }

/-- Change a unit's entry. -/
def State.modUnit (s : State) (u : Nat) (f : UnitSt → UnitSt) : State := s.setUnit u (f (s.unit u))

/-- A unit runs PAIRED or SUPERVISED work. -/
def UnitSt.safety (x : UnitSt) : Bool := x.config < 2

/-- The registers that the three unit kinds share: STATUS, CTL, EVT_STATUS, EVT_EN, REFUSE, PC, BASE (R100, R200, R231). -/
def unitBase (u : Nat) : Nat :=
  if u < 64 then 0x3001000000 + u * 0x10000
  else if u < 68 then 0x3002000000 + (u - 64) * 0x10000
  else if u < 76 then 0x3002100000 + (u - 68) * 0x10000
  else 0x3002200000 + (u - 76) * 0x1000

def unitEnable (u : Nat) : FRef := ⟨unitBase u + 0x10, 0, 1⟩
def unitFence (u : Nat) : FRef := ⟨unitBase u + 0x10, 10, 1⟩
def unitPairReq (u : Nat) : FRef := ⟨unitBase u + 0x14, 8, 1⟩
def unitPairState (u : Nat) : FRef := ⟨unitBase u + 0x14, 2, 2⟩
def unitPartnerOk (u : Nat) : FRef := ⟨unitBase u + 0x14, 0, 1⟩
def unitBusy (u : Nat) : FRef := ⟨unitBase u + 0x18, 0, 1⟩
def unitFenced (u : Nat) : FRef := ⟨unitBase u + 0x18, 1, 1⟩
def unitHeld (u : Nat) : FRef := ⟨unitBase u + 0x18, 3, 1⟩
def unitStream (u : Nat) : FRef := ⟨unitBase u + 0x18, 20, 12⟩
def unitListBase (u : Nat) : Nat := unitBase u + 0x20
def unitCount (u : Nat) : FRef := ⟨unitBase u + 0x28, 0, 16⟩
def unitDone (u : Nat) : FRef := ⟨unitBase u + 0x50, 0, 1⟩
def unitRefusedEvt (u : Nat) : FRef := ⟨unitBase u + 0x50, if u < 64 then 4 else 3, 1⟩
def unitPairChanged (u : Nat) : FRef := ⟨unitBase u + 0x50, if u < 64 then 5 else 6, 1⟩
def unitSig (u : Nat) : Nat := unitBase u + 0x60
def unitSigSeq (u : Nat) : FRef := ⟨unitBase u + 0x68, 0, 32⟩
def unitStall (u : Nat) : FRef := ⟨unitBase u + 0x78, 0, 32⟩
def unitRefuse (u : Nat) : Nat := unitBase u + 0x90
def unitPc (u : Nat) : FRef := if u < 68 then ⟨unitBase u + 0x94, 0, 16⟩ else ⟨unitBase u + 0x28, 16, 16⟩

/-- The partner of a unit in its pair (R91, R198, R229). -/
def partner (u : Nat) : Nat := if u % 2 = 0 then u + 1 else u - 1

/-- A pair is paired while STATE is PAIRED, and while it is SPLITTING (R359). -/
def State.isPaired (s : State) (u : Nat) : Bool := let st := s.fld (unitPairState u); st == 1 || st == 3

/-- How the class of a group is found (R398). -/
inductive ClassKind where
  | sn | sc | s | n | c | f | ember | injected
  deriving DecidableEq, Repr

/-- The class column of R398. -/
def groupClass (g : Nat) : ClassKind :=
  if g = 0x02 then .sc
  else if 1 ≤ g ∧ g ≤ 7 then .sn
  else if g = 8 ∨ g = 9 then .n
  else if g = 0x12 ∨ g = 0x1A then .sc
  else if 0x10 ≤ g ∧ g ≤ 0x1B then .sn
  else if 0x20 ≤ g ∧ g ≤ 0x23 then .s
  else if g = 0x24 ∨ g = 0x25 then .sc
  else if g = 0x28 ∨ g = 0x29 then .sn
  else if g = 0x2A then .s
  else if g = 0x2B then .ember
  else if g = 0x2C then .sc
  else if g = 0x2D then .sn
  else if g = 0x2E then .c
  else if g = 0x2F then .s
  else if 0x30 ≤ g ∧ g ≤ 0x32 then .sc
  else if g = 0x33 then .n
  else if g = 0x38 ∨ g = 0x39 then .c
  else if g = 0x3A then .n
  else if g = 0x3B then .f
  else if 0x3C ≤ g ∧ g ≤ 0x3E then .n
  else if g = 0x3F ∨ g = 0x40 ∨ g = 0x41 ∨ g = 0x48 then .c
  else if 0x50 ≤ g ∧ g ≤ 0x53 then .f
  else if g = 0x5F then .injected
  else .c

/-- Class of a report: 0 C, 1 N, 2 S, 3 F. `safety`: the unit or job runs PAIRED or SUPERVISED work. No class S arises outside
DRIVE (R391, R398). (DEDUCED: log 83) -/
def State.classOf (s : State) (g : Nat) (safety : Bool) : Nat :=
  match groupClass g with
  | .sn => if safety && s.inDrive then 2 else 1
  | .sc | .s => if s.inDrive then 2 else 0
  | .ember => if safety && s.inDrive then 2 else 0
  | .n => 1
  | .c | .injected => 0
  | .f => 3

/-- One fault report (R398). -/
structure Report where
  group : Nat
  inst : Nat
  cls : Nat
  ctx : Option Nat
  unit : Option Nat
  addr : Nat
  detail : Nat
  deriving DecidableEq, Repr

def Report.source (r : Report) : Nat := r.group * 256 + r.inst % 256

/-- Read MRAM bytes. (DESIGN CHOICE: log 5) -/
def State.mramBytes (s : State) (o n : Nat) : List Byte :=
  (List.range n).map (fun i => SMap.getD s.mram (o + i) 0)

/-- Write MRAM bytes. -/
def State.mramWrite (s : State) (o : Nat) (bs : List Byte) : State :=
  { s with mram := (bs.zipIdx).foldl (fun m p => SMap.put m (o + p.2) 0 p.1) s.mram }

/-- Add to an event-recorder word while the recorder accumulates (R422, R424). -/
def State.evrAdd (s : State) (ty word n : Nat) : State :=
  if s.flag Reg.EVR_CTL.ENABLE then
    { s with evr := SMap.put s.evr (64 * ty + word) 0 (satAdd 0xFFFFFFFF (SMap.getD s.evr (64 * ty + word) 0) n) }
  else s

/-- Counters of record type 0x07, from 0 (quenches) to 20 (safe-state frames) (R424). -/
def State.evrCounter (s : State) (i : Nat) : State := s.evrAdd 7 (3 + i) 1

/-- A histogram of R424: bin 0 below `edge`, bins 1 to 58 of `width`, bin 59 from the upper edge. -/
def State.evrHist (s : State) (ty : Nat) (x edge : Int) (width : Nat) : State :=
  s.evrAdd ty (3 + (if x < edge then 0 else min 59 (1 + ((x - edge) / width).toNat))) 1

/-- Extreme k of record type 0x06 with its hours and power cycles (R424); `most`: a maximum. The mark at word 64 × 16 + k says that a
sample was taken. (DEDUCED: log 97) -/
def State.evrExtreme (s : State) (k : Nat) (most : Bool) (x : Int) : State :=
  let w := 64 * 6 + 3 + 3 * k
  let old := signed 32 (SMap.getD s.evr w 0)
  if !s.flag Reg.EVR_CTL.ENABLE || (SMap.getD s.evr (64 * 16 + k) 0 == 1 && (if most then decide (x ≤ old) else decide (old ≤ x))) then s
  else { s with evr := SMap.put (SMap.put (SMap.put (SMap.put s.evr (64 * 16 + k) 0 1) w 0 (unsign 32 x)) (w + 1) 0
    (s.rd Reg.EVR_HOURS).toNat) (w + 2) 0 (s.rd Reg.EVR_PCYCLES).toNat }

/-- A 64-byte error report (R402). -/
def State.logEntry (s : State) (kind cls ctx source unit op d0 d1 : Nat) : List Byte :=
  leBytes 1 1 ++ leBytes 1 kind ++ leBytes 1 cls ++ leBytes 1 ctx ++ leBytes 2 source ++ leBytes 1 unit ++ leBytes 1 op
    ++ leBytes 8 s.nowNs ++ leBytes 4 s.strikeNo ++ leBytes 2 (unsign 16 s.sensors.dieTemp) ++ leBytes 2 s.sensors.vcore
    ++ leBytes 2 s.sensors.vin ++ leBytes 2 0 ++ leBytes 4 (s.rd Reg.EVR_HOURS).toNat
    ++ leBytes 4 (s.rd Reg.EVR_PCYCLES).toNat ++ leBytes 4 s.logSeq ++ leBytes 8 d0 ++ leBytes 8 d1 ++ leBytes 7 0
    ++ leBytes 1 0x5A

/-- Write an error report into the ring in MRAM (R402, R425). (DEDUCED: log 94) -/
def State.logWrite (s : State) (kind cls ctx source unit op d0 d1 : Nat) : State :=
  let i := s.logSeq % 16384
  let s := s.mramWrite (0x010000 + 64 * i) (s.logEntry kind cls ctx source unit op d0 d1)
  { s.setFld Reg.FCL_LOG_IDX.NEWEST i with logSeq := s.logSeq + 1 }

/-- The register of a source that DETAIL1 of its log entry shows: the status or refusal register of the block it lies in (R402). A unit's own
register lies at the same offset for every unit of its kind. (DESIGN CHOICE: log 152) -/
def sourceReg (g i : Nat) : Option Nat :=
  let own (o : Nat) : Option Nat := (unitOfCode i).map (fun u => unitBase u + o)
  if g = 0x01 ∨ g = 0x02 then (if i < 0x44 then own 0x44 else own 0x40)
  else if g = 0x03 then some (Reg.ANV_FUS_STATUS i)
  else if g = 0x04 then some (Reg.ANV_REFUSE i)
  else if g = 0x05 ∨ g = 0x06 then some (Reg.ANV_STATUS i)
  else if g = 0x07 then (if i < 0x40 then some (Reg.ANV_SEND_STATUS i) else own 0x18)
  else if g = 0x08 then some (Reg.ANV_PORT_STATUS i)
  else if g = 0x09 then own 0x18
  else if g = 0x10 then some (Reg.DRW_RES_STATUS i)
  else if g = 0x11 then some (Reg.DRW_DUP_STATUS i)
  else if g = 0x12 then some (Reg.DRW_GOLD_CTL i)
  else if g = 0x13 then some (Reg.DRW_REFUSE i)
  else if g = 0x18 then some (Reg.VEC_RES i)
  else if g = 0x19 then own 0xA0
  else if g = 0x1A then own 0xB8
  else if g = 0x1B then own 0x90
  else if g = 0x20 ∨ g = 0x21 then some Reg.SFI_CMP_STATUS
  else if g = 0x22 then some Reg.SFI_HRT_CMP
  else if g = 0x23 then some Reg.SFI_HRT_PAIR
  else if g = 0x24 then some Reg.FCL_HANG_STATUS
  else if g = 0x28 then some Reg.SFI_WIN_LAST
  else if g = 0x29 ∨ g = 0x2A then some Reg.SFI_AGE_STATUS
  else if g = 0x2B then some Reg.EMB_STATUS
  else if g = 0x2C then some Reg.TIM_ERR
  else if g = 0x2D ∨ g = 0x2E then some Reg.FWL_VIOL
  else if g = 0x30 then some (Reg.BLW_CAM_STATUS i)
  else if g = 0x31 then some Reg.BLW_GOLD_CTL
  else if g = 0x32 then some (Reg.BLW_PT_STATUS i)
  else if g = 0x33 then (if 0xB8 ≤ i then some (Reg.BLW_REC_STATUS (i - 0xB8)) else some (Reg.BLW_CAM_STATUS (i - 0xA0)))
  else if g = 0x38 ∨ g = 0x39 then
    (if 0xF0 ≤ i then some (Reg.MEM_CH_ECC (i - 0xF0)) else if i = 1 then some Reg.CRU_ECC
     else if 0x40 ≤ i then some (Reg.ANV_BS_ECC (i - 0x40)) else none)
  else if g = 0x3B then some (Reg.MEM_CH_STATUS i)
  else if g = 0x3D then some (Reg.TNG_CH_STATUS i)
  else if g = 0x3E then some (Reg.HRT_CTX_ERR i)
  else if g = 0x3F then some (Reg.HRT_CTX_STATUS i)
  else if g = 0x40 then some (Reg.NLK_PORT_STATUS i)
  else if g = 0x41 then
    (if i = 0xC0 then some Reg.PCI_STATUS else if 0xE0 ≤ i ∧ i < 0xE2 then some (Reg.ETH_CAN_STATUS (i - 0xE0))
     else if i = 0xD0 then some Reg.ETH_DROP else none)
  else if g = 0x53 then some Reg.PRC_POWER
  else none

/-- DETAIL1 of a fault report: what the detector gave, or else its source's register. -/
def State.detail1 (s : State) (r : Report) : Nat :=
  if r.detail = 0 then ((sourceReg (r.group % 256) (r.inst % 256)).map (fun a => (s.rd a).toNat)).getD 0 else r.detail

/-- Write a class C or N entry, at most 64 in any 1 s of device time; `kind` 0 is a fault report, 1 a proof kernel failure (R402). -/
def State.logLimited (s : State) (kind op : Nat) (r : Report) : State :=
  let recent := s.logTimes.filter (fun t => s.nowNs < t + 1000000000)
  if recent.length < 64 then
    { s.logWrite kind r.cls (r.ctx.getD 0xFF) r.source (r.unit.getD 0xFF) op r.addr (if kind = 0 then s.detail1 r else r.detail) with
      logTimes := recent ++ [s.nowNs] }
  else { s.count Reg.FCL_LOG_IDX.DROP_CNT 1 with logTimes := recent }

/-- FCL_EVT_STATUS bit i and its source 336 + i (R426). -/
def State.fclEvent (s : State) (i : Nat) : State := s.event ⟨Reg.FCL_EVT_STATUS, i, 1⟩ (336 + i)

/-- SFI_EVT_STATUS bit i and its source 320 + i (R395). -/
def State.sfiEvent (s : State) (i : Nat) : State := s.event ⟨Reg.SFI_EVT_STATUS, i, 1⟩ (320 + i)

/-- Status and event register of a unit that runs no list and no ring (R421). (DESIGN CHOICE: log 100) -/
def snapRegs (c : Nat) : Option (Option Nat × Option Nat) :=
  if 0xA0 ≤ c ∧ c < 0xB0 then some (some (Reg.BLW_CAM_STATUS (c - 0xA0)), some (Reg.BLW_CAM_EVT (c - 0xA0)))
  else if 0xB0 ≤ c ∧ c < 0xB8 then some (some (Reg.BLW_PT_STATUS (c - 0xB0)), some (Reg.BLW_PT_EVT (c - 0xB0)))
  else if 0xC8 ≤ c ∧ c < 0xCC then some (some (Reg.NLK_PORT_STATUS (c - 0xC8)), some (Reg.NLK_PORT_EVT (c - 0xC8)))
  else if c = 0x60 then some (none, some Reg.HRT_EVT_STATUS)
  else if c = 0x61 then some (some Reg.TIM_GPTP_STATUS, some Reg.TIM_EVT_STATUS)
  else if c = 0x62 then some (some Reg.SFI_STATUS, some Reg.SFI_EVT_STATUS)
  else if c = 0x63 then some (some Reg.EMB_STATUS, none)
  else if c = 0xC0 then some (some Reg.PCI_STATUS, some Reg.PCI_EVT_STATUS)
  else if c = 0xD0 then some (none, some Reg.ETH_EVT_STATUS)
  else if c = 0xD8 then some (none, some Reg.DGT_EVT_STATUS)
  else if c = 0xE8 then some (none, none)
  else none

/-- Registers mcause, mtval, mepc and PC of a Hearth core, by the debugger's numbers: firmware's own where no debugger wrote them. (DESIGN CHOICE: log 90, 100) -/
def State.coreWord (s : State) (core reg k : Nat) : Nat :=
  SMap.getD s.hearth.regs (65536 * core + reg) (Config.freeNat (s.freeCtr + 4 * core + k)) % 2 ^ 32

/-- The snapshot entry of one unit code (R421). (DESIGN CHOICE: log 100) -/
def State.snapEntry (s : State) (c : Nat) : List Byte :=
  let held : Nat := 8 * ofBool (s.flag Reg.PCI_STATUS.COMPUTE_RESET || s.outOfService)
  let gen0 := s.fld (Reg.HRT_CTX_STATUS.GEN 0)
  let word (a : Option Nat) : Nat := match a with | some a => (s.rd a).toNat | none => 0
  let entry (flags ctx gen pc status evt refuse base : Nat) : List Byte :=
    leBytes 1 1 ++ leBytes 1 c ++ leBytes 1 flags ++ leBytes 1 ctx ++ leBytes 2 gen ++ leBytes 2 pc ++ leBytes 4 status
      ++ leBytes 4 evt ++ leBytes 4 refuse ++ leBytes 4 base ++ leBytes 8 s.nowNs
  match unitOfCode c with
  | some u =>
    if u < 64 && !s.fusedIn u then List.replicate 32 0
    else
      let b := unitBase u
      entry (1 + held + 2 * s.fld (unitBusy u) + 4 * s.fld (unitFenced u) + 16 * s.fld (unitPairState u)) (s.unit u).ctx
        (s.unit u).gen (s.fld (unitPc u)) (s.rd (b + 0x18)).toNat (s.rd (b + 0x50)).toNat (s.rd (b + 0x90)).toNat
        (s.rd (b + 0x20)).toNat
  | none =>
    if 0x80 ≤ c ∧ c < 0xA0 then
      let n := c - 0x80
      entry (1 + held + 2 * ofBool (s.fld (Reg.TNG_CH_STATUS.STATE n) == 1)) (s.fld (Reg.TNG_CH_CTX.CONTEXT n))
        (s.fld (Reg.TNG_CH_CTX.GEN n)) (s.fld (Reg.TNG_CH_HEAD.HEAD n)) (s.rd (Reg.TNG_CH_STATUS n)).toNat 0 0
        (s.rd (Reg.TNG_CH_RING_LO n)).toNat
    else if 0xB8 ≤ c ∧ c < 0xBC then
      let n := c - 0xB8
      entry (1 + held + 2 * ofBool (s.fld (Reg.BLW_REC_STATUS.STATE n) == 1)) (s.fld (Reg.BLW_REC_CTX.CONTEXT n))
        (s.fld (Reg.BLW_REC_CTX.GEN n)) (s.fld (Reg.BLW_REC_HEAD.HEAD n)) (s.rd (Reg.BLW_REC_STATUS n)).toNat 0 0
        (s.rd (Reg.BLW_REC_RING_LO n)).toNat
    else if 0x58 ≤ c ∧ c < 0x60 then
      let k := c - 0x58
      entry (1 + held + 4 * bits (s.rd Reg.FCL_FENCE_NOW3).toNat (24 + k) 1 + 16 * bits (s.fld Reg.SFI_HRT_PAIR.STATE) (k / 2) 1) 0
        gen0 0 (s.coreWord k 0x342 0) (s.coreWord k 0x343 1) (s.coreWord k 0x341 2) (s.coreWord k 0x7B1 3)
    else
      match snapRegs c with
      | none => List.replicate 32 0
      | some (st, ev) =>
        let camera := 0xA0 ≤ c && c < 0xB0
        let point := 0xB0 ≤ c && c < 0xB8
        let flags := if camera then held + 2 * ofBool (s.fld (Reg.BLW_CAM_STATUS.STATE (c - 0xA0)) == 1) + 4 * s.fld (Reg.BLW_CAM_CTL.FENCE (c - 0xA0))
          else if point then held + 4 * s.fld (Reg.BLW_PT_CTL.FENCE (c - 0xB0)) else 0
        entry (1 + flags) 0 gen0 0 (word st) (word ev) 0 0

/-- All 256 entries (R421). -/
def State.snapImage (s : State) : List Byte := (List.range 256).flatMap s.snapEntry

/-- A snapshot trigger with its cause (R421); it uses 32 free values, four for each Hearth core. The step of R416 takes it whatever the ON bits. -/
def State.snapTrigger (s : State) (cause : Nat) : State :=
  if !s.flag Reg.SNP_CTL.ARM then s
  else if s.flag Reg.SNP_STATUS.VALID then s.count Reg.SNP_STATUS.MISSED 1
  else
    let s := { s with snap := s.snapImage, freeCtr := s.freeCtr + 32 }
    ((s.setFld Reg.SNP_STATUS.VALID 1).setFld Reg.SNP_STATUS.CAUSE cause).wr64 Reg.SNP_TIME_LO s.nowNs

/-- R400: latch, count and flag a class N report of a context. -/
def State.latchN (s : State) (c : Nat) (source : Nat) : State :=
  let fresh := !s.flag (Reg.FCL_CTX_N.VALID c)
  let s := if fresh then (s.setFld (Reg.FCL_CTX_N.VALID c) 1).setFld (Reg.FCL_CTX_N.SOURCE c) source
    else s.setFld (Reg.FCL_CTX_N.OVERFLOW c) 1
  let s := s.count (Reg.FCL_CTX_N.CNT c) 1
  if fresh then
    let s := s.fclEvent 1
    if c = 0 && s.flag Reg.SNP_CTL.ON_N then s.snapTrigger 2 else s
  else s

/-- Number of the island clock cycle (400 MHz, R40) that a device time falls in. (DESIGN CHOICE: log 150) -/
def faultCycle (t : Nat) : Nat := 2 * t / (5 * 2 ^ 32)

/-- What FCL_FIRST shows of a report: its class, context and source. -/
def State.setFirst (s : State) (r : Report) : State :=
  ((s.setFld Reg.FCL_FIRST.CLASS r.cls).setFld Reg.FCL_FIRST.CONTEXT (r.ctx.getD 0)).setFld Reg.FCL_FIRST.SOURCE r.source

/-- R399: latch the first class S or F report; a later one sets OVERFLOW, and takes its place when it falls in the same island cycle with a
lower source code. -/
def State.latchFirst (s : State) (r : Report) : State :=
  if s.flag Reg.FCL_FIRST.VALID then
    let s := s.setFld Reg.FCL_FIRST.OVERFLOW 1
    if faultCycle s.now = faultCycle s.firstAt ∧ r.source < s.fld Reg.FCL_FIRST.SOURCE then s.setFirst r else s
  else
    let s := { (s.setFld Reg.FCL_FIRST.VALID 1).setFirst r with firstAt := s.now }
    let s := (s.wr64 Reg.FCL_FIRST_TIME_LO s.nowNs).setFld Reg.FCL_FIRST_STRIKE.NUM s.strikeNo
    let s := s.fclEvent 0
    if s.flag Reg.SNP_CTL.ON_FIRST then s.snapTrigger 1 else s

/-- What a class C or class N report does: nothing reacts to it by itself (R391, R400, R402). -/
def State.noteFault (s : State) (r : Report) : State :=
  let s := s.evrCounter (5 + r.cls)
  if r.cls = 0 then (s.count Reg.FCL_CNT.C_CNT 1).logLimited 0 0 r
  else
    let s := s.logLimited 0 0 r
    match r.ctx with
    | some c => s.latchN c r.source
    | none => s

end Sys2Proof.Machine
end

