-- ==== Sys2Proof/Machine/Mem.lean ====
section
/-! DEFINITION. The memories: decoding of physical addresses, firewalls, billet store ports, check codes and poison (R33 to R36, R232 to R252, R383 to R386). -/

namespace Sys2Proof.Machine

/-- The unit code, context and generation a fabric transaction carries (R23, R383). -/
structure Req where
  unit : Nat
  ctx : Nat
  gen : Nat
  deriving DecidableEq, Repr

/-- How an access failed. -/
inductive AccErr where
  | decode | generation | firewall | collision
  deriving DecidableEq, Repr

/-- What holds an address (R33, R261). -/
inductive Target where
  | dram
  | crucible
  | staging (p : Nat)
  | swage (v : Nat)
  | ember
  | billet (n : Nat)
  | absent
  deriving DecidableEq, Repr

/-- Top of usable DRAM: the inline ECC region lies above it (R35). -/
def State.usableTop (s : State) : Nat := if s.isMB then 0xB40000000 else 0xF00000000

/-- Ranges of R33 outside the register window, as base and end; `top` is where DRAM ends. -/
def mapRanges (top : Nat) : List (Nat × Nat) :=
  [(0, top), (0x2000000000, 0x2004000000), (0x2100000000, 0x2110000000), (0x2200000000, 0x2200800000), (0x2201000000, 0x2201400000),
    (0x2202000000, 0x2202400000)]

/-- Every byte of [a, a + n) lies in one of these ranges; none of them adjoins another. -/
def spanIn (ranges : List (Nat × Nat)) (a n : Nat) : Bool := n == 0 || ranges.any (fun r => r.1 ≤ a && a + n ≤ r.2)

/-- Raw DRAM of the ordering code ends here (R33). -/
def State.rawTop (s : State) : Nat := if s.isMB then 0xC00000000 else 0x1000000000

/-- Base of the tenant pool (R35). -/
def State.poolBase (s : State) : Nat := s.usableTop - s.poolGiB * 0x40000000

/-- Current generation of a context (R297). -/
def State.gen (s : State) (c : Nat) : Nat := s.fld (Reg.HRT_CTX_STATUS.GEN c)

/-- The requester that carries a context's current generation. -/
def State.req (s : State) (unit ctx : Nat) : Req := ⟨unit, ctx, s.gen ctx⟩

/-- The memory that holds an address, decode errors of R34 aside from those that depend on the requester. -/
def State.target (s : State) (a : Nat) : Target :=
  if a < 0x1000000000 then (if a < s.usableTop then .dram else .absent)
  else if 0x2000000000 ≤ a ∧ a < 0x2004000000 then .crucible
  else if 0x2100000000 ≤ a ∧ a < 0x2110000000 then
    let n := (a - 0x2100000000) / 0x400000
    if (a - 0x2100000000) % 0x400000 < 0x200000 && s.fusedIn n then .billet n else .absent
  else if 0x2200000000 ≤ a ∧ a < 0x2200800000 then .staging ((a - 0x2200000000) / 0x200000)
  else if 0x2201000000 ≤ a ∧ a < 0x2201400000 then .swage ((a - 0x2201000000) / 0x80000)
  else if 0x2202000000 ≤ a ∧ a < 0x2202400000 then .ember
  else .absent

/-- Target codes of R261. -/
def Target.code : Target → Nat
  | .dram => 0 | .crucible => 1 | .staging p => 0x08 + p | .swage v => 0x10 + v | .ember => 0x18
  | .billet n => 0x40 + n | .absent => 0xFF

/-- DRAM channel of an address (R250). -/
def dramChannel (a : Nat) : Nat := bits a 8 3 ^^^ bits a 16 3

/-- The requester-dependent decode errors: a Draw fetch region (R179) and a direct write to a checker's store (R246). -/
def State.decodes (s : State) (rq : Req) (a : Nat) (write : Bool) : Bool :=
  match s.target a with
  | .absent => false
  | .staging p => (a - 0x2200000000) % 0x200000 < 0x1C0000 || rq.unit == 0x40 + p
  | .billet n => !(write && n % 2 == 1 && s.fld (Reg.ANV_PAIR_CTL.STATE n) != 0)
  | _ => true

/-- A Hearth core in context 0. -/
def Req.hearth0 (rq : Req) : Bool := rq.ctx == 0 && 0x58 ≤ rq.unit && rq.unit ≤ 0x5F

/-- The programmable region that decides an address, if any (R385). -/
def State.regionOf (s : State) (a : Nat) : Option Nat :=
  (List.range 64).find? (fun r => s.flag (Reg.FWL_RGN_CTL.ENABLE r)
    && s.rd64 (Reg.FWL_RGN_BASE_LO r) ≤ a && a ≤ s.rd64 (Reg.FWL_RGN_LIMIT_LO r) + 0xFFFF)

/-- The firewall's answer (R384, R385). -/
def State.permitted (s : State) (rq : Req) (a : Nat) (write : Bool) : Bool :=
  let ctx0 := rq.ctx == 0
  if a < 0x240000000 && s.golden.any (fun g => g.1 ≤ a && a < g.1 + g.2) then
    if write then rq.hearth0 && !s.locked else ctx0
  else if a < 0x40000000 then if write then rq.hearth0 else ctx0
  else if a < 0x240000000 then if write then ctx0 && rq.unit == 0x60 && !s.inDepot else ctx0
  else if a < 0x244000000 then if write then rq.hearth0 || rq.unit == 0x62 else ctx0
  else if s.target a == .ember then
    rq.unit == 0x62 || rq.unit == 0x63 || (!write && rq.hearth0)
  else if s.poolBase ≤ a && a < s.usableTop && !s.inDepot then ctx0 && !s.flag Reg.PRC_MODE.POOL_DIRTY
  else
    match s.regionOf a with
    | some r => bitAt (if write then s.fld (Reg.FWL_RGN_PERM.WR r) else s.fld (Reg.FWL_RGN_PERM.RD r)) rq.ctx
    | none => ctx0

/-- A unit code runs PAIRED or SUPERVISED work (R386). -/
def State.codeSafety (s : State) (c : Nat) : Bool :=
  match unitOfCode c with
  | some u => (s.unit u).safety
  | none => false

/-- Record a refused access (R386, R387). -/
def State.violation (s : State) (rq : Req) (a : Nat) (write reg : Bool) : State :=
  let s := s.count Reg.FWL_VIOL.CNT 1
  let s := ((s.setFld Reg.FWL_VIOL.STREAM (rq.ctx * 256 + rq.unit)).setFlag Reg.FWL_VIOL.WRITE write).setFlag
    Reg.FWL_VIOL.REG reg
  (s.wr64 Reg.FWL_VIOL_ADDR_LO a).sfiEvent 7

/-- The port of a billet store that serves a fabric requester (R233): 2 vector/draw, 1 mover. -/
def Req.port (rq : Req) : Nat := if 0x40 ≤ rq.unit ∧ rq.unit < 0x50 then 2 else 1

/-- Bank of a billet store offset (R232). -/
def bankOf (off : Nat) : Nat := off / 0x20000

/-- The port a bank is given to. -/
def State.bankPort (s : State) (n bank : Nat) : Nat := bits (s.rd (Reg.ANV_PORTMAP n)).toNat (2 * bank) 2

/-- Record a port collision (R235). -/
def State.collide (s : State) (n bank port : Nat) : State :=
  let s := s.count (Reg.ANV_PORT_STATUS.COLL_CNT n) 1
  let s := ((s.setFld (Reg.ANV_PORT_STATUS.LAST_BANK n) bank).setFld (Reg.ANV_PORT_STATUS.ACCESS_PORT n) port).setFld
    (Reg.ANV_PORT_STATUS.MAP_PORT n) (s.bankPort n bank)
  s.event (Reg.ANV_EVT_STATUS.PORT_COLLISION n) n

/-- The checker that mirrors the mover and vector/draw writes of a primary (R246). (DEDUCED: log 42) -/
def State.mirrorOf (s : State) (n : Nat) : Option Nat :=
  if n % 2 = 0 && s.fld (Reg.ANV_PAIR_CTL.STATE n) != 0 && s.fusedIn (n + 1) then some (n + 1) else none

/-- The checks of one fabric access to one 32-byte unit, with what a failed one records besides its fault report. (DEDUCED: log 10, 175) -/
def State.accessCheck (s : State) (rq : Req) (a : Nat) (write : Bool) : State × Option AccErr :=
  if !s.decodes rq a write then (s, some .decode)
  else if !s.permitted rq a write then (s.violation rq a write false, some .firewall)
  else if rq.gen != s.gen rq.ctx || rq.gen == 0 then (s, some .generation)
  else
    match s.target a with
    | .billet n =>
      let b := bankOf ((a - 0x2100000000) % 0x400000)
      let bad (m : Nat) : Bool := s.bankPort m b != rq.port
      match (if write then s.mirrorOf n else none) with
      | some m => if bad n || bad m then ((s.collide n b rq.port).collide m b rq.port, some .collision) else (s, none)
      | none => if bad n then (s.collide n b rq.port, some .collision) else (s, none)
    | _ => (s, none)

/-- The report of a failed access (R34, R235, R386): a generation error has none. `safety`: the requester runs PAIRED or SUPERVISED
work. (DEDUCED: log 10, 175) -/
def State.errReport (s : State) (rq : Req) (a : Nat) (e : AccErr) (safety : Bool) : Option Report :=
  match e with
  | .decode => some ⟨0x3C, rq.unit, 1, some rq.ctx, some rq.unit, a, 0⟩
  | .firewall => some ⟨0x2D, rq.unit, s.classOf 0x2D safety, some rq.ctx, some rq.unit, a, 0⟩
  | .generation => none
  | .collision =>
    let n := (a - 0x2100000000) / 0x400000
    some ⟨0x08, n, 1, some rq.ctx, some rq.unit, a, (s.rd (Reg.ANV_PORT_STATUS n)).toNat⟩

/-- A memory byte. (DESIGN CHOICE: log 5) -/
def State.byte (s : State) (a : Nat) : Byte := SMap.getD s.mem a 0

/-- Store a memory byte. -/
def State.setByte (s : State) (a : Nat) (b : Byte) : State := { s with mem := SMap.put s.mem a 0 b }

/-- Store bytes from an address upwards. -/
def State.setBytes (s : State) (a : Nat) (bs : List Byte) : State :=
  { s with mem := (bs.zipIdx).foldl (fun m p => SMap.put m (a + p.2) 0 p.1) s.mem }

/-- Bytes of memory as stored. -/
def State.bytesAt (s : State) (a n : Nat) : List Byte := (List.range n).map (fun i => s.byte (a + i))

/-- The unit that holds an address is poisoned (R240). -/
def State.isPoisoned (s : State) (a : Nat) : Bool := s.poison.contains (a / 32)

/-- Count a corrected error (R239, R252). -/
def State.corrected (s : State) (a : Nat) : State :=
  let t := s.target a
  let s := match t with
    | .dram => (s.count (Reg.MEM_CH_ECC.CE_CNT (dramChannel a)) 1).evrCounter (11 + dramChannel a)
    | .crucible => (s.count Reg.CRU_ECC.CE_CNT 1).evrCounter 19
    | .billet n => s.count (Reg.ANV_BS_ECC.CE_CNT n) 1
    | _ => s
  let inst := match t with | .dram => 0xF0 + dramChannel a | _ => t.code
  s.noteFault ⟨0x38, inst, 0, none, none, a, 0⟩

/-- Count an uncorrectable error and latch its address (R239, R243, R252). -/
def State.uncorrectable (s : State) (a : Nat) : State :=
  let t := s.target a
  let s := match t with
    | .dram => (s.count (Reg.MEM_CH_ECC.UE_CNT (dramChannel a)) 1).wr64 (Reg.MEM_CH_ERR_LO (dramChannel a)) (a / 32 * 32)
    | .crucible => (s.count Reg.CRU_ECC.UE_CNT 1).wr64 Reg.CRU_ERR_LO (a / 32 * 32)
    | .billet n => (s.count (Reg.ANV_BS_ECC.UE_CNT n) 1).setFld (Reg.ANV_BS_ECC.LAST_BANK n)
        (bankOf ((a - 0x2100000000) % 0x400000))
    | _ => s
  let inst := match t with | .dram => 0xF0 + dramChannel a | _ => t.code
  s.noteFault ⟨0x39, inst, 0, none, none, a, 0⟩

/-- Count the bytes a DRAM channel transfers (R268). (DEDUCED: log 36) -/
def State.countBytes (s : State) (a n : Nat) : State :=
  match s.target a with
  | .dram =>
    let p := Reg.MEM_CH_BYTES_LO (dramChannel a)
    s.wr64 p ((s.rd64 p + n) % 2 ^ 64)
  | _ => s

/-- A DRAM channel that has failed (R252). (DEDUCED: log 37) -/
def State.channelFailed (s : State) (a : Nat) : Bool :=
  match s.target a with | .dram => s.fld (Reg.MEM_CH_STATUS.STATE (dramChannel a)) == 3 | _ => false

/-- What a read of one unit delivers. -/
structure Rd where
  bytes : List Byte
  poison : Bool
  err : Option AccErr
  deriving DecidableEq, Repr

/-- Read the stored unit that holds `a`, with its check code (R239, R252). (DESIGN CHOICE: log 35; DEDUCED: log 36, 37) -/
def State.readStored (s : State) (a : Nat) : State × Rd :=
  let u := a / 32
  let data := s.bytesAt (u * 32) 32
  let s := s.countBytes a 32
  if s.channelFailed a then (s, ⟨data, true, none⟩)
  else
    match SMap.find? s.damage u with
    | some 1 => (s.corrected a, ⟨data, s.isPoisoned a, none⟩)
    | some _ => (s.uncorrectable a, ⟨data, true, none⟩)
    | none => (s, ⟨data, s.isPoisoned a, none⟩)

/-- Store bytes of one unit at `a` (they end within the unit) with their poison mark (R240). (DESIGN CHOICE: log 35) -/
def State.storeUnit (s : State) (a : Nat) (bs : List Byte) (poison : Bool) : State :=
  let u := a / 32
  let s := s.countBytes a bs.length
  if s.channelFailed a then s
  else
    let whole := bs.length == 32
    let (s, old) := if whole then (s, (⟨[], false, none⟩ : Rd)) else
      if (SMap.find? s.damage u).isSome then s.readStored a else (s, ⟨[], s.isPoisoned a, none⟩)
    let bad := poison || old.poison
    let s := s.setBytes a bs
    { s with poison := if bad then setInsert s.poison u else setErase s.poison u, damage := SMap.erase s.damage u }

/-- A write into a memory spends the injection armed for it (R266 to R268): DRAM channel and Crucible here. -/
def State.spendInject (s : State) (a : Nat) : State :=
  let u := a / 32
  match s.target a with
  | .crucible =>
    if s.arms.cru then { s with damage := SMap.insert s.damage u 2, arms := { s.arms with cru := false } } else s
  | .dram =>
    let c := dramChannel a
    if s.arms.memUe.contains c then
      { s with damage := SMap.insert s.damage u 2, arms := { s.arms with memUe := setErase s.arms.memUe c } }
    else if s.arms.memCe.contains c then
      { s with damage := SMap.insert s.damage u 1, arms := { s.arms with memCe := setErase s.arms.memCe c } }
    else s
  | _ => s

/-- A write that passed its checks, within one unit: the store, the armed injection, the mirrored store of a pair (R240, R246, R266 to
R268). (DEDUCED: log 42) -/
def State.putUnit (s : State) (a : Nat) (bs : List Byte) (poison : Bool) : State :=
  let s := (s.storeUnit a bs poison).spendInject a
  match s.target a with
  | .billet n =>
    match s.mirrorOf n with
    | some _ => s.storeUnit (a + 0x400000) bs poison
    | none => s
  | _ => s

/-- A unit written by the queue manager for its report ring: unit code 0x60, context 0 (R19). -/
def State.ringWrite (s : State) (a : Nat) (bs : List Byte) : State :=
  let rq := s.req 0x60 0
  match s.accessCheck rq a true with
  | (s, some e) => (match s.errReport rq a e false with | some r => s.noteFault r | none => s)
  | (s, none) => s.putUnit a bs false

/-- Zero a range with fresh check codes and no poison (R133, R238, R247, R258). -/
def State.zeroRange (s : State) (a n : Nat) : State :=
  { s with mem := SMap.keep (fun k => k < a || a + n ≤ k) s.mem,
           poison := s.poison.filter (fun u => u * 32 < a || a + n ≤ u * 32),
           damage := SMap.keep (fun u => u * 32 < a || a + n ≤ u * 32) s.damage }

end Sys2Proof.Machine
end

