-- ==== Sys2Proof/Machine/RegWrite.lean ====
section
/-! DEFINITION. Register writes field by field, writes held while a list runs, the configuration report, register reads (R13 to R19, R100). -/

namespace Sys2Proof.Machine

/-! ### The configuration report ring (R18, R19, R300) -/

/-- The 32-byte record of R18. -/
def State.cfgRecord (s : State) (addr source : Nat) (n : CfgNote) : List Byte :=
  leBytes 8 addr ++ leBytes 1 n.lsb ++ leBytes 1 n.width ++ leBytes 1 source ++ leBytes 1 n.reason
    ++ leBytes 8 n.written ++ leBytes 8 n.applied ++ leBytes 4 s.nowNs

/-- Write one record into the ring, or count it as discarded (R19). -/
def State.cfgReport (s : State) (addr source : Nat) (n : CfgNote) : State :=
  let size := 2 ^ s.fld Reg.HRT_RPT_CTL.LOG2
  let tail := s.fld Reg.HRT_RPT_IDX.TAIL
  let full := (tail + 1) % size == s.fld Reg.HRT_RPT_IDX.HEAD % size
  if !s.flag Reg.HRT_RPT_CTL.ENABLE || full then s.count Reg.TOP_RPT_DROP.CNT 1
  else
    let s := s.ringWrite (s.rd64 Reg.HRT_RPT_BASE_LO + 32 * tail) (s.cfgRecord addr source n)
    (s.setFld Reg.HRT_RPT_IDX.TAIL ((tail + 1) % size)).event Reg.HRT_EVT_STATUS.RPT 79

/-! ### Legal sets (R17) -/

/-- Nearest value of a list, the lower of two equally near. -/
def nearest (vs : List Nat) (v : Nat) : Nat :=
  let dist (x : Nat) : Nat := if x < v then v - x else x - v
  vs.foldl (fun best x => if dist x < dist best || (dist x == dist best && x < best) then x else best) (vs.headD 0)

/-- Nearest of a fixed legal set. -/
def Legal.fixed (width : Nat) (old : Nat) : Legal → Nat → Nat
  | .any, v => v
  | .range lo hi, v => clampNat lo hi v
  | .srange below above, v => unsign width (clampInt (-(below : Int)) above (signed width v))
  | .evenRange lo hi, v => let c := clampNat lo hi v; c - c % 2
  | .oneOf vs, v => nearest vs v
  | .align k, v => v - v % 2 ^ k
  | .mask m, v => v &&& m
  | .dyn _, _ => old

/-- Power cap of DEPOT of the ordering code, in W (R5). -/
def State.depotMax (s : State) : Nat := if s.isMB then 260 else 320

/-- Tenant pool size in 64 MiB granules. -/
def State.poolGranules (s : State) : Nat := s.poolGiB * 16

/-- A field of Ember's registers in force (R396). -/
def State.embFld (s : State) (f : FRef) : Nat := bits (SMap.getD s.embForce f.addr (resetWord f.addr)).toNat f.lsb f.width

/-- The conditions of R390 that fail, as ARM_BLOCK shows them. -/
def State.armBlock (s : State) : Nat :=
  ofBool (!s.inDrive) + 2 * ofBool (!s.flag Reg.SFI_CMP_STATUS.ST_DONE || s.flag Reg.SFI_CMP_STATUS.ST_FAIL)
    + 4 * ofBool (s.flag Reg.FCL_FIRST.VALID)
    + 8 * ofBool (s.embFld Reg.EMB_CTL.ENABLE == 1 && !s.flag Reg.SFI_STATUS.EMBER_OK)
    + 16 * ofBool (!s.locked) + 32 * ofBool (s.flag Reg.SFI_CTL.ISLAND_DBG)

/-- Context state codes of R295. -/
def State.ctxState (s : State) (c : Nat) : Nat := s.fld (Reg.HRT_CTX_STATUS.STATE c)

/-- Every tenant context is FREE. -/
def State.tenantsFree (s : State) : Bool := (List.range 15).all (fun i => s.ctxState (i + 1) == 0)

/-- Any tenant context is ACTIVE. -/
def State.anyTenantActive (s : State) : Bool := (List.range 15).any (fun i => s.ctxState (i + 1) == 1)

/-- The island may become ARMED by a write now: not already quenched or fatal (R389 to R394: only a reset leaves those states). -/
def State.mayArm (s : State) : Bool := s.armBlock == 0 && (s.safeInit || s.armed)

/-- The legal value for `v` of a field whose legal set depends on the state. `word` is the whole value written. -/
def State.dynLegal (s : State) (h : RegHit) (k : DynLegal) (v word : Nat) : Nat :=
  match k with
  | .topSelected => clampNat (s.fld Reg.TOP_VERSION.LOWEST) (s.fld Reg.TOP_VERSION.HIGHEST) v
  | .pciWinLo => let l := s.fld Reg.PCI_WIN_SIZE.LOG2; if l < 32 then v - v % 2 ^ (l - 16) else 0
  | .pciWinHi => let l := s.fld Reg.PCI_WIN_SIZE.LOG2; v - v % 2 ^ (l - 32)
  | .chTail =>
    let (head, log2) := if h.blk = .tng then (s.fld (Reg.TNG_CH_HEAD.HEAD h.i), s.fld (Reg.TNG_CH_RING_SIZE.LOG2 h.i))
      else (s.fld (Reg.BLW_REC_HEAD.HEAD h.i), s.fld (Reg.BLW_REC_RING_SIZE.LOG2 h.i))
    let n := (v + 65536 - head) % 65536
    if n ≤ 2 ^ log2 - 1 then v else (head + 2 ^ log2 - 1) % 65536
  | .rptHead => min v (2 ^ s.fld Reg.HRT_RPT_CTL.LOG2 - 1)
  | .ctxEnable =>
    if h.i = 0 then 1
    else match s.ctxState h.i with
      | 1 => 1
      | 0 => if s.inDepot then v else 0
      | _ => 0
  | .ctxTeardown => if h.i = 0 then 0 else v
  | .cqCount => clampNat 1 (2 ^ s.fld (Reg.HRT_CQ_CFG.LOG2 h.i h.j) - 1) v
  | .sqCq => if h.i = 0 && s.embFld Reg.EMB_DEG.EN == 1 then min v 6 else v
  | .hicEnable => if hasInput h.i then v else 0
  | .hicKind => let k := min v 2; if k = 2 && !(152 ≤ h.i && h.i < 272) then 0 else k
  | .hicTarget => if bits word 10 2 = 0 || (2 ≤ bits word 10 2 && !(152 ≤ h.i && h.i < 272)) then min v 7 else v
  | .islandDbg => if s.armed then 0 else v
  | .arm => if s.mayArm then v else 0
  | .hrtPairReq => if s.inDrive then v ||| 1 else v
  | .tenBase => min v s.poolGranules
  | .tenSize => min v (s.poolGranules - s.fld (Reg.DGT_TEN_BASE.GRANULE h.i))
  | .depotW => clampNat 100 s.depotMax v
  | .pairReq => if h.unitNo % 2 = 1 then 0 else v
  | .poolScrub => if s.inDrive && s.tenantsFree then v else 0

/-- The value that takes effect (R17). -/
def State.legalValue (s : State) (h : RegHit) (f : FieldDesc) (old v word : Nat) : Nat :=
  match f.legal with
  | .dyn k => s.dynLegal h k v word
  | l => l.fixed f.width old v

/-! ### Writes that a rule discards with a report record -/

/-- The rules that discard a write to a field, each with reason 1. (DEDUCED: log 113) -/
def State.shut (s : State) (h : RegHit) (f : FieldDesc) : Bool :=
  let o := h.desc.off
  match h.blk with
  | .top => o == 0x34 && f.lsb == 0 && s.locked
  | .tng => (o == 0x1004 || o == 0x1008 || o == 0x1010) && s.flag (Reg.TNG_CH_CTL.ENABLE h.i)
  | .blw =>
    ((o == 0x3004 || o == 0x3008 || o == 0x3010) && s.flag (Reg.BLW_REC_CTL.ENABLE h.i))
      || ((o == 0x1004 || o == 0x1008 || o == 0x100C || o == 0x1014 || (o == 0x1000 && f.lsb == 8))
          && s.flag (Reg.BLW_CAM_CTL.ENABLE h.i))
      || ((o == 0x2004 || o == 0x200C || (o == 0x2000 && f.lsb == 8)) && s.flag (Reg.BLW_PT_CTL.ENABLE h.i))
  | .hrt =>
    ((o == 0x20000 || (o == 0x20008 && (f.lsb == 0 || f.lsb == 8))) && s.flag (Reg.HRT_SQ_CFG.ENABLE h.i h.j))
      || ((o == 0x20200 || (o == 0x20208 && f.lsb == 0)) && s.flag (Reg.HRT_CQ_CFG.ENABLE h.i h.j))
      || ((o == 0x20 || (o == 0x28 && f.lsb == 0)) && s.flag Reg.HRT_RPT_CTL.ENABLE)
  | .tim =>
    ((o == 0x1C || o == 0x70) && s.flag Reg.TIM_STRIKE_CTL.RUN)
      || (0x10000 ≤ o && h.i == s.fld Reg.TIM_STRIKE_CTL.BANK)
  | .nlk => ((o == 0x1000 && f.lsb == 8) || o == 0x100C || o == 0x1010 || o == 0x1018)
      && s.flag (Reg.NLK_PORT_CTL.ENABLE h.i)
  | .eth =>
    ((o == 0x2000 || o == 0x2004) && (s.flag (Reg.ETH_PORT_CTL.ENABLE 0) || s.flag (Reg.ETH_PORT_CTL.ENABLE 1)))
      || (o == 0x1000 && f.lsb == 1 && s.flag (Reg.ETH_PORT_CTL.ENABLE h.i))
  | .dgt =>
    ((o == 0x10 || o == 0x18 || o == 0x20) && s.anyTenantActive)
      || ((o == 0x1100 || o == 0x1104) && s.ctxState (h.i + 1) == 1)
  | .fcl => ((o == 0x20 || o == 0x80) && !s.safeInit) || (0xA0 ≤ o && o ≤ 0xAC && s.locked)
  | .evr => o == 0x10 && f.lsb == 9 && s.locked
  | .fwl => 0x1000 ≤ o && s.flag (Reg.FWL_RGN_CTL.LOCK h.i)
  | _ => false

/-- The unit whose running list holds a write of this field back (R100, R200, R231). -/
def RegHit.holder (h : RegHit) (f : FieldDesc) : Option Nat :=
  let o := h.desc.off
  match h.blk with
  | .anv => if o == 0x20 || o == 0x28 || o == 0x30 || (o == 0x10 && f.lsb == 8) then some h.unit else none
  | .drw => if o == 0x20 || o == 0x28 then some (64 + h.unit) else none
  | .vec => if o == 0x20 || o == 0x28 then some (68 + h.unit) else none
  | .ppu => if o == 0x20 || o == 0x28 then some (76 + h.i) else none
  | _ => none

/-! ### One write -/

/-- What the fields of a write have done so far: the value in force and the notes. -/
structure WrAcc where
  value : Nat
  notes : List CfgNote
  deriving DecidableEq, Repr

/-- The effect of one field of a write (R14, R15, R17, R18). A value that is not legal in this state is replaced also where it equals the
value in force; a record arises only for a field that the write would change. (DEDUCED: log 11) -/
def State.writeField (s : State) (h : RegHit) (total : Nat) (acc : WrAcc) (f : FieldDesc) : WrAcc :=
  let w := bits total f.lsb f.width
  let old := bits acc.value f.lsb f.width
  let note (reason wv av : Nat) : List CfgNote := acc.notes ++ [⟨f.lsb, f.width, reason, wv, av⟩]
  let oneSets := f.access == .w1s || f.access == .w1c || f.access == .wo
  let changes := if oneSets then w != 0 else w != old
  match f.access with
  | .rsvd => if w = 0 then acc else { acc with notes := note 2 w 0 }
  | .ro | .rc => acc
  | a =>
    if oneSets && w == 0 then acc
    else if s.shut h f || (a == .rwl && s.locked) then (if changes then { acc with notes := note 1 w old } else acc)
    else if a == .w1c then { acc with value := putBits acc.value f.lsb f.width (old - (old &&& w)) }
    else
      let cand := if a == .w1s then old ||| w else w
      let legal := s.legalValue h f old cand total
      ⟨putBits acc.value f.lsb f.width legal, if legal != cand && changes then note 0 w legal else acc.notes⟩

/-- A value with its write-only fields 0: they read as 0 (R14). -/
def RegDesc.hideWo (d : RegDesc) (v : Nat) : Nat :=
  d.fields.foldl (fun v f => if f.access == .wo then putBits v f.lsb f.width 0 else v) v

/-- Write fields of a register or pair whose lowest word lies at `base`: the state, and the value with its write-only bits for the effects
that the write has. The records of a pair carry 64-bit values (R16, R18). (DEDUCED: log 11) -/
def State.writeFields (s : State) (h : RegHit) (base total source : Nat) (place : Option Nat) (fs : List FieldDesc) : State × Nat :=
  let cur := h.desc.hideWo (if h.desc.pair then s.rd64 base else (s.rd base).toNat)
  let acc := fs.foldl (s.writeField h total) ⟨cur, []⟩
  let kept := h.desc.hideWo acc.value
  let s := if h.desc.pair then s.wr64 base kept else s.wr base (BitVec.ofNat 32 kept)
  let note (n : CfgNote) : CfgNote := if h.desc.pair then { n with written := total, applied := kept } else n
  (acc.notes.foldl (fun s n => s.cfgReport (place.getD base) source (note n)) s, acc.value)

/-- The value a field has once every held write has taken effect. -/
def State.comingValue (s : State) (base cur : Nat) (f : FieldDesc) : Nat :=
  match (s.heldWrites.filter (fun w => w.base == base && bitAt w.mask f.lsb)).getLast? with
  | some w => bits w.total f.lsb f.width
  | none => bits cur f.lsb f.width

/-- A write of this field is held back now: the unit it belongs to runs a list (R100). -/
def State.holdsBack (s : State) (h : RegHit) (f : FieldDesc) : Bool :=
  match h.holder f with
  | some u => s.flag (unitBusy u) && !(f.access == .ro)
  | none => false

/-- Apply a whole value to a register or pair whose lowest word lies at `base`: fields that a running list holds back wait for its end,
with the value as written; the others take effect (R100). The state, and the value with its write-only bits for the effects that the write
has. (DEDUCED: log 11) -/
def State.applyValue (s : State) (h : RegHit) (base total source : Nat) (place : Option Nat) : State × Nat :=
  let cur := if h.desc.pair then s.rd64 base else (s.rd base).toNat
  let later := h.desc.fields.filter (fun f => s.holdsBack h f && bits total f.lsb f.width != s.comingValue base cur f)
  let (s, eff) := s.writeFields h base total source place (h.desc.fields.filter (fun f => !s.holdsBack h f))
  match later.findSome? h.holder with
  | some u =>
    let mask := later.foldl (fun m f => putBits m f.lsb f.width (2 ^ f.width - 1)) 0
    (({ s with heldWrites := s.heldWrites ++ [⟨u, base, total, mask, source, place⟩] } : State).setFld (unitHeld u) 1, eff)
  | none => (s, eff)

/-- The writes held for a unit take effect when its list ends, in the order they were made (R100): their range checks and report records
are made then (R16 to R18). -/
def State.applyHeld (s : State) (u : Nat) : State :=
  let s' := (s.heldWrites.filter (·.unit == u)).foldl (fun s w =>
    match regAt w.base with
    | some h => (s.writeFields h w.base w.total w.source w.place (h.desc.fields.filter (fun f => bitAt w.mask f.lsb))).1
    | none => s) s
  ({ s' with heldWrites := s'.heldWrites.filter (·.unit != u) }).setFld (unitHeld u) 0

/-- A register block that a COMPUTE reset holds: its registers read 0 and ignore writes (R414). -/
def Blk.inCompute : Blk → Bool
  | .anv | .drw | .vec | .ppu | .tng => true
  | _ => false

/-- A COMPUTE reset is in progress, or the domain stays in reset (R414, R419). -/
def State.computeHeld (s : State) : Bool := s.flag Reg.PCI_STATUS.COMPUTE_RESET || s.outOfService

/-- The register at an address, unless its block is absent or held in reset (R38, R414). (DESIGN CHOICE: log 12) -/
def State.liveReg (s : State) (a : Nat) : Option RegHit :=
  match regAt a with
  | none => none
  | some h =>
    if (h.blk == .anv && !s.fusedIn h.unit) || (h.blk.inCompute && s.computeHeld) then none else some h

/-- A write to the register window that the firewall has let through: the state, and (register, old value, value written through) when
it reached one (R13, R16, R38). (DEDUCED: log 11) -/
def State.regWrite (s : State) (a value source : Nat) (place : Option Nat) : State × Option (RegHit × Nat × Nat) :=
  match s.liveReg a with
  | none => (s, none)
  | some h =>
    if h.desc.pair && !h.hi then ({ s with heldLo := SMap.insert s.heldLo a (BitVec.ofNat 32 value) }, none)
    else if h.desc.pair then
      let lo := a - 4
      let low := ((SMap.find? s.heldLo lo).getD (s.rd lo)).toNat
      let old := s.rd64 lo
      let (s, eff) := ({ s with heldLo := SMap.erase s.heldLo lo }).applyValue h lo (low + 2 ^ 32 * value) source place
      (s, some (h, old, eff))
    else
      let old := (s.rd a).toNat
      let (s, eff) := s.applyValue h a value source place
      (s, some (h, old, eff))

/-! ### Reads -/

/-- Registers whose value follows other state: device time, fences in force, partner state, SFI_STATUS copies. -/
def State.derived (s : State) (h : RegHit) (a : Nat) : Word :=
  let u32 (n : Nat) : Word := BitVec.ofNat 32 n
  match h.blk with
  | .tim =>
    if h.desc.off = 0x30 then (if h.hi then u32 (s.nowNs >>> 32) else u32 s.nowNs)
    else if h.desc.off = 0x38 then u32 s.now
    else s.rd a
  | .fcl =>
    if h.desc.off = 0x70 then u32 ((List.range 32).foldl (fun m u => m + (s.fld (unitFenced u) <<< u)) 0)
    else if h.desc.off = 0x74 then u32 ((List.range 32).foldl (fun m u => m + (s.fld (unitFenced (32 + u)) <<< u)) 0)
    else if h.desc.off = 0x78 then u32 ((List.range 14).foldl (fun m u => m + (s.fld (unitFenced (64 + u)) <<< u)) 0)
    else if h.desc.off = 0x7C then
      u32 ((List.range 16).foldl (fun m c => m + (s.fld (Reg.BLW_CAM_CTL.FENCE c) <<< c)) 0
        + (List.range 8).foldl (fun m j => m + (s.fld (Reg.BLW_PT_CTL.FENCE j) <<< (16 + j))) 0
        + ((s.rd a).toNat / 2 ^ 24) * 2 ^ 24)
    else s.rd a
  | .sfi =>
    if h.desc.off = 0x14 then
      u32 (putBits (putBits (s.rd a).toNat 28 1 (ofBool (s.flag Reg.SFI_CMP_STATUS.ST_DONE
        && !s.flag Reg.SFI_CMP_STATUS.ST_FAIL))) 16 4 (s.fld Reg.SFI_HRT_PAIR.STATE))
    else s.rd a
  | .anv | .drw | .vec | .ppu =>
    if h.desc.off = 0x14 then
      let u := match h.blk with | .anv => h.unit | .drw => 64 + h.unit | .vec => 68 + h.unit | _ => 76 + h.i
      let p := partner u
      let ok := s.flag (unitEnable p) && !s.flag (unitFence p) && (u ≥ 64 || s.fusedIn p)
      u32 (putBits (s.rd a).toNat 0 1 (ofBool ok))
    else s.rd a
  | _ => s.rd a

/-- Clear the fields of a word that a read clears (R14). -/
def State.clearRc (s : State) (h : RegHit) (a : Nat) : State :=
  h.desc.fields.foldl (fun s f =>
    if f.access == .rc then
      if h.hi then (if 32 ≤ f.lsb then s.setFld ⟨a, f.lsb - 32, f.width⟩ 0 else s)
      else if f.lsb < 32 then s.setFld ⟨a, f.lsb, f.width⟩ 0 else s
    else s) s

/-- A read of a register word (R14, R16, R38): the value and what the read clears or captures. The cursor windows and HIC_CLAIM, whose
reads do more, are read by the bus. -/
def State.regRead (s : State) (a : Nat) : State × Word :=
  match s.liveReg a with
  | none => (s, 0)
  | some h =>
    match (if h.hi || a == Reg.TIM_NOW_FRAC then SMap.find? s.capHi a else none) with
    | some v => ({ s with capHi := SMap.erase s.capHi a }, v)
    | none =>
      let v := s.derived h a
      let s' := s.clearRc h a
      if h.desc.pair && !h.hi then
        let hv := s.derived { h with hi := true } (a + 4)
        let s'' := { s'.clearRc { h with hi := true } (a + 4) with capHi := SMap.insert s'.capHi (a + 4) hv }
        -- R330: TIM_NOW_FRAC is captured with TIM_NOW_HI
        (if a == Reg.TIM_NOW_LO then { s'' with capHi := SMap.insert s''.capHi Reg.TIM_NOW_FRAC (BitVec.ofNat 32 s.now) } else s'', v)
      else (s', v)

end Sys2Proof.Machine
end

