-- ==== Sys2Proof/Machine/Faults.lean ====
section
/-! DEFINITION. The fault collector's reactions: stopping units, retiring jobs, the quench, the safe-state frame (R323, R380, R391 to R394). -/

namespace Sys2Proof.Machine

/-- An Anvil's entry. -/
def State.anvil (s : State) (n : Nat) : AnvSt := SMap.getD s.anvils n AnvSt.idle

/-- Store an Anvil's entry. -/
def State.setAnvil (s : State) (n : Nat) (x : AnvSt) : State := { s with anvils := SMap.put s.anvils n AnvSt.idle x }

/-- Change an Anvil's entry. -/
def State.modAnvil (s : State) (n : Nat) (f : AnvSt → AnvSt) : State := s.setAnvil n (f (s.anvil n))

/-- What an Anvil keeps when its list stops or starts: the planes. -/
def AnvSt.planes (x : AnvSt) : AnvSt := { AnvSt.idle with active := x.active, shadow := x.shadow }

/-- STATUS.GOLD_RUN of a privileged unit (R197, R230). -/
def unitGoldRun (u : Nat) : FRef := ⟨unitBase u + 0x18, 4, 1⟩

/-- STATUS bit 2: SELFTEST_OK of an Anvil, GOLD_OK of a privileged unit. -/
def unitCheckOk (u : Nat) : FRef := ⟨unitBase u + 0x18, 2, 1⟩

/-- Stop a unit as a teardown does: issue stops, unwritten results are discarded, BUSY clears; no fence, no fault (R323). What the
strike knows of the unit (its start, its golden run) stays. -/
def State.stopUnit (s : State) (u : Nat) : State :=
  let s := s.setFld (unitBusy u) 0
  let s := if u < 64 then (s.modAnvil u AnvSt.planes).setFld (Reg.ANV_STATUS.LANES_BUSY u) 0 else s.setFld (unitGoldRun u) 0
  let s := s.modUnit u (fun x => { x with job := none, config := 3, waitFrom := none, sig := none, goldRun := false, stopping := none })
  s.applyHeld u

/-- An accepted job by its number. -/
def State.jobById (s : State) (id : Nat) : Option Job := s.jobs.find? (·.id == id)

/-- Change a job. -/
def State.modJob (s : State) (id : Nat) (f : Job → Job) : State :=
  { s with jobs := s.jobs.map (fun j => if j.id == id then f j else j) }

/-- A class N fault of the context damages the job that a unit runs (R311). -/
def State.harm (s : State) (u : Nat) : State :=
  match (s.unit u).job with
  | some id => s.modJob id (fun j => { j with damaged := true })
  | none => s

/-- The age of Ember's oldest input in µs, as the safe-state frame gives it (R380). -/
def EmbSt.ageUs (e : EmbSt) : Nat :=
  match e.lastAge with | some ns => min 0xFFFFFFFF (ns / 1000) | none => 0xFFFFFFFF

/-- Class, source and strike that a safe-state frame carries: those of the quench until the next arming, else those of FCL_FIRST (R394, R399). -/
def State.frameFirst (s : State) : Nat × Nat × Nat :=
  if s.quench.cls = 0 then (s.fld Reg.FCL_FIRST.CLASS, s.fld Reg.FCL_FIRST.SOURCE, s.fld Reg.FCL_FIRST_STRIKE.NUM)
  else (s.quench.cls, s.quench.source, s.quench.strike)

/-- The safe-state frame of R380. -/
def State.safeFrame (s : State) : List Byte :=
  let (cls, source, strike) := s.frameFirst
  let ok := s.emb.haveLast && s.emb.lastStatus == 0
  let body := leBytes 1 1 ++ leBytes 1 (if s.fatal then 3 else 2) ++ leBytes 1 cls
    ++ leBytes 1 (if s.outOfService then 4 else s.emb.lastStatus) ++ leBytes 2 source ++ leBytes 2 s.quench.frameSeq
    ++ leBytes 4 strike ++ leBytes 4 s.strikeNo ++ leBytes 4 s.emb.ageUs
    ++ leBytes 4 s.emb.lastStrike ++ (if ok then padTo 36 s.emb.summary else List.replicate 36 0) ++ leBytes 2 0
  body ++ leBytes 2 (crc16Ccitt body)

/-- The fixed hardware template of R394. -/
def templateFrame : List Byte :=
  let body := leBytes 1 1 ++ leBytes 1 3 ++ leBytes 1 3 ++ leBytes 1 4 ++ List.replicate 58 0
  body ++ leBytes 2 (crc16Ccitt body)

/-- The controllers that SFI_CTL.CAN_SEL names. -/
def State.canSelected (s : State) : List Nat :=
  match s.fld Reg.SFI_CTL.CAN_SEL with | 0 => [0] | 1 => [1] | _ => [0, 1]

/-- Queue a frame in each selected controller. -/
def State.queueFrame (s : State) (f : List Byte) : State :=
  { s with quench := { s.quench with frames := s.quench.frames ++ s.canSelected.map (fun k => (k, f)) } }

/-- Queue the next safe-state frame and advance SEQ (R380). -/
def State.safeStateFrame (s : State) : State :=
  let f := s.safeFrame
  let s := (s.queueFrame f).setFld Reg.SFI_CAN_STATUS.SEQ s.quench.frameSeq
  { s with quench := { s.quench with frameSeq := (s.quench.frameSeq + 1) % 65536 } }

/-- Completion records that wait for a ring. -/
def State.waitingOf (s : State) (c r : Nat) : List CqRec := SMap.getD s.waiting (8 * c + r) []

/-- Add a record to the queue of a ring (R313). -/
def State.enqueueRec (s : State) (c r : Nat) (x : CqRec) : State :=
  { s with waiting := SMap.put s.waiting (8 * c + r) [] (s.waitingOf c r ++ [x]) }

/-- The record of a job that completes now (R309, R311, R313: TIME and RESULT_AGE are fixed at completion). The unit and the index belong to
status REFUSED, DETAIL to REFUSED and VERSION. -/
def State.recordOf (s : State) (j : Job) (verdict status : Nat) : CqRec :=
  let refused (x : Nat) : Nat := if status = 2 then x else 0
  { verdict := verdict, status := status, detail := if status = 2 ∨ status = 3 then j.detail else 0, tag := j.tag,
    strike := if j.launchStrike.isSome then some j.lastStrike else none, age := min 0xFFFFFFFF j.age, time := s.nowNs,
    sqHead := j.sqHead, sq := j.ring, unitKind := refused j.unitKind, index := refused j.index, unit := refused j.unit, noIrq := j.noIrq,
    safety := j.ctx == 0 && j.config < 2 && (match j.kind with | .runGraph _ => true | _ => false), gen := j.gen }

/-- A context-0 PAIRED or SUPERVISED job. -/
def Job.isSafety (j : Job) : Bool :=
  j.ctx == 0 && j.config < 2 && (match j.kind with | .runGraph _ => true | _ => false)

/-- Jobs that have not completed, of a context. -/
def State.ctxJobs (s : State) (c : Nat) : List Job := s.jobs.filter (·.ctx == c)

/-- HRT_CTX_STATUS.JOBS follows the accepted jobs (R305). -/
def State.syncJobs (s : State) (c : Nat) : State := s.setFld (Reg.HRT_CTX_STATUS.JOBS c) (s.ctxJobs c).length

/-- Remove a job and queue its record. -/
def State.retire (s : State) (j : Job) (verdict status : Nat) : State :=
  let s := s.enqueueRec j.ctx j.cq (s.recordOf j verdict status)
  ({ s with jobs := s.jobs.filter (·.id != j.id) }).syncJobs j.ctx

/-- Step 3 of R392: stop every unit that holds PAIRED or SUPERVISED work. -/
def State.stopSafetyUnits (s : State) : State :=
  (List.range 78).foldl (fun s u => if (s.unit u).safety then s.stopUnit u else s) s

/-- Step 4 of R392: every context-0 PAIRED or SUPERVISED record not yet written becomes INVALID with status FAULT. -/
def State.fixSafetyJobs (s : State) : State :=
  let s := { s with waiting := s.waiting.map (fun (e : Nat × List CqRec) =>
    (e.1, e.2.map (fun (x : CqRec) => if x.safety then { x with verdict := 2, status := 8, detail := 0, unitKind := 0, index := 0, unit := 0 } else x))) }
  (s.jobs.filter Job.isSafety).foldl (fun s j => s.retire j 2 8) s

/-- The quench of R392, to STATE `st`; `frame` says that the frame of R380 goes out (R394: the template takes its place). (DEDUCED: log 91) -/
def State.startQuench (s : State) (cls source st : Nat) (frame : Bool) : State :=
  let s := (s.setFld Reg.SFI_STATUS.FAULT_PIN 0).setFld Reg.SFI_STATUS.STATE st
  let s := (s.setFld Reg.SFI_CTL.ARM 0).wr64 Reg.SFI_QUENCH_TIME_LO s.nowNs
  let s := s.setFld Reg.SFI_QUENCH_STRIKE.NUM s.strikeNo
  let s := { s with quench := { s.quench with inhibit := true, publishing := true, cls := cls, source := source,
                                               strike := s.strikeNo },
                        emb := { s.emb with pubDue := s.emb.haveLast && s.emb.lastStatus == 0 && s.emb.lastStrike == s.strikeNo } }
  let s := s.stopSafetyUnits.fixSafetyJobs
  let s := if frame then s.safeStateFrame else s
  (s.sfiEvent 0).evrCounter 0

/-- A source inside the island (R394). -/
def islandSource (g : Nat) : Bool := 0x50 ≤ g && g ≤ 0x52

/-- Ember halts: a run in progress ends STOPPED (R378, R394). -/
def State.stopEmber (s : State) : State :=
  if s.emb.running then
    { (s.setFld Reg.EMB_STATUS.RUNNING 0).setFld Reg.EMB_STATUS.LAST 4 with
      emb := { s.emb with running := false, completed := true, lastStatus := 4 } }
  else s

/-- R394: class F. (DEDUCED: log 91, 93) -/
def State.goFatal (s : State) (r : Report) : State :=
  let s := if s.quenched || s.fatal then s else s.startQuench (s.fld Reg.FCL_FIRST.CLASS) (s.fld Reg.FCL_FIRST.SOURCE) 3 (!islandSource r.group)
  let s := (s.setFld Reg.SFI_STATUS.STATE 3).setFld Reg.SFI_STATUS.FAULT_PIN 0
  if islandSource r.group && !s.quench.templated then
    let s := (s.queueFrame templateFrame).setFld Reg.SFI_CAN_STATUS.SEQ 0
    { s.stopEmber with quench := { s.quench with templated := true } }
  else s

/-- The frames of a quench carry the class and source of FCL_FIRST (R399): those queued follow a report that took its place. -/
def State.correctFrames (s : State) : State :=
  let q := s.quench
  let last := (q.frameSeq + 65535) % 65536
  let old := ({ s with quench := { q with frameSeq := last } } : State).safeFrame
  let q' := { q with cls := s.fld Reg.FCL_FIRST.CLASS, source := s.fld Reg.FCL_FIRST.SOURCE }
  let new := ({ s with quench := { q' with frameSeq := last } } : State).safeFrame
  { s with quench := { q' with frames := q.frames.map (fun f => if f.2 = old then (f.1, new) else f) } }

/-- Latch, count and log a class S or F report (R399, R402). -/
def State.noteFirst (s : State) (r : Report) (counter : FRef) : State :=
  let s' := ((s.evrCounter (5 + r.cls)).count counter 1).latchFirst r
  let s' := if s.flag Reg.FCL_FIRST.VALID && s'.fld Reg.FCL_FIRST.SOURCE != s.fld Reg.FCL_FIRST.SOURCE then s'.correctFrames else s'
  s'.logWrite 0 r.cls (r.ctx.getD 0xFF) r.source (r.unit.getD 0xFF) 0 r.addr (s'.detail1 r)

/-- A fault report (R398 to R402): classify, latch, count, log, and react (R391, R394). -/
def State.report (s : State) (r : Report) : State :=
  match r.cls with
  | 0 | 1 => s.noteFault r
  | 2 =>
    let s := s.noteFirst r Reg.FCL_CNT.S_CNT
    if s.armed then s.startQuench 2 (s.fld Reg.FCL_FIRST.SOURCE) 2 true else s
  | _ => (s.noteFirst r Reg.FCL_CNT.F_CNT).goFatal r

/-- A report of a group, classified here. -/
def State.fault (s : State) (g inst : Nat) (safety : Bool) (ctx unit : Option Nat) (addr : Nat := 0) (detail : Nat := 0) : State :=
  s.report ⟨g, inst, s.classOf g safety, ctx, unit, addr, detail⟩

/-- A report about the list a unit runs: class S when it runs PAIRED or SUPERVISED work, class N of its context otherwise, which
damages the unit's job (R311). -/
def State.unitFault (s : State) (u g inst : Nat) (addr : Nat := 0) (detail : Nat := 0) : State :=
  let s := if s.classOf g (s.unit u).safety = 1 then s.harm u else s
  s.fault g inst (s.unit u).safety (some (s.unit u).ctx) (some (unitCode u)) addr detail

end Sys2Proof.Machine
end

