-- ==== Sys2Proof/Machine/Access.lean ====
section
/-! DEFINITION. Accesses over the fabric with their fault reports, and who may access the register window (R34, R235, R240, R242, R386, R387). -/

namespace Sys2Proof.Machine

/-- Report a failed access (R34, R235, R386); in class N it damages the job of the unit that made it (R311). -/
def State.chargeErr (s : State) (rq : Req) (a : Nat) (e : AccErr) : State :=
  match s.errReport rq a e (s.codeSafety rq.unit) with
  | none => s
  | some r =>
    (match unitOfCode rq.unit with
      | some u => if r.cls = 1 && r.ctx == some (s.unit u).ctx then s.harm u else s
      | none => s).report r

/-- The checks of one fabric access to one 32-byte unit, with what a failed one records. `charge` is false for the accesses of a Tongs
descriptor, whose one fault is its own (R262). (DEDUCED: log 10) -/
def State.access (s : State) (rq : Req) (a : Nat) (write charge : Bool) : State × Option AccErr :=
  match s.accessCheck rq a write with
  | (s, some e) => (if charge then s.chargeErr rq a e else s, some e)
  | (s, none) => (s, none)

/-- `n` bytes the manual calls undefined: a free value. (DESIGN CHOICE: log 9) -/
def State.freeBytes (s : State) (n : Nat) : State × List Byte :=
  ({ s with freeCtr := s.freeCtr + 1 }, (List.range n).map (Config.freeByte s.freeCtr))

/-- One fabric read of the unit that holds `a` (R34, R235, R240, R386). -/
def State.readUnit (s : State) (rq : Req) (a : Nat) (charge : Bool := true) : State × Rd :=
  match s.access rq a false charge with
  | (s, some e) =>
    let (s, bs) := s.freeBytes 32
    (s, ⟨bs, true, some e⟩)
  | (s, none) => s.readStored a

/-- One fabric write within one unit (R34, R235, R240, R246, R386). -/
def State.writeUnit (s : State) (rq : Req) (a : Nat) (bs : List Byte) (poison : Bool) (charge : Bool := true) :
    State × Option AccErr :=
  match s.access rq a true charge with
  | (s, some e) => (s, some e)
  | (s, none) => (s.putUnit a bs poison, none)

/-- Cut `len` bytes from `a` into pieces that lie each within one unit; `fuel` bounds their number. -/
def unitPieces : Nat → Nat → Nat → List (Nat × Nat)
  | 0, _, _ => []
  | _, _, 0 => []
  | fuel + 1, a, len =>
    let k := min len (32 - a % 32)
    (a, k) :: unitPieces fuel (a + k) (len - k)

/-- Read bytes over the fabric: the data, whether any unit is poisoned, and the first error. -/
def State.read (s : State) (rq : Req) (a len : Nat) (charge : Bool := true) : State × Rd :=
  (unitPieces (len / 32 + 2) a len).foldl (fun (acc : State × Rd) p =>
    let (s, r) := acc.1.readUnit rq p.1 charge
    (s, ⟨acc.2.bytes ++ (r.bytes.drop (p.1 % 32)).take p.2, acc.2.poison || r.poison, acc.2.err.or r.err⟩))
    (s, ⟨[], false, none⟩)

/-- Write bytes over the fabric, unit by unit; the first error, if any. A unit that fails is not written, the others are. -/
def State.write (s : State) (rq : Req) (a : Nat) (bs : List Byte) (poison : Bool := false) (charge : Bool := true) :
    State × Option AccErr :=
  (unitPieces (bs.length / 32 + 2) a bs.length).foldl (fun (acc : State × Option AccErr) p =>
    let (s, e) := acc.1.writeUnit rq p.1 ((bs.drop (p.1 - a)).take p.2) poison charge
    (s, acc.2.or e)) (s, none)

/-- Consumption of poisoned data by a job (R242): class N of its context, group 0x3A. -/
def State.consumed (s : State) (unit ctx addr : Nat) : State :=
  s.report ⟨0x3A, unit, 1, some ctx, some unit, addr, 0⟩

/-! ### Who may access the window (R34, R387) -/

/-- Unit code of a party (R383). -/
def partyCode : Party → Nat
  | .hearth k => 0x58 + k.val
  | .island => 0x62
  | .pcie => 0xC0
  | .jtag => 0xE8
  | .narultil q => 0xC8 + q.val
  | .gate _ => 0xD8
  | .unit c => c.toNat

/-- R387, register window; only a Hearth core writes FWL_ (R397). (DEDUCED: log 169) -/
def State.mayAccess (s : State) (who : Party) (b : Blk) (write : Bool) : Bool :=
  match who with
  | .hearth _ => true
  | .island => !(write && b == .fwl)
  | .pcie => bitAt (if write then s.fld Reg.FWL_REG_WR.BLOCKS else s.fld Reg.FWL_REG_RD.BLOCKS) (b.type - 1)
  | .jtag => (!s.locked && !(write && b == .fwl)) || (!write && !(b == .sfi || b == .fcl || b == .emb || b == .fwl))
  | .narultil _ | .gate _ | .unit _ => false

/-- R387, doorbell pages. -/
def State.mayRing (s : State) (who : Party) (c : Nat) : Bool :=
  match who with
  | .hearth _ => true
  | .pcie => c == 0 && s.flag Reg.FWL_DB.PCI
  | .narultil _ => c == 0 && s.flag Reg.FWL_DB.NLK
  | .gate _ => c != 0
  | .island | .jtag | .unit _ => false

/-- An access of the party can reach the device: power is up and PORST_n released, and the gate is there, which outside DEPOT lets nothing pass
(R3, R447). (DEDUCED: log 176) -/
def State.partyOn (s : State) (who : Party) : Bool :=
  s.operates && (match who with | .gate _ => s.inDepot | _ => true)

/-- Parties that R34 keeps out of the window altogether: their access is a decode error. -/
def partyOutside : Party → Bool
  | .gate _ | .unit _ => true
  | _ => false

/-- The context a unit code acts for (R383): units that run jobs and movers carry the job's or the channel's context. -/
def State.codeCtx (s : State) (c : Nat) : Nat :=
  match unitOfCode c with
  | some u => (s.unit u).ctx
  | none =>
    if 0x80 ≤ c ∧ c < 0xA0 then s.fld (Reg.TNG_CH_CTX.CONTEXT (c - 0x80))
    else if 0xB8 ≤ c ∧ c < 0xBC then s.fld (Reg.BLW_REC_CTX.CONTEXT (c - 0xB8))
    else 0

/-- The stream that a party's accesses carry (R383): the gate acts for a tenant. -/
def State.partyReq (s : State) (who : Party) : Req :=
  s.req (partyCode who) (match who with | .gate c => c | .unit c => s.codeCtx c.toNat | _ => 0)

/-- A refused register or doorbell access (R387), or the decode error of R34. (DEDUCED: log 10) -/
def State.refuseReg (s : State) (who : Party) (a : Nat) (write : Bool) : State :=
  if partyOutside who then s.chargeErr (s.partyReq who) a .decode
  else (s.violation ⟨partyCode who, 0, 0⟩ a write true).fault 0x2E (partyCode who) false (some 0) (some (partyCode who)) a

/-- The doorbell page and offset of an address (R301). -/
def doorbellAt (a : Nat) : Option (Nat × Nat) :=
  if 0x3000180000 ≤ a ∧ a < 0x3000190000 then some ((a - 0x3000180000) / 0x1000, (a - 0x3000180000) % 0x1000) else none

/-- The block an address of the window belongs to, for the firewall: the 24 blocks of R37; elsewhere nothing decides. -/
def blockAt (a : Nat) : Option Blk := (locate a).map (·.1)

/-- The firewall's answer for an access to the window. -/
def State.windowAllows (s : State) (who : Party) (a : Nat) (write : Bool) : Bool :=
  match doorbellAt a with
  | some (c, _) => s.mayRing who c
  | none =>
    match blockAt a with
    -- a Narultil port delivers the fabric manager's write of TIM_BAR_CTL
    | some b => s.mayAccess who b write || (write && a == Reg.TIM_BAR_CTL && (match who with | .narultil _ => true | _ => false))
    | none => match who with | .hearth _ | .island | .pcie | .jtag => true | _ => false

end Sys2Proof.Machine
end

