-- ==== Sys2Proof/Machine/Hic.lean ====
section
/-! DEFINITION. The interrupt controller: routing, claiming and completing sources (R319 to R322). -/

namespace Sys2Proof.Machine

/-- Hearth pair j is paired (R382). -/
def State.hearthPaired (s : State) (j : Nat) : Bool := bitAt (s.fld Reg.SFI_HRT_PAIR.STATE) j

/-- Core k is the checker of a paired Hearth pair in DRIVE: its HIC registers are not used (R319). -/
def State.shadowed (s : State) (k : Nat) : Bool := s.inDrive && k % 2 == 1 && s.hearthPaired (k / 2)

/-- The core a source routed to core k is handled by (R319). -/
def State.coreFor (s : State) (k : Nat) : Nat := if s.shadowed k then k - 1 else k

/-- A source is pending, enabled and has a priority (R319, R320). -/
def State.deliverable (s : State) (src : Nat) : Bool :=
  s.flag (Reg.HIC_SRC_CFG.ENABLE src) && s.fld (Reg.HIC_SRC_CFG.PRIORITY src) != 0
    && s.fld (Reg.HIC_SRC_STATE.COUNT src) != 0 && !s.flag (Reg.HIC_SRC_STATE.ACTIVE src)

/-- The source core k would claim: the highest priority, ties to the lowest number (R321). -/
def State.topSource (s : State) (k : Nat) : Option Nat :=
  let mine (src : Nat) : Bool := s.deliverable src && s.fld (Reg.HIC_SRC_CFG.KIND src) == 0
    && s.coreFor (s.fld (Reg.HIC_SRC_CFG.TARGET src)) == k
  (List.range 343).foldl (fun best src =>
    if mine src then
      match best with
      | some b => if s.fld (Reg.HIC_SRC_CFG.PRIORITY b) < s.fld (Reg.HIC_SRC_CFG.PRIORITY src) then some src else best
      | none => some src
    else best) none

/-- The line of core k is asserted (R320). -/
def State.coreLine (s : State) (k : Nat) : Bool :=
  (List.range 343).any (fun src => s.deliverable src && s.fld (Reg.HIC_SRC_CFG.KIND src) == 0
    && s.coreFor (s.fld (Reg.HIC_SRC_CFG.TARGET src)) == k
    && s.fld (Reg.HIC_THRESH.LEVEL k) < s.fld (Reg.HIC_SRC_CFG.PRIORITY src))

/-- Claim a source: counter 0, active (R321). -/
def State.claim (s : State) (src claimer : Nat) : State :=
  let s := ((s.setFld (Reg.HIC_SRC_STATE.COUNT src) 0).setFld (Reg.HIC_SRC_STATE.ACTIVE src) 1).setFld
    (Reg.HIC_SRC_STATE.PENDING src) 0
  { s with hicClaimer := SMap.insert s.hicClaimer src claimer }

/-- What a read of HIC_CLAIM returns and does (R321). -/
def State.claimRead (s : State) (k : Nat) : State × Word :=
  if !s.flag Reg.HIC_CTL.ENABLE || s.shadowed k then (s, 0)
  else
    match s.topSource k with
    | none => (s, 0)
    | some src =>
      (s.claim src k, BitVec.ofNat 32 (2 ^ 31 + s.fld (Reg.HIC_SRC_STATE.COUNT src) * 2 ^ 16 + src))

/-- End a source's activity (R322). -/
def State.endActivity (s : State) (src : Nat) : State :=
  let s := (s.setFld (Reg.HIC_SRC_STATE.ACTIVE src) 0)
  let s := { s with hicClaimer := SMap.erase s.hicClaimer src }
  let s := if s.hicInput src && s.fld (Reg.HIC_SRC_STATE.COUNT src) == 0 then s.setFld (Reg.HIC_SRC_STATE.COUNT src) 1 else s
  s.setFlag (Reg.HIC_SRC_STATE.PENDING src) (s.fld (Reg.HIC_SRC_STATE.COUNT src) != 0)

/-- A complete that is ignored (R322). -/
def State.badComplete (s : State) : State := s.count Reg.HIC_ERR.BAD_COMPLETE_CNT 1

/-- A write of HIC_COMPLETE of core k (R319, R322). -/
def State.hicCompleteBy (s : State) (k src : Nat) : State :=
  if s.shadowed k || !s.flag (Reg.HIC_SRC_STATE.ACTIVE src) || SMap.find? s.hicClaimer src != some k then s.badComplete
  else s.endActivity src

/-- A write of HIC_XCOMPLETE (R322). -/
def State.hicXComplete (s : State) (src : Nat) : State :=
  if s.flag (Reg.HIC_SRC_STATE.ACTIVE src) && (SMap.find? s.hicClaimer src == some 8 || SMap.find? s.hicClaimer src == some 9)
  then s.endActivity src else s.badComplete

end Sys2Proof.Machine
end

