-- ==== Sys2Proof/Machine/Jobs.lean ====
section
/-! DEFINITION. Units that start lists, and the jobs they run: acceptance, arbitration, completion (R25, R102, R305 to R317, R373). -/

namespace Sys2Proof.Machine

/-! ### Starting a unit -/

/-- A word of the stage windows in force (R372). -/
def State.winWord (s : State) (a : Nat) : Nat := (SMap.getD s.winForce a (resetWord a)).toNat

/-- A field of the stage windows in force. -/
def State.winFld (s : State) (f : FRef) : Nat := bits (s.winWord f.addr) f.lsb f.width

/-- Window w names unit u (mask of R344). -/
def State.winNames (s : State) (w u : Nat) : Bool :=
  bitAt (s.winWord (if u < 32 then Reg.SFI_WIN_MASK0 w else if u < 64 then Reg.SFI_WIN_MASK1 w else Reg.SFI_WIN_MASK2 w)) (u % 32)

/-- The same, where a name of either member of a paired pair covers both (R94). (DEDUCED: log 81) -/
def State.winCovers (s : State) (w u : Nat) : Bool := s.winNames w u || (s.isPaired u && s.winNames w (partner u))

/-- Comparison cycle of the island of a time in ns after the strike: cycles of 2.5 ns (R372). -/
def islandCycle (ns : Nat) : Nat := 2 * ns / 5

/-- The lowest-numbered valid window that names u and whose interval contains a start `t` ns after the strike (R373). -/
def State.windowFor (s : State) (u t : Nat) : Option Nat :=
  (List.range 32).find? (fun w => s.winFld (Reg.SFI_WIN_CTRL.VALID w) == 1 && s.winCovers w u
    && islandCycle (s.winFld (Reg.SFI_WIN_OPEN.NS w)) ≤ islandCycle t
    && islandCycle t ≤ islandCycle (s.winFld (Reg.SFI_WIN_CLOSE.NS w)))

/-- A unit that exists: an Anvil that is not fused off, or any other unit. -/
def State.present (s : State) (u : Nat) : Bool := u ≥ 64 || s.fusedIn u

/-- A unit that can take a start now: enabled, not fenced, not busy, present, its domain not in reset (R25, R106). -/
def State.canStart (s : State) (u : Nat) : Bool :=
  s.present u && s.flag (unitEnable u) && !s.flag (unitFence u) && !s.flag (unitBusy u) && !s.computeHeld

/-- The unit whose registers give a starting list: a paired checker takes its primary's (R94). -/
def State.listOwner (s : State) (u : Nat) : Nat := if s.isPaired u then u - u % 2 else u

/-- Start a unit's list for a job, or for none as a FREE list of context 0 (R102): its list position, counters and slots are fresh. A list's
place, count and kind are those that the registers hold now (R94, R100). STREAM names the unit itself, a checker too. (DESIGN CHOICE: log 154) -/
def State.startUnit (s : State) (u : Nat) (job : Option Job) (event : Nat) : State :=
  let ctx := (job.map (·.ctx)).getD 0
  let config := (job.map (·.config)).getD 2
  let t := s.nowNs - s.strikeTime
  let w := if s.inDrive then s.windowFor u t else none
  let s := ((s.setFld (unitBusy u) 1).setFld (unitPc u) 0).setFld (unitStream u) (256 * ctx + unitCode u)
  let s := if u < 64 then s.modAnvil u AnvSt.planes else s
  let s := match w with
    | some k => { s with winStarts := setInsert s.winStarts (128 * k + u) }
    | none => s
  s.modUnit u (fun x => { x with
    job := job.map (·.id), config := config, ctx := ctx, gen := s.gen ctx
    base := s.rd64 (unitListBase (s.listOwner u)), count := s.fld (unitCount (s.listOwner u))
    buf := [], m2 := u < 64 && s.fld (Reg.ANV_CTL.MODE (s.listOwner u)) == 1, start := some s.nowNs, window := w,
    startStrike := s.strikeNo, event := event, ranSafety := x.ranSafety || config < 2, ranCtx := ctx,
    sc := List.replicate 16 0, waitFrom := none, sig := none, goldRun := false, stopping := none, ate := false, fenceAt := none
    armed := x.armed.filter (· < 3) })

/-- Start both members of a paired pair, or the unit alone (R94, R198, R229): the members that can start now. -/
def State.startPair (s : State) (u : Nat) (job : Option Job) (event : Nat) : State :=
  if s.isPaired u then
    let p := u - u % 2
    let s := if s.canStart p then s.startUnit p job event else s
    if s.canStart (p + 1) then s.startUnit (p + 1) job event else s
  else s.startUnit u job event

/-- The units of a job with the partners of its paired units. -/
def State.pairClosure (s : State) (us : List Nat) : List Nat :=
  us.foldl (fun l u => if s.isPaired u then setInsert (setInsert l (u - u % 2)) (u - u % 2 + 1) else setInsert l u) []

/-! ### Jobs -/

/-- The verdict of a completed job (R311), before R389. -/
def verdictOf (status : Nat) (results published : List Nat) (poisoned late : Bool) : Nat :=
  if !(status == 0 || status == 1 || status == 8 || status == 9) || (status == 8 && published.isEmpty) then 2
  else if poisoned then 4
  else if !published.isEmpty && results.any (fun r => !published.contains r) then 3
  else if status == 9 || late then 5
  else 0

/-- Status at completion (R135, R311): what ended the job; else FAULT for a job that a class N fault damaged; EMPTY when its lists held problems
and every one was empty. -/
def Job.finalStatus (j : Job) : Nat :=
  if j.status != 0 then j.status else if j.damaged then 8 else if j.sawProblem && !j.sawWork then 1 else 0

/-- The verdict a job gets when it completes now: INVALID for a safety job in SAFE_INIT, and for a PAIRED job with a window that has not
matched, where no quench fixes it (R311, R362, R389). (DESIGN CHOICE: log 153) -/
def State.jobVerdict (s : State) (j : Job) : Nat :=
  if j.isSafety && (s.safeInit || (j.config == 0 && j.mismatch)) then 2 else verdictOf j.finalStatus j.results j.published j.poisoned j.late

/-- Keep the first status that is neither OK nor EMPTY; no further slice starts. (DEDUCED: log 62) -/
def Job.worsen (j : Job) (st : Nat) : Job := { (if j.status = 0 ∨ j.status = 1 then { j with status := st } else j) with slices := [] }

/-- Complete a job: its record, and the reaction of R391. A quench fixes the record of a safety job (R392). (DEDUCED: log 83) -/
def State.completeJob (s : State) (j : Job) : State :=
  let dead := j.isSafety && (s.quenched || s.fatal)
  let v := if dead then 2 else s.jobVerdict j
  let s := s.retire j v (if dead then 8 else j.finalStatus)
  if j.isSafety && s.armed && v != 0 then s.report ⟨0x2F, v, 2, some 0, none, 0, 0⟩ else s

/-- Every unit of the job has ended or was found not to start. -/
def Job.unitsDone (j : Job) : Bool := j.units.all j.ended.contains

/-- A job waits for nothing more: its units and slices are done, and in PAIRED work every window has been compared (R362). -/
def Job.finished (j : Job) : Bool := j.unitsDone && j.slices.isEmpty && (j.config != 0 || j.openWindows == 0)

/-- The job turns to its next slice, and waits for its grant (R27, R315). -/
def Job.nextSlice (j : Job) : Job :=
  { j with units := j.slices.headD [], slices := j.slices.tail, granted := false, started := [], ended := [] }

/-- FENCE and UNLOAD_MODEL jobs whose condition holds (R306). -/
def State.settled (s : State) (j : Job) : Bool :=
  match j.kind with
  | .fence => !(s.jobs.any (fun o => o.ctx == j.ctx && o.id < j.id))
  | .unloadModel h => !(s.jobs.any (fun o => o.id < j.id && o.kind == .runGraph h))
  | _ => false

/-- Complete every FENCE and UNLOAD_MODEL whose condition holds; `fuel` bounds the rounds. -/
def State.settle : Nat → State → State
  | 0, s => s
  | n + 1, s =>
    match s.jobs.find? s.settled with
    | none => s
    | some j =>
      let s := match j.kind with
        | .unloadModel h => { s with models := s.models.filter (·.handle != h) }
        | _ => s
      State.settle n (s.completeJob j)

/-! ### Arbitration of immediate jobs (R315) -/

/-- A mask word of a strike table entry names a unit, or a member of its paired pair (R94). -/
def State.entryNames (s : State) (b e u : Nat) : Bool :=
  let bit (u : Nat) : Bool :=
    bitAt (s.rd (if u < 32 then Reg.TIM_ST_MASK0 b e else if u < 64 then Reg.TIM_ST_MASK1 b e else Reg.TIM_ST_MASK2 b e)).toNat (u % 32)
  bit u || (s.isPaired u && bit (partner u))

/-- A unit is named by a VALID entry of the strike table bank in force (R25). -/
def State.inStrikeTable (s : State) (u : Nat) : Bool :=
  let b := s.fld Reg.TIM_STRIKE_CTL.BANK
  (List.range 128).any (fun e => s.flag (Reg.TIM_ST_CTRL.VALID b e) && s.entryNames b e u)

/-- A strike-bound job: RUN_GRAPH of context 0 accepted in DRIVE without IMMEDIATE (R25). -/
def Job.strikeBound (j : Job) : Bool :=
  j.ctx == 0 && !j.immediate && (match j.kind with | .runGraph _ => true | _ => false)

/-- A graph job that waits for its grant. -/
def Job.waits (j : Job) : Bool := !j.granted && j.immediate && (match j.kind with | .runGraph _ => true | _ => false)

/-- Effective priority (R315, R316). -/
def State.effPrio (s : State) (j : Job) : Nat := min j.prio (s.fld (Reg.HRT_CTX_CTL.PRIO_CEIL j.ctx))

/-- A unit that a waiting job could be granted now. (DEDUCED: log 68) -/
def State.unitFree (s : State) (u : Nat) : Bool :=
  s.canStart u && !(s.inDrive && s.inStrikeTable u)

/-- Order of R315: priority, context in round robin, ring in round robin, acceptance. (DESIGN CHOICE: log 63) -/
def State.grantsBefore (s : State) (a b : Job) : Bool :=
  let pa := s.effPrio a
  let pb := s.effPrio b
  let ca := (a.ctx + 31 - s.rrCtx) % 16
  let cb := (b.ctx + 31 - s.rrCtx) % 16
  let ra := (a.ring + 15 - SMap.getD s.rrRing a.ctx 7) % 8
  let rb := (b.ring + 15 - SMap.getD s.rrRing b.ctx 7) % 8
  pb < pa || (pa == pb && (ca < cb || (ca == cb && (ra < rb || (ra == rb && a.id < b.id)))))

/-- The job that is granted next: its units and the partners of the paired ones are all free, and no waiting job of higher effective
priority needs one of them (R25, R94, R315). (DEDUCED: log 68) -/
def State.nextGrant (s : State) : Option Job :=
  let ws := s.jobs.filter Job.waits
  let ok (j : Job) : Bool := (s.pairClosure j.units).all s.unitFree
    && !(ws.any (fun o => s.effPrio j < s.effPrio o && (s.pairClosure o.units).any (s.pairClosure j.units).contains))
  ws.foldl (fun best j =>
    if ok j then
      match best with
      | some b => if s.grantsBefore j b then some j else best
      | none => some j
    else best) none

/-- Grant one job: its units start at once (R25, R315). -/
def State.grant (s : State) (j : Job) : State :=
  let s := { s with rrCtx := j.ctx, rrRing := SMap.insert s.rrRing j.ctx j.ring }
  let us := s.pairClosure j.units
  let j := { j with
    units := us, granted := true, launchStrike := some (j.launchStrike.getD s.strikeNo), lastStrike := s.strikeNo
    launchTime := if j.launchStrike.isSome then j.launchTime else s.nowNs, started := us }
  let s := { s with assigns := s.assigns ++ us.map (fun u => (u, j.config, j.ctx)) }
  let s := s.modJob j.id (fun _ => j)
  us.foldl (fun s u => if s.canStart u then s.startUnit u (some j) 0 else s) s

/-- A graph job whose current slice is done turns to its next one or, with none left, completes. -/
def State.sliceOver (s : State) (j : Job) : State :=
  if j.launchStrike.isNone || (j.immediate && !j.granted && !j.expired) then s
  else if j.finished then s.completeJob j
  else if j.unitsDone && !j.slices.isEmpty then s.modJob j.id Job.nextSlice
  else s

/-- Grant until nothing more can be granted; a slice without units is over at once. `fuel` bounds the rounds. -/
def State.arbitrate : Nat → State → State
  | 0, s => s
  | n + 1, s =>
    match s.nextGrant with
    | none => s
    | some j =>
      let s := s.grant j
      State.arbitrate n (if j.units.isEmpty then
        (match s.jobById j.id with | some j => s.sliceOver j | none => s) else s)

/-- After any acceptance, end or release. -/
def State.schedule (s : State) : State :=
  let rounds := s.jobs.length + 1 + (s.jobs.map (fun j => j.slices.length)).sum
  let s := State.settle (s.jobs.length + 1) s
  let s := State.arbitrate rounds s
  State.settle (s.jobs.length + 1) s

/-- Complete a graph job if it is finished, then settle and arbitrate. -/
def State.checkJob (s : State) (id : Nat) : State :=
  match s.jobById id with
  | none => s.schedule
  | some j => (s.sliceOver j).schedule

/-- A VALID entry of the bank in force has yet to fire in this strike and names the unit (R344). (DEDUCED: log 62, 76) -/
def State.entryPending (s : State) (u : Nat) : Bool :=
  let b := s.fld Reg.TIM_STRIKE_CTL.BANK
  s.time.live && s.flag Reg.TIM_STRIKE_CTL.RUN && (List.range 128).any (fun e => s.flag (Reg.TIM_ST_CTRL.VALID b e) && !s.time.fired.contains e
    && s.fld (Reg.TIM_ST_OFFSET.NS b e) < s.periodNs && s.entryNames b e u)

/-- Kind and index of a unit, as a load report gives them (R306). -/
def reportUnit (u : Nat) : Nat × Nat := if u < 64 then (0, u) else if u < 68 then (1, u - 64) else if u < 76 then (2, u - 68) else (3, u - 76)

/-- A part of a job on unit u has ended with a status that takes the place of OK or EMPTY; the record of a refusal names the unit, the reason and the
instruction (R309, R311). (DEDUCED: log 62) -/
def State.partWorse (s : State) (u status : Nat) (j : Job) : Job :=
  let named := status == 2 && (j.status == 0 || j.status == 1)
  let j := j.worsen status
  if named then
    { j with detail := s.fld ⟨unitRefuse u, 24, 8⟩, index := s.fld ⟨unitRefuse u, 0, 16⟩, unitKind := (reportUnit u).1, unit := (reportUnit u).2 }
  else j

/-- A list of a unit has ended for its job, with a status that may replace OK. A strike-bound job's part on the unit goes on while, in
its launch strike, a strike table entry has yet to start it again. (DEDUCED: log 62, 78) -/
def State.unitDoneFor (s : State) (id u status : Nat) : State :=
  match s.jobById id with
  | none => s.schedule
  | some j =>
    if status = 0 && j.strikeBound && !j.expired && j.launchStrike == some s.strikeNo && s.entryPending u then s.schedule
    else
      let s := s.modJob id (fun j => { (if status = 0 then j else s.partWorse u status j) with ended := setInsert j.ended u })
      s.checkJob id

/-- Stop a unit and tell its job with what status (R110, R374, R410, R413). -/
def State.stopWith (s : State) (u status : Nat) (late : Bool) : State :=
  let job := (s.unit u).job
  let s := s.stopUnit u
  match job with
  | some id => (s.modJob id (fun j => { j with late := j.late || late })).unitDoneFor id u status
  | none => s.schedule

/-! ### Completion records (R312, R313, R317) -/

/-- The 32 bytes of a record (R309). -/
def CqRec.bytes (x : CqRec) (phase : Nat) : List Byte :=
  leBytes 1 1 ++ leBytes 1 (128 * phase + x.verdict % 8) ++ leBytes 1 x.status ++ leBytes 1 x.detail ++ leBytes 4 x.tag
    ++ leBytes 4 (x.strike.getD 0) ++ leBytes 4 x.age ++ leBytes 8 x.time ++ leBytes 2 x.sqHead ++ leBytes 1 (x.sq % 8)
    ++ leBytes 1 x.unitKind ++ leBytes 2 x.index ++ leBytes 1 x.unit ++ leBytes 1 0

/-- Entries of a completion ring that are free (R300). -/
def State.cqFull (s : State) (c r : Nat) : Bool :=
  let n := 2 ^ s.fld (Reg.HRT_CQ_CFG.LOG2 c r)
  (s.fld (Reg.HRT_CQ_IDX.TAIL c r) + 1) % n == s.fld (Reg.HRT_CQ_IDX.HEAD c r) % n

/-- Moderation of a ring. -/
def State.moderOf (s : State) (c r : Nat) : Moder := SMap.getD s.moder (8 * c + r) ⟨0, 0⟩

def State.setModer (s : State) (c r : Nat) (m : Moder) : State :=
  { s with moder := SMap.put s.moder (8 * c + r) ⟨0, 0⟩ m }

/-- One record written: count it for moderation, and raise the ring's source at the threshold (R317). -/
def State.moderate (s : State) (c r : Nat) (noIrq : Bool) : State :=
  if noIrq then s
  else
    let m := s.moderOf c r
    let u := m.u + 1
    if s.fld (Reg.HRT_CQ_MOD.COUNT c r) ≤ u then (s.setModer c r ⟨0, 0⟩).hicEvent (144 + 8 * c + r)
    else s.setModer c r ⟨u, if m.u = 0 then s.nowNs else m.oldest⟩

/-- Write one record's 32 bytes at the ring's tail, advance the tail, invert the phase at a wrap (R312). -/
def State.cqPut (s : State) (c r unit gen : Nat) (x : CqRec) : State :=
  let n := 2 ^ s.fld (Reg.HRT_CQ_CFG.LOG2 c r)
  let tail := s.fld (Reg.HRT_CQ_IDX.TAIL c r)
  let phase := s.fld (Reg.HRT_CQ_CFG.PHASE c r)
  let x := { x with strike := some (x.strike.getD s.strikeNo) }
  let (s, _) := s.write ⟨unit, c, gen⟩ (s.rd64 (Reg.HRT_CQ_BASE_LO c r) + 32 * tail) (x.bytes phase)
  let next := (tail + 1) % n
  let s := s.setFld (Reg.HRT_CQ_IDX.TAIL c r) next
  let s := if next = 0 then s.setFld (Reg.HRT_CQ_CFG.PHASE c r) (1 - phase) else s
  s.moderate c r x.noIrq

/-- A ring takes a record now: enabled and not full (R313). -/
def State.cqReady (s : State) (c r : Nat) : Bool := s.flag (Reg.HRT_CQ_CFG.ENABLE c r) && !s.cqFull c r

/-- Write the oldest waiting record of a ring, if the ring takes one (R312, R313). -/
def State.writeOneRec (s : State) (c r : Nat) : State :=
  match s.waitingOf c r with
  | [] => s
  | x :: rest =>
    if s.cqReady c r then
      ({ s with waiting := SMap.put s.waiting (8 * c + r) [] rest }).cqPut c r 0x60 x.gen x
    else s

end Sys2Proof.Machine
end

