-- ==== Sys2Proof/Machine/Rings.lean ====
section
/-! DEFINITION. Doorbells, submission descriptors and completion rings (R41, R295 to R317). -/

namespace Sys2Proof.Machine

/-! ### Doorbells (R301) -/

/-- A doorbell write that is discarded: counted, flagged, class N of the context. -/
def State.badDoorbell (s : State) (c : Nat) : State :=
  let s := (s.count (Reg.HRT_CTX_ERR.DB_BAD_CNT c) 1).event Reg.HRT_EVT_STATUS.BAD_DOORBELL 79
  s.report ⟨0x3E, c, 1, some c, some 0x60, 0, 0⟩

/-- The tail doorbell of submission ring r (R301; R441 during a COMPUTE reset). -/
def State.sqDoorbell (s : State) (c r value : Nat) : State :=
  let n := 2 ^ s.fld (Reg.HRT_SQ_CFG.LOG2 c r)
  let head := s.fld (Reg.HRT_SQ_IDX.HEAD c r)
  let tail := s.fld (Reg.HRT_SQ_IDX.TAIL c r)
  if s.ctxState c == 2 || s.ctxState c == 3 || (c == 0 && s.flag Reg.PCI_STATUS.COMPUTE_RESET) then s
  else if n ≤ value || !s.flag (Reg.HRT_SQ_CFG.ENABLE c r) || n ≤ (tail + n - head) % n + (value + n - tail) % n then
    s.badDoorbell c
  else s.setFld (Reg.HRT_SQ_IDX.TAIL c r) value

/-- The head doorbell of completion ring r; a ring that it empties resets its moderation (R317). -/
def State.cqDoorbell (s : State) (c r value : Nat) : State :=
  let n := 2 ^ s.fld (Reg.HRT_CQ_CFG.LOG2 c r)
  let head := s.fld (Reg.HRT_CQ_IDX.HEAD c r)
  let tail := s.fld (Reg.HRT_CQ_IDX.TAIL c r)
  if s.ctxState c == 2 || s.ctxState c == 3 || (c == 0 && s.flag Reg.PCI_STATUS.COMPUTE_RESET) then s
  else if n ≤ value || !s.flag (Reg.HRT_CQ_CFG.ENABLE c r) || (tail + n - head) % n < (value + n - head) % n then
    s.badDoorbell c
  else
    let s := s.setFld (Reg.HRT_CQ_IDX.HEAD c r) value
    if value = tail then s.setModer c r ⟨0, 0⟩ else s

/-- A write at an offset of a doorbell page. -/
def State.doorbellWrite (s : State) (c off value : Nat) : State :=
  if off % 8 ≠ 0 ∨ 128 ≤ off then s
  else if off < 64 then s.sqDoorbell c (off / 8) value
  else s.cqDoorbell c (off / 8 - 8) value

/-- A read at an offset of a doorbell page: the last value accepted. -/
def State.doorbellRead (s : State) (c off : Nat) : Word :=
  if off % 8 ≠ 0 ∨ 128 ≤ off then 0
  else if off < 64 then BitVec.ofNat 32 (s.fld (Reg.HRT_SQ_IDX.TAIL c (off / 8)))
  else BitVec.ofNat 32 (s.fld (Reg.HRT_CQ_IDX.HEAD c (off / 8 - 8)))

/-- A doorbell write of a party, where the effect of an accepted one is `ring` (R296, R301, R387). (DEDUCED: log 176) -/
def State.ringBy (s : State) (who : Party) (c : Nat) (slot : Nat) (ring : State) : State :=
  if !s.partyOn who then s
  else if s.mayRing who c then ring
  else if s.inParked then s
  else s.refuseReg who (0x3000180000 + c * 0x1000 + 8 * slot) true

/-- SQ_TAIL_DOORBELL (R301, R302, R387). -/
def execSqTailDoorbell (who : Party) (c : Fin 16) (r : Fin 8) (value : Word) (s : State) : Host.Outcome State Fault Refusal :=
  .next (s.ringBy who c r (s.sqDoorbell c r value.toNat))

/-- CQ_HEAD_DOORBELL (R301, R317, R387). -/
def execCqHeadDoorbell (who : Party) (c : Fin 16) (r : Fin 8) (value : Word) (s : State) : Host.Outcome State Fault Refusal :=
  .next (s.ringBy who c (8 + r.val) (s.cqDoorbell c r value.toNat))

/-! ### Descriptors (R303 to R306) -/

/-- Waiting records that stop the rings naming a completion ring (R313). -/
def State.cqStopped (s : State) (c cq : Nat) : Bool := 64 < (s.waitingOf c cq).length

/-- The queue manager fetches this ring's head entry now (R295, R296, R305, R306, R313). -/
def State.fetches (s : State) (c r : Nat) : Bool :=
  s.flag Reg.HRT_CTL.ENABLE && s.ctxState c == 1 && !s.inParked && !s.computeHeld && s.flag (Reg.HRT_SQ_CFG.ENABLE c r)
    && s.fld (Reg.HRT_SQ_IDX.HEAD c r) != s.fld (Reg.HRT_SQ_IDX.TAIL c r)
    && s.jobs.length < 1024 && (s.ctxJobs c).length < 256 && !s.cqStopped c (s.fld (Reg.HRT_SQ_CFG.CQ c r))
    && !(s.jobs.any (fun j => j.ctx == c && j.ring == r && j.kind == .fence))

/-- The version selected for a context (R41, R42). -/
def State.versionOf (s : State) (c : Nat) : Nat := if c = 0 then s.fld Reg.TOP_VERSION.SELECTED else 1

/-- Reserved and growth bits of a descriptor (R303). -/
def descGrowth (d : List Byte) : Bool :=
  bits (fieldAt d 2 2) 5 11 != 0 || bits (fieldAt d 36 1) 2 6 != 0 || bits (fieldAt d 37 1) 3 5 != 0
    || !zeroAt d 38 2 || !zeroAt d 40 24

/-- A handle that R307 accepts in a ring of context c. -/
def State.handleOk (s : State) (c h : Nat) : Bool :=
  bits h 44 4 == c && bits h 48 16 == s.gen c && bits h 32 12 == 0
    && s.models.any (fun m => m.handle == h && !m.unloading)

/-- R31: a configuration permitted for the context in the current state. -/
def State.configOk (s : State) (c config : Nat) : Bool :=
  config == 2 && (c == 0 || s.inDepot) || config < 2 && c == 0 && s.inDrive

/-- The first failing check of R304, as its status. -/
def State.descCheck (s : State) (c : Nat) (d : List Byte) : Option Nat :=
  let op := fieldAt d 1 1
  if fieldAt d 0 1 != s.versionOf c then some 3
  else if descGrowth d then some 4
  else if 6 < op || (op == 6 && c != 0) then some 5
  else if op == 1 && !s.configOk c (bits (fieldAt d 36 1) 0 2) then some 6
  else if (op == 1 || op == 3) && !s.handleOk c (fieldAt d 8 8) then some 7
  else none

/-- The job a descriptor would become, at a head already advanced. -/
def State.jobOf (s : State) (c r : Nat) (d : List Byte) (kind : JobKind) : Job :=
  let fl := fieldAt d 2 2
  { id := s.jobSeq, ctx := c, ring := r, cq := s.fld (Reg.HRT_SQ_CFG.CQ c r), gen := s.gen c, kind := kind, tag := fieldAt d 4 4,
    config := bits (fieldAt d 36 1) 0 2, prio := bits (fieldAt d 37 1) 0 3, noIrq := bitAt fl 3,
    immediate := bitAt fl 0 || !(c == 0 && s.inDrive), dlUs := bitAt fl 1 || c != 0, deadline := fieldAt d 32 4,
    sqHead := s.fld (Reg.HRT_SQ_IDX.HEAD c r), output := fieldAt d 24 5, ageBase := 0, units := [], slices := [], granted := false, results := [],
    launchStrike := none, launchTime := 0, lastStrike := 0, started := [], ended := [], published := [], poisoned := false,
    late := false, age := 0, status := 0, detail := 0, unitKind := 0, index := 0, unit := 0, openWindows := 0, mismatch := false, damaged := false, sawProblem := false, sawWork := false,
    captures := none, ate := false, expired := false }

/-- Accept: the job enters the queue manager (R305). -/
def State.accept (s : State) (j : Job) : State :=
  ({ s with jobs := s.jobs ++ [j], jobSeq := s.jobSeq + 1 }).syncJobs j.ctx

/-- Advance the head of a submission ring. -/
def State.advanceHead (s : State) (c r : Nat) : State :=
  let n := 2 ^ s.fld (Reg.HRT_SQ_CFG.LOG2 c r)
  s.setFld (Reg.HRT_SQ_IDX.HEAD c r) ((s.fld (Reg.HRT_SQ_IDX.HEAD c r) + 1) % n)

/-- Read the descriptor at a ring's head (R23, R383). A read that fails in both its units is one fault (R304). -/
def State.readDesc (s : State) (c r : Nat) : State × Rd :=
  let rq := s.req 0x60 c
  let a := s.rd64 (Reg.HRT_SQ_BASE_LO c r) + 64 * s.fld (Reg.HRT_SQ_IDX.HEAD c r)
  let (s, x) := s.read rq a 32
  let (s, y) := s.read rq (a + 32) 32 x.err.isNone
  (s, ⟨x.bytes ++ y.bytes, x.poison || y.poison, x.err.or y.err⟩)

/-- A read that R304 turns into a consumed descriptor. -/
def Rd.bad (x : Rd) : Bool := x.poison || x.err.isSome

/-- The queue manager takes the descriptor at the head of ring r when it is one of opcode `op` (or of a reserved opcode): a failed check
completes it at once, otherwise `run` acts on the descriptor. Any other case leaves the state as it is. (DEDUCED: log 65) -/
def State.takeDesc (s : State) (c r op : Nat) (run : State → List Byte → State) : State :=
  if !s.fetches c r then s
  else
    let (s', x) := s.readDesc c r
    let d := x.bytes
    let o := fieldAt d 1 1
    if x.bad || (o != op && o ≤ 6) then s
    else
      match s'.descCheck c d with
      | some st =>
        let s' := (s'.advanceHead c r).count (Reg.HRT_CTX_ERR.REFUSED_CNT c) 1
        let j := { s'.jobOf c r d .fence with detail := if st = 3 then fieldAt d 0 1 else 0 }
        s'.enqueueRec c j.cq (s'.recordOf j 2 st)
      | none =>
        if bitAt (fieldAt d 2 2) 2 && s.jobs.any (fun j => j.ctx == c && j.ring == r) then s
        else run (s'.advanceHead c r) d

/-- DESCRIPTOR_READ_ERROR (R304): the descriptor is consumed and completes with FAULT and INVALID. (DEDUCED: log 65) -/
def execDescriptorReadError (c : Fin 16) (r : Fin 8) (s : State) : Host.Outcome State Fault Refusal :=
  .next (if !s.fetches c r then s
    else
      let (s', x) := s.readDesc c r
      if !x.bad then s
      else
        let s' := if x.err.isNone then s'.consumed 0x60 c (s.rd64 (Reg.HRT_SQ_BASE_LO c r)) else s'
        let s' := (s'.advanceHead c r).count (Reg.HRT_CTX_ERR.REFUSED_CNT c) 1
        let j := s'.jobOf c r [] .fence
        s'.enqueueRec c j.cq (s'.recordOf j 2 8))

/-- NOP (R306). -/
def execNop (c : Fin 16) (r : Fin 8) (s : State) : Host.Outcome State Fault Refusal :=
  .next (s.takeDesc c r 0 (fun s d =>
    let j := s.jobOf c r d .fence
    s.enqueueRec c j.cq (s.recordOf j 0 0)))

/-- Units of each slice of a graph (R27): those its image declares, else the units of its lists together. -/
def graphStages (g : GraphImage) : List (List Nat) :=
  if g.slices.isEmpty then [(g.lists.map (fun l => l.unit.val)).foldl setInsert []] else g.slices

/-- Anvils that are assigned to a graph. -/
def graphAnvils (g : GraphImage) : List Nat := (((graphStages g).flatten ++ g.lists.map (fun l => l.unit.val)).foldl setInsert []).filter (· < 64)

/-- Those of them that are present and not fenced: the piece count of an adaptive split (R67, R140). -/
def State.splitPieces (s : State) (g : GraphImage) : Nat :=
  ((graphAnvils g).filter (fun u => s.present u && !s.flag (unitFence u))).length

/-- A split takes a piece count, if it is adaptive (R67). -/
def SplitSt.recut (x : SplitSt) (pieces : Nat) : SplitSt := if x.adaptive then { x with pieces := pieces } else x

/-- K of a piece, but for the last ones: c of R140. -/
def SplitSt.cut (x : SplitSt) : Nat := x.image.kc * ceilDiv (ceilDiv x.image.k x.image.kc) x.pieces

/-- First k of piece `i`, and one past its last: equal where the piece covers no k (R140). -/
def SplitSt.piece (x : SplitSt) (i : Nat) : Nat × Nat := (min x.image.k (i * x.cut), min x.image.k ((i + 1) * x.cut))

/-- A fence of an Anvil recuts the adaptive splits of the graphs that are assigned to it (R67, R140). -/
def State.recutSplits (s : State) (u : Nat) : State :=
  { s with models := s.models.map (fun m =>
      if (graphAnvils m.image).contains u then { m with splits := m.splits.map (fun x => x.recut (s.splitPieces m.image)) } else m) }

/-- RUN_GRAPH (R25, R27, R305, R306, R392): a strike-bound job waits for its strike, an immediate one for its grant. -/
def execRunGraph (c : Fin 16) (r : Fin 8) (s : State) : Host.Outcome State Fault Refusal :=
  .next (s.takeDesc c r 1 (fun s d =>
    let h := fieldAt d 8 8
    let image := ((s.models.find? (·.handle == h)).map (·.image))
    let stages := (image.map graphStages).getD []
    let j := s.jobOf c r d (.runGraph h)
    let j := { j with units := if j.immediate then stages.headD [] else stages.flatten.foldl setInsert [],
                      slices := if j.immediate then stages.tail else [], results := (image.map (·.results)).getD [],
                      ageBase := (image.map (·.ageBase)).getD 0 }
    if j.isSafety && (s.quenched || s.fatal) then s.enqueueRec c j.cq (s.recordOf j 2 8)
    else (s.accept j).schedule))

/-- UNLOAD_MODEL (R306, R307). -/
def execUnloadModel (c : Fin 16) (r : Fin 8) (s : State) : Host.Outcome State Fault Refusal :=
  .next (s.takeDesc c r 3 (fun s d =>
    let h := fieldAt d 8 8
    let s := { s with models := s.models.map (fun (m : Model) => if m.handle == h then { m with unloading := true } else m) }
    (s.accept (s.jobOf c r d (.unloadModel h))).schedule))

/-- DESCRIPTOR_FENCE (R306). -/
def execDescriptorFence (c : Fin 16) (r : Fin 8) (s : State) : Host.Outcome State Fault Refusal :=
  .next (s.takeDesc c r 5 (fun s d => (s.accept (s.jobOf c r d .fence)).schedule))

/-! ### Deadlines, records and moderation -/

/-- Device time moves forward to a time in ns, if it has not reached it (how a timer's command finds its time). (DESIGN CHOICE: log 3, 149) -/
def State.reach (s : State) (ns : Nat) : State := if s.nowNs < ns then { s with now := ns * 2 ^ 32 } else s

/-- A limit in ns expires: an event of the comparison cycle in which it falls is in time, so it takes effect at the end of that cycle (R350). (DESIGN CHOICE: log 3) -/
def State.expire (s : State) (ns : Nat) : State :=
  let t := ofNs ns + s.cycleStep
  if s.now < t then { s with now := t } else s

/-- A periodic event is due `period` ns after it was last due. (DESIGN CHOICE: log 149) -/
def State.every (s : State) (key period : Nat) : State :=
  let s := s.reach (SMap.getD s.timers key 0 + period)
  { s with timers := SMap.put s.timers key 0 s.nowNs }

/-- The job has launched and its deadline can expire now (R308, R352). -/
def State.deadlineDue (s : State) (j : Job) : Bool :=
  j.deadline != 0 && (match j.launchStrike with
    | none => false
    | some k => j.dlUs || decide (min j.deadline 0x7FFFFFFF ≤ (s.strikeNo + 2 ^ 32 - k) % 2 ^ 32))

/-- DEADLINE_EXPIRE (R308): nothing more of the job starts; it completes with TIMEOUT at the end of the lists that run. (DEDUCED: log 78) -/
def execDeadlineExpire (job : Nat) (s : State) : Host.Outcome State Fault Refusal :=
  .next (match s.jobById job with
    | none => s
    | some j =>
      if !s.deadlineDue j then s
      else
        let s := s.expire (if j.dlUs then j.launchTime + 1000 * j.deadline else s.time.strikeAt >>> 32)
        let idle (u : Nat) : Bool := !(s.flag (unitBusy u) && (s.unit u).job == some job)
        (s.modJob job (fun j => { j.worsen 9 with
          expired := true, ended := (j.units.filter idle).foldl setInsert j.ended })).checkJob job)

/-- COMPLETION_RECORD_WRITE (R312, R313). -/
def execCompletionRecordWrite (c : Fin 16) (r : Fin 8) (s : State) : Host.Outcome State Fault Refusal :=
  .next (s.writeOneRec c r)

/-- MODERATION_TIMER (R317). -/
def execModerationTimer (c : Fin 16) (r : Fin 8) (s : State) : Host.Outcome State Fault Refusal :=
  .next (
    let m := s.moderOf c r
    let us := s.fld (Reg.HRT_CQ_MOD.TIME_US c r)
    if us = 0 ∨ m.u = 0 then s
    else ((s.expire (m.oldest + 1000 * us)).setModer c r ⟨0, 0⟩).hicEvent (144 + 8 * c + r))

end Sys2Proof.Machine
end

