-- ==== Sys2Proof/Machine/Link.lean ====
section
/-! DEFINITION. Narultil transport: header units, credits, replay, route down (R429 to R434). Messages are handled in `Messages`. -/

namespace Sys2Proof.Machine

/-- A port's entry. -/
def State.link (s : State) (q : Nat) : LinkSt := SMap.getD s.links q LinkSt.fresh

/-- Store a port's entry. -/
def State.setLink (s : State) (q : Nat) (x : LinkSt) : State := { s with links := SMap.put s.links q LinkSt.fresh x }

/-- Change a port's entry. -/
def State.modLink (s : State) (q : Nat) (f : LinkSt → LinkSt) : State := s.setLink q (f (s.link q))

/-- STATE is UP_X8 or UP_X4 (R434). -/
def State.linkUp (s : State) (q : Nat) : Bool := let t := s.fld (Reg.NLK_PORT_STATUS.STATE q); t == 2 || t == 3

/-- This module's number. -/
def State.module (s : State) : Nat := s.fld Reg.NLK_CFG.MODULE

/-- Route to a module: the lowest-numbered port that is up and whose PEER it is (R434). -/
def State.routeTo (s : State) (d : Nat) : Option Nat :=
  (List.range 4).find? (fun q => s.fld (Reg.NLK_PORT_CTL.PEER q) == d && s.linkUp q)

/-! ### Header units (R432, R433) -/

end Sys2Proof.Machine

namespace Sys2Proof

open Sys2Proof.Machine

def LinkMsg.version (m : LinkMsg) : Nat := fieldAt m.header 0 1
def LinkMsg.type (m : LinkMsg) : Nat := fieldAt m.header 1 1
def LinkMsg.vc (m : LinkMsg) : Nat := bits (fieldAt m.header 2 1) 6 2
def LinkMsg.src (m : LinkMsg) : Nat := bits (fieldAt m.header 2 1) 4 2
def LinkMsg.dst (m : LinkMsg) : Nat := bits (fieldAt m.header 2 1) 2 2
def LinkMsg.units (m : LinkMsg) : Nat := fieldAt m.header 3 1
def LinkMsg.stream (m : LinkMsg) : Nat := fieldAt m.header 4 2
def LinkMsg.ctx (m : LinkMsg) : Nat := bits m.stream 8 4
def LinkMsg.gen (m : LinkMsg) : Nat := fieldAt m.header 6 2
def LinkMsg.poison (m : LinkMsg) : Nat := fieldAt m.header 8 2
def LinkMsg.tag (m : LinkMsg) : Nat := fieldAt m.header 10 2
def LinkMsg.arg0 (m : LinkMsg) : Nat := fieldAt m.header 12 8
def LinkMsg.arg1 (m : LinkMsg) : Nat := fieldAt m.header 20 4

end Sys2Proof

namespace Sys2Proof.Machine

/-- The VC of a message type (R433); none for an undefined type. -/
def vcOf (ty : Nat) : Option Nat :=
  if 0x01 ≤ ty ∧ ty ≤ 0x04 then some 1
  else if 0x05 ≤ ty ∧ ty ≤ 0x08 then some 2
  else if (0x10 ≤ ty ∧ ty ≤ 0x12) ∨ (0x18 ≤ ty ∧ ty ≤ 0x1C) ∨ (0x20 ≤ ty ∧ ty ≤ 0x22) then some 0
  else none

/-- Bits of ARG0 that a type uses (R433). (DEDUCED: log 107) -/
def arg0Mask (ty : Nat) : Nat :=
  if ty = 0x01 then 0x3F0000FFFF
  else if ty = 0x02 ∨ ty = 0x04 then 0x3F0000FF0F
  else if ty = 0x05 ∨ ty = 0x06 then 0xFFFFFFFFFF
  else if ty = 0x08 then 0xFFF
  else if ty = 0x18 then 0xFFFF000F
  else if ty = 0x1A then 0
  else if ty = 0x1C then 0x3FF
  else 2 ^ 64 - 1

/-- A type whose ARG1 is zero (R433). -/
def arg1Zero (ty : Nat) : Bool :=
  ty == 0x03 || ty == 0x05 || ty == 0x07 || (0x18 ≤ ty && ty ≤ 0x1C)

/-- R432: a message that is dropped and counted. (DEDUCED: log 108) -/
def State.badMsg (s : State) (q : Nat) (m : LinkMsg) : Bool :=
  m.version != s.fld (Reg.NLK_PORT_STATUS.VERSION q) || (vcOf m.type).isNone || bits (fieldAt m.header 2 1) 0 2 != 0
    || 10 < m.units || bits m.stream 12 4 != 0 || bits m.poison 10 6 != 0 || !zeroAt m.header 24 8
    || (m.arg0 ||| arg0Mask m.type) != arg0Mask m.type || (arg1Zero m.type && m.arg1 != 0)

/-- A message of this module on port q, under a stream and generation. -/
def State.mkMsg (s : State) (q ty stream gen tag arg0 arg1 : Nat) (data : List DataUnit) : LinkMsg :=
  let pois := (data.zipIdx).foldl (fun m (p : DataUnit × Nat) => m + (ofBool p.1.poison <<< p.2)) 0
  { header := leBytes 1 (s.fld (Reg.NLK_PORT_STATUS.VERSION q)) ++ leBytes 1 ty
      ++ leBytes 1 (64 * ((vcOf ty).getD 0) + 16 * s.module + 4 * s.fld (Reg.NLK_PORT_CTL.PEER q)) ++ leBytes 1 data.length
      ++ leBytes 2 stream ++ leBytes 2 gen ++ leBytes 2 pois ++ leBytes 2 tag ++ leBytes 8 arg0 ++ leBytes 4 arg1
      ++ leBytes 8 0,
    data := data }

/-- A message of this module's context 0. (DEDUCED: log 107) -/
def State.mkCtl (s : State) (q ty arg0 arg1 : Nat) (data : List DataUnit := []) : LinkMsg :=
  s.mkMsg q ty 0xC8 (s.gen 0) 0 arg0 arg1 data

/-! ### Sending with credit (R433) -/

/-- Put a message into a codeword: it is in flight until acknowledged, and the last 512 codewords are kept (R431). A mark is stamped as its codeword
leaves (R346, R433). (PRESUMED: log 74; DEDUCED: log 106) -/
def State.transmit (s : State) (q : Nat) (m : LinkMsg) : State :=
  let x := s.link q
  let n := 1 + m.data.length
  let flights := x.inflight ++ [⟨x.nextSeq, 0, m⟩]
  let s := s.setLink q { x with nextSeq := (x.nextSeq + 1) % 4096, inflight := flights.drop (flights.length - 512),
                                 credits := x.credits.set m.vc (x.credits.getD m.vc 0 - n), turn := if m.vc = 0 then x.turn else m.vc == 1 }
  let s := if m.type = 0x10 then { s with time := { s.time with markSent := SMap.insert s.time.markSent q (s.now / 2 ^ 31) } } else s
  s.send (.link q m)

/-- Send on a port: at once when the VC has credit and nothing of it waits, otherwise queued; a mark is ahead of all that waits (R433). Nothing is
sent on a port that is not up. -/
def State.linkSend (s : State) (q : Nat) (m : LinkMsg) : State :=
  let x := s.link q
  if !s.linkUp q then s
  else if 1 + m.data.length ≤ x.credits.getD m.vc 0 && (m.type == 0x10 || !(x.queue.any (fun o => o.vc == m.vc))) then s.transmit q m
  else s.setLink q { x with queue := if m.type = 0x10 then m :: x.queue else x.queue ++ [m] }

/-- Send what credit now allows: VC0 first, then VC1 and VC2 in turn (R433); `fuel` bounds the messages. -/
def State.linkDrain : Nat → Nat → State → State
  | 0, _, s => s
  | n + 1, q, s =>
    let x := s.link q
    let first (vc : Nat) : Option LinkMsg :=
      match x.queue.find? (fun m => m.vc == vc) with
      | some m => if 1 + m.data.length ≤ x.credits.getD vc 0 then some m else none
      | none => none
    match ((first 0).or (first (if x.turn then 2 else 1))).or (first (if x.turn then 1 else 2)) with
    | some m => State.linkDrain n q ((s.setLink q { x with queue := x.queue.erase m }).transmit q m)
    | none => s

/-- A control message (ACK, NAK, CREDIT): no credit, no replay. -/
def State.linkCtl (s : State) (q ty arg0 arg1 : Nat) : State := s.send (.link q (s.mkCtl q ty arg0 arg1))

/-- A port event and its two sources (R456). -/
def State.portEvent (s : State) (q : Nat) (f : Nat → FRef) : State := ((s.setFld (f q) 1).syncSrc (288 + q)).syncSrc (293 + q)

/-- Count a dropped message (R432). -/
def State.linkDrop (s : State) (q : Nat) : State := (s.count (Reg.NLK_PORT_ERR.DROP_CNT q) 1).portEvent q Reg.NLK_PORT_EVT.DROP

/-- A codeword received: acknowledge every 32 (R431), and give its units back (R433). (DEDUCED: log 107) -/
def State.linkGot (s : State) (q : Nat) (m : LinkMsg) : State :=
  let x := s.link q
  let seq := (x.rxSeq + 1) % 4096
  let s := if x.owed = 0 then { s with timers := SMap.put s.timers (32 + q) 0 s.nowNs } else s
  let s := if 31 ≤ x.owed then (s.setLink q { x with rxSeq := seq, owed := 0 }).linkCtl q 0x20 seq 0
    else s.setLink q { x with rxSeq := seq, owed := x.owed + 1 }
  s.linkCtl q 0x22 (1 + m.data.length) m.vc

end Sys2Proof.Machine
end

