-- ==== Sys2Proof/Machine/TimeUnit.lean ====
section
/-! DEFINITION. Device time, gPTP, the strike generator's RUN bit, strikes across modules and barriers (R328 to R349). -/

namespace Sys2Proof.Machine

def State.modTime (s : State) (f : TimeSt → TimeSt) : State := { s with time := f s.time }

/-- TIM_EVT_STATUS bit i and its source (R354). -/
def State.timEvent (s : State) (i : Nat) : State := s.event ⟨Reg.TIM_EVT_STATUS, i, 1⟩ (272 + i)

/-- One comparison cycle; the time unit is off in PARKED (R328, R331). -/
def State.tick (s : State) : State := if s.inParked then s else { s with now := s.now + s.cycleStep }

/-- Move device time forward to a time in units of 2^-32 ns. -/
def State.reachFrac (s : State) (t : Nat) : State := if s.now < t then { s with now := t } else s

/-! ### gPTP (R333 to R338) -/

def State.portRole (s : State) (p : Nat) : Nat := s.fld (if p = 0 then Reg.TIM_GPTP_CTL.PORT0_ROLE else Reg.TIM_GPTP_CTL.PORT1_ROLE)

/-- Two slave ports, or a grandmaster with a slave port (R336). -/
def State.gptpBad (s : State) : Bool :=
  (s.portRole 0 == 1 && s.portRole 1 == 1) || (s.flag Reg.TIM_GPTP_CTL.GM && (s.portRole 0 == 1 || s.portRole 1 == 1))

/-- gPTP runs. -/
def State.gptpOn (s : State) : Bool := s.flag Reg.TIM_GPTP_CTL.ENABLE && !s.gptpBad && !s.inParked

/-- Sync interval in ns: 2^SYNC_LOG s (R333). -/
def State.syncInterval (s : State) : Nat := 1000000000 / 2 ^ (-(signed 4 (s.fld Reg.TIM_GPTP_CTL.SYNC_LOG))).toNat

/-- A write of TIM_GPTP_CTL took effect: CFG_BAD follows the roles, and NO_SYNC holds while gPTP does not run (R336, R338). When it begins to run, the
Pdelay exchanges are due at once and the grandmaster's Sync after one interval. (DESIGN CHOICE: log 70; DEDUCED: log 71) -/
def State.gptpConfig (s : State) : State :=
  let s := s.setFlag Reg.TIM_GPTP_STATUS.CFG_BAD s.gptpBad
  if s.gptpOn then
    if s.time.gptp then s
    else s.modTime (fun t => { t with gptp := true, gmDue := s.nowNs + s.syncInterval, pdelayDue := [s.nowNs, s.nowNs] })
  else (s.setFld Reg.TIM_GPTP_STATUS.STATE 0).modTime (fun t => { t with twoStep := [], goodSyncs := 0, gptp := false })

/-- A stamp of the event that happens now: whole ns, within 4 ns (R334). -/
def State.stampNs (s : State) : State × Nat :=
  let (s, k) := s.free
  (s, s.nowNs + k % 9 - 4)

/-- The step of R337. What counts from the last Sync or exchange moves with device time. -/
def State.gptpStep (s : State) (offset : Int) : State :=
  let moved (t : Nat) : Nat := ((t : Int) - offset).toNat
  let s := { s with now := ((s.now : Int) - offset * 2 ^ 32).toNat }
  let s := { s with timers := s.timers.map (fun (e : Nat × Nat) => (e.1, moved e.2)) }
  let s := s.modTime (fun t => { t with lastSync := moved t.lastSync, gmDue := moved t.gmDue, pdelayDue := t.pdelayDue.map moved })
  ((s.setFld Reg.TIM_GPTP_CTL.STEP_ARM 0).setFld Reg.TIM_GPTP_STATUS.STEPPED 1).timEvent 3

/-- Mean link delay of a port; a free value while none is measured. (DESIGN CHOICE: log 70) -/
def State.linkDelayNs (s : State) (p : Nat) : State × Nat :=
  let d := s.fld (if p = 0 then Reg.TIM_PDELAY.PORT0 else Reg.TIM_PDELAY.PORT1)
  if d = 0xFFFF then s.free else (s, d)

/-- A valid Sync has given an OFFSET (R336 to R338). (DEDUCED: log 71) -/
def State.gptpOffset (s : State) (p : Nat) (offset : Int) : State :=
  let s := s.setFld Reg.TIM_GPTP_OFFSET.NS (unsign 32 (clampInt (-(2 ^ 31)) (2 ^ 31 - 1) offset))
  let st := s.fld Reg.TIM_GPTP_STATUS.STATE
  let near := decide (-100 ≤ offset ∧ offset ≤ 100)
  let good := if near then (if st = 0 ∨ st = 3 then 1 else s.time.goodSyncs + 1) else 0
  let s := if st = 3 then s.timEvent 5 else s
  let s := s.setFld Reg.TIM_GPTP_STATUS.STATE (if near && (8 ≤ good || st == 2) then 2 else 1)
  let s := s.modTime (fun t => { t with lastSync := s.nowNs, goodSyncs := good })
  if s.flag Reg.TIM_GPTP_CTL.STEP_ARM && decide (2 ≤ s.time.pdelays.getD p 0) && !s.flag Reg.TIM_STRIKE_CTL.RUN then s.gptpStep offset
  else s

/-- OFFSET of R336, from the origin, the correction (2^-16 ns) and the ingress stamp. -/
def State.gptpMeasure (s : State) (p : Nat) (origin : Nat) (correction : Int) (ingress : Nat) : State :=
  let (s, d) := s.linkDelayNs p
  let (s, offset) := s.openQuotient (65536 * ((ingress : Int) - origin - d) - correction) 65536
  s.gptpOffset p offset

/-- The relay's other port (R335). -/
def State.relayPort (s : State) (p : Nat) : Option Nat :=
  if s.portRole (1 - p) == 2 then some (1 - p) else none

/-- The Follow_Up of a relayed Sync: its correction gains the link delay and the residence time, and its rate ratio the neighbour's (R335). (DESIGN CHOICE: log 70) -/
def State.relayFollowUp (s : State) (p : Nat) (m : SyncMsg) (correction : Int) (ingress egress : Nat) : State :=
  match s.relayPort p with
  | none => s
  | some q =>
    let (s, d) := s.linkDelayNs p
    let (s, n) : State × Int := match SMap.find? s.time.rates p with
      | some n => (s, n)
      | none => let (s, k) := s.free; (s, (k % 2 ^ 32 : Nat) - 2 ^ 31)
    let (s, ratio) := s.openQuotient ((2 ^ 41 + m.rate) * (2 ^ 41 + n)) (2 ^ 41)
    let (s, more) := s.openQuotient (((d + (egress - ingress)) * 2 ^ 16 : Nat) * ratio) (2 ^ 41)
    s.send (.gptp q 1 m.seq egress m.origin (correction + more) (ratio - 2 ^ 41))

/-- gPTP takes a Sync or Follow_Up: on the slave port, in domain 0 (R333, R336). -/
def State.takesSync (s : State) (p : Fin 2) (m : SyncMsg) : Bool := s.gptpOn && s.portRole p == 1 && m.domain == 0

/-- SYNC_RECEIVED (R335, R336): the relay forwards the Sync within 10 µs of its ingress stamp. (DESIGN CHOICE: log 70) -/
def execSyncReceived (p : Fin 2) (m : SyncMsg) (s : State) : Host.Outcome State Fault Refusal :=
  .next (if !s.takesSync p m then s
    else
      let (s, ingress) := s.stampNs
      let (s, egress) : State × Nat := match s.relayPort p with
        | some q =>
          let (s, k) := s.free
          let at_ := ingress + k % 10001
          (s.send (.gptp q 0 m.seq at_ 0 0 0), at_)
        | none => (s, ingress)
      if m.twoStep then s.modTime (fun t => { t with twoStep := SMap.insert t.twoStep p ⟨m, ingress, egress⟩ })
      else (s.relayFollowUp p m m.correction ingress egress).gptpMeasure p m.origin m.correction ingress)

/-- FOLLOW_UP_RECEIVED (R335, R336): it belongs to the Sync that waits with the same sequence number. (DESIGN CHOICE: log 70) -/
def execFollowUpReceived (p : Fin 2) (m : SyncMsg) (s : State) : Host.Outcome State Fault Refusal :=
  .next (if !s.takesSync p m then s
    else
      match SMap.find? s.time.twoStep p with
      | none => s
      | some y =>
        if y.msg.seq != m.seq then s
        else
          let s := s.modTime (fun t => { t with twoStep := SMap.erase t.twoStep p })
          let total := y.msg.correction + m.correction
          (s.relayFollowUp p m total y.ingress y.egress).gptpMeasure p m.origin total y.ingress)

/-- PDELAY_EXCHANGE (R333, R337): the exchange that is due on a port with a role; the next is due 1 s later. (DESIGN CHOICE: log 7) -/
def execPdelayExchange (p : Fin 2) (m : LinkMeasure) (s : State) : Host.Outcome State Fault Refusal :=
  .next (if !s.gptpOn || s.portRole p == 0 then s
    else
      let f := if p = 0 then Reg.TIM_PDELAY.PORT0 else Reg.TIM_PDELAY.PORT1
      let s := s.reach (s.time.pdelayDue.getD p 0)
      let s := (s.setFld f (min 0xFFFE m.delay)).modTime (fun t => { t with
        pdelays := t.pdelays.set p (t.pdelays.getD p 0 + 1), rates := SMap.insert t.rates p m.rate, pdelayDue := t.pdelayDue.set p (s.nowNs + 1000000000) })
      let (s, egress) := s.stampNs
      s.send (.gptp p 2 0 egress 0 0 0))

/-- Sync and its Follow_Up from device time on a port (R335). -/
def State.gmSync (s : State) (p : Nat) : State :=
  let (s, egress) := s.stampNs
  (s.send (.gptp p 0 s.time.gmSeq egress 0 0 0)).send (.gptp p 1 s.time.gmSeq egress egress 0 0)

/-- GM_SYNC_TRANSMIT (R335): the sync interval has passed; Sync and Follow_Up go out on every master port. -/
def execGmSyncTransmit (s : State) : Host.Outcome State Fault Refusal :=
  .next (if !s.gptpOn || !s.flag Reg.TIM_GPTP_CTL.GM then s
    else
      let s := s.reach s.time.gmDue
      let s := (List.range 2).foldl (fun s p => if s.portRole p == 2 then s.gmSync p else s) s
      s.modTime (fun t => { t with gmSeq := (t.gmSeq + 1) % 2 ^ 16, gmDue := s.nowNs + s.syncInterval }))

/-- SYNC_TIMEOUT (R338): entry to HOLDOVER. -/
def execSyncTimeout (s : State) : Host.Outcome State Fault Refusal :=
  .next (
    let st := s.fld Reg.TIM_GPTP_STATUS.STATE
    if !s.gptpOn || !(st == 1 || st == 2) then s
    else
      let s := s.expire (s.time.lastSync + s.fld Reg.TIM_GPTP_CTL.SYNC_TIMEOUT * s.syncInterval)
      ((s.setFld Reg.TIM_GPTP_STATUS.STATE 3).count Reg.TIM_GPTP_STATUS.LOST_CNT 1).timEvent 4)

/-! ### RUN (R339, R342) -/

def State.barRole (s : State) : Nat := s.fld Reg.TIM_BAR_CTL.ROLE

/-- First multiple-of-a-cycle time at or after `t`, counted from now. -/
def State.cycleAt (s : State) (t : Nat) : Nat :=
  let d := max 1 s.cycleStep
  s.now + (t - s.now + d - 1) / d * d

/-- RUN has changed from 0 to 1 (R339, R347). (DEDUCED: log 76) -/
def State.runStart (s : State) : State :=
  let p := 1000 * s.fld Reg.TIM_STRIKE_CFG.PERIOD
  let s := s.modTime (fun t => { t with nextNum := s.fld Reg.TIM_STRIKE_START.NUM, live := false, fired := [], events := [],
                                         goodMarks := 0, errors := [], barred := false, phase := none, rateTrim := 0, period := p })
  if s.barRole = 2 then (s.setFld Reg.TIM_BAR_STATUS.STATE 1).modTime (fun t => { t with next := none })
  else
    let soon := s.now + ofNs 1000
    let at_ := if s.flag Reg.TIM_STRIKE_CTL.ALIGN then
        let ns := (soon + 2 ^ 32 - 1) / 2 ^ 32
        let ph := s.fld Reg.TIM_STRIKE_PHASE.NS % p
        ofNs (ns + (ph + p - ns % p) % p)
      else s.cycleAt soon
    s.modTime (fun t => { t with next := some at_ })

/-- RUN has changed from 1 to 0: no further strike falls and no entry fires; the strike in force stays (R342, R347). (DEDUCED: log 76) -/
def State.runStop (s : State) : State :=
  (s.setFld Reg.TIM_BAR_STATUS.STATE 0).modTime (fun t => { t with next := none, phase := none })

/-! ### Strike marks (R346, R347) -/

/-- Ports of a master that lead to the followers: every port that is up. (DEDUCED: log 73) -/
def State.followerPorts (s : State) : List Nat := (List.range 4).filter s.linkUp

/-- Send a mark of an offset (ns) into the strike on each follower's port (R346). (PRESUMED: log 74) -/
def State.sendMarks (s : State) (offset : Nat) : State :=
  if s.barRole = 1 then
    s.followerPorts.foldl (fun s q =>
      let d : DataUnit := ⟨padTo 32 (leBytes 4 s.time.period ++ leBytes 4 offset), false⟩
      s.linkSend q (s.mkCtl q 0x10 s.strikeTime s.strikeNo [d])) s
  else s

/-- STRIKE_MARK_TIMER (R346): the next whole millisecond of device time into the current strike, if it lies before the next strike. -/
def execStrikeMarkTimer (s : State) : Host.Outcome State Fault Refusal :=
  .next (if s.barRole != 1 || !s.time.live then s
    else
      let k := (s.now - s.time.strikeAt) / ofNs 1000000 + 1
      let due := s.time.strikeAt + k * ofNs 1000000
      if (s.time.next.getD 0) ≤ due then s else (s.reachFrac due).sendMarks (1000000 * k))

/-- Difference of two times folded into half a period either way. -/
def foldPhase (d p : Int) : Int := if p = 0 then d else let r := d % p; if p < 2 * r then r - p else r

/-- The barrier faults of group 0x40. -/
def State.barFault (s : State) : State := s.fault 0x40 (s.fld Reg.TIM_BAR_CTL.PORT) false none none

/-- Phase error of a follower against a mark whose strike fell at `master`, both in 0.25 ns: of the strikes that bound the follower's interval the nearer
one counts; before its first strike its own phase does, within half a period. (DESIGN CHOICE: log 72) -/
def State.phaseError (s : State) (own : Nat) (master : Int) (p : Nat) : Int :=
  let at_ (t : Int) : Int := t / 2 ^ 30 - master
  let last := at_ ((own : Int) - s.time.period * 2 ^ 32)
  if s.time.live then (if last.natAbs ≤ (at_ own).natAbs then last else at_ own) else foldPhase (at_ own) (4 * p)

/-- A mark that is used (R347). Phases are counted in 0.25 ns; the mark is stamped with 0.5 ns resolution (R346). (DESIGN CHOICE: log 72) -/
def State.useMark (s : State) (m : MarkMsg) : State :=
  let p : Nat := m.period.toNat
  let port := s.fld Reg.TIM_BAR_CTL.PORT
  let st := s.fld Reg.TIM_BAR_STATUS.STATE
  let master : Int := 2 * ((s.now / 2 ^ 31 : Nat) : Int) - s.fld (Reg.NLK_PORT_STATUS.LINK_DELAY port) - 4 * m.offset.toNat
  -- an unstruck follower's phase is its own: a free value until the first mark has moved it
  let (s, own) : State × Nat := match s.time.next with
    | some t => (s, t)
    | none => match s.time.phase with
      | some t => (s, t)
      | none => let (s, k) := s.free; (s, ofNs (k % max 1 p))
  let err := s.phaseError own master p
  let most : Int := 4 * s.fld Reg.TIM_BAR_CTL.TRIM_MAX
  -- the interval in progress takes the period that its own strike's mark carries
  let mine := s.time.live && m.strikeNo.toNat == s.strikeNo
  let longer : Int := if mine then (p : Int) - s.time.period else 0
  let moved := ((own : Int) + longer * 2 ^ 32 - clampInt (-most) most err * 2 ^ 30).toNat
  let (s, shown) := s.openQuotient err 4
  let s := s.setFld Reg.TIM_BAR_STATUS.ERR (unsign 16 (clampInt (-32767) 32767 shown))
  let errors := (s.time.errors ++ [err]).drop (s.time.errors.length + 1 - 8)
  let near := decide (-8 ≤ err ∧ err ≤ 8)
  let goodMarks := if near then s.time.goodMarks + 1 else 0
  let struck := s.time.live
  let s := s.modTime (fun t => { t with
    next := if t.next.isSome then some moved else none, phase := if t.next.isSome then none else some moved
    period := if mine then p else t.period, errors := errors
    rateTrim := if errors.length = 8 then Config.strikeRate errors.sum else 0
    goodMarks := goodMarks, lastMark := s.nowNs, markPeriod := p })
  let differs := (st == 3 || st == 4) && struck && m.strikeNo.toNat != s.strikeNo
  let s := if differs && !s.time.barred then
      ((s.modTime (fun t => { t with barred := true })).timEvent 8).barFault
    else s
  if 64 ≤ goodMarks && st != 2 && !s.time.barred then
    let s := (s.setFld Reg.TIM_BAR_STATUS.STATE 2).timEvent 6
    if s.time.next.isSome then s
    else
      let base := (master * 2 ^ 30).toNat
      let pf := ofNs (max 1 p)
      let n := (s.now - base) / pf + 1
      s.modTime (fun t => { t with next := some (base + n * pf), nextNum := (m.strikeNo.toNat + n) % 2 ^ 32, phase := none })
  else s

/-- STRIKE_MARK (R347): a mark reaches a follower on the port named in TIM_BAR_CTL. -/
def execStrikeMark (q : Fin 4) (m : MarkMsg) (s : State) : Host.Outcome State Fault Refusal :=
  .next (if s.barRole != 2 || s.fld Reg.TIM_BAR_CTL.PORT != q.val || !s.flag Reg.TIM_STRIKE_CTL.RUN || s.inParked then s
    else if m.retried then s.count Reg.TIM_ERR.MISSED_MARK_CNT 1
    else s.useMark m)

/-- MARK_COAST_TIMEOUT (R347): no used mark for 4 ms. -/
def execMarkCoastTimeout (s : State) : Host.Outcome State Fault Refusal :=
  .next (if s.fld Reg.TIM_BAR_STATUS.STATE != 2 then s
    else ((s.expire (s.time.lastMark + 4000000)).setFld Reg.TIM_BAR_STATUS.STATE 3).modTime (fun t => { t with goodMarks := 0 }))

/-- MARK_LOST_TIMEOUT (R347): no used mark for 32 ms. -/
def execMarkLostTimeout (s : State) : Host.Outcome State Fault Refusal :=
  .next (if s.fld Reg.TIM_BAR_STATUS.STATE != 2 && s.fld Reg.TIM_BAR_STATUS.STATE != 3 then s
    else
      let s := ((s.expire (s.time.lastMark + 32000000)).setFld Reg.TIM_BAR_STATUS.STATE 4).modTime (fun t =>
        { t with goodMarks := 0 })
      (s.timEvent 7).barFault)

/-! ### Barriers (R349) -/

/-- Modules named by a mask. -/
def maskModules (m : Nat) : List Nat := (List.range 4).filter (bitAt m)

/-- The RELEASE for this module: it names the strike at which its BARRIER completes, or the next one. -/
def State.takeRelease (s : State) (id : Nat) (strike : Option Nat) : State :=
  if s.jobs.any (fun j => match j.kind with | .barrier b _ => b == id | _ => false) then
    s.modTime (fun t => { t with release := some (id, strike) })
  else s

/-- Number of the strike that falls next, or will when RUN is set. -/
def State.comingStrike (s : State) : Nat :=
  if s.flag Reg.TIM_STRIKE_CTL.RUN then s.time.nextNum else s.fld Reg.TIM_STRIKE_START.NUM

/-- Send RELEASE to one module. -/
def State.sendRelease (s : State) (id strike module : Nat) : State :=
  if module = s.module then s.takeRelease id (some strike)
  else match s.routeTo module with
    | some q => s.linkSend q (s.mkCtl q 0x12 id strike)
    | none => s

/-- The master takes the ARRIVE of a module, and releases when every module named by any ARRIVE for the ID has arrived with it: R is the strike after
the coming one, the current number plus 2. (DEDUCED: log 77) -/
def State.takeArrive (s : State) (module id mask : Nat) : State :=
  let arr := SMap.insert s.time.arrivals module (id, mask ||| 2 ^ module)
  let s := s.modTime (fun t => { t with arrivals := arr })
  let mine := arr.filter (fun e => e.2.1 == id)
  let named := maskModules (mine.foldl (fun m e => m ||| e.2.2) 0)
  if named.all (fun x => mine.any (fun e => e.1 == x)) then
    let r := (s.comingStrike + 1) % 2 ^ 32
    let s := s.modTime (fun t => { t with arrivals := t.arrivals.filter (fun e => e.2.1 != id) })
    named.foldl (fun s x => s.sendRelease id r x) s
  else s

/-- ARRIVE (R349): at the master, from a module of the group. -/
def execArrive (module : Fin 4) (id : Word) (mask : BitVec 4) (s : State) : Host.Outcome State Fault Refusal :=
  .next (if s.barRole != 1 then s else s.takeArrive module id.toNat mask.toNat)

/-- RELEASE (R349). -/
def execRelease (id strike : Word) (s : State) : Host.Outcome State Fault Refusal :=
  .next (s.takeRelease id.toNat (some strike.toNat))

/-- BARRIER (R306, R349): one at a time; its ARRIVE goes to the master. (DEDUCED: log 77) -/
def execBarrier (c : Fin 16) (r : Fin 8) (s : State) : Host.Outcome State Fault Refusal :=
  .next (if s.jobs.any (fun j => match j.kind with | .barrier _ _ => true | _ => false) then s
    else s.takeDesc c r 6 (fun s d =>
      let id := fieldAt d 8 4
      let mask := bits (fieldAt d 12 1) 0 4 ||| 2 ^ s.module
      let j := s.jobOf c r d (.barrier id mask)
      let s := (s.accept { j with launchStrike := some s.strikeNo, launchTime := s.nowNs }).modTime (fun t => { t with release := none })
      match s.barRole with
      | 0 => if mask = 2 ^ s.module then s.takeRelease id none else s
      | 1 => s.takeArrive s.module id mask
      | _ =>
        let q := s.fld Reg.TIM_BAR_CTL.PORT
        s.linkSend q (s.mkCtl q 0x11 id mask)))

end Sys2Proof.Machine
end

