-- ==== Sys2Proof/Machine/Flags.lean ====
section
/-! DEFINITION. Status of the units that run lists: events, refusals, fences, signature windows, golden outcomes (R95, R110, R131, R132, R412, R413). -/

namespace Sys2Proof.Machine

/-- HIC source of a unit: its mask bit of R344. -/
def unitSource (u : Nat) : Nat := u

/-- Set a bit of a unit's EVT_STATUS (R100, R200, R231). -/
def State.unitEvent (s : State) (u i : Nat) : State := s.event ⟨unitBase u + 0x50, i, 1⟩ (unitSource u)

/-- Group and instance of a unit's refusals (R398). -/
def refuseGroup (u : Nat) : Nat := if u < 64 then 0x04 else if u < 68 then 0x13 else 0x1B
def refuseInst (u : Nat) : Nat := if u < 64 then u else if u < 68 then u - 64 else unitCode u
/-- Group of a unit's golden failures and GOLD mismatches. -/
def goldGroup (u : Nat) : Nat := if u < 64 then 0x06 else if u < 68 then 0x12 else 0x1A
/-- Group of a launch overrun (R106). -/
def overrunGroup (u : Nat) : Nat := if u < 64 then 0x05 else refuseGroup u

/-- Class of a fault of the work a unit holds: S for PAIRED or SUPERVISED work in DRIVE, N otherwise. -/
def State.workClass (s : State) (safety : Bool) : Nat := if safety && s.inDrive then 2 else 1

/-! ### Pairs that end (R96) -/

/-- A member leaves a paired pair at once: it is UNPAIRED, the survivor reads SPLITTING until the boundary, and the pair forms again only on
a new request. A pair that is not yet paired is simply UNPAIRED. -/
def State.leavePair (s : State) (u : Nat) : State :=
  let st := s.fld (unitPairState u)
  if st = 0 then s
  else
    let s := s.setFld (unitPairState u) 0
    if st = 1 ∨ st = 3 then { s.setFld (unitPairState (partner u)) 3 with pairBar := setInsert s.pairBar (u - u % 2) }
    else s.setFld (unitPairState (partner u)) 0

/-! ### Fencing (R412, R413) -/

/-- Fence a unit for a cause: KIND 2 report, its work stops with status FAULT, its pair ends, adaptive splits over it are cut anew. (DEDUCED: log 80) -/
def State.fenceUnit (s : State) (u cause : Nat) : State :=
  let s := (s.setFld (unitFence u) 1).setFld (unitFenced u) 1
  let s := ((s.logWrite 2 0xFF 0xFF 0 (unitCode u) 0 cause 0).fclEvent 2).evrCounter 10
  let s := (s.leavePair u).recutSplits u
  if s.flag (unitBusy u) then s.stopWith u 8 false else s

/-! ### Signature windows (R95, R131, R359 to R361) -/

/-- Comparator slot of a unit (R359). -/
def slotOf (u : Nat) : Nat := u / 2

/-- Bytes of a record of R95. -/
def sigRecord (m n slot format mid value tail : Nat) : List Byte :=
  leBytes 2 m ++ leBytes 2 n ++ leBytes 1 slot ++ leBytes 1 format ++ leBytes 2 mid ++ leBytes 4 value ++ leBytes 4 tail

/-- Feed a record to the open window. -/
def State.emit (s : State) (u : Nat) (rec : List Byte) : State :=
  s.modUnit u (fun x => match x.sig with
    | some (w, v) => { x with sig := some (w, v ^^^ crc64Ecma rec) }
    | none => x)

/-- Latch the signature of the open window, count it, and answer it (R95). -/
def State.latchSig (s : State) (u : Nat) : State × Nat × Nat :=
  match (s.unit u).sig with
  | none => (s, 0, 0)
  | some (w, v) =>
    let s := (s.wr64 (unitSig u) v).wrapAdd (unitSigSeq u) 1
    (s.modUnit u (fun x => { x with sig := none }), w, v)

/-- Close the open window and send the signature to the comparator: slots compare real closes of paired units only (R131, R359). -/
def State.closeWindow (s : State) (u : Nat) : State :=
  if (s.unit u).sig.isNone then s
  else
    let (s, w, v) := s.latchSig u
    let x := s.unit u
    let s := s.modUnit u (fun x => { x with closed := x.closed + 1 })
    if s.isPaired u && !s.flag (unitFence u) then
      let s := match x.job with
        | some id => s.modJob id (fun j => { j with openWindows := j.openWindows + 1 })
        | none => s
      { s with cmp := { s.cmp with wires := SMap.modify s.cmp.wires u [] (fun l => l ++ [⟨w, v, s.strikeNo, x.closed, x.job⟩]) } }
    else s

/-- A SIG close, or the close at a list's end: the comparison of a paired unit's window must settle before its job's record is written (R362). -/
def State.sigClose (s : State) (u : Nat) : State := s.closeWindow u

/-! ### Golden outcomes (R132, R197, R230, R370) -/

/-- A golden run of a privileged unit failed (R197): FAIL, GOLD_FAIL; class S in DRIVE, otherwise class C and the unit fences itself. -/
def State.goldenFailed (s : State) (u : Nat) : State :=
  let failBit : FRef := if u < 68 then ⟨unitBase u + 0xBC, 1, 1⟩ else ⟨unitBase u + 0xB8, 1, 1⟩
  let s := (s.setFld failBit 1).unitEvent u 5
  let s := s.modUnit u (fun x => { x with goldTried := true })
  let s := s.fault (goldGroup u) (refuseInst u) false (some 0) (some (unitCode u))
  if s.inDrive then s else s.fenceUnit u 2

/-- GOLD (R132): close without the comparator, compare. -/
def State.goldCompare (s : State) (u expect : Nat) : State :=
  let (s, _, v) := s.latchSig u
  if (s.unit u).goldRun then
    if v = expect then s else s.goldenFailed u
  else
    let s := s.modUnit u (fun x => if v = expect then { x with goldTried := true, goldOk := x.goldOk || u < 64 } else { x with goldTried := true })
    if v = expect then s
    else if s.workClass (s.unit u).safety = 1 then
      (s.harm u).report ⟨goldGroup u, refuseInst u, 1, some (s.unit u).ctx, some (unitCode u), 0, 0⟩
    else s.report ⟨goldGroup u, refuseInst u, 2, some (s.unit u).ctx, some (unitCode u), 0, 0⟩

/-! ### Poison that a list consumes (R242) -/

/-- The first consumption of poison by the job of a unit is a class N fault of its context. (DEDUCED: log 174) -/
def State.eat (s : State) (u addr : Nat) : State :=
  let x := s.unit u
  let before : Bool := match x.job with
    | some id => ((s.jobById id).map (·.ate)).getD false
    | none => x.ate
  let s := s.modUnit u (fun x => { x with ate := true })
  let s := match x.job with
    | some id => s.modJob id (fun j => { j with ate := true })
    | none => s
  if before then s else s.consumed (unitCode u) x.ctx addr

/-- The same, where `p` says that poison was consumed. -/
def State.eatIf (s : State) (u addr : Nat) (p : Bool) : State := if p then s.eat u addr else s

end Sys2Proof.Machine
end

