-- ==== Sys2Proof/Machine/Numbers.lean ====
section
/-! DEFINITION. Number formats, rounding, conversion and FP32 arithmetic (R44 to R62, R148). -/

namespace Sys2Proof.Machine

/-- An exact value: finite `(-1)^neg × m × 2^e`, an infinity, or NaN. -/
inductive Num where
  | fin (neg : Bool) (m : Nat) (e : Int)
  | inf (neg : Bool)
  | nan
  deriving DecidableEq, Repr

/-- Format codes of R44. -/
def fmtInt4 : Nat := 0x0
def fmtInt8 : Nat := 0x1
def fmtE4M3 : Nat := 0x2
def fmtE5M2 : Nat := 0x3
def fmtFp16 : Nat := 0x4
def fmtBf16 : Nat := 0x5
def fmtFp32 : Nat := 0x6
def fmtZb4 : Nat := 0x7
def fmtZb8 : Nat := 0x8
def fmtInt32 : Nat := 0x9

/-- Element width in bits (R44). -/
def fmtBits (f : Nat) : Nat :=
  if f = fmtInt4 ∨ f = fmtZb4 then 4
  else if f = fmtFp16 ∨ f = fmtBf16 then 16
  else if f = fmtFp32 ∨ f = fmtInt32 then 32
  else 8

/-- Exponent bits, fraction bits and bias of a floating-point format (R46). -/
def fpShape (f : Nat) : Nat × Nat × Nat :=
  if f = fmtE4M3 then (4, 3, 7)
  else if f = fmtE5M2 then (5, 2, 15)
  else if f = fmtFp16 then (5, 10, 15)
  else if f = fmtBf16 then (8, 7, 127)
  else (8, 23, 127)

def isFp (f : Nat) : Bool := 2 ≤ f && f ≤ 6
def isZb (f : Nat) : Bool := f == 7 || f == 8
def isIntFmt (f : Nat) : Bool := f == 0 || f == 1 || f == 9

/-- Bytes of `n` packed elements (R45, R48). -/
def rowBytes (f n : Nat) : Nat := (n * fmtBits f + 7) / 8

/-- Canonical NaN (R46, R47). -/
def nanCode (f : Nat) : Nat :=
  let (eb, fb, _) := fpShape f
  if f = fmtE4M3 then 0x7F else (2 ^ eb - 1) * 2 ^ fb + 2 ^ (fb - 1)

/-- Value of a floating-point code (R46, R47). -/
def fpDecode (f v : Nat) : Num :=
  let (eb, fb, bias) := fpShape f
  let neg := bitAt v (eb + fb)
  let e := bits v fb eb
  let m := bits v 0 fb
  if e = 2 ^ eb - 1 then
    if f = fmtE4M3 then (if m = 7 then .nan else .fin neg (m + 8) ((e : Int) - bias - 3))
    else if m = 0 then .inf neg else .nan
  else if e = 0 then .fin neg m (1 - (bias : Int) - fb)
  else .fin neg (m + 2 ^ fb) ((e : Int) - bias - fb)

/-- Value of an integer. -/
def Num.ofInt (x : Int) : Num := .fin (decide (x < 0)) x.natAbs 0

/-- Value of an element code of any operand or stream format; a ZB element by itself is its integer. -/
def decode (f v : Nat) : Num := if isFp f then fpDecode f v else .ofInt (signed (fmtBits f) v)

def Num.isZero : Num → Bool | .fin _ 0 _ => true | _ => false
def Num.isNan : Num → Bool | .nan => true | _ => false
def Num.negative : Num → Bool | .fin n _ _ => n | .inf n => n | .nan => false

/-- The signed significand and exponent of a finite value. -/
def Num.sig : Num → Int | .fin n m _ => if n then -(m : Int) else m | _ => 0
def Num.exp : Num → Int | .fin _ _ e => e | _ => 0

def Num.negate : Num → Num | .fin n m e => .fin (!n) m e | .inf n => .inf (!n) | .nan => .nan

/-- Exact product. -/
def Num.mul : Num → Num → Num
  | .nan, _ | _, .nan => .nan
  | .inf a, .inf b => .inf (a != b)
  | .inf a, .fin b m _ => if m = 0 then .nan else .inf (a != b)
  | .fin a m _, .inf b => if m = 0 then .nan else .inf (a != b)
  | .fin a m e, .fin b n f => .fin (a != b) (m * n) (e + f)

/-- Exact sum with the sign of a zero sum under round to nearest. -/
def Num.add : Num → Num → Num
  | .nan, _ | _, .nan => .nan
  | .inf a, .inf b => if a = b then .inf a else .nan
  | .inf a, .fin _ _ _ => .inf a
  | .fin _ _ _, .inf b => .inf b
  | .fin a m e, .fin b n f =>
    let lo := min e f
    let x := (if a then -1 else 1 : Int) * (m * 2 ^ (e - lo).toNat : Nat)
    let y := (if b then -1 else 1 : Int) * (n * 2 ^ (f - lo).toNat : Nat)
    let s := x + y
    if s = 0 then .fin (a && b) 0 lo else .fin (decide (s < 0)) s.natAbs lo

/-- Order of two values that are not NaN: less than. -/
def Num.lt : Num → Num → Bool
  | .nan, _ | _, .nan => false
  | .inf a, .inf b => a && !b
  | .inf a, .fin _ _ _ => a
  | .fin _ _ _, .inf b => !b
  | .fin a m e, .fin b n f =>
    let lo := min e f
    let x := (if a then -1 else 1 : Int) * (m * 2 ^ (e - lo).toNat : Nat)
    let y := (if b then -1 else 1 : Int) * (n * 2 ^ (f - lo).toNat : Nat)
    decide (x < y)

/-! ### Rounding (R59, R60, R61) -/

/-- Round `num / den` (a magnitude with a sign) by an RMODE: 0 RNE, 1 RNA, 2 RTZ, 3 RDN, 4 RUP. -/
def roundMag (rm : Nat) (neg : Bool) (num den : Nat) : Nat :=
  let q := num / den
  let r := num % den
  if r = 0 then q
  else
    match rm with
    | 0 => if 2 * r < den then q else if den < 2 * r then q + 1 else q + q % 2
    | 1 => if 2 * r < den then q else q + 1
    | 3 => if neg then q + 1 else q
    | 4 => if neg then q else q + 1
    | _ => q

/-- Round `m × 2^e` to a whole number of units `2^q`. -/
def roundUnits (rm : Nat) (neg : Bool) (m : Nat) (e q : Int) : Nat :=
  if q ≤ e then m * 2 ^ (e - q).toNat else roundMag rm neg m (2 ^ (q - e).toNat)

/-- Largest finite code of a format, without its sign. -/
def maxFinite (f : Nat) : Nat :=
  let (eb, fb, _) := fpShape f
  if f = fmtE4M3 then 0x7E else (2 ^ eb - 1) * 2 ^ fb - 1

/-- Convert to a floating-point format (R60). -/
def fpEncode (f rm : Nat) (sat : Bool) (x : Num) : Nat :=
  let (eb, fb, bias) := fpShape f
  let sbit (neg : Bool) : Nat := if neg then 2 ^ (eb + fb) else 0
  let infCode (neg : Bool) : Nat := if f = fmtE4M3 then 0x7F else sbit neg + (2 ^ eb - 1) * 2 ^ fb
  match x with
  | .nan => nanCode f
  | .inf neg => if sat then sbit neg + maxFinite f else infCode neg
  | .fin neg 0 _ => sbit neg
  | .fin neg m e =>
    let top : Int := (Nat.log2 m : Int) + e
    let emin : Int := 1 - (bias : Int)
    let q : Int := max top emin - fb
    let r := roundUnits rm neg m e q
    -- r is below 2^(fb+1), or equal to it after a carry
    let (r, q) := if r = 2 ^ (fb + 1) then (2 ^ fb, q + 1) else (r, q)
    let code : Nat := if r < 2 ^ fb then r else (q + fb + bias).toNat * 2 ^ fb + (r - 2 ^ fb)
    if code ≤ maxFinite f then sbit neg + code
    else if sat then sbit neg + maxFinite f
    else if rm = 2 ∨ (rm = 3 ∧ !neg) ∨ (rm = 4 ∧ neg) then sbit neg + maxFinite f
    else infCode neg

/-- Range of an integer format. -/
def intRange (f : Nat) : Int × Int :=
  let w := fmtBits f
  (-(2 ^ (w - 1) : Nat), (2 ^ (w - 1) : Nat) - 1)

/-- Round a finite value to an integer. -/
def Num.round (rm : Nat) : Num → Int
  | .fin neg m e => let r : Int := roundUnits rm neg m e 0; if neg then -r else r
  | _ => 0

/-- Convert to an integer format: round, then saturate; infinities give the ends, NaN gives 0 (R61). -/
def intEncode (f rm : Nat) (x : Num) : Nat :=
  let (lo, hi) := intRange f
  let v := match x with
    | .nan => 0
    | .inf neg => if neg then lo else hi
    | x => clampInt lo hi (x.round rm)
  unsign (fmtBits f) v

/-- Convert to a format that is not a ZB format (R60, R61). -/
def encode (f rm : Nat) (sat : Bool) (x : Num) : Nat := if isFp f then fpEncode f rm sat x else intEncode f rm x

/-! ### FP32 arithmetic with RNE (R57, R58, R144, R148) -/

def f32 (v : Nat) : Num := fpDecode fmtFp32 v
def toF32 (x : Num) : Nat := fpEncode fmtFp32 0 false x
def fadd (a b : Nat) : Nat := toF32 ((f32 a).add (f32 b))
def fsub (a b : Nat) : Nat := toF32 ((f32 a).add (f32 b).negate)
def fmul (a b : Nat) : Nat := toF32 ((f32 a).mul (f32 b))
def ffma (a b c : Nat) : Nat := toF32 (((f32 a).mul (f32 b)).add (f32 c))
def fneg (a : Nat) : Nat := toF32 (f32 a).negate
def fabs (a : Nat) : Nat := toF32 (match f32 a with | .fin _ m e => .fin false m e | .inf _ => .inf false | .nan => .nan)
def flt (a b : Nat) : Bool := (f32 a).lt (f32 b)
def fnan (a : Nat) : Bool := (f32 a).isNan
def fle (a b : Nat) : Bool := !fnan a && !fnan b && !flt b a

/-- Correctly rounded quotient. -/
def fdiv (a b : Nat) : Nat :=
  match f32 a, f32 b with
  | .nan, _ | _, .nan => nanCode fmtFp32
  | .inf _, .inf _ => nanCode fmtFp32
  | .inf x, .fin y _ _ => toF32 (.inf (x != y))
  | .fin x _ _, .inf y => toF32 (.fin (x != y) 0 0)
  | .fin x m e, .fin y n f =>
    if n = 0 then (if m = 0 then nanCode fmtFp32 else toF32 (.inf (x != y)))
    else
      -- 60 quotient bits and a sticky bit decide every rounding to 24 bits
      let q := m * 2 ^ 60 / n
      let sticky := if m * 2 ^ 60 % n = 0 then 0 else 1
      toF32 (.fin (x != y) (2 * q + sticky) (e - f - 61))

/-- Correctly rounded square root; the root of −0 is −0, of a negative value NaN. -/
def fsqrt (a : Nat) : Nat :=
  match f32 a with
  | .nan => nanCode fmtFp32
  | .inf neg => if neg then nanCode fmtFp32 else a
  | .fin neg 0 _ => toF32 (.fin neg 0 0)
  | .fin true _ _ => nanCode fmtFp32
  | .fin false m e =>
    let m' := if e % 2 = 0 then m * 2 ^ 60 else m * 2 ^ 61
    let e' : Int := if e % 2 = 0 then e - 60 else e - 61
    let r := Nat.sqrt m'
    let sticky := if r * r = m' then 0 else 1
    toF32 (.fin false (2 * r + sticky) (e' / 2 - 1))

/-- Largest whole number not above an FP32 value, and the value itself, for finite values. -/
def ffloor (x : Num) : Int := x.round 3

/-! ### exp2z and activations (R148) -/

def exp2Table : List Nat := [
  0x3f800000, 0x3f8164d2, 0x3f82cd87, 0x3f843a29, 0x3f85aac3, 0x3f871f62, 0x3f88980f, 0x3f8a14d5,
  0x3f8b95c2, 0x3f8d1adf, 0x3f8ea43a, 0x3f9031dc, 0x3f91c3d3, 0x3f935a2b, 0x3f94f4f0, 0x3f96942d,
  0x3f9837f0, 0x3f99e046, 0x3f9b8d3a, 0x3f9d3eda, 0x3f9ef532, 0x3fa0b051, 0x3fa27043, 0x3fa43516,
  0x3fa5fed7, 0x3fa7cd94, 0x3fa9a15b, 0x3fab7a3a, 0x3fad583f, 0x3faf3b79, 0x3fb123f6, 0x3fb311c4,
  0x3fb504f3, 0x3fb6fd92, 0x3fb8fbaf, 0x3fbaff5b, 0x3fbd08a4, 0x3fbf179a, 0x3fc12c4d, 0x3fc346cd,
  0x3fc5672a, 0x3fc78d75, 0x3fc9b9be, 0x3fcbec15, 0x3fce248c, 0x3fd06334, 0x3fd2a81e, 0x3fd4f35b,
  0x3fd744fd, 0x3fd99d16, 0x3fdbfbb8, 0x3fde60f5, 0x3fe0ccdf, 0x3fe33f89, 0x3fe5b907, 0x3fe8396a,
  0x3feac0c7, 0x3fed4f30, 0x3fefe4ba, 0x3ff28177, 0x3ff5257d, 0x3ff7d0df, 0x3ffa83b3, 0x3ffd3e0c]

def fOne : Nat := 0x3F800000
def fNan : Nat := 0x7FC00000
def fInf : Nat := 0x7F800000
def fNegInf : Nat := 0xFF800000

/-- Multiply by a power of two with one rounding. (DEDUCED: log 13) -/
def ldexpRne (x : Nat) (k : Int) : Nat :=
  match f32 x with
  | .fin n m e => toF32 (.fin n m (e + k))
  | y => toF32 y

/-- exp2z of R148: i, f, j and r are exact. -/
def exp2z (y : Nat) : Nat :=
  match f32 y with
  | .nan => fNan
  | .inf neg => if neg then 0 else fInf
  | v =>
    if !v.lt (.ofInt 128) then fInf
    else if v.lt (.ofInt (-150)) then 0
    else
      let i := ffloor v
      let f := v.add (Num.ofInt i).negate
      let j := ffloor (f.mul (.ofInt 64))
      let r := f.add (Num.fin true j.toNat (-6))
      let t := exp2Table.getD j.toNat fOne
      let p := toF32 (((f32 0x3d635847).mul r).add (f32 0x3e75fdf0))
      let p := toF32 (((f32 p).mul r).add (f32 0x3f317218))
      let p := toF32 ((f32 p).mul r)
      ldexpRne (ffma t p t) i

/-- ex of R148. -/
def fex (x : Nat) : Nat := exp2z (fmul x 0x3fb8aa3b)

/-- sig of R148. -/
def fsig (x : Nat) : Nat := fdiv fOne (fadd fOne (fex (fneg x)))

/-- Activation codes of R148 with parameters P0 and P1. -/
def act (code p0 p1 x : Nat) : Nat :=
  if fnan x then fNan
  else
    match code with
    | 1 => if flt 0 x then x else 0
    | 2 => if flt x p0 then p0 else if flt p1 x then p1 else x
    | 3 => if fle 0 x then x else fmul p0 x
    | 4 => fsig x
    | 5 => if flt (fabs x) 0x39800000 then x else fsub (fmul 0x40000000 (fsig (fmul 0x40000000 x))) fOne
    | 6 => if x = fInf then fInf else if x = fNegInf then 0 else fmul x (fsig x)
    | 7 =>
      if x = fInf then fInf else if x = fNegInf then 0
      else
        let z := fmul 0x3fcc422a (ffma (fmul 0x3d372713 (fmul x x)) x x)
        fmul x (fsig z)
    | 8 => fex x
    | _ => x

/-! ### ZB blocks (R48 to R50) -/

/-- Exponent of the largest magnitude: 2^m ≤ |v| < 2^(m+1). -/
def Num.top : Num → Int
  | .fin _ m e => (Nat.log2 m : Int) + e
  | _ => 0

/-- Quantise up to 32 exact values (R50): the exponent byte and the element codes. -/
def zbQuantise (f rm : Nat) (vs : List Num) : Nat × List Nat :=
  let w := fmtBits f
  let bad := vs.any (fun v => match v with | .fin _ _ _ => false | _ => true)
  if bad then (0xFF, vs.map (fun _ => 0))
  else
    match vs.filter (fun v => !v.isZero) with
    | [] => (0, vs.map (fun _ => 0))
    | v :: rest =>
      let m := rest.foldl (fun m x => max m x.top) v.top
      let x := clampInt 1 254 (m - (if w = 4 then 2 else 6) + 127)
      let lim : Int := if w = 4 then 7 else 127
      (x.toNat, vs.map (fun v => unsign w (clampInt (-lim) lim ((match v with
        | .fin n k e => Num.fin n k (e + 127 - x)
        | y => y).round rm))))

end Sys2Proof.Machine
end

