-- ==== Sys2Proof/Machine/Operands.lean ====
section
/-! DEFINITION. Operand fields of list instructions (R109, R114, R120, R123 to R133): every form, read once. -/

namespace Sys2Proof.Machine

/-- An instruction of 32 bytes (R109). -/
abbrev Ins := List Byte

/-- Byte `i`. -/
def insB (d : Ins) (i : Nat) : Nat := fieldAt d i 1
/-- Little-endian halfword, word, 40-bit and 64-bit fields at byte `i`. -/
def insH (d : Ins) (i : Nat) : Nat := fieldAt d i 2
def insW (d : Ins) (i : Nat) : Nat := fieldAt d i 4
def insA (d : Ins) (i : Nat) : Nat := fieldAt d i 5
def insQ (d : Ins) (i : Nat) : Nat := fieldAt d i 8
/-- Bits of byte `i`. -/
def insBits (d : Ins) (i lsb w : Nat) : Nat := bits (insB d i) lsb w
def insFlag (d : Ins) (i lsb : Nat) : Bool := bitAt (insB d i) lsb

def insVersion (d : Ins) : Nat := insB d 0
def insOp (d : Ins) : Nat := insB d 1

/-! ### MMA and MMA.P (R114) -/

def mmaV (d : Ins) : Bool := insFlag d 2 7
def mmaHold (d : Ins) : Bool := insFlag d 2 6
def mmaTA (d : Ins) : Bool := insFlag d 2 5
def mmaTB (d : Ins) : Bool := insFlag d 2 4
def mmaG (d : Ins) : Nat := 2 ^ insBits d 3 3 2
def mmaBase (d : Ins) : Nat := insBits d 3 0 3
def mmaM (d : Ins) : Nat := insH d 4
def mmaN (d : Ins) : Nat := insH d 6
def mmaK (d : Ins) : Nat := insH d 8
def mmaFmtB (d : Ins) : Nat := insBits d 10 4 4
def mmaFmtA (d : Ins) : Nat := insBits d 10 0 4
def mmaAcc (d : Ins) : Nat := insBits d 11 6 2
def mmaSmode (d : Ins) : Nat := insBits d 11 4 2
def mmaFmtC (d : Ins) : Nat := insBits d 11 0 4
def mmaExport (d : Ins) : Nat := bits (insH d 12) 13 2
def mmaSat (d : Ins) : Bool := bitAt (insH d 12) 12
def mmaRmode (d : Ins) : Nat := bits (insH d 12) 9 3
def mmaZanchor (d : Ins) : Int := signed 9 (insH d 12)
def mmaAOff (d : Ins) : Nat := insH d 14
def mmaBOff (d : Ins) : Nat := insH d 16
def mmaCOff (d : Ins) : Nat := insH d 18
def mmaAStride (d : Ins) : Nat := insH d 20
def mmaBStride (d : Ins) : Nat := insH d 22
def mmaCStride (d : Ins) : Nat := insH d 24
def mmaAux (d : Ins) : Nat := insH d 26
def mmaProEn (d : Ins) : Bool := insFlag d 28 7
def mmaProSlot (d : Ins) : Nat := insBits d 28 4 3
def mmaEpiEn (d : Ins) : Bool := insFlag d 28 3
def mmaEpiSlot (d : Ins) : Nat := insBits d 28 0 3
def mmaPieces (d : Ins) : Nat := insB d 29
def mmaRecvSc (d : Ins) : Nat := insBits d 30 4 4
def mmaFmtBias (d : Ins) : Nat := insBits d 30 0 4

/-- RSVD bits of an MMA. -/
def mmaGrowth (d : Ins) : Bool := insBits d 2 0 4 != 0 || insBits d 3 5 3 != 0 || bitAt (insH d 12) 15 || insB d 31 != 0

/-- Number of output elements. -/
def mmaEmpty (d : Ins) : Bool := mmaM d == 0 || mmaN d == 0

/-- The BF16 pair, a ZB pair, an integer pair; the FP16 pair (R51). -/
def pairBf16 (a b : Nat) : Bool := a == 5 && b == 5
def pairZb (a b : Nat) : Bool := isZb a && isZb b
def pairInt (a b : Nat) : Bool := (a == 0 || a == 1) && (b == 0 || b == 1)
def pairFp8 (a b : Nat) : Bool := (a == 2 || a == 3) && (b == 2 || b == 3)
def pairFp16 (a b : Nat) : Bool := a == 4 && b == 4
def pairOk (a b : Nat) : Bool := pairInt a b || pairFp8 a b || pairZb a b || pairFp16 a b || pairBf16 a b

/-- KIND of an exact slot (R64). -/
def slotKind (a b : Nat) : Nat := if pairInt a b then 1 else if pairFp8 a b then 2 else if pairFp16 a b then 3 else 4

/-- K per chunk: 128 for the pairs of two 4-bit operands (R77). -/
def kChunk (a b : Nat) : Nat := if fmtBits a = 4 ∧ fmtBits b = 4 then 128 else 64

/-- The format of the operand that is stationary: B in WS, A in IS (R72). -/
def mmaStationary (d : Ins) : Nat := if mmaSmode d = 1 then mmaFmtA d else mmaFmtB d

/-- The stationary format that the problems of a pass share: none in OS (R72, R116). -/
def mmaShared (d : Ins) : Option Nat := if mmaSmode d = 2 then none else some (mmaStationary d)

/-- COLDIM and BLKDIM (R77). -/
def mmaColdim (d : Ins) : Nat := if mmaSmode d = 1 then mmaM d else mmaN d
def mmaBlkdim (d : Ins) : Nat := if mmaSmode d = 1 then mmaN d else mmaM d

/-- `n` rounded up to a power of two, at least 1. -/
def powerUp (n : Nat) : Nat := if n ≤ 1 then 1 else 2 ^ (Nat.log2 (n - 1) + 1)

/-- Version byte of the form that stands for an M2_MAC: it keeps the fold of R97. -/
def m2Version : Nat := 0x32

/-- Lanes per column tile and K-slices (R77); four and two in Marmer mode (R97). -/
def foldP (d : Ins) : Nat := if insVersion d = m2Version then 4 else min (mmaG d) (powerUp (ceilDiv (mmaColdim d) 16))
def foldS (d : Ins) : Nat := mmaG d / foldP d
def foldChunks (d : Ins) : Nat := ceilDiv (mmaK d) (kChunk (mmaFmtA d) (mmaFmtB d))
def foldTiles (d : Ins) : Nat := ceilDiv (mmaColdim d) (16 * foldP d)
def foldBlocks (d : Ins) : Nat := ceilDiv (mmaBlkdim d) 64
/-- Steps of one block. -/
def foldSteps (d : Ins) : Nat := ceilDiv (foldChunks d) (foldS d)

/-! ### Fusion slots (R145, R147) -/

def epiAff (d : Ins) : Nat := insBits d 4 6 2
def epiVec (d : Ins) : Nat := insBits d 4 4 2
def epiReq (d : Ins) : Bool := insFlag d 4 3
def epiNowrite (d : Ins) : Bool := insFlag d 4 2
def epiAct (d : Ins) : Nat := insBits d 5 4 4
def epiXfmt (d : Ins) : Nat := insBits d 5 0 4
def epiRes (d : Ins) : Bool := insFlag d 6 7
def epiGate (d : Ins) : Bool := insFlag d 6 6
def epiGsrc (d : Ins) : Bool := insFlag d 6 5
def epiGslot (d : Ins) : Nat := insBits d 6 2 3
def epiScale (d : Ins) : Nat := insW d 8
def epiBias (d : Ins) : Nat := insW d 12
def epiP0 (d : Ins) : Nat := insW d 16
def epiP1 (d : Ins) : Nat := insW d 20
def epiVOff (d : Ins) : Nat := insH d 24
def epiXOff (d : Ins) : Nat := insH d 26
def epiXStride (d : Ins) : Nat := insH d 28
def epiYOff (d : Ins) : Nat := insH d 30
def proPsat (d : Ins) : Bool := insFlag d 6 7
def proPrmode (d : Ins) : Nat := insBits d 6 4 3
def proQscale (d : Ins) : Nat := insW d 24
def proVOff (d : Ins) : Nat := insH d 28
def proWOff (d : Ins) : Nat := insH d 30

/-- Formats of streams and of stored A (R143, R147). -/
def streamFmt (f : Nat) : Bool := 2 ≤ f && f ≤ 6
def proIfmt (f : Nat) : Bool := f == 1 || (2 ≤ f && f ≤ 6)
def proOfmt (f : Nat) : Bool := f == 1 || (2 ≤ f && f ≤ 5)

end Sys2Proof.Machine
end

