-- ==== Sys2Proof/Machine/Store.lean ====
section
/-! DEFINITION. A sequencer's own billet store: the plane port, the write buffer and its forwarding (R101, R235, R237, R244, R245). -/

namespace Sys2Proof.Machine

/-- Bytes with the poison mark of their unit. -/
abbrev Cells := List (Byte × Bool)

/-- Bytes in one billet store. -/
def storeBytes : Nat := 0x200000

/-- Fabric address of a byte of an Anvil's store (R33). -/
def storeAt (n off : Nat) : Nat := 0x2100000000 + n * 0x400000 + off

/-- The requester that a unit is, with the context and generation of its list (R23, R102). -/
def State.unitReq (s : State) (u : Nat) : Req := ⟨unitCode u, (s.unit u).ctx, (s.unit u).gen⟩

/-- The Anvil waits: no clock is modelled, so the cycles counted are a free value (R244, R245). (DESIGN CHOICE: log 15) -/
def State.stalled (s : State) (n : Nat) : State :=
  let (s, w) := s.free
  s.count (Reg.ANV_STALL.CYCLES n) w

/-- A plane-port access, or a sequencer read, that collides (R235). -/
def State.planeCollision (s : State) (n off port : Nat) : State :=
  (s.collide n (bankOf off) port).chargeErr (s.unitReq n) (storeAt n off) .collision

/-- Spend the injection armed for the next plane-port write (R266). (DEDUCED: log 42) -/
def State.spendStore (s : State) (n unit : Nat) : State :=
  if s.arms.bsEcc.contains n then
    { s with damage := SMap.insert s.damage unit 2, arms := { s.arms with bsEcc := setErase s.arms.bsEcc n } }
  else s

/-- Write the valid bytes of one 32-byte half of a bank word, run by run; `fuel` bounds the runs. -/
def State.putRuns : Nat → Nat → SMap Byte → Bool → State → State
  | 0, _, _, _, s => s
  | k + 1, base, m, p, s =>
    match m with
    | [] => s
    | (o, _) :: _ =>
      let run := (List.range 32).takeWhile (fun i => (SMap.find? m (o + i)).isSome)
      let s := s.storeUnit (base + o) (run.map (fun i => SMap.getD m (o + i) 0)) p
      State.putRuns k base (m.filter (fun e => o + run.length ≤ e.1)) p s

/-- Write bytes of one bank word through the plane port (R235, R240, R244). -/
def State.planeWrite (s : State) (n : Nat) (e : WbEntry) : State :=
  let off := 64 * e.word
  if s.bankPort n (bankOf off) != 0 then s.planeCollision n off 0
  else
    let s := (List.range 2).foldl (fun s h =>
      State.putRuns 32 (storeAt n off) (e.bytes.filter (fun x => 32 * h ≤ x.1 && x.1 < 32 * h + 32)) (e.poison.contains h) s) s
    s.spendStore n (storeAt n off / 32 + ofBool (e.bytes.all (fun x => 32 ≤ x.1)))

/-- The oldest entry of the write buffer drains (R244). -/
def State.wbDrainOne (s : State) (n : Nat) : State :=
  match (s.anvil n).wb with
  | [] => s
  | e :: rest => (s.modAnvil n (fun x => { x with wb := rest })).planeWrite n e

/-- A bank word enters the write buffer; with all 32 entries full the oldest drains first, which is a stall (R244). -/
def State.wbPush (s : State) (n : Nat) (e : WbEntry) : State :=
  let s := if 32 ≤ (s.anvil n).wb.length then (s.wbDrainOne n).stalled n else s
  s.modAnvil n (fun x => { x with wb := x.wb ++ [e] })

/-- Contiguous bytes enter the write buffer, one entry for each bank word they touch. -/
def State.wbBytes (s : State) (n off : Nat) (bs : List Byte) (poison : Bool) : State :=
  (List.range (bs.length / 64 + 2)).foldl (fun s i =>
    let w := off / 64 + i
    let part : SMap Byte := (bs.zipIdx.filter (fun p => (off + p.2) / 64 == w)).map (fun p => ((off + p.2) % 64, p.1))
    if part.isEmpty then s
    else
      let marks := if poison then (List.range 2).filter (fun h => part.any (fun e => e.1 / 32 == h)) else []
      s.wbPush n ⟨w, part, marks⟩) s

/-- An entry holds some byte, or every byte, of `len` bytes at `o` of its word. -/
def WbEntry.touches (e : WbEntry) (o len : Nat) : Bool := e.bytes.any (fun x => o ≤ x.1 && x.1 < o + len)
def WbEntry.covers (e : WbEntry) (o len : Nat) : Bool := (List.range len).all (fun i => (SMap.find? e.bytes (o + i)).isSome)

/-- Drain in age order until no entry overlaps; `fuel` bounds the entries. -/
def State.wbSettle : Nat → Nat → Nat → Nat → State → State
  | 0, _, _, _, s => s
  | k + 1, n, off, len, s =>
    if (s.anvil n).wb.any (fun e => e.word == off / 64 && e.touches (off % 64) len) then
      State.wbSettle k n off len (s.wbDrainOne n)
    else s

/-- Stored bytes of one bank word, unit by unit, with their marks (R239). -/
def State.storedCells (s : State) (n off len : Nat) : State × Cells :=
  (unitPieces 4 (storeAt n off) len).foldl (fun (acc : State × Cells) p =>
    let (s, r) := acc.1.readStored p.1
    (s, acc.2 ++ ((r.bytes.drop (p.1 % 32)).take p.2).map (fun b => (b, r.poison)))) (s, [])

/-- One sequencer read within one bank word: `mover` for STORE and SEND source reads and fetches (R101, R235, R245). -/
def State.seqPiece (s : State) (n off len : Nat) (mover : Bool) : State × Cells :=
  let p := s.bankPort n (bankOf off)
  if !(p == 0 || (mover && p == 1)) then
    let (s, bs) := (s.planeCollision n off (if mover then 3 else 0)).freeBytes len
    (s, bs.map (fun x => (x, true)))
  else if p = 0 then
    let hits := (s.anvil n).wb.filter (fun e => e.word == off / 64 && e.touches (off % 64) len)
    match (hits.filter (fun e => e.covers (off % 64) len)).getLast? with
    | some e =>
      (s.count (Reg.ANV_WB_STATUS.FWD_CNT n) 1,
        (List.range len).map (fun i => (SMap.getD e.bytes (off % 64 + i) 0, e.poison.contains ((off % 64 + i) / 32))))
    | none =>
      let s := if hits.isEmpty then s else ((State.wbSettle 33 n off len s).count (Reg.ANV_WB_STATUS.WAIT_CNT n) 1).stalled n
      s.storedCells n off len
  else s.storedCells n off len

/-- Cut `len` bytes from `off` at bank words. -/
def wordPieces : Nat → Nat → Nat → List (Nat × Nat)
  | 0, _, _ => []
  | _, _, 0 => []
  | fuel + 1, off, len =>
    let k := min len (64 - off % 64)
    (off, k) :: wordPieces fuel (off + k) (len - k)

/-- Read a run of bytes of the Anvil's own store. -/
def State.seqRead (s : State) (n off len : Nat) (mover : Bool) : State × Cells :=
  (wordPieces (len / 64 + 2) off len).foldl (fun (acc : State × Cells) p =>
    let (s, c) := acc.1.seqPiece n p.1 p.2 mover
    (s, acc.2 ++ c)) (s, [])

/-- Read `rows` rows of `len` bytes at a stride. -/
def State.seqRows (s : State) (n off stride rows len : Nat) (mover : Bool) : State × SMap Cells :=
  (List.range rows).foldl (fun (acc : State × SMap Cells) r =>
    let (s, c) := acc.1.seqRead n (off + r * stride) len mover
    (s, acc.2 ++ [(r, c)])) (s, [])

/-- Some byte is poisoned. -/
def Cells.bad (c : Cells) : Bool := c.any (·.2)
def rowsBad (m : SMap Cells) : Bool := m.any (fun r => r.2.any (·.2))

end Sys2Proof.Machine
end

