-- ==== Sys2Proof/Machine/Plane.lean ====
section
/-! DEFINITION. The plane of an Anvil: operands, folding, exact and BF16 accumulation, residues, stationary content (R48 to R58, R70 to R84, R92, R93, R115, R119, R121). -/

namespace Sys2Proof.Machine

/-! ### Elements of operand rows -/

/-- Element `i` of a packed row, with its poison (R45). -/
def Cells.elem (row : Cells) (f i : Nat) : Nat × Bool :=
  let w := fmtBits f
  if w = 4 then
    let (b, p) := row.getD (i / 2) (0, false)
    (bits b.toNat (4 * (i % 2)) 4, p)
  else
    let c := (row.drop (i * (w / 8))).take (w / 8)
    (leNat (c.map (·.1)), c.any (·.2))

/-- An operand as it was read (R115): stored rows, whether k runs along a row, and the scale rows of a ZB operand. -/
structure Opnd where
  fmt : Nat
  kcont : Bool
  rows : SMap Cells
  scales : SMap Cells
  deriving DecidableEq, Repr

/-- Element of logical row (A) or column (B) `i` at `k`. -/
def Opnd.elem (o : Opnd) (i k : Nat) : Nat × Bool :=
  if o.kcont then (SMap.getD o.rows i []).elem o.fmt k else (SMap.getD o.rows k []).elem o.fmt i

/-- Exponent byte of its block. -/
def Opnd.scale (o : Opnd) (i blk : Nat) : Nat := ((SMap.getD o.scales i []).elem fmtInt8 blk).1

/-- Bytes of one scale row (R115). -/
def scaleRow (k : Nat) : Nat := ceilDiv (ceilDiv k 32) 32 * 32

/-- Where an operand lies: offset, stride and stored rows in bytes, the logical rows of its scale array. -/
structure Region where
  off : Nat
  stride : Nat
  rows : Nat
  len : Nat
  scaleRows : Nat
  scaleLen : Nat
  deriving DecidableEq, Repr

/-- Place of an operand in the store, without anything where nothing is read. -/
def operandRegion (off stride fmt extent k : Nat) (kcont : Bool) : Region :=
  let rows := if kcont then extent else k
  let len := rowBytes fmt (if kcont then k else extent)
  if extent = 0 ∨ k = 0 then ⟨0, 0, 0, 0, 0, 0⟩
  else ⟨32 * off, 32 * stride, rows, len, if isZb fmt then extent else 0, if isZb fmt then scaleRow k else 0⟩

/-- First byte after a region, its scale array included. -/
def Region.last (r : Region) : Nat :=
  if r.rows = 0 then 0
  else if r.scaleRows = 0 then r.off + (r.rows - 1) * r.stride + r.len
  else max (r.off + (r.rows - 1) * r.stride + r.len) (r.off + r.rows * r.stride + r.scaleRows * r.scaleLen)

/-- Byte ranges (first, one past the last) of a region. -/
def Region.ranges (r : Region) : List (Nat × Nat) :=
  (List.range r.rows).map (fun i => (r.off + i * r.stride, r.off + i * r.stride + r.len))
    ++ (if r.scaleRows = 0 then [] else
        [(r.off + r.rows * r.stride, r.off + r.rows * r.stride + r.scaleRows * r.scaleLen)])

/-- Read an operand through the plane port. -/
def State.readOpnd (s : State) (n : Nat) (r : Region) (fmt : Nat) (kcont : Bool) : State × Opnd :=
  let (s, rows) := s.seqRows n r.off r.stride r.rows r.len false
  let (s, sc) := s.seqRows n (r.off + r.rows * r.stride) r.scaleLen r.scaleRows r.scaleLen false
  (s, ⟨fmt, kcont, rows, sc⟩)

/-- Some unit of an operand is poisoned. -/
def Opnd.bad (o : Opnd) : Bool := rowsBad o.rows || rowsBad o.scales

/-- Replace row bytes by those a LOADS with NEXT has read. -/
def Opnd.overlay (o : Opnd) (r : Region) (pre : SMap (Byte × Bool)) : Opnd :=
  { o with
    rows := o.rows.map (fun row => (row.1, row.2.zipIdx.map (fun c => SMap.getD pre (r.off + row.1 * r.stride + c.2) c.1)))
    scales := o.scales.map (fun row => (row.1, row.2.zipIdx.map (fun c =>
      SMap.getD pre (r.off + r.rows * r.stride + row.1 * r.scaleLen + c.2) c.1))) }

/-! ### Accumulators (R52 to R58, R83) -/

def AccFlags.none : AccFlags := ⟨false, false, false, false⟩

/-- Sticky flags join. -/
def AccFlags.or (a b : AccFlags) : AccFlags := ⟨a.nan || b.nan, a.pinf || b.pinf, a.ninf || b.ninf, a.range || b.range⟩

def AccSt.zero : AccSt := ⟨0, .none, 0, .none, none⟩

/-- A flag is set, in the accumulator and in the residue plane, which forms it from its own view of the operands (R84). -/
def AccSt.flag (st : AccSt) (f : AccFlags) : AccSt := { st with flags := st.flags.or f, seen := st.seen.or f }

/-- An integer modulo 127, in 0 to 126. -/
def mod127 (x : Int) : Nat := (x % 127).toNat

/-- Residue of a value of significand `x` and exponent `e` in units of 2^w. -/
def residueOf (x : Int) (e w : Int) : Nat := mod127 x * 2 ^ ((e - w) % 7).toNat % 127

/-- Add an exact value (a product, or an initial value) with its residue (R52, R83). -/
def AccSt.addNum (st : AccSt) (w : Int) (v : Num) (rho : Nat) : AccSt :=
  match v with
  | .nan => st.flag { AccFlags.none with nan := true }
  | .inf neg => st.flag (if neg then { AccFlags.none with ninf := true } else { AccFlags.none with pinf := true })
  | .fin _ m e =>
    if m = 0 then st
    else { st with value := st.value + (if v.negative then -1 else 1 : Int) * (m * 2 ^ (e - w).toNat : Nat),
                   residue := (st.residue + rho) % 127 }

/-- One product (R52, R83). -/
def AccSt.addProduct (st : AccSt) (w : Int) (x y : Num) : AccSt :=
  st.addNum w (x.mul y) (mod127 x.sig * mod127 y.sig * 2 ^ ((x.exp + y.exp - w) % 7).toNat % 127)

/-- Largest t in the window (R55). -/
def zbWindow (fa fb : Nat) : Int := if fa = fmtZb8 ∧ fb = fmtZb8 then 44 else if fa = fmtZb4 ∧ fb = fmtZb4 then 52 else 48

/-- One ZB block pair: dot product `d`, dot product of residues, exponents (R55, R83). -/
def AccSt.addBlock (st : AccSt) (fa fb : Nat) (anchor d : Int) (rho xa xb : Nat) : AccSt :=
  if xa = 0xFF ∨ xb = 0xFF then st.flag { AccFlags.none with nan := true }
  else if xa = 0 ∨ xb = 0 then st
  else
    let t : Int := (xa : Int) + xb - 254 - anchor
    if d = 0 then st
    else if 0 ≤ t ∧ t ≤ zbWindow fa fb then
      { st with value := st.value + d * 2 ^ t.toNat, residue := (st.residue + rho * 2 ^ (t % 7).toNat) % 127 }
    else st.flag { AccFlags.none with range := true }

/-- Weight exponent of register bit 0 (R51). -/
def weightOf (fa fb : Nat) (anchor : Int) : Int :=
  if pairFp8 fa fb then -32 else if pairFp16 fa fb then -48 else if pairZb fa fb then anchor else 0

/-- Initial value of a chain (R56). -/
def accInit (fa fb : Nat) (anchor : Int) (bias : Option (Nat × Nat)) : AccSt :=
  match bias with
  | none => if pairBf16 fa fb then { AccSt.zero with fp := some 0 } else AccSt.zero
  | some (f, code) =>
    if pairBf16 fa fb then { AccSt.zero with fp := some (toF32 (fpDecode f code)) }
    else
      let v := decode f code
      let w := weightOf fa fb anchor
      AccSt.zero.addNum w v (residueOf v.sig v.exp w)

/-- One chunk of 64 products added by a balanced tree; `n` halvings (R58). -/
def treeSum : Nat → List Nat → Nat
  | 0, l => l.headD 0
  | n + 1, l => treeSum n ((List.range (l.length / 2)).map (fun i => fadd (l.getD (2 * i) 0) (l.getD (2 * i + 1) 0)))

/-- The BF16 chain (R58). -/
def bf16Chain (k : Nat) (x y : Nat → Nat) (init : Nat) : Nat :=
  (List.range (ceilDiv k 64)).foldl (fun acc c =>
    fadd acc (treeSum 6 ((List.range 64).map (fun i =>
      if 64 * c + i < k then toF32 ((fpDecode fmtBf16 (x (64 * c + i))).mul (fpDecode fmtBf16 (y (64 * c + i)))) else 0)))) init

/-- The chain of one output element: `x` and `y` give the codes at k, `xs` and `ys` the exponent bytes of block b. -/
def chain (fa fb k : Nat) (anchor : Int) (x y xs ys : Nat → Nat) (init : AccSt) : AccSt :=
  if pairBf16 fa fb then { init with fp := some (bf16Chain k x y (init.fp.getD 0)) }
  else if pairZb fa fb then
    (List.range (ceilDiv k 32)).foldl (fun st b =>
      let ks := (List.range 32).filter (fun i => 32 * b + i < k)
      let terms := ks.map (fun i => (signed (fmtBits fa) (x (32 * b + i)), signed (fmtBits fb) (y (32 * b + i))))
      let d := terms.foldl (fun a t => a + t.1 * t.2) 0
      let rho := terms.foldl (fun a t => (a + mod127 t.1 * mod127 t.2) % 127) 0
      st.addBlock fa fb anchor d rho (xs b) (ys b)) init
  else
    (List.range k).foldl (fun st i => st.addProduct (weightOf fa fb anchor) (decode fa (x i)) (decode fb (y i))) init

/-- The residue check of a drained element (R84, R90): the register modulo 127 against the residue sum, plus 1 where an injection is armed, and
every flag, RANGE too, against the residue plane's own. BF16 is not checked. -/
def AccSt.checks (st : AccSt) (inject : Bool) : Bool :=
  st.fp.isSome || (mod127 st.value == (st.residue + ofBool inject) % 127 && st.flags == st.seen)

/-! ### Folding (R77, R92, R93) -/

/-- The instruction with another stationary mode. -/
def withSmode (d : Ins) (m : Nat) : Ins := d.set 11 (BitVec.ofNat 8 (putBits (insB d 11) 4 2 m))

/-- The instruction as a paired checker runs it (R93). A HOLD problem uses the plane that LOADS filled for the mode it names. (DEDUCED: log 16) -/
def checkerIns (d : Ins) : Ins :=
  let m := mmaSmode d
  if mmaHold d then d
  else if pairBf16 (mmaFmtA d) (mmaFmtB d) then withSmode d (1 - m) else withSmode d (if m = 2 then 0 else 2)

/-- Lanes of a problem's group. -/
def mmaLanes (d : Ins) : List Nat := (List.range (mmaG d)).map (fun i => mmaBase d + i)

/-- Elements of block `bt` of column tile `ct`, in drain order: row by row, lane by lane (R75, R77). `mirror` for a checker (R92). (DEDUCED: log 19) -/
def blockElems (d : Ins) (slot ct bt : Nat) (mirror : Bool) (acc : Nat → Nat → AccSt) (par : Nat → Nat → List Nat) : List Elem :=
  let wide := 16 * foldP d
  (List.range 64).flatMap (fun r => (List.range wide).filterMap (fun c =>
    let blk := 64 * bt + r
    let col := wide * ct + c
    if blk < mmaBlkdim d ∧ col < mmaColdim d then
      let (m, n) := if mmaSmode d = 1 then (col, blk) else (blk, col)
      let lane := mmaBase d + c / 16
      some ⟨slot, m, n, if mirror then 7 - lane else lane, if mirror then 63 - r else r, acc m n, none, par m n, false⟩
    else none))

/-- Blocks of a problem in drain order. -/
def problemBlocks (d : Ins) (slot : Nat) (mirror : Bool) (acc : Nat → Nat → AccSt) (par : Nat → Nat → List Nat) :
    List (List Elem) :=
  if mmaEmpty d then []
  else (List.range (foldTiles d)).flatMap (fun ct =>
    (List.range (foldBlocks d)).map (fun bt => blockElems d slot ct bt mirror acc par))

/-- The i-th blocks of all problems drain together (R79). -/
def mergeBlocks : List (List (List Elem)) → List (List Elem)
  | [] => []
  | a :: rest =>
    let b := mergeBlocks rest
    (List.range (max a.length b.length)).map (fun i => a.getD i [] ++ b.getD i [])

/-! ### Stationary content (R71, R74, R119, R121) -/

/-- How cells of a pair are packed. -/
def shapeOf (fa fb stat : Nat) : Nat := 1000 * kChunk fa fb + fmtBits stat

/-- A lane filled with columns `cols` (list of logical columns, by physical column) of chunk `chunk`. -/
def fillLane (shape kc k chunk : Nat) (cols : List Nat) (zb : Bool) (code : Nat → Nat → Nat × Bool) (scale : Nat → Nat → Nat) : LaneSt :=
  let cells := (List.range kc).flatMap (fun pos => cols.zipIdx.filterMap (fun c =>
    if chunk * kc + pos < k then some (16 * pos + c.2, code c.1 (chunk * kc + pos)) else none))
  let scales := if zb then (List.range (kc / 32)).flatMap (fun b => cols.zipIdx.filterMap (fun c =>
      if chunk * kc + 32 * b < k then some (16 * b + c.2, scale c.1 (chunk * kc / 32 + b)) else none)) else []
  { cells := (cells.filter (fun e => e.2.1 != 0)).map (fun e => (e.1, e.2.1)), scales := scales,
    poison := (cells.filter (fun e => e.2.2)).map (·.1), shape := shape, unknown := false }

/-- A lane as a paired checker holds it: physical row r lies at 63 - r, column c at 15 - c (R92); a 4-bit pair has two positions in a row. -/
def mirrorCell (per key : Nat) : Nat :=
  let pos := key / 16
  16 * (per * (63 - pos / per) + pos % per) + (15 - key % 16)

/-- The same for a block exponent: 2 × per blocks of 32 positions in a lane. -/
def mirrorScale (per key : Nat) : Nat := 16 * (2 * per - 1 - key / 16) + (15 - key % 16)

/-- Chunk positions in a physical row of a lane that is packed as `shape` says. -/
def shapePer (shape : Nat) : Nat := max 1 (shape / 1000 / 64)

/-- The lane mirrored (R92). -/
def LaneSt.mirror (x : LaneSt) : LaneSt :=
  let per := shapePer x.shape
  { x with
    cells := x.cells.foldl (fun m e => SMap.insert m (mirrorCell per e.1) e.2) []
    scales := x.scales.foldl (fun m e => SMap.insert m (mirrorScale per e.1) e.2) []
    poison := x.poison.map (mirrorCell per) }

/-- Content of a lane of the group after a pass: the last tile that its lane set was filled with. (DEDUCED: log 16) -/
def lastLane (d : Ins) (lane : Nat) (code : Nat → Nat → Nat × Bool) (scale : Nat → Nat → Nat) : LaneSt :=
  let fa := mmaFmtA d
  let fb := mmaFmtB d
  let kc := kChunk fa fb
  let i := lane - mmaBase d
  let chunk := (foldSteps d - 1) * foldS d + i / foldP d
  let first := 16 * foldP d * (foldTiles d - 1) + 16 * (i % foldP d)
  let cols := (List.range 16).filterMap (fun c => if first + c < mmaColdim d then some (first + c) else none)
  fillLane (shapeOf fa fb (mmaStationary d)) kc (mmaK d) chunk cols (isZb (mmaStationary d)) code scale

/-- A cell of the active plane as a HOLD problem uses it: lane set k / kc, column c of the tile; a paired checker holds it mirrored (R92).
Content that the manual leaves open, or that is packed otherwise, is a free value. (DEDUCED: log 16) -/
def heldCell (lanes : List LaneSt) (d : Ins) (mirror : Bool) (free c k : Nat) : Nat × Bool :=
  let kc := kChunk (mmaFmtA d) (mmaFmtB d)
  let l := mmaBase d + (k / kc) * foldP d + c / 16
  let l := if mirror then 7 - l else l
  let lane := lanes.getD l LaneSt.zero
  let key := 16 * (k % kc) + c % 16
  let key := if mirror then mirrorCell (kc / 64) key else key
  let w := fmtBits (mmaStationary d)
  if lane.unknown || (lane.shape != shapeOf (mmaFmtA d) (mmaFmtB d) (mmaStationary d) && lane.shape != 0) then
    (((Config.freeByte free (2 * (2048 * l + key))).toNat + 256 * (Config.freeByte free (2 * (2048 * l + key) + 1)).toNat) % 2 ^ w, false)
  else (SMap.getD lane.cells key 0, lane.poison.contains key)

/-- Its block exponent. (DEDUCED: log 16) -/
def heldScale (lanes : List LaneSt) (d : Ins) (mirror : Bool) (free c b : Nat) : Nat :=
  let kc := kChunk (mmaFmtA d) (mmaFmtB d)
  let l := mmaBase d + (32 * b / kc) * foldP d + c / 16
  let l := if mirror then 7 - l else l
  let lane := lanes.getD l LaneSt.zero
  let key := 16 * (b % (kc / 32)) + c % 16
  let key := if mirror then mirrorScale (kc / 64) key else key
  if lane.unknown || (lane.shape != shapeOf (mmaFmtA d) (mmaFmtB d) (mmaStationary d) && lane.shape != 0) then
    (Config.freeByte free (65536 + 2048 * l + key)).toNat
  else SMap.getD lane.scales key 0

end Sys2Proof.Machine
end

