-- ==== Sys2Proof/Machine/Fusion.lean ====
section
/-! DEFINITION. Arithmetic of the prologue, the read-out, the epilogue chain, the requantiser and the combination of pieces (R57, R60 to R64, R117, R143 to R152). -/

namespace Sys2Proof.Machine

/-- Bytes of an FP32 pair at index `i` of a vector. -/
def pairAt (v : Cells) (i : Nat) : Nat × Nat := ((v.elem fmtFp32 (2 * i)).1, (v.elem fmtFp32 (2 * i + 1)).1)

/-- Affine stage 1 or 2 (R144, R146). -/
def affine (aff sc b x : Nat) : Nat := if aff = 1 then ffma sc x b else if aff = 2 then fadd (fmul sc x) b else x

/-- One prologue element (R144): code in IFMT, per-k or per-m vector, per-k vector of NORM. -/
def proElem (p : Ins) (fmtA code : Nat) (v w : Nat × Nat) : Nat :=
  let x := toF32 (decode (epiXfmt p) code)
  let x := if epiAff p = 3 then ffma w.1 (fmul (fsub x v.1) v.2) w.2
    else if epiVec p = 1 then affine (epiAff p) v.1 v.2 x else affine (epiAff p) (epiScale p) (epiBias p) x
  let x := fmul (act (epiAct p) (epiP0 p) (epiP1 p) x) (proQscale p)
  encode fmtA (proPrmode p) (proPsat p) (f32 x)

/-- Read-out of an accumulator (R57). -/
def AccSt.readOut (st : AccSt) (w : Int) : Num :=
  match st.fp with
  | some x => f32 x
  | none =>
    let f := st.flags
    if f.nan || f.range || (f.pinf && f.ninf) then .nan
    else if f.pinf then .inf false
    else if f.ninf then .inf true
    else .fin (decide (st.value < 0)) st.value.natAbs w

/-- FP32 read-out (R57, R63). -/
def AccSt.fp32 (st : AccSt) (w : Int) : Nat :=
  match st.fp with
  | some x => x
  | none => toF32 (st.readOut w)

/-- The 16-byte slot of exact export (R64). -/
def AccSt.slot (st : AccSt) (kind : Nat) : List Byte :=
  leBytes 13 (unsign 104 st.value)
    ++ leBytes 1 (ofBool st.flags.nan + 2 * ofBool st.flags.pinf + 4 * ofBool st.flags.ninf + 8 * ofBool st.flags.range) ++ leBytes 1 kind ++ leBytes 1 0

/-- Combine a received exact slot (R64): another KIND, or for ZB another ZANCHOR, sets RANGE. Bits 7:4 of FLAGS and the GROW byte are not looked
at. (DESIGN CHOICE: log 20) -/
def AccSt.addSlot (st : AccSt) (kind : Nat) (anchored : Bool) (b : List Byte) : AccSt :=
  let f := fieldAt b 13 1
  { st with value := st.value + signed 104 (fieldAt b 0 13),
            flags := st.flags.or ⟨bitAt f 0, bitAt f 1, bitAt f 2, bitAt f 3 || fieldAt b 14 1 != kind || !anchored⟩ }

/-- Value in the FP32 chain after the residual stage, which a gate partner passes on (R146, R150). -/
def chainValue (e : Ins) (x : Nat) (par : List Nat) : Nat :=
  let x := affine (epiAff e) (par.getD 0 0) (par.getD 1 0) x
  let x := act (epiAct e) (epiP0 e) (epiP1 e) x
  if epiRes e then toF32 ((f32 x).add (decode (epiXfmt e) (par.getD 2 0))) else x

/-- The integer requantiser (R149): input value, slot, the pair (MUL, SHIFT and ZP), rounding mode, output format. -/
def requant (e : Ins) (v : Num) (mul hi rm fmtC : Nat) : Nat :=
  let zp := signed 16 (hi >>> 16)
  let q : Int := match v with
    | .nan => 0
    | .inf neg => if neg then -2147483648 else 2147483647
    | .fin _ _ _ => (match v.mul (.ofInt (signed 32 mul)) with
        | .fin n m x => Num.fin n m (x - (hi % 64 : Nat))
        | y => y).round rm
  let q := q + zp
  let q := if epiAct e = 1 then max q zp else if epiAct e = 2 then min (max q (signed 32 (epiP0 e))) (signed 32 (epiP1 e)) else q
  let (lo, top) := intRange fmtC
  unsign (fmtBits fmtC) (clampInt lo top q)

/-- An exact or FP32 value that waits in the ZB gather, and back. -/
def gatherNum (n : Nat) (v : Num) (poison : Bool) : Gathered :=
  match v with
  | .fin neg m e => ⟨n, 0, neg, m, e, poison⟩
  | .inf neg => ⟨n, 1, neg, 0, 0, poison⟩
  | .nan => ⟨n, 2, false, 0, 0, poison⟩
def Gathered.num (g : Gathered) : Num := if g.kind = 0 then .fin g.neg g.mant g.exp else if g.kind = 1 then .inf g.neg else .nan

/-- CLAMP parameters that R148 refuses. -/
def clampBad (e : Ins) : Bool :=
  epiAct e == 2 && (fnan (epiP0 e) || fnan (epiP1 e) || flt (epiP1 e) (epiP0 e))

/-- Reasons an epilogue or prologue slot is refused by its own content (R123, R149). XFMT is checked whenever RES_EN or GATE_EN is 1, as R123
says, though a gate partner without a residual reads no stream. (DESIGN CHOICE: log 159) -/
def epiReasons (d : Ins) : List Nat :=
  let pro := insFlag d 3 7
  let growth := insB d 2 != 0 || insBits d 3 3 4 != 0 || insB d 7 != 0
    || (if pro then insBits d 4 0 4 != 0 || insBits d 6 0 4 != 0 else insBits d 4 0 2 != 0 || insBits d 6 0 2 != 0)
    || (!pro && epiReq d && (insBits d 12 6 2 != 0 || insB d 13 != 0))
  let fusion :=
    if pro then 1 < epiVec d || 8 < epiAct d || clampBad d
    else if epiReq d then
      2 < epiAct d || epiRes d || epiGate d || epiAff d != 0 || epiVec d == 3
        || (epiAct d == 2 && signed 32 (epiP1 d) < signed 32 (epiP0 d))
    else epiAff d == 3 || epiVec d == 3 || 8 < epiAct d || clampBad d
  let format := if pro then !proIfmt (epiXfmt d) else (epiRes d || epiGate d) && !streamFmt (epiXfmt d)
  (if growth then [0x03] else []) ++ (if format then [0x04] else [])
    ++ (if pro && 4 < proPrmode d then [0x07] else []) ++ (if fusion then [0x17] else [])

end Sys2Proof.Machine
end

