-- ==== Sys2Proof/Machine/Ops.lean ====
section
/-! DEFINITION. The list engine that every unit shares: launch, fetch, issue, refusal, and the end of a list (R89, R101 to R113, R182, R197, R203). -/

namespace Sys2Proof.Machine

/-! ### Launch (R89, R94, R102, R106, R197, R230, R344) -/

/-- The job a launch event starts on a unit: the first strike-bound job of this strike that still has its part there to run (R25, R106). (DEDUCED: log 30) -/
def State.jobFor (s : State) (u : Nat) : Option Job :=
  s.jobs.find? (fun j => j.strikeBound && j.launchStrike == some s.strikeNo && j.units.contains u && !j.ended.contains u)

/-- Residue checking of a unit: ENABLE and SELFTEST (R89, R195, R219); a post-processing unit has none. -/
def State.residueOn (s : State) (u : Nat) : Bool :=
  if u < 68 then bits (s.rd (unitBase u + 0x40)).toNat 0 2 == 3
  else if u < 76 then bits (s.rd (unitBase u + 0x40)).toNat 0 2 == 3 else true

/-- The residue check of a Draw pipe or a Swage is on (R195, R219). -/
def State.residueChecks (s : State) (u : Nat) : Bool := bitAt (s.rd (unitBase u + 0x40)).toNat 0

/-- GOLD_CTL.EN of a privileged unit (R197, R230). -/
def State.goldEnabled (s : State) (u : Nat) : Bool :=
  if u < 64 then false else if u < 68 then bitAt (s.rd (unitBase u + 0xBC)).toNat 0 else bitAt (s.rd (unitBase u + 0xB8)).toNat 0

/-- The first launch of a strike: the self-test of the residue plane passes (the plane of the model has no fault), and a privileged unit
turns to its golden list (R89, R197, R230). (DESIGN CHOICE: log 27) -/
def State.firstLaunch (s : State) (u : Nat) : State :=
  let s := if u < 64 && s.flag (Reg.ANV_RES_CTL.SELFTEST u) then s.setFld (unitCheckOk u) 1 else s
  let s := s.modUnit u (fun x => { x with launched := true })
  if s.goldEnabled u then
    (s.setFld (unitGoldRun u) 1).modUnit u (fun x => { x with goldRun := true, goldTried := false })
  else s

/-- A launch event reaches a unit (R102, R106, R344): `event` is its number. (DEDUCED: log 30) -/
def State.launch (s : State) (u event : Nat) : State :=
  if !s.present u || !s.flag (unitEnable u) || s.flag (unitFence u) || s.computeHeld || s.quench.inhibit then s
  else
    let job := s.jobFor u
    if s.flag (unitBusy u) then
      s.fault (overrunGroup u) (refuseInst u) ((job.map (·.config)).getD 2 < 2) (some ((job.map (·.ctx)).getD 0)) (some (unitCode u))
    else
      let first := !(s.unit u).launched
      let s := s.startUnit u job (event + 1)
      let s := match job with
        | some j => s.modJob j.id (fun j => { j with
            started := setInsert j.started u
            launchTime := if j.started.isEmpty then s.nowNs else j.launchTime })
        | none => s
      if first then s.firstLaunch u else s

/-! ### Fetch (R101, R103, R108) -/

/-- A Marmer list runs: ANV_CTL.MODE at the start (R94, R99, R100). -/
def State.marmer (s : State) (u : Nat) : Bool := (s.unit u).m2

/-- Bytes of one instruction (R99, R109). -/
def State.insSize (s : State) (u : Nat) : Nat := if s.marmer u then 16 else 32

/-- First byte of the list that runs. -/
def State.listBase (s : State) (u : Nat) : Nat :=
  if (s.unit u).goldRun then s.rd64 (unitBase u + 0xB0) else (s.unit u).base

/-- Instructions in the list that runs. -/
def State.listCount (s : State) (u : Nat) : Nat :=
  if (s.unit u).goldRun then bits (s.rd (unitBase u + 0xB8)).toNat (if u < 68 then 0 else 16) 16
  else (s.unit u).count

/-- Index of the next instruction to issue. -/
def State.pc (s : State) (u : Nat) : Nat := s.fld (unitPc u)

/-- Address of instruction `i`. -/
def State.insAddr (s : State) (u i : Nat) : Nat := s.listBase u + s.insSize u * i

/-- Instruction `i` as memory holds it. A list in the Anvil's own store comes through the mover port; a checker reads its own store (R94,
R101). -/
def State.fetchAt (s : State) (u i : Nat) : State × Rd :=
  let a := s.insAddr u i
  if u < 64 && s.target a == .billet (s.listOwner u) then
    let (s, c) := s.seqRead u ((a - 0x2100000000) % 0x400000) (s.insSize u) true
    (s, ⟨c.map (·.1), c.any (·.2), none⟩)
  else s.read (s.unitReq u) a (s.insSize u)

/-- Instruction `i` of the list, where the instruction buffer holds it: pinned at LOAD_MODEL, or fetched ahead (R101, R182, R203). -/
def State.buffered (s : State) (u i : Nat) : Option (List Byte) :=
  let a := s.insAddr u i
  (s.models.findSome? (fun m => (m.pinned.find? (fun p => p.1 == s.listOwner u && p.2.1 == a)).map (·.2.2))).or (SMap.find? (s.unit u).buf i)

/-- Fetch ahead instructions `i` to `i + n - 1` of the list. One that cannot be fetched stays out, with those after it: it ends the list when it
comes to issue, and not before. (DESIGN CHOICE: log 163) -/
def State.prefetch : Nat → Nat → Nat → State → State
  | 0, _, _, s => s
  | n + 1, u, i, s =>
    if s.listCount u ≤ i then s
    else if (s.buffered u i).isSome then State.prefetch n u (i + 1) s
    else
      let (t, r) := s.fetchAt u i
      if r.err.isSome || r.poison then s
      else State.prefetch n u (i + 1) (t.modUnit u (fun x => { x with buf := SMap.insert x.buf i r.bytes }))

/-- The sequencer holds the instruction at issue, once it is fetched, and the 64 after it (R101). (DESIGN CHOICE: log 163) -/
def State.fetchAhead (s : State) (u : Nat) : State :=
  State.prefetch 64 u (s.pc u + 1) (s.modUnit u (fun x => { x with buf := x.buf.filter (fun e => s.pc u ≤ e.1) }))

/-- The instruction at the head of issue (R101). -/
def State.fetch (s : State) (u : Nat) : State × Rd :=
  match s.buffered u (s.pc u) with
  | some b => (s.fetchAhead u, ⟨b, false, none⟩)
  | none =>
    let (s, r) := s.fetchAt u (s.pc u)
    (if r.err.isSome || r.poison then s
      else (s.modUnit u (fun x => { x with buf := SMap.insert x.buf (s.pc u) r.bytes })).fetchAhead u, r)

/-! ### Refusal (R110, R112) -/

/-- What an instruction at the head of issue comes to. -/
inductive Issue where
  | done (s : State)
  | hold (s : State)
  | refuse (s : State) (reasons : List Nat) (index : Nat)

/-- The lowest of a list of reasons. -/
def lowest (l : List Nat) : Nat := l.foldl min (l.headD 0)

/-- The list of a unit stops: its part of the job ends with `status` when every effect is complete. -/
def State.listStop (s : State) (u status : Nat) : State := s.modUnit u (fun x => { x with stopping := some status, waitFrom := none })

/-- A refusal (R110, R197): recorded, reported, the list stops. A refusal in a golden list is a failed golden run. -/
def State.refuseAt (s : State) (u reason index : Nat) : State :=
  let a := unitRefuse u
  let s := (s.setFld ⟨a, 24, 8⟩ reason).setFld ⟨a, 0, 16⟩ index
  let s := s.event (unitRefusedEvt u) (unitSource u)
  if (s.unit u).goldRun then (s.goldenFailed u).listStop u 0
  else (s.unitFault u (refuseGroup u) (refuseInst u)).listStop u 2

/-- Whether the list is a Marmer list by its graph's record (R103): the list that lies there, else another list of the unit; a list without a
graph has no record. -/
def State.recordedKind (s : State) (u : Nat) : Bool :=
  match (s.unit u).job.bind s.jobById with
  | some j =>
    (match j.kind with
      | .runGraph h =>
        let m := s.models.find? (·.handle == h)
        let ls := (m.map (fun m => m.image.lists.filter (fun l => l.unit.val == s.listOwner u))).getD []
        ((ls.find? (fun l => (m.map (·.base)).getD 0 + l.offset == s.listBase u)).or ls.head?).elim (s.marmer u) (·.marmer)
      | _ => s.marmer u)
  | none => s.marmer u

/-- Reasons that any instruction of a list may have: RESIDUE_OFF, MARMER, GOLD_OFF (R98, R103, R112, R186, R227). (DEDUCED: log 26, 45) -/
def State.listReasons (s : State) (u : Nat) : List Nat :=
  let x := s.unit u
  let safety := x.safety && !x.goldRun
  let kind := s.recordedKind u
  (if safety && !s.residueOn u then [0x10] else [])
    ++ (if u < 64 && (kind != s.marmer u || (kind && x.config == 0)) then [0x11] else [])
    ++ (if safety && 64 ≤ u && !s.goldEnabled u then [0x35] else [])

/-- Opcodes of a unit kind (R99, R109, R183, R203, R220). -/
def State.opcodes (s : State) (u : Nat) : List Nat :=
  if u < 64 then (if s.marmer u then [1, 2, 3, 4, 5, 7, 8] else [1, 2, 3, 4, 5, 6, 7, 8, 9, 10, 11, 12, 13])
  else if u < 68 then [8, 9, 10, 11, 12, 0x20, 0x21, 0x22]
  else if u < 76 then [8, 9, 10, 11, 12, 0x40, 0x41, 0x42, 0x43, 0x44]
  else [8, 9, 10, 11, 12, 0x50]

/-- Opcode of a fetched instruction (R99, R109). -/
def State.opOf (s : State) (u : Nat) (d : Ins) : Nat := if s.marmer u then insB d 0 else insOp d

/-- Reasons of an instruction's own form: VERSION, OPCODE (MARMER for an M2 opcode). -/
def State.formReasons (s : State) (u : Nat) (d : Ins) : List Nat :=
  if s.marmer u then (if (s.opcodes u).contains (s.opOf u d) then [] else [0x11])
  else (if insVersion d = 1 then [] else [0x01]) ++ (if (s.opcodes u).contains (s.opOf u d) then [] else [0x02])

/-- The Z1 form of an M2 instruction: `op` is its Z1 opcode (R99). (DESIGN CHOICE: log 25) -/
def m2Ins (op : Nat) (d : Ins) : Ins :=
  leBytes 1 1 ++ leBytes 1 op ++ (List.range 30).map (fun i => Config.m2Byte (leNat d) (i + 2))

/-- The Z1 form of M2_SIG and M2_GOLD, whose fields R99 gives. -/
def m2Sig (d : Ins) (op : Nat) : Ins :=
  leBytes 1 1 ++ leBytes 1 op ++ leBytes 1 (insB d 1) ++ leBytes 1 0 ++ leBytes 2 (insH d 2) ++ leBytes 2 0 ++ leBytes 8 (insQ d 8)
    ++ List.replicate 16 0

/-! ### Effects that must complete (R104, R105, R130) -/

/-- Every effect of every earlier instruction of the unit has completed. -/
def State.quiet (s : State) (u : Nat) : Bool :=
  let x := s.anvil u
  x.passes.isEmpty && x.wb.isEmpty && x.stores.isEmpty && x.sends.isEmpty && !x.filling && !(s.incs.any (fun i => i.src == u))

/-! ### Issue (R104, R110) -/

/-- The next instruction waits for earlier effects: after a FENCE, and always outside an Anvil, where one instruction runs at a time
(R130, R182, R203). -/
def State.mustBeQuiet (s : State) (u : Nat) : Bool := 64 ≤ u || (s.unit u).fenceAt == some (s.pc u)

/-- A list of the unit runs and its next instruction may come to issue. -/
def State.canIssue (s : State) (u : Nat) : Bool :=
  s.flag (unitBusy u) && (s.unit u).stopping.isNone && s.pc u < s.listCount u && !(s.anvil u).swapWait
    && (!s.mustBeQuiet u || s.quiet u)

/-- An instruction was executed: the next one is at the head. -/
def State.advance (s : State) (u : Nat) : State :=
  (s.setFld (unitPc u) (s.pc u + 1)).modUnit u (fun x => { x with waitFrom := none })

/-- A fetch that failed: the list stops before the instruction; poison it returned is consumed (R108, R242). (DEDUCED: log 28) -/
def State.fetchFailed (s : State) (u : Nat) (r : Rd) : State :=
  let s := s.eatIf u (s.listBase u + s.insSize u * s.pc u) (r.err.isNone && r.poison)
  if (s.unit u).goldRun then (s.modUnit u (fun x => { x with goldTried := true })).listStop u 0 else s.listStop u 8

/-- An instruction stands between the first MMA.P of a pass and its MMA: a pass under construction admits only MMA.P and MMA (R116). -/
def State.breaksPass (s : State) (u : Nat) (d : Ins) : Bool :=
  !(s.anvil u).pend.isEmpty && !s.marmer u && !(insOp d == 3 || insOp d == 4)

/-- An instruction of one of the opcodes `ops` comes to issue. An instruction of another opcode leaves the state as it is; one that cannot
be decoded, or whose list may not run, is refused by any: inside an unfinished pass too, with its own reason at its own index, where R116 names
PASS for what the opcode table has. (DESIGN CHOICE: log 2, 161; DEDUCED: log 22) -/
def State.issue (s : State) (u : Nat) (ops : List Nat) (f : Ins → State → Issue) : State :=
  if !s.canIssue u then s
  else
    let (s', r) := s.fetch u
    if r.err.isSome || r.poison then s'.fetchFailed u r
    else
      let form := s'.formReasons u r.bytes
      if !form.isEmpty then s'.refuseAt u (lowest (form ++ s'.listReasons u)) (s'.pc u)
      else if !ops.contains (s'.opOf u r.bytes) then s
      else
        let common := s'.listReasons u
        if s'.breaksPass u r.bytes then s'.refuseAt u (lowest (0x09 :: common)) (s'.anvil u).pendAt
        else match f r.bytes s' with
        | .done t => if common.isEmpty then t.advance u else s'.refuseAt u (lowest common) (s'.pc u)
        | .hold t => if common.isEmpty then t else s'.refuseAt u (lowest common) (s'.pc u)
        | .refuse t rs i => t.refuseAt u (lowest (rs ++ common)) i

/-- Refuse for the reasons that apply, or go on. -/
def Issue.check (s : State) (u : Nat) (rs : List Nat) (go : Issue) : Issue :=
  if rs.isEmpty then go else .refuse s rs (s.pc u)

/-- A reason that applies under a condition. -/
def why (b : Bool) (r : Nat) : List Nat := if b then [r] else []

/-! ### The end of a list (R105, R371) -/

/-- A breach of a stage window: 0 LATE, 1 NO_START, 2 EARLY (R373, R374, R395). -/
def State.winBreach (s : State) (w u kind : Nat) (safety : Bool) (ctx : Nat) : State :=
  let f := if kind = 0 then Reg.SFI_WIN_STATUS.LATE_CNT else if kind = 1 then Reg.SFI_WIN_STATUS.NOSTART_CNT else Reg.SFI_WIN_STATUS.EARLY_CNT
  let s := (((s.count f 1).setFld Reg.SFI_WIN_LAST.UNIT u).setFld Reg.SFI_WIN_LAST.WINDOW w).setFld Reg.SFI_WIN_LAST.KIND kind
  let s := { s with lateSeen := s.lateSeen || kind == 0 }
  (s.sfiEvent 4).fault 0x28 w safety (some ctx) (some (unitCode u))

/-- The EARLY check of R373, when a list ends. (DEDUCED: log 81) -/
def State.earlyCheck (s : State) (u : Nat) : State :=
  let x := s.unit u
  match x.window, x.start with
  | some w, some t =>
    if x.startStrike = s.strikeNo && islandCycle s.nowNs < islandCycle (t + s.winFld (Reg.SFI_WIN_CTRL.MIN_NS w)) then
      s.winBreach w u 2 x.ranSafety x.ctx
    else s
  | _, _ => s

/-- STATUS bits that a list leaves: BUSY 0. A window that is still open when a refusal or a failed fetch stops the list is dropped: no close and no
report. (DESIGN CHOICE: log 160) -/
def State.endUnit (s : State) (u : Nat) : State :=
  let s := s.earlyCheck u
  let s := { s with stageEnd := s.nowNs - s.strikeTime }.setFld (unitBusy u) 0
  let s := if u < 64 then (s.modAnvil u AnvSt.planes).setFld (Reg.ANV_STATUS.LANES_BUSY u) 0 else s
  let s := s.modUnit u (fun x => { x with job := none, config := 3, waitFrom := none, sig := none, goldRun := false, stopping := none })
  s.applyHeld u

/-- SUPERVISED work of an Anvil without a passing GOLD (R371). (DEDUCED: log 29) -/
def State.goldMissing (s : State) (u : Nat) : State :=
  s.fault 0x06 u true (some (s.unit u).ctx) (some (unitCode u))

/-- R371 at the end of a list. (DEDUCED: log 29) -/
def State.endChecks (s : State) (u : Nat) : State :=
  let x := s.unit u
  if u < 64 then (if x.config = 1 && !x.goldOk then s.goldMissing u else s)
  else if x.safety && x.event != 0 && !x.goldOk then
    s.fault (goldGroup u) (refuseInst u) true (some x.ctx) (some (unitCode u))
  else s

/-- The part of a job on a unit is over. -/
def State.partOver (s : State) (u status : Nat) : State :=
  let job := (s.unit u).job
  let s := s.endUnit u
  match job with
  | some id => s.unitDoneFor id u status
  | none => s.schedule

/-- A list that ran to its end: an open window closes, DONE is set (R105, R131, R371). -/
def State.finishList (s : State) (u : Nat) : State :=
  (((s.sigClose u).endChecks u).event (unitDone u) (unitSource u)).partOver u 0

end Sys2Proof.Machine
end

