-- ==== Sys2Proof/Machine/Pass.lean ====
section
/-! DEFINITION. Passes: their checks, operand and stream reads, accumulation, and the plane they leave (R76, R87, R93, R112 to R121, R135 to R138, R153, R154). -/

namespace Sys2Proof.Machine

/-! ### Regions of a problem -/

/-- The epilogue and prologue slots of a problem, if enabled and loaded. -/
def State.epiOf (s : State) (u : Nat) (d : Ins) : Option Ins :=
  if mmaEpiEn d then SMap.find? (s.anvil u).slots (mmaEpiSlot d) else none
def State.proOf (s : State) (u : Nat) (d : Ins) : Option Ins :=
  if mmaProEn d then SMap.find? (s.anvil u).slots (8 + mmaProSlot d) else none

/-- Format in which A is stored (R143). -/
def storedA (d : Ins) (pro : Option Ins) : Nat := match pro with | some p => epiXfmt p | none => mmaFmtA d

/-- The stationary operand is held (R119): its region is not read. -/
def heldA (d : Ins) : Bool := mmaHold d && mmaSmode d == 1
def heldB (d : Ins) : Bool := mmaHold d && mmaSmode d == 0

def regionA (d : Ins) (pro : Option Ins) : Region :=
  operandRegion (mmaAOff d) (mmaAStride d) (storedA d pro) (if heldA d then 0 else mmaM d) (mmaK d) (!mmaTA d)
def regionB (d : Ins) : Region :=
  operandRegion (mmaBOff d) (mmaBStride d) (mmaFmtB d) (if heldB d then 0 else mmaN d) (mmaK d) (mmaTB d)

/-- One row of bytes. -/
def vecRegion (off len : Nat) : Region := if len = 0 then ⟨0, 0, 0, 0, 0, 0⟩ else ⟨32 * off, 0, 1, len, 0, 0⟩

/-- The bias vector. -/
def regionBias (d : Ins) : Region := if mmaAcc d = 1 then vecRegion (mmaAux d) (rowBytes (mmaFmtBias d) (mmaN d)) else vecRegion 0 0

/-- Prologue vectors (R144). -/
def regionProV (d : Ins) (pro : Option Ins) : Region :=
  match pro with
  | some p => if mmaK d = 0 then vecRegion 0 0 else if epiAff p = 3 then vecRegion (proVOff p) (8 * mmaM d)
      else if epiVec p = 1 && epiAff p != 0 then vecRegion (proVOff p) (8 * mmaK d) else vecRegion 0 0
  | none => vecRegion 0 0
def regionProW (d : Ins) (pro : Option Ins) : Region :=
  match pro with
  | some p => if epiAff p = 3 then vecRegion (proWOff p) (8 * mmaK d) else vecRegion 0 0
  | none => vecRegion 0 0

/-- Epilogue vector, residual and gate stream (R146, R149, R150). -/
def epiUsesVec (e : Ins) : Bool := epiReq e || epiAff e != 0
def regionEpiV (d : Ins) (epi : Option Ins) : Region :=
  match epi with
  | some e => if epiUsesVec e && epiVec e == 1 then vecRegion (epiVOff e) (8 * mmaN d)
      else if epiUsesVec e && epiVec e == 2 then vecRegion (epiVOff e) (8 * mmaM d) else vecRegion 0 0
  | none => vecRegion 0 0
def rowsRegion (off stride rows len : Nat) : Region := if rows = 0 ∨ len = 0 then ⟨0, 0, 0, 0, 0, 0⟩ else ⟨32 * off, 32 * stride, rows, len, 0, 0⟩
def regionRes (d : Ins) (epi : Option Ins) : Region :=
  match epi with
  | some e => if epiRes e && !epiReq e then rowsRegion (epiXOff e) (epiXStride e) (mmaM d) (rowBytes (epiXfmt e) (mmaN d)) else vecRegion 0 0
  | none => vecRegion 0 0
def regionGate (d : Ins) (epi : Option Ins) : Region :=
  match epi with
  | some e => if epiGate e && epiGsrc e && !epiReq e then rowsRegion (epiYOff e) (epiXStride e) (mmaM d) (rowBytes (epiXfmt e) (mmaN d))
      else vecRegion 0 0
  | none => vecRegion 0 0

/-- Size of one piece in bytes (R117). -/
def pieceBytes (d : Ins) : Nat := ceilDiv (mmaM d * mmaN d * (if mmaV d then 4 else 16)) 32 * 32
def regionRecv (d : Ins) : Region :=
  if mmaAcc d = 2 then vecRegion (mmaAux d) (mmaPieces d * pieceBytes d) else vecRegion 0 0

/-- C or the export region (R115, R118, R152). -/
def regionOut (d : Ins) (epi : Option Ins) : Region :=
  if mmaEmpty d then vecRegion 0 0
  else if mmaExport d != 0 then vecRegion (mmaCOff d) (mmaM d * mmaN d * (if mmaExport d = 1 then 4 else 16))
  else if (epi.map epiNowrite).getD false then vecRegion 0 0
  else
    let f := mmaFmtC d
    let n := if isZb f then ceilDiv (mmaN d) 32 * 32 else mmaN d
    ⟨32 * mmaCOff d, 32 * mmaCStride d, mmaM d, rowBytes f n, if isZb f then mmaM d else 0, if isZb f then scaleRow (mmaN d) else 0⟩

/-- Every region a problem reads when it issues. -/
def readRegions (d : Ins) (pro epi : Option Ins) : List Region :=
  if mmaEmpty d then []
  else [regionA d pro, regionB d, regionBias d, regionProV d pro, regionProW d pro, regionEpiV d epi, regionRes d epi, regionGate d epi]

/-- Extra operand streams of a problem (R153): a vector that no stage uses is none; the streams of an empty problem, which reads nothing, count. (DESIGN CHOICE: log 165) -/
def streamCount (d : Ins) (pro epi : Option Ins) : Nat :=
  ofBool (mmaAcc d == 1)
    + (match pro with | some p => if epiAff p = 3 then 2 else ofBool (epiVec p == 1 && epiAff p != 0) | none => 0)
    + (match epi with
       | some e => ofBool (epiUsesVec e && (epiVec e == 1 || epiVec e == 2)) + ofBool (epiRes e) + ofBool (epiGate e && epiGsrc e)
       | none => 0)

/-! ### Checks (R44, R51, R56, R64, R73, R76, R87, R112, R116, R138, R149, R150, R154) -/

/-- Operand pairs of R71 that a pass may not mix (R116). -/
def pairClass (a b : Nat) : Nat :=
  if pairFp8 a b then 100 else if pairOk a b then 10 * min a b + max a b else 200 + 16 * a + b

/-- A format that may stand as an operand (R44). -/
def operandFmt (f : Nat) : Bool := (f ≤ 5) || f == 7 || f == 8

/-- Bias formats that a pair accepts (R56). -/
def biasOk (a b f : Nat) : Bool :=
  if pairInt a b then f == 9
  else if pairFp8 a b then f == 2 || f == 3 || f == 4
  else if pairFp16 a b then f == 4
  else if pairBf16 a b then f == 4 || f == 5 || f == 6
  else false

/-- Reasons of one problem, given its slots. -/
def State.problemReasons (s : State) (u : Nat) (d : Ins) : List Nat :=
  let fa := mmaFmtA d
  let fb := mmaFmtB d
  let bf := pairBf16 fa fb
  let x := s.unit u
  let pro := s.proOf u d
  let epi := s.epiOf u d
  let bad := (readRegions d pro epi ++ [regionOut d epi, if mmaEmpty d then vecRegion 0 0 else regionRecv d]).any
    (fun r => storeBytes < r.last)
  why (mmaGrowth d) 0x03
    ++ why (!operandFmt fa || !operandFmt fb || (mmaExport d == 0 && 9 < mmaFmtC d)
        || (mmaAcc d == 1 && (!([2, 3, 4, 5, 6, 9].contains (mmaFmtBias d))
          || ((mmaFmtBias d == 2 || mmaFmtBias d == 3) && !pairFp8 fa fb)))) 0x04
    ++ why (!pairOk fa fb) 0x05
    ++ why (mmaSmode d == 3 || (mmaSmode d == 2 && bf)) 0x06
    ++ why (mmaExport d == 0 && 4 < mmaRmode d) 0x07
    ++ why (mmaBase d % mmaG d != 0) 0x08
    ++ why (mmaAcc d == 3 || (mmaAcc d == 1 && !biasOk fa fb (mmaFmtBias d))) 0x0A
    ++ why (mmaExport d == 3 || (mmaExport d != 0 && (mmaEpiEn d || mmaAcc d == 2)) || (mmaExport d == 2 && bf)
        || (mmaAcc d == 2 && bf && !mmaV d)) 0x0B
    ++ why (if mmaAcc d == 2 then mmaPieces d == 0 || 127 < mmaPieces d else mmaPieces d != 0) 0x0C
    ++ why (mmaV d && x.config == 0) 0x0D
    ++ why (mmaExport d == 1 && !mmaV d) 0x0E
    ++ why (bf && x.config == 1) 0x0F
    ++ why bad 0x12
    ++ why (pairZb fa fb && (mmaZanchor d < -252 || 254 < mmaZanchor d)) 0x14
    ++ why (mmaHold d && (mmaSmode d == 2 || (!mmaEmpty d && (1 < foldTiles d || foldS d < foldChunks d)))) 0x15
    ++ why ((mmaEpiEn d && epi.isNone) || (mmaProEn d && pro.isNone)) 0x16
    ++ why ((mmaProEn d && !proOfmt fa)
        || (epi.any epiReq && (!pairInt fa fb || !isIntFmt (mmaFmtC d)))) 0x17

/-- The gate partner of a problem is wrong (R150). -/
def State.gateBad (s : State) (u : Nat) (ds : List Ins) (i : Nat) (d : Ins) : Bool :=
  match s.epiOf u d with
  | none => false
  | some e =>
    if epiReq e || !epiGate e || epiGsrc e then false
    else
      match ds[epiGslot e]? with
      | none => true
      | some p => epiGslot e == i || mmaM p != mmaM d || mmaN p != mmaN d || mmaK p != mmaK d || mmaG p != mmaG d
          || (match s.epiOf u p with | some q => epiReq q || epiGate q | none => true)

/-- Groups that overlap (R76). -/
def lanesClash : List Ins → Bool
  | [] => false
  | d :: rest => rest.any (fun o => (mmaLanes o).any (mmaLanes d).contains) || lanesClash rest

/-- Reasons of a pass as a whole (R110, R116, R154). -/
def State.passReasons (s : State) (u : Nat) (ds : List Ins) : List Nat :=
  let d := ds.headD []
  ds.flatMap (s.problemReasons u)
    ++ why (lanesClash ds) 0x08
    ++ why (8 < ds.length || ds.any (fun o => mmaSmode o != mmaSmode d || mmaHold o != mmaHold d
        || pairClass (mmaFmtA o) (mmaFmtB o) != pairClass (mmaFmtA d) (mmaFmtB d) || mmaShared o != mmaShared d)) 0x09
    ++ why ((ds.zipIdx.any (fun p => s.gateBad u ds p.2 p.1))
        || 2 < (ds.map (fun o => streamCount o (s.proOf u o) (s.epiOf u o))).sum) 0x17

/-! ### Regions in flight (R104) -/

/-- Ranges that meet. -/
def meets (a b : List (Nat × Nat)) : Bool := a.any (fun x => b.any (fun y => x.1 < y.2 && y.1 < x.2 && x.1 < x.2 && y.1 < y.2))

/-- Bytes that an element writes when it drains. -/
def elemRanges (p : PassSt) (e : Elem) : List (Nat × Nat) :=
  match p.probs[e.slot]? with
  | none => []
  | some pr =>
    let d := pr.ins
    let base := 32 * mmaCOff d
    if mmaExport d != 0 then
      let k := if mmaExport d = 1 then 4 else 16
      [(base + (e.m * mmaN d + e.n) * k, base + (e.m * mmaN d + e.n) * k + k)]
    else if !pr.epi.isEmpty && epiNowrite pr.epi then []
    else
      let f := mmaFmtC d
      let a := base + 32 * mmaCStride d * e.m + e.n * fmtBits f / 8
      (a, a + max 1 (fmtBits f / 8)) :: (if isZb f then
        [(base + 32 * mmaCStride d * mmaM d + e.m * scaleRow (mmaN d) + e.n / 32, base + 32 * mmaCStride d * mmaM d + e.m * scaleRow (mmaN d) + e.n / 32 + 1)] else [])

/-- Blocks of a pass that have not drained: those in the halves, then those that wait for one. -/
def AnvSt.blocksOf (x : AnvSt) (p : PassSt) : List (List Elem) :=
  ([x.h0, x.h1].filterMap (fun h => h.bind (fun h => if h.pass = p.no then some h.elems else none))) ++ p.blocks

/-- Bytes that passes in progress have yet to write, and to read. -/
def State.pendingOut (s : State) (u : Nat) : List (Nat × Nat) :=
  (s.anvil u).passes.flatMap (fun p => ((s.anvil u).blocksOf p).flatMap (fun b => b.flatMap (elemRanges p)))
def State.pendingIn (s : State) (u : Nat) : List (Nat × Nat) :=
  (s.anvil u).passes.flatMap (fun p => if p.awaited then [] else p.probs.flatMap (fun pr => (regionRecv pr.ins).ranges))

/-- An instruction that reads or writes these bytes must wait (R104). -/
def State.mustWait (s : State) (u : Nat) (reads writes : List (Nat × Nat)) : Bool :=
  meets reads (s.pendingOut u) || meets writes (s.pendingOut u) || meets writes (s.pendingIn u)

/-- A write of the list over the source of a prefetched tile spoils it (R120). (DEDUCED: log 18) -/
def State.spoil (s : State) (u : Nat) (writes : List (Nat × Nat)) : State :=
  match (s.anvil u).pre with
  | none => s
  | some m => if m.any (fun e => writes.any (fun w => w.1 ≤ e.1 && e.1 < w.2)) then s.modAnvil u (fun x => { x with pre := none }) else s

/-! ### Reading and accumulating -/

/-- One row read through the plane port. -/
def State.readVec (s : State) (u : Nat) (r : Region) : State × Cells := if r.rows = 0 then (s, []) else s.seqRead u r.off r.len false

/-- An element of the first tile, in a block that the first fill serves (R77, R120). -/
def firstTile (d : Ins) (blk col k : Nat) : Bool :=
  col < 16 * foldP d && k < kChunk (mmaFmtA d) (mmaFmtB d) * foldS d && (blk < 64 || foldSteps d == 1)

/-- What a problem becomes when its pass issues: its blocks, whether it read poison, and the lanes it leaves. -/
structure Ran where
  blocks : List (List Elem)
  poison : Bool
  lanes : List (Nat × LaneSt)

/-- A paired checker: it runs other modes, mirrored, and its STORE, SEND and SYNC have no effect outside (R92, R93, R126, R198, R229). -/
def State.isChecker (s : State) (u : Nat) : Bool := s.isPaired u && u % 2 == 1

/-- The instruction as the Anvil runs it: a paired checker changes the stationary mode (R93). -/
def State.ownMode (s : State) (u : Nat) (d : Ins) : Ins := if s.isChecker u then checkerIns d else d

/-- Run one problem of a pass (R77, R92, R93, R114 to R121, R136): reads, prologue, accumulators, and stream values of each element. Chains of
`old` elements go on from their accumulators (R97). -/
def State.runProblem (s : State) (u slot : Nat) (d : Ins) (old : List Elem) : State × Ran :=
  if mmaEmpty d then (s, ⟨[], false, []⟩)
  else
    let mirror := s.isChecker u
    let run := s.ownMode u d
    let pro := s.proOf u d
    let epi := s.epiOf u d
    let fa := mmaFmtA d
    let fb := mmaFmtB d
    let k := mmaK d
    let anchor := mmaZanchor d
    let ra := regionA d pro
    let rb := regionB d
    let (s, a) := s.readOpnd u ra (storedA d pro) (!mmaTA d)
    let (s, b) := s.readOpnd u rb fb (mmaTB d)
    let (s, bias) := s.readVec u (regionBias d)
    let (s, pv) := s.readVec u (regionProV d pro)
    let (s, pw) := s.readVec u (regionProW d pro)
    let (s, ev) := s.readVec u (regionEpiV d epi)
    let (s, res) := s.seqRows u (regionRes d epi).off (regionRes d epi).stride (regionRes d epi).rows (regionRes d epi).len false
    let (s, gate) := s.seqRows u (regionGate d epi).off (regionGate d epi).stride (regionGate d epi).rows (regionGate d epi).len false
    let (s, fresh) : State × Nat := ({ s with freeCtr := s.freeCtr + 1 }, s.freeCtr)
    let x := s.anvil u
    let is := mmaSmode run == 1
    let a1 := match x.pre with | some m => if is then a.overlay ra m else a | none => a
    let b1 := match x.pre with | some m => if is then b else b.overlay rb m | none => b
    let rawA (m n kk : Nat) : Nat × Bool :=
      if heldA d then heldCell x.active d mirror fresh m kk
      else if is && firstTile run n m kk then a1.elem m kk else a.elem m kk
    let codeA (m n kk : Nat) : Nat :=
      match pro with
      | some p => if heldA d then (rawA m n kk).1
          else proElem p fa (rawA m n kk).1 (pairAt pv (if epiAff p = 3 then m else kk)) (pairAt pw kk)
      | none => (rawA m n kk).1
    let rawB (m n kk : Nat) : Nat × Bool :=
      if heldB d then heldCell x.active d mirror fresh n kk
      else if mmaSmode run == 0 && firstTile run m n kk then b1.elem n kk else b.elem n kk
    let scA (m n blk : Nat) : Nat :=
      if heldA d then heldScale x.active d mirror fresh m blk
      else if is && firstTile run n m (32 * blk) then a1.scale m blk else a.scale m blk
    let scB (m n blk : Nat) : Nat :=
      if heldB d then heldScale x.active d mirror fresh n blk
      else if mmaSmode run == 0 && firstTile run m n (32 * blk) then b1.scale n blk else b.scale n blk
    let acc (m n : Nat) : AccSt :=
      chain fa fb k anchor (codeA m n) (fun kk => (rawB m n kk).1) (scA m n) (scB m n)
        (match old.find? (fun e => e.m == m && e.n == n) with
          | some e => e.acc
          | none => accInit fa fb anchor (if mmaAcc d = 1 then some (mmaFmtBias d, (bias.elem (mmaFmtBias d) n).1) else none))
    let par (m n : Nat) : List Nat :=
      match epi with
      | none => []
      | some e =>
        let sb := if epiUsesVec e && epiVec e == 1 then pairAt ev n else if epiUsesVec e && epiVec e == 2 then pairAt ev m
          else (epiScale e, epiBias e)
        [sb.1, sb.2, ((SMap.getD res m []).elem (epiXfmt e) n).1, ((SMap.getD gate m []).elem (epiXfmt e) n).1]
    let heldBad := mmaHold d && (List.range k).any (fun kk => (List.range (mmaColdim d)).any (fun c => (heldCell x.active d mirror fresh c kk).2))
    let poison := a1.bad || b1.bad || bias.bad || pv.bad || pw.bad || ev.bad || rowsBad res || rowsBad gate || heldBad
    let lanes : List (Nat × LaneSt) :=
      if mmaSmode run == 2 || mmaHold d || k = 0 then []
      else (mmaLanes d).map (fun l =>
        let x := lastLane run l (fun c kk => if is then (codeA c 64 kk, (rawA c 64 kk).2) else rawB 64 c kk)
          (fun c blk => if is then scA c 64 blk else scB 64 c blk)
        if mirror then (7 - l, x.mirror) else (l, x))
    (s, ⟨problemBlocks run slot mirror acc par, poison, lanes⟩)

/-- The planes after a pass that filled them: its lanes hold their last tiles; what the other lanes and the shadow plane hold is open. (DEDUCED: log 16) -/
def planesAfter (x : AnvSt) (lanes : List (Nat × LaneSt)) : AnvSt :=
  if lanes.isEmpty then x
  else
    let open_ : LaneSt := { LaneSt.zero with unknown := true }
    { x with active := (List.range 8).map (fun l => SMap.getD lanes l open_), shadow := List.replicate 8 open_ }

/-- LANES_BUSY shows the lanes of the pass that runs (R92, R100); Marmer work keeps all eight until M2_OUT has drained it (R97). -/
def State.showLanes (s : State) (u : Nat) : State :=
  let x := s.anvil u
  let mask := match x.passes with
    | [] => if x.marmer.isEmpty then 0 else 0xFF
    | p :: _ => p.probs.foldl (fun m pr => (mmaLanes pr.ins).foldl (fun m l => m ||| 2 ^ l) m) 0
  s.setFld (Reg.ANV_STATUS.LANES_BUSY u)
    (if s.isChecker u then (List.range 8).foldl (fun m l => if bitAt mask l then m + 2 ^ (7 - l) else m) 0 else mask)

/-- A prologue or epilogue copy mismatch (R158). (DEDUCED: log 21) -/
def State.dupMismatch (s : State) (u unit slot : Nat) : State :=
  let s := ((s.count (Reg.ANV_FUS_STATUS.DUP_CNT u) 1).setFld (Reg.ANV_FUS_STATUS.LAST_UNIT u) unit).setFld
    (Reg.ANV_FUS_STATUS.LAST_SLOT u) slot
  s.unitFault u 0x03 u

/-- An injection is armed on a unit: 0 residue, 1 epilogue or output, 2 prologue or decode. -/
def State.armedFor (s : State) (u k : Nat) : Bool := (s.unit u).armed.contains k
def State.spend (s : State) (u k : Nat) : State := s.modUnit u (fun x => { x with armed := setErase x.armed k })
def State.arm (s : State) (u k : Nat) : State := s.modUnit u (fun x => { x with armed := setInsert x.armed k })

/-- The first problem of a pass that has a prologue element, with its slot. -/
def firstPro (ds : List Ins) : Option (Ins × Nat) :=
  ds.zipIdx.find? (fun p => mmaProEn p.1 && !mmaEmpty p.1 && mmaK p.1 != 0 && !heldA p.1)

/-- INJ_PRO is spent by the first prologue element of a pass (R163). -/
def State.spendPro (s : State) (u : Nat) (ds : List Ins) : State :=
  if !s.armedFor u 2 then s
  else
    match firstPro ds with
    | some p => (s.spend u 2).dupMismatch u 1 p.2
    | none => s

/-- A prologue mismatch that the unit's checker reported falls on a row of A of the first problem with a prologue: in a FREE job every output of
that row is poisoned (R158). Which row is open. (DESIGN CHOICE: log 164) -/
def State.proPoison (s : State) (u : Nat) (ds : List Ins) (blocks : List (List Elem)) : State × List (List Elem) :=
  match firstPro ds with
  | some p =>
    if !s.armedFor u 5 then (s, blocks)
    else
      let (s, k) := ((s.spend u 5).setFld (Reg.ANV_FUS_STATUS.LAST_SLOT u) p.2).free
      let hit (e : Elem) : Bool := e.slot == p.2 && e.m == k % mmaM p.1 && (s.unit u).config == 2
      (s, blocks.map (fun b => b.map (fun e => if hit e then { e with bad := true } else e)))
  | none => (s, blocks)

/-- Note the problems of a pass for EMPTY (R135). -/
def State.noteProblems (s : State) (u : Nat) (ds : List Ins) : State :=
  match (s.unit u).job with
  | some id => s.modJob id (fun j => { j with sawProblem := true, sawWork := j.sawWork || ds.any (fun d => !mmaEmpty d) })
  | none => s

/-- Busy and stall cycles of a pass, those that wait for a half of the accumulator array too: no clock is modelled, so the counts are free values
(R75, R81, R100). (DESIGN CHOICE: log 15) -/
def State.spendCycles (s : State) (u : Nat) : State :=
  let (s, b) := s.free
  let (s, w) := s.free
  (s.wr64 (Reg.ANV_BUSY_LO u) ((s.rd64 (Reg.ANV_BUSY_LO u) + b) % 2 ^ 64)).count (Reg.ANV_STALL.CYCLES u) w

/-- The next block, of the oldest pass that has one, enters the half whose turn it is, if that half has drained (R75); `fuel` bounds the
blocks. -/
def AnvSt.enter : Nat → AnvSt → AnvSt
  | 0, x => x
  | k + 1, x =>
    if (if x.turn then x.h1 else x.h0).isSome then x
    else
      match x.passes.find? (fun p => !p.blocks.isEmpty) with
      | none => x
      | some p =>
        let h : Half := ⟨p.no, p.blocks.headD []⟩
        AnvSt.enter k { x with
          h0 := if x.turn then x.h0 else some h
          h1 := if x.turn then some h else x.h1
          turn := !x.turn
          passes := x.passes.map (fun q => if q.no = p.no then { q with blocks := q.blocks.tail } else q) }

/-- A pass begins: its blocks enter the accumulator array half by half. -/
def State.pushPass (s : State) (u : Nat) (p : PassSt) : State :=
  (s.modAnvil u (fun x => AnvSt.enter 2 { x with passes := x.passes ++ [{ p with no := x.nextPass }], nextPass := x.nextPass + 1 })).showLanes u

/-- Issue a pass that has passed its checks. (DESIGN CHOICE: log 14) -/
def State.runPass (s : State) (u index : Nat) (ds : List Ins) : State :=
  let (s, rans) := ds.zipIdx.foldl (fun (acc : State × List Ran) p =>
    let (s, r) := acc.1.runProblem u p.2 p.1 []
    (s, acc.2 ++ [r])) (s, [])
  let probs : List ProbSt := (ds.zip rans).map (fun p => ⟨p.1, (s.epiOf u p.1).getD [], p.2.poison⟩)
  let s := s.eatIf u 0 (rans.any (·.poison))
  let s := (s.spendPro u ds).noteProblems u ds
  let (s, blocks) := s.proPoison u ds (mergeBlocks (rans.map (·.blocks)))
  let s := s.modAnvil u (fun x => { planesAfter x (rans.flatMap (·.lanes)) with pre := none, pend := [] })
  if blocks.isEmpty then s
  else
    let awaited := !(ds.any (fun d => mmaAcc d == 2 && !mmaEmpty d))
    (s.spendCycles u).pushPass u ⟨0, index, probs, blocks, (s.unit u).sig.isSome, awaited, []⟩

end Sys2Proof.Machine
end

