-- ==== Sys2Proof/Machine/Drain.lean ====
section
/-! DEFINITION. Draining blocks: the residue check, received pieces, the epilogue, outputs and their records (R63, R64, R75, R84, R88, R90, R95, R117, R118, R146 to R158). -/

namespace Sys2Proof.Machine

/-! ### Received pieces (R63, R64, R117) -/

/-- Take PIECES from the counters of the problems that wait, in order; none while one of them is short. -/
def takePieces (sc : List Nat) : List ProbSt → Option (List Nat)
  | [] => some sc
  | p :: rest =>
    if mmaAcc p.ins == 2 && !mmaEmpty p.ins then
      let r := mmaRecvSc p.ins
      if sc.getD r 0 < mmaPieces p.ins then none
      else takePieces (sc.set r (sc.getD r 0 - mmaPieces p.ins)) rest
    else takePieces sc rest

/-- Combine the received pieces of one element with its own accumulator. `anchored` says of the slot at an offset of the region whether it was
exported under this ZANCHOR. -/
def combine (d : Ins) (pieces : Cells) (anchored : Nat → List Byte → Bool) (e : Elem) : AccSt :=
  let w := weightOf (mmaFmtA d) (mmaFmtB d) (mmaZanchor d)
  let kind := slotKind (mmaFmtA d) (mmaFmtB d)
  let i := e.m * mmaN d + e.n
  if mmaV d then
    let own := e.acc.fp32 w
    { e.acc with fp := some ((List.range (mmaPieces d)).foldl (fun x p =>
        fadd x (Cells.elem (pieces.drop (p * pieceBytes d)) fmtFp32 i).1) own) }
  else
    (List.range (mmaPieces d)).foldl (fun st p =>
      let at_ := p * pieceBytes d + 16 * i
      let b := ((pieces.drop at_).take 16).map (·.1)
      st.addSlot kind (anchored at_ b) b) e.acc

/-- The slot of a ZB partial at `off` of an Anvil's store was exported under this ZANCHOR, as far as the device knows where it comes from (R64). (DESIGN CHOICE: log 20) -/
def State.sameAnchor (s : State) (u : Nat) (d : Ins) (off : Nat) (b : List Byte) : Bool :=
  match SMap.find? s.anchors (storeAt u off) with
  | some x => !pairZb (mmaFmtA d) (mmaFmtB d) || x.2 != b || x.1 == mmaZanchor d
  | none => true

/-- Read the receive region of one problem and combine it into every element that drains. -/
def State.receive (s : State) (u slot : Nat) (pr : ProbSt) (blocks : List (List Elem)) : State × List (List Elem) × Bool :=
  let d := pr.ins
  if mmaAcc d == 2 && !mmaEmpty d then
    let (s, c) := s.readVec u (regionRecv d)
    let anchored (i : Nat) (b : List Byte) : Bool := s.sameAnchor u d ((regionRecv d).off + i) b
    (s, blocks.map (fun b => b.map (fun e => if e.slot = slot then { e with comb := some (combine d c anchored e) } else e)), c.bad)
  else (s, blocks, false)

/-- A half that holds a block of pass `no`, with the block replaced. -/
def swapHalf (no : Nat) (h : Option Half) (b : List Elem) : Option Half :=
  match h with
  | some x => if x.pass = no then some { x with elems := b } else h
  | none => none

/-- The first drain of a pass: wait for the pieces of every problem, take and combine them. -/
def State.await (s : State) (u : Nat) (p : PassSt) : Option State :=
  if p.awaited then some s
  else
    match takePieces (s.unit u).sc p.probs with
    | none => none
    | some sc =>
      let s := s.modUnit u (fun x => { x with sc := sc })
      let held (h : Option Half) : List Elem := (h.map (·.elems)).getD []
      let (s, blocks, bads) := p.probs.zipIdx.foldl (fun (acc : State × List (List Elem) × List Bool) pr =>
        let (s, b, bad) := acc.1.receive u pr.2 pr.1 acc.2.1
        (s, b, acc.2.2 ++ [bad])) (s, held (s.anvil u).h0 :: held (s.anvil u).h1 :: p.blocks, [])
      let probs := (p.probs.zip bads).map (fun pr => { pr.1 with poison := pr.1.poison || pr.2 })
      let s := s.eatIf u 0 (bads.any id)
      some (s.modAnvil u (fun x => { x with
        h0 := swapHalf p.no x.h0 (blocks.getD 0 []), h1 := swapHalf p.no x.h1 (blocks.getD 1 [])
        passes := x.passes.map (fun q => if q.no = p.no then { p with probs := probs, blocks := blocks.drop 2, awaited := true } else q) }))

/-! ### The residue plane (R84, R88, R90) -/

/-- The element is the one that a mismatch concerns: lane and drained row are recorded, and in a FREE job it goes on poisoned (R88). -/
def State.residueAt (s : State) (u : Nat) (e : Elem) (delivered : Bool) : State × Bool :=
  ((s.setFld (Reg.ANV_RES_STATUS.LAST_LANE u) e.lane).setFld (Reg.ANV_RES_STATUS.LAST_ROW u) e.row, !delivered && (s.unit u).config == 2)

/-- A residue mismatch is counted, flagged and reported (R88). -/
def State.residueFault (s : State) (u : Nat) : State :=
  ((s.count (Reg.ANV_RES_STATUS.MISMATCH_CNT u) 1).event (Reg.ANV_EVT_STATUS.RESIDUE u) u).unitFault u 0x01 u

/-- Check one drained element; the answer says whether it goes on poisoned. A mismatch that the unit's checker has reported concerns the next
element it checks. (DEDUCED: log 21, 34; DESIGN CHOICE: log 164) -/
def State.checkElem (s : State) (u : Nat) (poison : Bool) (e : Elem) : State × Bool :=
  let s := if e.acc.flags.range then (s.count (Reg.ANV_RANGE_CNT.COUNT u) 1).event (Reg.ANV_EVT_STATUS.RANGE u) u else s
  if poison || e.acc.fp.isSome || !s.flag (Reg.ANV_RES_CTL.ENABLE u) then (s, poison)
  else
    let inj := s.armedFor u 0
    let s := s.spend u 0
    if s.armedFor u 3 then (s.spend u 3).residueAt u e false
    else if e.acc.checks inj then (s, false)
    else (s.residueFault u).residueAt u e inj

/-! ### Outputs -/

/-- What one element gives: nothing, bytes at an offset, or a value that waits for its group. -/
inductive OutKind where
  | none
  | bytes (off : Nat) (bs : List Byte)
  | gather (v : Num)
  deriving DecidableEq, Repr

/-- The state that enters the epilogue. -/
def Elem.state (e : Elem) : AccSt := e.comb.getD e.acc

/-- FP32 chain value of an element of a problem with an epilogue (R146, R150), before the gate. -/
def chainOf (p : PassSt) (e : Elem) : Nat :=
  match p.probs[e.slot]? with
  | none => 0
  | some pr =>
    let d := pr.ins
    chainValue pr.epi (e.state.fp32 (weightOf (mmaFmtA d) (mmaFmtB d) (mmaZanchor d))) e.par

/-- Value of the gate for an element (R150). -/
def gateOf (p : PassSt) (block : List Elem) (epi : Ins) (e : Elem) : Nat :=
  if epiGsrc epi then toF32 (decode (epiXfmt epi) (e.par.getD 3 0))
  else
    match block.find? (fun o => o.slot == epiGslot epi && o.m == e.m && o.n == e.n) with
    | some o => chainOf p o
    | none => 0

/-- The partner of a gated element is poisoned. -/
def gatePoison (p : PassSt) (block : List Elem) (epi : Ins) (e : Elem) : Bool :=
  !epi.isEmpty && epiGate epi && !epiGsrc epi && (((p.probs[epiGslot epi]?).map (·.poison)).getD false
    || block.any (fun o => o.slot == epiGslot epi && o.m == e.m && o.n == e.n && o.bad))

/-- Output of one element (R57, R118, R146, R149): the value that converts to FMT_C, or the export. -/
def outputOf (p : PassSt) (block : List Elem) (pr : ProbSt) (e : Elem) : OutKind :=
  let d := pr.ins
  let w := weightOf (mmaFmtA d) (mmaFmtB d) (mmaZanchor d)
  let f := mmaFmtC d
  let at_ := 32 * mmaCOff d + 32 * mmaCStride d * e.m + e.n * (fmtBits f / 8)
  let value (v : Num) : OutKind :=
    if isZb f then .gather v
    else
      let code := encode f (mmaRmode d) (mmaSat d) v
      if fmtBits f = 4 then .gather (.ofInt (signed 4 code)) else .bytes at_ (leBytes (fmtBits f / 8) code)
  if mmaExport d = 1 then .bytes (32 * mmaCOff d + 4 * (e.m * mmaN d + e.n)) (leBytes 4 (e.state.fp32 w))
  else if mmaExport d = 2 then
    .bytes (32 * mmaCOff d + 16 * (e.m * mmaN d + e.n)) (e.state.slot (slotKind (mmaFmtA d) (mmaFmtB d)))
  else if pr.epi.isEmpty then value (e.state.readOut w)
  else if epiReq pr.epi then
    let code := requant pr.epi (e.state.readOut w) (e.par.getD 0 0) (e.par.getD 1 0) (mmaRmode d) f
    if fmtBits f = 4 then .gather (.ofInt (signed 4 code)) else .bytes at_ (leBytes (fmtBits f / 8) code)
  else
    let x := chainOf p e
    let x := if epiGate pr.epi then toF32 ((f32 x).mul (f32 (gateOf p block pr.epi e))) else x
    value (f32 x)

/-- Elements of a group that fills one byte or one ZB block (R45, R152). -/
def groupSize (f : Nat) : Nat := if isZb f then 32 else if fmtBits f = 4 then 2 else 1

/-- The records of an output element (R95) or of an export (R118). -/
def outRecords (d : Ins) (e : Elem) (bs : List Byte) : List (List Byte) :=
  if mmaExport d = 2 then
    let k := slotKind (mmaFmtA d) (mmaFmtB d)
    [sigRecord e.m e.n e.slot (0x10 + k) 0 (fieldAt bs 0 4) (fieldAt bs 4 4),
      sigRecord e.m e.n e.slot (0x20 + k) 0 (fieldAt bs 8 4) (fieldAt bs 12 4)]
  else [sigRecord e.m e.n e.slot (if mmaExport d = 1 then fmtFp32 else mmaFmtC d) 0 (leNat bs) 0]

/-- Feed records to the window of a pass issued inside it (R131). -/
def State.emitAll (s : State) (u : Nat) (window : Bool) (recs : List (List Byte)) : State :=
  if window then recs.foldl (fun s r => s.emit u r) s else s

/-- A completed group is quantised, written and recorded (R50, R95, R115, R152). (DESIGN CHOICE: log 23) -/
def State.writeGroup (s : State) (u : Nat) (window : Bool) (d : Ins) (slot m g : Nat) (vs : List Gathered) : State :=
  let f := mmaFmtC d
  let poison := vs.any (·.poison)
  let row := 32 * mmaCOff d + 32 * mmaCStride d * m
  let nums := (List.range (groupSize f)).filterMap (fun i => (vs.find? (fun v => v.n == groupSize f * g + i)).map Gathered.num)
  if isZb f then
    let (x, codes) := zbQuantise f (mmaRmode d) nums
    let s := s.emitAll u window (codes.zipIdx.map (fun c => sigRecord m (32 * g + c.2) slot f 0 (c.1 + 256 * x) 0))
    let full := codes ++ List.replicate (32 - codes.length) 0
    let bs : List Byte := if fmtBits f = 4 then (List.range 16).map (fun i => BitVec.ofNat 8 (full.getD (2 * i) 0 + 16 * full.getD (2 * i + 1) 0))
      else full.map (BitVec.ofNat 8)
    let s := s.wbBytes u (row + g * (4 * fmtBits f)) bs poison
    s.wbBytes u (32 * mmaCOff d + 32 * mmaCStride d * mmaM d + m * scaleRow (mmaN d) + g) [BitVec.ofNat 8 x] poison
  else
    let codes := nums.map (fun v => unsign 4 v.sig)
    let s := s.emitAll u window (codes.zipIdx.map (fun c => sigRecord m (2 * g + c.2) slot f 0 c.1 0))
    -- the upper half of the last byte of an odd row is open
    let (s, hi) : State × Nat := match codes with
      | [_, h] => (s, h)
      | _ => let (s, k) := s.free; (s, k % 16)
    s.wbBytes u (row + g) [BitVec.ofNat 8 (codes.headD 0 + 16 * hi)] poison

/-- An element enters its group; a full group leaves. -/
def State.gatherElem (s : State) (u : Nat) (p : PassSt) (d : Ins) (e : Elem) (v : Num) (poison : Bool) : State × PassSt :=
  let k := groupSize (mmaFmtC d)
  let g := e.n / k
  let key := 2 ^ 40 * e.slot + 2 ^ 20 * e.m + g
  let vs := SMap.getD p.gather key [] ++ [gatherNum e.n v poison]
  if vs.length = min k (mmaN d - k * g) then
    (s.writeGroup u p.window d e.slot e.m g vs, { p with gather := SMap.erase p.gather key })
  else (s, { p with gather := SMap.insert p.gather key vs })

/-- A run of output bytes on its way to the write buffer. -/
structure Run where
  off : Nat
  bs : List Byte
  poison : Bool
  lane : Nat

/-- Bytes of one element join the run, or the run leaves and a new one starts. -/
def State.joinRun (s : State) (u : Nat) (r : Option Run) (off : Nat) (bs : List Byte) (poison : Bool) (lane : Nat) : State × Option Run :=
  match r with
  | some r =>
    if r.off + r.bs.length = off && r.poison == poison && r.lane == lane then (s, some { r with bs := r.bs ++ bs })
    else (s.wbBytes u r.off r.bs r.poison, some ⟨off, bs, poison, lane⟩)
  | none => (s, some ⟨off, bs, poison, lane⟩)

/-- INJ_EPI is spent by the next epilogue output (R157, R163). An epilogue mismatch that the unit's checker has reported concerns it too, and in a
FREE job the element is written poisoned (R158). (DESIGN CHOICE: log 164) -/
def State.spendEpi (s : State) (u slot : Nat) : State × Bool :=
  if s.armedFor u 4 then ((s.spend u 4).setFld (Reg.ANV_FUS_STATUS.LAST_SLOT u) slot, (s.unit u).config == 2)
  else (if s.armedFor u 1 then (s.spend u 1).dupMismatch u 0 slot else s, false)

/-- Where the slots of ZB partials lie, and under which ZANCHOR they were read out (R64). -/
def State.noteAnchor (s : State) (u : Nat) (d : Ins) (off : Nat) (b : List Byte) : State :=
  if mmaExport d = 2 ∧ pairZb (mmaFmtA d) (mmaFmtB d) then { s with anchors := SMap.insert s.anchors (storeAt u off) (mmaZanchor d, b) } else s

/-- Drain one element. -/
def State.drainElem (u : Nat) (block : List Elem) (acc : State × PassSt × Option Run) (e : Elem) : State × PassSt × Option Run :=
  let (s, p, r) := acc
  match p.probs[e.slot]? with
  | none => acc
  | some pr =>
    let d := pr.ins
    let (s, poison) := s.checkElem u (pr.poison || e.bad) e
    let (s, dup) := s.spendEpi u e.slot
    let poison := poison || dup || gatePoison p block pr.epi e
    if !pr.epi.isEmpty && epiNowrite pr.epi then (s, p, r)
    else
      match outputOf p block pr e with
      | .none => (s, p, r)
      | .bytes off bs =>
        let s := (s.emitAll u p.window (outRecords d e bs)).noteAnchor u d off bs
        let (s, r) := s.joinRun u r off bs poison e.lane
        (s, p, r)
      | .gather v =>
        let (s, p) := s.gatherElem u p d e v poison
        (s, p, r)

/-- The half that was filled first: the one whose turn is next when both are full. -/
def AnvSt.oldest (x : AnvSt) : Option Half := if x.turn then x.h1.or x.h0 else x.h0.or x.h1

/-- The oldest half has drained: it is free for the next block, and a pass without a block left is over (R75). -/
def AnvSt.drained (x : AnvSt) (p : PassSt) : AnvSt :=
  let one := if x.turn then x.h1.isSome else x.h0.isNone
  let x := { x with h0 := if one then x.h0 else none, h1 := if one then none else x.h1
                    passes := x.passes.map (fun (q : PassSt) => if q.no = p.no then p else q) }
  AnvSt.enter 2 { x with passes := x.passes.filter (fun (q : PassSt) => q.no != p.no || !(x.blocksOf q).isEmpty) }

/-- Drain the half that was filled first (R75). -/
def State.drainBlock (s : State) (u : Nat) : State :=
  match (s.anvil u).oldest with
  | none => s
  | some h =>
    match (s.anvil u).passes.find? (fun p => p.no == h.pass) with
    | none => s
    | some p =>
      match s.await u p with
      | none => s
      | some s =>
        let x := s.anvil u
        let b := (x.oldest.map (·.elems)).getD []
        let (s, p, r) := b.foldl (State.drainElem u b) (s, (x.passes.find? (fun (q : PassSt) => q.no == p.no)).getD p, none)
        let s := match r with
          | some r => s.wbBytes u r.off r.bs r.poison
          | none => s
        (s.modAnvil u (fun x => x.drained p)).showLanes u

end Sys2Proof.Machine
end

