-- ==== Sys2Proof/Machine/Anvil.lean ====
section
/-! DEFINITION. The instructions of an Anvil and the completion of their effects (R74, R75, R99, R105, R114 to R126, R133, R160, R161, R244, R371, R376). -/

namespace Sys2Proof.Machine

/-! ### Issue on an Anvil -/

/-- The instruction is one of Z1 (in Marmer mode the row's command has no instruction here). -/
def ifZ1 (s : State) (n : Nat) (go : Issue) : Issue := if s.marmer n then .hold s else go

/-! ### LOADS, SWAP (R74, R119 to R122) -/

def loadsLanes (d : Ins) : Nat × Nat := (insBits d 3 0 3, 2 ^ insBits d 3 3 2)

/-- Chunk positions per physical row of an explicit fill: two for a 4-bit format (R71). (DEDUCED: log 17) -/
def loadsPer (d : Ins) : Nat := if fmtBits (insBits d 8 0 4) = 4 then 2 else 1

/-- Source region of an explicit fill: `ROWS` physical rows of k, `COLS` columns (R120, R121). (DEDUCED: log 17) -/
def loadsRegion (d : Ins) : Region :=
  operandRegion (insH d 4) (insH d 6) (insBits d 8 0 4) (insH d 10) (insB d 9 * loadsPer d) (insFlag d 2 5)

def loadsReasons (d : Ins) : List Nat :=
  let g := loadsLanes d
  let f := insBits d 8 0 4
  let next := insFlag d 2 7
  why (insFlag d 2 6 || insBits d 2 0 5 != 0 || insBits d 3 5 3 != 0 || insBits d 8 4 4 != 0 || !zeroAt d 12 20) 0x03
    ++ (if next then []
        else why (!operandFmt f) 0x04 ++ why (g.1 % g.2 != 0) 0x08
          ++ why (insB d 9 == 0 || 64 < insB d 9 || insH d 10 == 0 || 16 * g.2 < insH d 10 || storeBytes < (loadsRegion d).last) 0x12)

/-- Problems of the next pass, seen in the instruction buffer (R101, R120). -/
def State.nextPass (s : State) (n : Nat) : List Ins :=
  let code := (((List.range (min 64 (s.listCount n - s.pc n - 1))).map (fun i => s.buffered n (s.pc n + 1 + i))).takeWhile Option.isSome).filterMap id
  let rest := code.dropWhile (fun d => !(insOp d == 3 || insOp d == 4))
  let head := rest.takeWhile (fun d => insOp d == 4)
  head ++ (rest.drop head.length).take 1

/-- Source of the first stationary tile of a problem, its block exponents apart (R77, R93, R115, R121). -/
def firstRegions (s : State) (n : Nat) (d0 : Ins) : List Region :=
  let d := s.ownMode n d0
  let k := min (mmaK d) (kChunk (mmaFmtA d) (mmaFmtB d) * foldS d)
  let cols := min (mmaColdim d) (16 * foldP d)
  let full := if mmaSmode d = 1 then regionA d (s.proOf n d) else regionB d
  let kcont := if mmaSmode d = 1 then !mmaTA d else mmaTB d
  let f := if mmaSmode d = 1 then storedA d (s.proOf n d) else mmaFmtB d
  if full.rows = 0 then []
  else { full with rows := if kcont then cols else k, len := rowBytes f (if kcont then k else cols), scaleRows := 0 }
    :: (if full.scaleRows = 0 then [] else [⟨full.off + full.rows * full.stride, full.scaleLen, cols, ceilDiv k 32, 0, 0⟩])

/-- The first fill of the next pass (R120): its bytes as they are read now. (DEDUCED: log 18) -/
def State.loadsNext (s : State) (n : Nat) : Issue :=
  let ds := s.nextPass n
  if ds.any (fun d => mmaSmode (s.ownMode n d) == 2 || mmaHold d) || ds.isEmpty then .done s
  else
    let rs := (ds.filter (fun d => !mmaEmpty d && mmaK d != 0)).flatMap (firstRegions s n)
    if s.mustWait n (rs.flatMap Region.ranges) [] then .hold s
    else
      let (s, m) := rs.foldl (fun (acc : State × SMap (Byte × Bool)) r =>
        let (s, rows) := acc.1.seqRows n r.off r.stride r.rows r.len false
        (s, rows.foldl (fun m row => row.2.zipIdx.foldl (fun m c => SMap.insert m (r.off + row.1 * r.stride + c.2) c.1) m) acc.2)) (s, [])
      .done (s.modAnvil n (fun x => { x with pre := some m, filling := true }))

/-- An explicit fill: the rows and columns it names, zero elsewhere in its lanes (R120); a paired checker holds it mirrored (R92). (DEDUCED: log 17) -/
def State.loadsFill (s : State) (n : Nat) (d : Ins) : State :=
  let (b, g) := loadsLanes d
  let f := insBits d 8 0 4
  let per := loadsPer d
  let k := insB d 9 * per
  let (s, o) := s.readOpnd n (loadsRegion d) f (insFlag d 2 5)
  let lane (i : Nat) : LaneSt :=
    fillLane (1000 * (64 * per) + fmtBits f) (64 * per) k 0
      ((List.range 16).filterMap (fun c => if 16 * i + c < insH d 10 then some (16 * i + c) else none)) (isZb f) o.elem o.scale
  let mirror := s.isChecker n
  s.modAnvil n (fun x => { x with filling := true, shadow := x.shadow.zipIdx.map (fun l =>
    let i := if mirror then 7 - l.2 else l.2
    if b ≤ i ∧ i < b + g then (if mirror then (lane (i - b)).mirror else lane (i - b)) else l.1) })

/-- The Z1 form of M2_LDW: a fill of all lanes (R97, R99). (DESIGN CHOICE: log 25) -/
def m2Load (d : Ins) : Ins :=
  let z := m2Ins 1 d
  let z := (((z.set 2 (BitVec.ofNat 8 (insBits z 2 5 1 * 32))).set 3 0x18).set 8 (BitVec.ofNat 8 (insBits z 8 0 4)))
  z.take 12 ++ List.replicate 20 0

/-- Formats of M2 operands: INT8, FP16, BF16 (R99). -/
def m2Format (f : Nat) : Bool := f == 1 || f == 4 || f == 5

/-- LOADS (R120, R121); M2_LDW in Marmer mode (R99). -/
def execLoads (n : Fin 64) (s : State) : Host.Outcome State Fault Refusal :=
  .next (s.issue n [1] (fun d0 s =>
    let d := if s.marmer n then m2Load d0 else d0
    Issue.check s n (if s.marmer n && !m2Format (insBits d 8 0 4) then [0x11] else loadsReasons d) (
      if insFlag d 2 7 then s.loadsNext n
      else if s.mustWait n (loadsRegion d).ranges [] then .hold s
      else .done (s.loadsFill n d))))

/-- Exchange the planes (R74). -/
def AnvSt.exchange (x : AnvSt) : AnvSt := { x with active := x.shadow, shadow := x.active }

/-- SWAP (R74, R122): at once, or when the fill completes. (DESIGN CHOICE: log 15) -/
def execSwap (n : Fin 64) (s : State) : Host.Outcome State Fault Refusal :=
  .next (s.issue n [2] (fun d s =>
    ifZ1 s n (Issue.check s n (why (!zeroAt d 2 30) 0x03) (
      if (s.anvil n).filling then
        let (s, w) := s.free
        .done ((s.modAnvil n (fun x => { x with swapWait := true })).count (Reg.ANV_STALL.CYCLES n) w)
      else .done (s.modAnvil n AnvSt.exchange)))))

/-- SHADOW_FILL_COMPLETE (R74): the 64th row is written; a SWAP that waits executes. -/
def execShadowFillComplete (n : Fin 64) (s : State) : Host.Outcome State Fault Refusal :=
  .next (if !(s.anvil n).filling then s
    else s.modAnvil n (fun x => { (if x.swapWait then x.exchange else x) with filling := false, swapWait := false }))

/-! ### Passes (R99, R110, R114, R116) -/

/-- MMA_P (R116): one problem of a pass that goes on. -/
def execMmaP (n : Fin 64) (s : State) : Host.Outcome State Fault Refusal :=
  .next (s.issue n [4] (fun d s =>
    ifZ1 s n (.done (s.modAnvil n (fun x => { x with
      pendAt := if x.pend.isEmpty then s.pc n else x.pendAt, pend := x.pend ++ [d] })))))

/-- The Z1 form of M2_MAC: WS over all lanes, empty epilogue (R97, R99). (DESIGN CHOICE: log 25) -/
def m2Mac (d : Ins) : Ins :=
  let z := m2Ins 3 d
  let z := (z.set 2 (BitVec.ofNat 8 (bits (insB z 2) 4 2 * 16))).set 3 0x18
  let z := ((z.set 11 0).set 12 0).set 13 0
  (((z.set 28 0).set 29 0).set 30 0).set 0 (BitVec.ofNat 8 m2Version)

/-- M2 formats of operands: INT8, FP16, BF16 (R99). -/
def m2Pair (d : Ins) : Bool := [0x11, 0x44, 0x55].contains (insB (m2Mac d) 10)

/-- Products of the longest Marmer chain that is open (R53). -/
def marmerChain (els : List Elem) : Nat := els.foldl (fun m e => max m (e.par.headD 0)) 0

/-- Reasons of an M2_MAC (R53, R87, R99, R112). (DESIGN CHOICE: log 158) -/
def State.m2Reasons (s : State) (n : Nat) (d : Ins) : List Nat :=
  let z := m2Mac d
  why (2 ^ 23 < marmerChain (s.anvil n).marmer + mmaK z) 0x0C
    ++ why (pairBf16 (mmaFmtA z) (mmaFmtB z) && (s.unit n).config == 1) 0x0F
    ++ why (!m2Pair d) 0x11
    ++ why (storeBytes < (regionA z none).last || storeBytes < (regionB z).last) 0x12

/-- An accumulator whose content is open. (DESIGN CHOICE: log 25) -/
def freeAcc (fp : Bool) (k : Nat) : AccSt := ⟨k, .none, mod127 k, .none, if fp then some (k % 2 ^ 32) else none⟩

/-- M2_MAC: its chains go on from the accumulators that M2_OUT has not drained, products joining them in the order of R58 and R78 (R97, R99). What
they hold for a MAC of another operand pair is open. (DESIGN CHOICE: log 25) -/
def State.m2Run (s : State) (n : Nat) (d : Ins) : State :=
  let z := m2Mac d
  let x := s.anvil n
  let (s, k) := s.free
  let old := if x.m2.all (fun o => insB (m2Mac o) 10 == insB z 10) then x.marmer
    else x.marmer.map (fun e => { e with acc := freeAcc (pairBf16 (mmaFmtA z) (mmaFmtB z)) k })
  let (s, r) := s.runProblem n 0 z old
  let s := (s.eatIf n 0 r.poison).noteProblems n [z]
  let before (e : Elem) : Option Elem := old.find? (fun o => o.m == e.m && o.n == e.n)
  let fresh := r.blocks.flatten.map (fun e => { e with
    par := [((before e).map (fun o => o.par.headD 0)).getD 0 + mmaK z], bad := r.poison || ((before e).map (·.bad)).getD false })
  let kept := old.filter (fun o => !(fresh.any (fun e => e.m == o.m && e.n == o.n)))
  ((s.modAnvil n (fun x => { planesAfter x r.lanes with marmer := kept ++ fresh, m2 := some d })).spendCycles n).showLanes n

/-- MMA (R110, R114, R116): the pass is checked as a whole, waits for what it reads, and runs. M2_MAC in Marmer mode (R99). -/
def execMma (n : Fin 64) (s : State) : Host.Outcome State Fault Refusal :=
  .next (s.issue n [3, 2] (fun d s =>
    if s.marmer n then
      if insB d 0 != 2 then .hold s
      else
        Issue.check s n (s.m2Reasons n d) (
          if s.mustWait n ((readRegions (m2Mac d) none none).flatMap Region.ranges) [] then .hold s else .done (s.m2Run n d))
    else if insOp d != 3 then .hold s
    else
      let x := s.anvil n
      let ds := x.pend ++ [d]
      let index := if x.pend.isEmpty then s.pc n else x.pendAt
      let rs := s.passReasons n ds
      if !rs.isEmpty then .refuse s rs index
      else if s.mustWait n (ds.flatMap (fun o => (readRegions o (s.proOf n o) (s.epiOf n o)).flatMap Region.ranges)) [] then .hold s
      else .done (s.runPass n index ds)))

/-- EPI (R123). -/
def execEpi (n : Fin 64) (s : State) : Host.Outcome State Fault Refusal :=
  .next (s.issue n [5] (fun d s =>
    ifZ1 s n (Issue.check s n (epiReasons d)
      (.done (s.modAnvil n (fun x => { x with slots := SMap.insert x.slots (8 * insBits d 3 7 1 + insBits d 3 0 3) d }))))))

/-- The Z1 form of M2_OUT: the operand pair of the MACs it drains, with the integer requantiser (MUL 1, ZP 0) or the FP conversion, rounded by
ANV_MARMER_CFG.ROUND (R99, R149). (DESIGN CHOICE: log 25) -/
def State.m2Out (s : State) (n : Nat) (d : Ins) : ProbSt × List Nat :=
  let z := (m2Ins 3 d).set 10 (((s.anvil n).m2.map (fun o => (m2Mac o).getD 10 0)).getD 0x11)
  let rm := if s.flag (Reg.ANV_MARMER_CFG.ROUND n) then 0 else 1
  let f := insBits z 11 0 4
  let int := f == 1
  let h := putBits (putBits (insH z 12) 13 3 0) 9 3 rm
  let z := (((z.set 11 (BitVec.ofNat 8 f)).set 12 (BitVec.ofNat 8 h)).set 13 (BitVec.ofNat 8 (h / 256))).set 28 0
  let epi : Ins := if int then leBytes 1 1 ++ leBytes 1 5 ++ [0, 0, 0x08] ++ List.replicate 27 0 else []
  (⟨z, epi, false⟩, [1, insB z 30 % 64])

/-- M2_OUT comes to issue: the accumulators become a pass that drains (R99). -/
def State.m2Drain (s : State) (n : Nat) : State :=
  s.issue n [3] (fun d s =>
    if !s.marmer n then .hold s
    else
      let (pr, par) := s.m2Out n d
      let els := (s.anvil n).marmer
      if !([1, 4, 5].contains (mmaFmtC pr.ins)) then .refuse s [0x11] (s.pc n)
      else if els.isEmpty then .done s
      else
        let k := (els.foldl (fun m e => max m e.m) 0) / 64 + 1
        let blocks := (List.range k).map (fun i => (els.filter (fun e => e.m / 64 == i)).map (fun e => { e with par := par }))
        let p : PassSt := ⟨0, s.pc n, [pr], blocks.filter (fun b => !b.isEmpty), (s.unit n).sig.isSome, true, []⟩
        .done ((s.modAnvil n (fun x => { x with marmer := [], m2 := none })).pushPass n p))

/-- BLOCK_DRAIN (R75); in Marmer mode M2_OUT begins its drain (R99). (DESIGN CHOICE: log 2) -/
def execBlockDrain (n : Fin 64) (s : State) : Host.Outcome State Fault Refusal :=
  .next (if s.marmer n && (s.anvil n).passes.isEmpty then s.m2Drain n else s.drainBlock n)

/-- WRITE_BUFFER_DRAIN (R244). -/
def execWriteBufferDrain (n : Fin 64) (s : State) : Host.Outcome State Fault Refusal := .next (s.wbDrainOne n)

/-! ### STORE (R124, R126, R248, R360, R508) -/

/-- The record of an effect in PAIRED work (R360). -/
def State.effectRecord (s : State) (u op srcOff value tail : Nat) : State :=
  if (s.unit u).config = 0 then s.emit u (sigRecord (s.pc u) srcOff 0xFE op 0 value tail) else s

/-- R508: every byte of [a, a + n) passes the BOUNDS test, for which DRAM is the whole range on both codes. -/
def boundsSpan (a n : Nat) : Bool := spanIn (mapRanges 0x1000000000) a n

def inCrucible (a n : Nat) : Bool := 0x2000000000 ≤ a && a + n ≤ 0x2004000000

def storeRows (d : Ins) : Nat := insH d 6
def storeLen (d : Ins) : Nat := 32 * insH d 8
def storeDst (d : Ins) (r : Nat) : Nat := insA d 16 + r * insW d 12
def storeSrc (d : Ins) : List (Nat × Nat) :=
  (List.range (storeRows d)).map (fun r => (32 * insH d 4 + r * (32 * insH d 10), 32 * insH d 4 + r * (32 * insH d 10) + storeLen d))

/-- Part of a fabric range that lies in the own store, as offsets. -/
def ownPart (n a len : Nat) : List (Nat × Nat) :=
  if storeAt n 0 ≤ a ∧ a < storeAt n storeBytes then [(a - storeAt n 0, a - storeAt n 0 + len)] else []

def State.storeReasons (s : State) (n : Nat) (d : Ins) : List Nat :=
  let rows := List.range (storeRows d)
  why (insBits d 2 0 5 != 0 || !zeroAt d 21 11) 0x03
    ++ why (insFlag d 2 7 && (s.unit n).config == 0) 0x0D
    ++ why (insFlag d 2 5 && !insFlag d 2 7) 0x0E
    ++ why (storeRows d != 0 && (storeLen d == 0 || (storeSrc d).any (fun r => storeBytes < r.2)
        || rows.any (fun r => !boundsSpan (storeDst d r) (storeLen d)))) 0x12
    ++ why ((storeRows d != 0 && insA d 16 % 32 != 0) || (1 < storeRows d && insW d 12 % 32 != 0)) 0x13
    ++ why (insFlag d 2 5 && rows.any (fun r => !inCrucible (storeDst d r) (storeLen d))) 0x19

/-- What copying a part of a STORE comes to: some unit was poisoned, some write failed. -/
structure Moved where
  poison : Bool
  failed : Bool

/-- Two parts together. -/
def Moved.and (a b : Moved) : Moved := ⟨a.poison || b.poison, a.failed || b.failed⟩

/-- Add eight FP32 words to a unit of the Crucible, counted in CRU_ATOMIC (R248, R267): poison of either side is consumed and written. -/
def State.atomicUnit (s : State) (n a : Nat) (bs : List Byte) (poison : Bool) : State × Moved :=
  match s.access (s.unitReq n) a true true with
  | (s, some _) => (s, ⟨poison, true⟩)
  | (s, none) =>
    let (s, old) := s.readStored a
    let bad := poison || old.poison
    let s := s.eatIf n a bad
    let sum := (List.range 8).flatMap (fun i => leBytes 4 (fadd (fieldAt old.bytes (4 * i) 4) (fieldAt bs (4 * i) 4)))
    (((s.storeUnit a sum bad).spendInject a).count Reg.CRU_ATOMIC.COUNT 8, ⟨bad, false⟩)

/-- Copy one row unit by unit (R241). -/
def State.storeRow (s : State) (n : Nat) (atomic : Bool) (src dst len : Nat) : State × Moved :=
  (List.range (len / 32)).foldl (fun (acc : State × Moved) i =>
    let (s, c) := acc.1.seqRead n (src + 32 * i) 32 true
    let bad := c.any (·.2)
    let bs := c.map (·.1)
    let (s, r) : State × Moved := if atomic then s.atomicUnit n (dst + 32 * i) bs bad
      else let (s, e) := s.writeUnit (s.unitReq n) (dst + 32 * i) bs bad; (s, ⟨bad, e.isSome⟩)
    (s, acc.2.and r)) (s, ⟨false, false⟩)

/-- What a STORE writes in its own Billet store. -/
def storeOwn (n : Nat) (d : Ins) : List (Nat × Nat) := (List.range (storeRows d)).flatMap (fun r => ownPart n (storeDst d r) (storeLen d))

/-- Copy every row of a STORE. -/
def State.storeAll (s : State) (n : Nat) (d : Ins) : State × Moved :=
  (List.range (storeRows d)).foldl (fun (acc : State × Moved) r =>
    let (s, b) := acc.1.storeRow n (insFlag d 2 5) (32 * insH d 4 + r * (32 * insH d 10)) (storeDst d r) (storeLen d)
    (s, acc.2.and b)) (s, ⟨false, false⟩)

/-- STORE (R104, R124). (DESIGN CHOICE: log 14; DEDUCED: log 24) -/
def execStore (n : Fin 64) (s : State) : Host.Outcome State Fault Refusal :=
  .next (s.issue n [6] (fun d s =>
    ifZ1 s n (Issue.check s n (s.storeReasons n d) (
      let own := storeOwn n d
      if s.mustWait n (storeSrc d) own then .hold s
      else
        let s := s.effectRecord n 6 (insH d 4) (insW d 16) (storeRows d)
        if s.isChecker n || storeRows d = 0 then .done s
        else
          let (s, r) := (s.spoil n own).storeAll n d
          .done (s.modAnvil n (fun x => { x with stores := x.stores ++ [⟨insFlag d 2 6, insB d 3, r.poison, r.failed⟩] }))))))

/-! ### Publication (R311, R371, R375, R376) -/

/-- Age table entry of a result: stream mask and limit in µs. -/
def State.ageEntry (s : State) (i : Nat) : Nat × Nat := (s.fld (Reg.SFI_AGE_MASK.STREAMS (i % 256)), s.fld (Reg.SFI_AGE_LIMIT.LIMIT_US (i % 256)))

/-- Age of a result in ns, saturating, and whether it breaches its limit: `caps` are the captures at the job's launch strike (R376). -/
def ageOf (mask limit now : Nat) (caps : SMap Nat) : Nat × Bool :=
  let streams := (List.range 24).filter (bitAt mask)
  if streams.isEmpty then (0, false)
  else if streams.any (fun k => (SMap.find? caps k).isNone) then (0xFFFFFFFF, true)
  else
    let oldest := streams.foldl (fun m k => min m (SMap.getD caps k 0)) (SMap.getD caps (streams.headD 0) 0)
    (min 0xFFFFFFFF (now - oldest), limit * 1000 < now - oldest)

/-- A STORE with PUBLISH completes (R311, R371, R376). -/
def State.publish (s : State) (n result : Nat) (poison : Bool) : State :=
  let x := s.unit n
  let s := if x.config = 1 && !x.publishedNow && !x.goldOk then s.goldMissing n else s
  let s := s.modUnit n (fun x => { x with publishedNow := true })
  match x.job with
  | none => s
  | some id =>
    match s.jobById id with
    | none => s
    | some j =>
      let i := j.ageBase + result
      let e := s.ageEntry i
      let bound := j.strikeBound
      let (ns, breach) := if bound then ageOf e.1 e.2 s.nowNs (j.captures.getD s.captures) else (0, false)
      let s := if breach then
          ((((s.count Reg.SFI_AGE_STATUS.BREACH_CNT 1).setFld Reg.SFI_AGE_STATUS.LAST_ENTRY (i % 256)).setFld Reg.SFI_AGE_LAST.AGE_NS ns).sfiEvent 5).fault 0x29 (i % 256) (j.config < 2) (some 0)
            (some (unitCode n))
        else s
      let s := if bound then (s.evrHist 5 ns 0 1000000).evrExtreme 10 true (ns / 1000) else s
      s.modJob id (fun j => { j with
        published := setInsert j.published result
        poisoned := j.poisoned || poison
        late := j.late || breach
        age := max j.age ns })

/-- STORE_COMPLETE (R105, R311, R376): the oldest STORE is acknowledged; one whose write failed has not completed, and publishes nothing. (DESIGN CHOICE: log 2) -/
def execStoreComplete (n : Fin 64) (s : State) : Host.Outcome State Fault Refusal :=
  .next (match (s.anvil n).stores with
    | [] => s
    | x :: rest =>
      let s := s.modAnvil n (fun a => { a with stores := rest })
      if x.publish && !x.failed then s.publish n x.result x.poison else s)

/-! ### SEND (R125, R160, R161, R434) -/

def sendLen (d : Ins) : Nat := 32 * (if insH d 6 = 0 then 65536 else insH d 6)
def sendDst (d : Ins) : Nat := insBits d 3 0 6

def State.sendReasons (s : State) (n : Nat) (d : Ins) : List Nat :=
  why (insBits d 2 0 4 != 0 || insBits d 10 0 4 != 0 || !zeroAt d 12 20) 0x03
    ++ why (insBits d 2 4 2 == 3) 0x0B
    ++ why (insFlag d 2 7 && (s.unit n).config == 0) 0x0D
    ++ why (insBits d 2 4 2 == 1 && !insFlag d 2 7) 0x0E
    ++ why (storeBytes < 32 * insH d 4 + sendLen d || storeBytes < 32 * insH d 8 + sendLen d) 0x12

/-- The destination is held by the same job in this strike; a list without a job reaches an Anvil that no accepted job holds (R102, R160). -/
def State.heldBySame (s : State) (u dst : Nat) : Bool :=
  match (s.unit u).job with
  | some id => ((s.jobById id).map (fun (j : Job) => j.units.contains dst)).getD false
  | none => !(s.jobs.any (fun j => j.launchStrike.isSome && j.units.contains dst))

/-- Code of R161 for a failed access. -/
def sendCode : AccErr → Nat
  | .generation => 3 | .collision => 4 | .decode => 5 | .firewall => 6

/-- Write the data of a local SEND; it ends at the first failure (R160, R161). (DEDUCED: log 24) -/
def State.sendUnits : Nat → Nat → Nat → Nat → State → State × Nat
  | 0, _, _, _, s => (s, 0)
  | k + 1, n, src, dst, s =>
    let (s, c) := s.seqRead n src 32 true
    match s.writeUnit (s.unitReq n) dst (c.map (·.1)) (c.any (·.2)) false with
    | (s, some e) =>
      let s := if e = .collision then s.report ⟨0x08, (dst - 0x2100000000) / 0x400000, 1, some (s.unit n).ctx, some (unitCode n), dst, 0⟩ else s
      (s, sendCode e)
    | (s, none) => State.sendUnits k n (src + 32) (dst + 32) s

/-- The next tag of a SEND of this Anvil. -/
def nextSend (l : List SendSt) : Nat := l.foldl (fun m x => max m (x.tag + 1)) 0

/-- A SEND is in flight; OUTSTANDING follows (R163). -/
def State.pushSend (s : State) (n : Nat) (x : SendSt) : State :=
  let s := s.modAnvil n (fun a => { a with sends := a.sends ++ [x] })
  s.setFld (Reg.ANV_SEND_STATUS.OUTSTANDING n) (s.anvil n).sends.length

/-- What is known of the slots in a range goes with a copy of it, to the store of the Anvil and of its paired checker (R64, R246). -/
def State.moveAnchors (s : State) (src dst len n : Nat) : State :=
  let found := s.anchors.filter (fun e => src ≤ e.1 && e.1 < src + len)
  { s with anchors := ([dst] ++ (if s.isPaired n && n % 2 == 0 then [dst + 0x400000] else [])).foldl (fun m d =>
      found.foldl (fun m e => SMap.insert m (d + (e.1 - src)) e.2) m) s.anchors }

/-- A SEND to an Anvil on this die. -/
def State.sendLocal (s : State) (n : Nat) (d : Ins) : State :=
  let dst := sendDst d
  let tag := nextSend (s.anvil n).sends
  let (s, code) := if !s.heldBySame n dst then (s, 2)
    else State.sendUnits (sendLen d / 32) n (32 * insH d 4) (storeAt dst (32 * insH d 8)) s
  let s := s.moveAnchors (storeAt n (32 * insH d 4)) (storeAt dst (32 * insH d 8)) (sendLen d) dst
  let s := if code = 0 && insB d 11 != 0 then
      { s with incs := s.incs ++ [⟨n, some dst, dst, insBits d 10 4 4, insB d 11, (s.unit n).ctx, some tag⟩] }
    else s
  s.pushSend n ⟨some dst, 0, tag, insBits d 10 4 4, insB d 11, code, true⟩

/-- Cut data units into messages of at most ten. -/
def tens : Nat → List DataUnit → List (List DataUnit)
  | 0, _ => []
  | _, [] => []
  | k + 1, l => l.take 10 :: tens k (l.drop 10)

/-- A SEND to a Narultil peer (R434, R436): data messages, then the increment that counts them; a peer in reset holds no job (R420). -/
def State.sendPeer (s : State) (n : Nat) (d : Ins) : State :=
  let dst := sendDst d
  match s.routeTo (insBits d 3 6 2) with
  | none => s.pushSend n ⟨none, 0, nextSend (s.anvil n).sends, insBits d 10 4 4, insB d 11, 1, true⟩
  | some q =>
    if (s.link q).resetting then s.pushSend n ⟨none, q, nextSend (s.anvil n).sends, insBits d 10 4 4, insB d 11, 2, true⟩ else
    let (s, units) := (List.range (sendLen d / 32)).foldl (fun (acc : State × List DataUnit) i =>
      let (s, c) := acc.1.seqRead n (32 * insH d 4 + 32 * i) 32 true
      (s, acc.2 ++ [⟨c.map (·.1), c.any (·.2)⟩])) (s, [])
    let tag := (s.link q).nextTag
    let s := s.modLink q (fun l => { l with nextTag := (l.nextTag + 1) % 65536 })
    let x := s.unit n
    let stream := 256 * x.ctx + unitCode n
    let msgs := tens (units.length + 1) units
    let s := msgs.zipIdx.foldl (fun s m =>
      s.linkSend q (s.mkMsg q 0x01 stream x.gen tag (dst * 2 ^ 32 + (insH d 8 + 10 * m.2) % 65536) m.1.length m.1)) s
    let s := s.linkSend q (s.mkMsg q 0x02 stream x.gen tag (dst * 2 ^ 32 + 256 * insB d 11 + insBits d 10 4 4) msgs.length [])
    s.pushSend n ⟨none, q, tag, insBits d 10 4 4, insB d 11, 0, false⟩

/-- SEND (R104, R125, R160): at most 32 in flight. (DESIGN CHOICE: log 14) -/
def execSend (n : Fin 64) (s : State) : Host.Outcome State Fault Refusal :=
  .next (s.issue n [7] (fun d s =>
    ifZ1 s n (Issue.check s n (s.sendReasons n d) (
      let own := if !insFlag d 2 6 && sendDst d == n.val then [(32 * insH d 8, 32 * insH d 8 + sendLen d)] else []
      if 32 ≤ (s.anvil n).sends.length || s.mustWait n [(32 * insH d 4, 32 * insH d 4 + sendLen d)] own then .hold s
      else
        let s := s.effectRecord n 7 (insH d 4) (insH d 8 + 65536 * sendDst d) (insH d 6)
        if s.isChecker n then .done s
        else .done (if insFlag d 2 6 then s.sendPeer n d else (s.spoil n own).sendLocal n d)))))

/-- A SEND or SYNC that could not be delivered (R129, R161). -/
def State.sendFailed (s : State) (n code : Nat) : State :=
  let s := (s.count (Reg.ANV_SEND_STATUS.FAIL_CNT n) 1).setFld (Reg.ANV_SEND_STATUS.LAST_REASON n) code
  s.unitFault n 0x07 n

/-- A SEND may complete: its end is known and its increment, if any, has been applied. -/
def State.sendReady (s : State) (n : Nat) (x : SendSt) : Bool :=
  x.ended && !(s.incs.any (fun i => i.src == n && i.send == some x.tag))

/-- SEND_COMPLETE (R105, R161): the oldest SEND whose end is known completes at its source. -/
def execSendComplete (n : Fin 64) (s : State) : Host.Outcome State Fault Refusal :=
  .next (match (s.anvil n).sends.find? (s.sendReady n) with
    | none => s
    | some x =>
      let s := s.modAnvil n (fun a => { a with sends := a.sends.erase x })
      let s := s.setFld (Reg.ANV_SEND_STATUS.OUTSTANDING n) (s.anvil n).sends.length
      if x.code = 0 then s else s.sendFailed n x.code)

/-! ### SCRUB (R133) -/

def scrubLen (d : Ins) : Nat := 32 * (if insH d 6 = 0 then 65536 else insH d 6)

/-- Zero one 32-byte unit through the plane port. (DEDUCED: log 42) -/
def State.scrubUnit (s : State) (n off : Nat) : State :=
  if s.bankPort n (bankOf off) != 0 then s.planeCollision n off 0
  else (s.zeroRange (storeAt n off) 32).spendStore n (storeAt n off / 32)

/-- Reasons of a SCRUB. -/
def scrubReasons (d : Ins) : List Nat :=
  why (insB d 2 != 0 || insB d 3 != 0 || !zeroAt d 8 24) 0x03 ++ why (storeBytes < 32 * insH d 4 + scrubLen d) 0x12

/-- SCRUB (R104, R133). -/
def execScrub (n : Fin 64) (s : State) : Host.Outcome State Fault Refusal :=
  .next (s.issue n [13] (fun d s =>
    ifZ1 s n (Issue.check s n (scrubReasons d) (
      let w := [(32 * insH d 4, 32 * insH d 4 + scrubLen d)]
      if s.mustWait n [] w || !(s.anvil n).wb.isEmpty then .hold s
      else .done ((List.range (scrubLen d / 32)).foldl (fun s i => s.scrubUnit n (32 * insH d 4 + 32 * i)) (s.spoil n w))))))

end Sys2Proof.Machine
end

