-- ==== Sys2Proof/Machine/Crypto.lean ====
section
/-! DEFINITION. AES-256-GCM, which protects the messages of the depot gate (R449). -/

namespace Sys2Proof.Machine

/-- Product in the field of AES. -/
def gmul (a b : Nat) : Nat :=
  ((List.range 8).foldl (fun (x : Nat × Nat) i =>
    (if bitAt b i then x.1 ^^^ x.2 else x.1, if bitAt x.2 7 then (x.2 * 2) % 256 ^^^ 0x1B else x.2 * 2)) (0, a)).1

/-- Inverse in that field (0 for 0): the 254th power. -/
def ginv (x : Nat) : Nat :=
  let sq (y : Nat) : Nat := gmul y y
  let x2 := sq x
  let x4 := sq x2
  let x8 := sq x4
  let x16 := sq x8
  let x32 := sq x16
  let x64 := sq x32
  gmul (gmul (gmul x2 x4) (gmul x8 x16)) (gmul (gmul x32 x64) (sq x64))

/-- The S-box. -/
def aesSbox (x : Nat) : Nat :=
  let b := ginv x
  let rot (k : Nat) : Nat := (b * 2 ^ k) % 256 + b / 2 ^ (8 - k)
  b ^^^ rot 1 ^^^ rot 2 ^^^ rot 3 ^^^ rot 4 ^^^ 0x63

def xorBytes (a b : List Nat) : List Nat := List.zipWith (· ^^^ ·) a b

/-- The 60 words of the key schedule. -/
def aesWords (key : List Nat) : List (List Nat) :=
  let first := (List.range 8).map (fun i => (key.drop (4 * i)).take 4)
  ((List.range 52).foldl (fun (acc : List (List Nat) × Nat) k =>
    let i := k + 8
    let t := acc.1.getD (i - 1) []
    let (t, rcon) :=
      if i % 8 = 0 then (xorBytes ((t.drop 1 ++ t.take 1).map aesSbox) [acc.2, 0, 0, 0], gmul acc.2 2)
      else if i % 8 = 4 then (t.map aesSbox, acc.2) else (t, acc.2)
    (acc.1 ++ [xorBytes (acc.1.getD (i - 8) []) t], rcon)) (first, 1)).1

/-- Round keys of 16 bytes. -/
def aesKeys (key : List Nat) : List (List Nat) :=
  let w := aesWords key
  (List.range 15).map (fun r => ((w.drop (4 * r)).take 4).flatten)

def aesShiftRows (st : List Nat) : List Nat := (List.range 16).map (fun i => st.getD ((i + 4 * (i % 4)) % 16) 0)

def aesMixColumns (st : List Nat) : List Nat :=
  (List.range 16).map (fun i =>
    let at_ (k : Nat) : Nat := st.getD (i / 4 * 4 + (i + k) % 4) 0
    gmul (at_ 0) 2 ^^^ gmul (at_ 1) 3 ^^^ at_ 2 ^^^ at_ 3)

/-- One block under a key schedule. -/
def aesBlock (ks : List (List Nat)) (b : List Nat) : List Nat :=
  let st := (List.range 13).foldl (fun st r => xorBytes (aesMixColumns (aesShiftRows (st.map aesSbox))) (ks.getD (r + 1) []))
    (xorBytes b (ks.headD []))
  xorBytes (aesShiftRows (st.map aesSbox)) (ks.getD 14 [])

def natOfBytes (l : List Nat) : Nat := l.foldl (fun a b => a * 256 + b) 0
def bytesOfNat (n v : Nat) : List Nat := ((List.range n).map (fun i => v / 256 ^ i % 256)).reverse

/-- Product of GHASH. -/
def ghashMul (x y : Nat) : Nat :=
  ((List.range 128).foldl (fun (a : Nat × Nat) i =>
    (if bitAt x (127 - i) then a.1 ^^^ a.2 else a.1, if a.2 % 2 = 1 then a.2 / 2 ^^^ 0xE1 * 2 ^ 120 else a.2 / 2)) (0, y)).1

/-- Blocks of 16 bytes, the last filled with zeros. -/
def gcmBlocks (l : List Nat) : List Nat :=
  (List.range ((l.length + 15) / 16)).map (fun i =>
    let b := (l.drop (16 * i)).take 16
    natOfBytes b * 256 ^ (16 - b.length))

def ghash (h : Nat) (aad text : List Nat) : Nat :=
  (gcmBlocks aad ++ gcmBlocks text ++ [aad.length * 8 * 2 ^ 64 + text.length * 8]).foldl (fun y b => ghashMul (y ^^^ b) h) 0

/-- Counter mode from counter 2. -/
def gcmStream (ks : List (List Nat)) (nonce : Nat) (text : List Nat) : List Nat :=
  (List.range ((text.length + 15) / 16)).flatMap (fun i =>
    xorBytes ((text.drop (16 * i)).take 16) (aesBlock ks (bytesOfNat 16 (nonce * 2 ^ 32 + i + 2))))

def gcmTag (ks : List (List Nat)) (nonce : Nat) (aad text : List Nat) : List Nat :=
  let h := natOfBytes (aesBlock ks (List.replicate 16 0))
  xorBytes (bytesOfNat 16 (ghash h aad text)) (aesBlock ks (bytesOfNat 16 (nonce * 2 ^ 32 + 1)))

def nats (l : List Byte) : List Nat := l.map (·.toNat)
def bytes8 (l : List Nat) : List Byte := l.map (BitVec.ofNat 8)

/-- Encrypt: the cipher text and its tag. The key's byte 0 is its lowest. (PRESUMED: log 118) -/
def gcmSeal (key nonce : Nat) (aad text : List Byte) : List Byte :=
  let ks := aesKeys (nats (leBytes 32 key))
  let c := gcmStream ks nonce (nats text)
  bytes8 (c ++ gcmTag ks nonce (nats aad) c)

/-- Decrypt: the text, if the tag holds. (PRESUMED: log 118) -/
def gcmOpen (key nonce : Nat) (aad text tag : List Byte) : Option (List Byte) :=
  let ks := aesKeys (nats (leBytes 32 key))
  if gcmTag ks nonce (nats aad) (nats text) = nats tag then some (bytes8 (gcmStream ks nonce (nats text))) else none

end Sys2Proof.Machine
end

