-- ==== Sys2Proof/Machine/Compare.lean ====
section
/-! DEFINITION. The signature comparator (R359 to R365). -/

namespace Sys2Proof.Machine

def State.modCmp (s : State) (f : CmpSt → CmpSt) : State := { s with cmp := f s.cmp }

/-- A failed comparison, a missing close or an overflow: recorded, class S (R361, R395). (DEDUCED: log 79) -/
def State.cmpFail (s : State) (slot : Nat) (missing : Bool) : State :=
  let s := s.count (if missing then Reg.SFI_CMP_STATUS.MISSING_CNT else Reg.SFI_CMP_STATUS.MISMATCH_CNT) 1
  let s := (s.setFld Reg.SFI_CMP_STATUS.LAST_SLOT slot).setFlag Reg.SFI_CMP_STATUS.LAST_KIND missing
  (s.sfiEvent 3).fault 0x20 slot true (some 0) (some 0x62)

/-- A close of a PAIRED job is settled: its record waits for one comparison less, and the job knows of a window that did not match (R362). -/
def State.windowSettled (s : State) (job : Option Nat) (matched : Bool) : State :=
  match job with
  | some id => (s.modJob id (fun j => { j with openWindows := j.openWindows - 1, mismatch := j.mismatch || !matched })).checkJob id
  | none => s

/-- Two closes match: window and signature (R361). -/
def Close.matches (a b : Close) : Bool := decide (a.window = b.window) && decide (a.sig = b.sig)

/-- Compare two closes of a slot (R361). -/
def State.compareCloses (s : State) (slot : Nat) (a b : Close) : State :=
  let same := a.matches b
  let s := if same then s else s.cmpFail slot false
  (s.windowSettled a.job same).windowSettled b.job same

/-- Closes of a member that wait unmatched. -/
def CmpSt.waitingOf (c : CmpSt) (u : Nat) : List Close := SMap.getD c.waiting u []

/-- A close of unit u arrives at its slot (R361, R365): the i-th close of the primary is paired with the i-th of the checker. One whose
counterpart was already reported Missing adds no report. (DEDUCED: log 79; DESIGN CHOICE: log 155) -/
def State.closeArrives (s : State) (u : Nat) (c : Close) : State :=
  let slot := slotOf u
  let hit := u % 2 == 1 && s.cmp.inverted.contains slot
  let c := if hit then { c with sig := c.sig ^^^ 1 } else c
  let s := if hit then s.modCmp (fun m => { m with inverted := setErase m.inverted slot }) else s
  match (s.cmp.waitingOf (partner u)).find? (fun p => p.ordinal == c.ordinal && p.strike == c.strike) with
  | some p => (s.modCmp (fun m => { m with waiting := SMap.modify m.waiting (partner u) [] (fun l => l.erase p) })).compareCloses slot p c
  | none =>
    if (SMap.getD s.cmp.missed slot []).contains c.ordinal then s.windowSettled c.job false
    else
    let l := s.cmp.waitingOf u ++ [c]
    let s := s.modCmp (fun m => { m with waiting := SMap.put m.waiting u [] l })
    if l.length = 5 then s.cmpFail slot false else s

/-- The oldest close of a member leaves the wires. -/
def State.deliverClose (s : State) (u : Nat) : State :=
  match SMap.getD s.cmp.wires u [] with
  | [] => s
  | c :: rest => (s.modCmp (fun m => { m with wires := SMap.put m.wires u [] rest })).closeArrives u c

/-- Mask bit of a member of a slot (R359). -/
def memberOf (slot : Nat) (checker : Bool) : Nat := 2 * slot + ofBool checker

/-- SIGNATURE_CLOSE (R361). -/
def execSignatureClose (slot : Fin 39) (checker : Bool) (s : State) : Host.Outcome State Fault Refusal :=
  .next (s.deliverClose (memberOf slot checker))

/-- Deliver what is on the wires of a slot, primary first; `fuel` bounds the closes. -/
def State.deliverAll : Nat → Nat → State → State
  | 0, _, s => s
  | k + 1, slot, s => State.deliverAll k slot ((s.deliverClose (2 * slot)).deliverClose (2 * slot + 1))

/-- Each close that still waits in a slot is Missing (R361). (DESIGN CHOICE: log 4; DEDUCED: log 79) -/
def State.missingCloses (s : State) (slot : Nat) : State :=
  let n := (SMap.getD s.cmp.wires (2 * slot) []).length + (SMap.getD s.cmp.wires (2 * slot + 1) []).length
  let s := State.deliverAll n slot s
  let l := s.cmp.waitingOf (2 * slot) ++ s.cmp.waitingOf (2 * slot + 1)
  let s := s.modCmp (fun m => { m with
    waiting := SMap.erase (SMap.erase m.waiting (2 * slot)) (2 * slot + 1)
    missed := SMap.modify m.missed slot [] (fun k => l.foldl (fun k c => setInsert k c.ordinal) k) })
  l.foldl (fun s c => (s.cmpFail slot true).windowSettled c.job false) s

/-- The pair of a slot is paired, or one member's survivor is SPLITTING (R359). -/
def State.slotLive (s : State) (slot : Nat) : Bool := s.isPaired (2 * slot) || s.isPaired (2 * slot + 1)

/-- Nothing is left in a slot (R381). -/
def State.emptySlot (s : State) (slot : Nat) : State :=
  s.modCmp (fun m => { m with
    waiting := SMap.erase (SMap.erase m.waiting (2 * slot)) (2 * slot + 1)
    wires := SMap.erase (SMap.erase m.wires (2 * slot)) (2 * slot + 1)
    inverted := setErase m.inverted slot })

/-- A paired unit of PAIRED work whose list ends without any window closed in the strike is Missing (R361). (DEDUCED: log 79) -/
def State.silentCheck (s : State) (u : Nat) : State :=
  if (s.unit u).config = 0 && s.isPaired u && (s.unit u).closed == 0 then
    (match (s.unit u).job with
      | some id => s.modJob id (fun j => { j with mismatch := true })
      | none => s).cmpFail (slotOf u) true
  else s

/-- ST_RUN was written (R363): the start-up test begins; a PAIRED slot is skipped. -/
def State.startSelftest (s : State) : State :=
  s.modCmp (fun m => { m with testing := true, skipped := (List.range 39).any (fun k => s.isPaired (2 * k)) })

/-- A self-test that gave a wrong outcome (R363, R364). -/
def State.selftestFailed (s : State) (inst : Nat) : State :=
  ((s.setFld Reg.SFI_CMP_STATUS.ST_FAIL 1).setFld Reg.SFI_STATUS.CMP_ST_OK 0).fault 0x21 inst true (some 0) (some 0x62)

/-- One equal pair matches, and one that differs in bit `k` does not. -/
def pairTest (k : Nat) : Bool :=
  let c : Close := ⟨0, 0, 0, 0, none⟩
  c.matches c && !c.matches { c with sig := 2 ^ k }

/-- The test of one slot in each strike (R364): slot and bit follow from the strike number. A comparator that fails it physically says so by
FAULT_REPORT (`State.detector`). -/
def State.strikeSelftest (s : State) : State :=
  if s.flag Reg.SFI_CMP_CTL.ST_STRIKE && !pairTest (s.strikeNo % 64) then s.selftestFailed (s.strikeNo % 39) else s

/-- COMPARATOR_SELFTEST_DONE (R363): `ok` says that every case had the outcome it must have. -/
def execComparatorSelftestDone (ok : Bool) (s : State) : Host.Outcome State Fault Refusal :=
  .next (if !s.cmp.testing then s
    else
      let s := if s.cmp.skipped then s.setFld Reg.SFI_CMP_STATUS.ST_FAIL 1 else s
      let s := (s.setFld Reg.SFI_CMP_STATUS.ST_DONE 1).modCmp (fun m => { m with testing := false, skipped := false })
      let s := s.setFlag Reg.SFI_STATUS.CMP_ST_OK (!s.flag Reg.SFI_CMP_STATUS.ST_FAIL)
      if ok then s else s.selftestFailed 0xFF)

/-- A member sends test closes: enabled, not fenced, present (R365). -/
def State.memberLive (s : State) (u : Nat) : Bool := s.present u && s.flag (unitEnable u) && !s.flag (unitFence u)

/-- INJ was written (R365). -/
def State.cmpInject (s : State) : State :=
  let slot := s.fld Reg.SFI_CMP_CTL.INJ_SLOT
  if s.isPaired (2 * slot) then s.modCmp (fun m => { m with inverted := setInsert m.inverted slot })
  else s.cmpFail slot (!(s.memberLive (2 * slot) && s.memberLive (2 * slot + 1)))

end Sys2Proof.Machine
end

