-- ==== Sys2Proof/Machine/Sync.lean ====
section
/-! DEFINITION. Sync counters (R126, R127). -/

namespace Sys2Proof.Machine

/-- The unit that DST_KIND and a unit index name: its mask bit of R344 (R129, R257). -/
def unitOf (kind index : Nat) : Option Nat :=
  match kind with
  | 1 => if index < 64 then some index else none
  | 2 => if index < 4 then some (64 + index) else none
  | 3 => if index < 8 then some (68 + index) else none
  | 4 => if index < 2 then some (76 + index) else none
  | _ => none

/-- Add to one counter of one unit; an overflow is class N of the receiving job's context (R127). -/
def State.addSc (s : State) (u sc n : Nat) : State :=
  let x := s.unit u
  let v := x.sc.getD sc 0 + n
  let s := s.modUnit u (fun x => { x with sc := x.sc.set sc (min v 0xFFFF) })
  if 0xFFFF < v then s.report ⟨0x09, unitCode u, 1, some x.ctx, some (unitCode u), 0, 0⟩ else s

/-- An increment reaches its unit (R126, R127): an idle unit discards it, class N of the sending job's context; a paired primary's
checker takes it too. -/
def State.applyInc (s : State) (i : Inc) : State :=
  match i.unit with
  | none => s.report ⟨0x09, i.code, 1, some i.ctx, some i.code, 0, 0⟩
  | some u =>
    if !s.present u || !s.flag (unitBusy u) then s.report ⟨0x09, unitCode u, 1, some i.ctx, some (unitCode u), 0, 0⟩
    else
      let s := s.addSc u i.sc i.amount
      if u % 2 = 0 && s.isPaired u && s.flag (unitBusy (u + 1)) then s.addSc (u + 1) i.sc i.amount else s

/-- Increments of one source to one unit arrive in issue order (R160): position of the oldest one like number `index`. -/
def State.incTurn (s : State) (i : Inc) : Nat := s.incs.findIdx (fun o => o.src == i.src && o.code == i.code)

/-- SYNC_COUNTER_INCREMENT (R127): the increment that is due at number `index` of those on their way arrives. -/
def execSyncCounterIncrement (index : Nat) (s : State) : Host.Outcome State Fault Refusal :=
  .next (match s.incs[index]? with
    | none => s
    | some i =>
      let k := s.incTurn i
      ({ s with incs := s.incs.eraseIdx k }).applyInc (s.incs.getD k i))

end Sys2Proof.Machine
end

