-- ==== Sys2Proof/Machine/Lists.lean ====
section
/-! DEFINITION. The list instructions every unit kind shares: WAIT, SIG, GOLD, FENCE, SYNC, and the end of lists and golden runs
(R99, R105, R126 to R132, R182, R183, R197, R203, R230, R360, R361). -/

namespace Sys2Proof.Machine

/-- The Z1 form of a shared instruction: in Marmer mode the M2 opcode `m2` stands for it (R99). -/
def State.shared (s : State) (u : Nat) (d : Ins) (f : Ins → Ins) : Ins := if s.marmer u then f d else d

/-- The opcode under which a shared instruction is fetched. -/
def State.sharedOp (s : State) (u op m2 : Nat) : Nat := if s.marmer u then m2 else op

/-! ### WAIT (R128) -/

def waitKind (d : Ins) : Nat := insBits d 2 0 2
def waitTimeout (d : Ins) : Nat := insW d 8

/-- A launch event is in the current strike table (R344). (DEDUCED: log 31) -/
def State.eventPresent (s : State) (e : Nat) : Bool :=
  let b := s.fld Reg.TIM_STRIKE_CTL.BANK
  (List.range 128).any (fun i => s.flag (Reg.TIM_ST_CTRL.VALID b i) && s.fld (Reg.TIM_ST_CTRL.EVENT b i) == e
    && s.fld (Reg.TIM_ST_OFFSET.NS b i) < s.periodNs)

def State.waitReasons (s : State) (d : Ins) : List Nat :=
  why (2 ≤ waitKind d) 0x02
    ++ why (insBits d 2 2 6 != 0 || (waitKind d == 0 && insBits d 3 4 4 != 0) || !zeroAt d 6 2 || !zeroAt d 12 20) 0x03
    ++ why (waitKind d == 1 && !s.eventPresent (insB d 3)) 0x1A

/-- The condition of a WAIT holds now. -/
def State.waitMet (s : State) (u : Nat) (d : Ins) : Bool :=
  if waitKind d = 0 then insH d 4 ≤ (s.unit u).sc.getD (insBits d 3 0 4) 0 else s.time.events.contains (insB d 3)

/-- A WAIT that is met: a counter is consumed. -/
def State.waitTake (s : State) (u : Nat) (d : Ins) : State :=
  if waitKind d = 0 then
    let k := insBits d 3 0 4
    s.modUnit u (fun x => { x with sc := x.sc.set k (x.sc.getD k 0 - insH d 4) })
  else s

/-- A WAIT comes to issue. -/
def State.waitIssue (s : State) (u : Nat) (d0 : Ins) : Issue :=
  let d := s.shared u d0 (m2Ins 8)
  Issue.check s u (s.waitReasons d) (
    if s.waitMet u d then .done (s.waitTake u d)
    else .hold (s.modUnit u (fun x => { x with waitFrom := some (x.waitFrom.getD s.nowNs) })))

/-- WAIT (R128); M2_WAIT in Marmer mode. -/
def execWait (u : Fin 78) (s : State) : Host.Outcome State Fault Refusal :=
  .next (s.issue u [s.sharedOp u 8 4] (fun d s => s.waitIssue u d))

/-- Device time in ns at which a WAIT of `cycles` ACLK cycles expires. -/
def State.waitDue (s : State) (start cycles : Nat) : Nat := start + ceilDiv (1000 * cycles) (max 1 (s.fld Reg.TOP_IDENT.ACLK_MHZ))

/-- WAIT_TIMEOUT (R128, R350): the WAIT at the head has a timeout and its condition is not met. (DEDUCED: log 32) -/
def execWaitTimeout (u : Fin 78) (s : State) : Host.Outcome State Fault Refusal :=
  .next (match (s.unit u).waitFrom with
    | none => s
    | some start => s.issue u [s.sharedOp u 8 4] (fun d0 s =>
        let d := s.shared u d0 (m2Ins 8)
        if waitTimeout d = 0 then .hold s
        else if s.waitMet u d then .done (s.waitTake u d)
        else .refuse (s.reach (s.waitDue start (waitTimeout d))) [0x1B] (s.pc u)))

/-! ### SIG and GOLD (R131, R132) -/

/-- Every pass issued inside the open window has drained. -/
def State.windowDrained (s : State) (u : Nat) : Bool := !((s.anvil u).passes.any (·.window))

/-- The Z1 form of M2_SIG, and RSVD bytes of the M2 form itself (R99). -/
def State.sigForm (s : State) (u : Nat) (d : Ins) (op : Nat) : Ins × Bool :=
  if s.marmer u then (m2Sig d op, !zeroAt d 4 4 || (op == 9 && !zeroAt d 8 8) || (op == 10 && insB d 1 != 0)) else (d, false)

/-- RSVD bits of SIG and GOLD. -/
def sigGrowth (d : Ins) : Bool := insBits d 2 1 7 != 0 || insB d 3 != 0 || !zeroAt d 6 26
def goldGrowth (d : Ins) : Bool := insB d 2 != 0 || insB d 3 != 0 || !zeroAt d 6 2 || !zeroAt d 16 16

/-- WINDOW of SIG and GOLD. -/
def sigWindow (d : Ins) : Nat := insH d 4

/-- Number of the open window. -/
def State.openNumber (s : State) (u : Nat) : Option Nat := (s.unit u).sig.map (·.1)

/-- A SIG of one OP comes to issue. -/
def State.sigIssue (s : State) (u : Nat) (d0 : Ins) (close : Bool) : Issue :=
  let (d, bad) := s.sigForm u d0 9
  if insFlag d 2 0 != close then .hold s
  else
    let wrong := if close then s.openNumber u != some (sigWindow d) else (s.unit u).sig.isSome
    Issue.check s u (why (bad || sigGrowth d) 0x03 ++ why wrong 0x18) (
      if !close then .done (s.modUnit u (fun x => { x with sig := some (sigWindow d, 0) }))
      else if s.windowDrained u then .done (s.sigClose u)
      else .hold s)

/-- SIG_OPEN (R131). -/
def execSigOpen (u : Fin 78) (s : State) : Host.Outcome State Fault Refusal :=
  .next (s.issue u [s.sharedOp u 9 7] (fun d s => s.sigIssue u d false))

/-- SIG_CLOSE (R131). -/
def execSigClose (u : Fin 78) (s : State) : Host.Outcome State Fault Refusal :=
  .next (s.issue u [s.sharedOp u 9 7] (fun d s => s.sigIssue u d true))

/-- GOLD (R132); M2_GOLD in Marmer mode. -/
def execGold (u : Fin 78) (s : State) : Host.Outcome State Fault Refusal :=
  .next (s.issue u [s.sharedOp u 10 8] (fun d0 s =>
    let (d, bad) := s.sigForm u d0 10
    Issue.check s u (why (bad || goldGrowth d) 0x03 ++ why (s.openNumber u != some (sigWindow d)) 0x18) (
      if s.windowDrained u then .done (s.goldCompare u (insQ d 8)) else .hold s)))

/-! ### FENCE and SYNC (R129, R130) -/

/-- FENCE (R130): the instruction after it waits for every earlier effect. (DEDUCED: log 33) -/
def execFence (u : Fin 78) (s : State) : Host.Outcome State Fault Refusal :=
  .next (s.issue u [11] (fun d s => ifZ1 s u (Issue.check s u (why (!zeroAt d 2 30) 0x03)
    (.done (s.modUnit u (fun x => { x with fenceAt := some (s.pc u + 1) }))))))

def syncKind (d : Ins) : Nat := insBits d 2 5 3

def syncReasons (d : Ins) : List Nat :=
  why (5 ≤ syncKind d || insB d 5 == 0) 0x02
    ++ why (insBits d 2 0 5 != 0 || insBits d 4 4 2 != 0 || !zeroAt d 6 26) 0x03

/-- A SYNC to a unit on this die: its increment is on its way. A unit number that its kind does not have is absent, and what code the report
then names is open. (DEDUCED: log 33) -/
def State.syncLocal (s : State) (u : Nat) (d : Ins) : State :=
  let dst := unitOf (syncKind d + 1) (insB d 3)
  let (s, code) : State × Nat := match dst with
    | some v => (s, unitCode v)
    | none => let (s, k) := s.free; (s, k % 256)
  { s with incs := s.incs ++ [⟨u, dst, code, insBits d 4 0 4, insB d 5, (s.unit u).ctx, none⟩] }

/-- A SYNC to a peer Anvil, whose index is DST modulo 64: a SYNC message, or the failure of R161 with code 1 when its module has no route; one to a module in reset is
discarded (R420). (DEDUCED: log 33; DESIGN CHOICE: log 162) -/
def State.syncPeer (s : State) (u : Nat) (d : Ins) : State :=
  match s.routeTo (insBits d 4 6 2) with
  | some q =>
    let x := s.unit u
    let tag := (s.link q).nextTag
    if (s.link q).resetting then s else
    let s := s.modLink q (fun l => { l with nextTag := (l.nextTag + 1) % 65536, syncs := SMap.insert l.syncs tag u })
    s.linkSend q (s.mkMsg q 0x04 (256 * x.ctx + unitCode u) x.gen tag (insB d 3 % 64 * 2 ^ 32 + 256 * insB d 5 + insBits d 4 0 4) 0 [])
  | none => if u < 64 then s.sendFailed u 1 else s.unitFault u 0x07 (unitCode u)

/-- SYNC (R126, R129, R360). -/
def execSync (u : Fin 78) (s : State) : Host.Outcome State Fault Refusal :=
  .next (s.issue u [12] (fun d s => ifZ1 s u (Issue.check s u (syncReasons d) (
    if !s.quiet u then .hold s
    else
      let s := s.effectRecord u 0x0C 0 (insB d 5) (insBits d 4 0 4)
      .done (if s.isChecker u then s else if syncKind d = 4 then s.syncPeer u d else s.syncLocal u d)))))

/-! ### The end of a list (R105) -/

/-- The list has issued its last instruction: the count is reached, or an M2_END stands at the head (R99, R105). (DESIGN CHOICE: log 25) -/
def State.issuedAll (s : State) (u : Nat) : State × Bool :=
  if s.pc u = s.listCount u then (s, true)
  else if s.marmer u && s.canIssue u then
    let (s', r) := s.fetch u
    if r.err.isSome || r.poison || insB r.bytes 0 != 5 then (s, false)
    else (s'.setFld (unitPc u) (s'.listCount u), true)
  else (s, false)

/-- A list that has run to its end (R105, R116, R131, R361, R371). -/
def State.runOut (s : State) (u : Nat) : State :=
  let x := s.anvil u
  if !x.pend.isEmpty then (s.modAnvil u (fun a => { a with pend := [] })).refuseAt u 0x09 x.pendAt
  else ((s.sigClose u).silentCheck u).finishList u

/-- TILE_LIST_END (R105, R108, R110): every effect of every instruction has completed. (DESIGN CHOICE: log 2) -/
def execTileListEnd (u : Fin 78) (s : State) : Host.Outcome State Fault Refusal :=
  .next (
    if !s.flag (unitBusy u) || !s.quiet u || (s.unit u).goldRun then s
    else match (s.unit u).stopping with
      | some st => s.partOver u st
      | none =>
        let (s, ended) := s.issuedAll u
        if ended then s.runOut u else s)

/-- The list of the launch event starts after the golden run (R197, R230). -/
def State.afterGolden (s : State) (u : Nat) : State :=
  let s := (s.setFld (unitGoldRun u) 0).setFld (unitPc u) 0
  s.modUnit u (fun x => { x with sc := List.replicate 16 0, sig := none, stopping := none, waitFrom := none, fenceAt := none, goldRun := false, buf := [] })

/-- GOLDEN_RUN_END (R197, R230): a run without a failed comparison, refusal or failed fetch has passed. A unit that the failure fenced has
stopped already. (DEDUCED: log 28) -/
def execGoldenRunEnd (u : Fin 78) (s : State) : Host.Outcome State Fault Refusal :=
  .next (
    let x := s.unit u
    if !s.flag (unitBusy u) || !x.goldRun || !s.quiet u || !(x.stopping.isSome || s.pc u == s.listCount u) then s
    else
      let s := if x.goldTried then s
        else (s.setFld (unitCheckOk u) 1).modUnit u (fun x => { x with goldOk := true })
      s.afterGolden u)

end Sys2Proof.Machine
end

