-- ==== Sys2Proof/Machine/Messages.lean ====
section
/-! DEFINITION. Narultil ports: training, replay, route down, credits, and the messages that arrive (R161, R420, R429 to R438, R457). -/

namespace Sys2Proof.Machine

/-! ### Failure of what was sent (R161, R431) -/

/-- A SEND of this die that was sent on port q with a tag is over with a code. -/
def State.sendOver (s : State) (q tag code : Nat) : State :=
  { s with anvils := s.anvils.map (fun (e : Nat × AnvSt) => (e.1, { e.2 with sends := e.2.sends.map (fun (x : SendSt) =>
      if x.dst.isNone && !x.ended && x.port == q && x.tag == tag then { x with code := code, ended := true } else x) })) }

/-- A SYNC to a peer that failed: counted and reported as a SEND failure (R129, R161). -/
def State.syncFailed (s : State) (u code : Nat) : State := if u < 64 then s.sendFailed u code else s.unitFault u 0x07 (unitCode u)

/-- The answer to a SEND or SYNC of this die. -/
def State.peerAnswer (s : State) (q tag code : Nat) : State :=
  match SMap.find? (s.link q).syncs tag with
  | some u =>
    let s := s.modLink q (fun l => { l with syncs := SMap.erase l.syncs tag })
    if code = 0 then s else s.syncFailed u code
  | none => s.sendOver q tag code

/-- A message that cannot be delivered fails with code 1. -/
def State.failMsg (s : State) (q : Nat) (m : LinkMsg) : State :=
  if m.type = 1 ∨ m.type = 2 ∨ m.type = 4 then s.peerAnswer q m.tag 1 else s

/-- Every queued and in-flight message of a port fails; the port starts afresh. SENDs that wait for their answer fail too. (DEDUCED: log 111) -/
def State.portEmpty (s : State) (q : Nat) : State :=
  let x := s.link q
  let s := (x.inflight.map (·.msg) ++ x.queue).foldl (fun s m => s.failMsg q m) s
  let s := { s with anvils := s.anvils.map (fun (e : Nat × AnvSt) => (e.1, { e.2 with sends := e.2.sends.map (fun (y : SendSt) =>
      if y.dst.isNone && !y.ended && y.port == q then { y with code := 1, ended := true } else y) })) }
  s.setLink q { LinkSt.fresh with gens := x.gens }

/-- The port leaves UP for a state (R457). (DEDUCED: log 111) -/
def State.portLeaves (s : State) (q state : Nat) : State :=
  let up := s.linkUp q
  let s := s.portEmpty q
  let s := s.setFld (Reg.NLK_PORT_STATUS.STATE q) state
  if up then s.portEvent q Reg.NLK_PORT_EVT.DOWN else s

/-- Training starts (R430). -/
def State.startTraining (s : State) (q : Nat) : State := s.portLeaves q 1

/-- The route is down: the retry budget is spent, the port fails what it holds and retrains (R431). (DEDUCED: log 111) -/
def State.routeDown (s : State) (q : Nat) : State :=
  let s := (s.count (Reg.NLK_PORT_ERR.ROUTE_DOWN_CNT q) 1).portEvent q Reg.NLK_PORT_EVT.ROUTE_DOWN
  (s.startTraining q).fault 0x40 q false none none

/-- Tell every trained peer a context's new generation (R323, R420, R435). -/
def State.announceGen (s : State) (c : Nat) : State :=
  ((List.range 4).filter s.linkUp).foldl (fun (s : State) q => s.linkSend q (s.mkCtl q 0x18 (c + 65536 * s.gen c) 0)) s

/-- LINK_TRAINING_COMPLETE (R42, R430, R435, R438). (DEDUCED: log 111) -/
def execLinkTrainingComplete (q : Fin 4) (t : TrainResult) (s : State) : Host.Outcome State Fault Refusal :=
  .next (if s.fld (Reg.NLK_PORT_STATUS.STATE q) != 1 then s
    else
      let s := s.setFld (Reg.NLK_PORT_CTL.RETRAIN q) 0
      let width := if t.lanes = 8 then 2 else if t.lanes = 4 && s.flag (Reg.NLK_PORT_CTL.WIDTH4_OK q) then 3 else 4
      if width = 4 || t.peer.val != s.fld (Reg.NLK_PORT_CTL.PEER q) then s.setFld (Reg.NLK_PORT_STATUS.STATE q) 4
      else
        let s := (s.setFld (Reg.NLK_PORT_STATUS.STATE q) width).setFld (Reg.NLK_PORT_STATUS.VERSION q) (min 1 t.version)
        let s := s.setFld (Reg.NLK_PORT_STATUS.LINK_DELAY q) t.delay.toNat
        let s := s.setLink q { LinkSt.fresh with gens := (List.range 16).map (fun c => (t.gens.getD c 0).toNat) }
        let s := s.portEvent q Reg.NLK_PORT_EVT.UP
        if s.flag Reg.NLK_CFG.FM then (List.range 16).foldl (fun (s : State) c => s.announceGen c) s else s)

/-- NARULTIL_PORT_DOWN (R420, R457): the link is lost; peers see the route down. (DEDUCED: log 111) -/
def execNarultilPortDown (q : Fin 4) (s : State) : Host.Outcome State Fault Refusal :=
  .next (if !s.linkUp q then s else (s.portLeaves q 0).fault 0x40 q false none none)

/-! ### Replay (R431) -/

/-- Position of a codeword in 12-bit serial order before another one. -/
def seqUpTo (a b : Nat) : Bool := (b + 4096 - a % 4096) % 4096 < 2048

/-- LINK_ACK (R431): codewords up to `seq` have arrived. (DEDUCED: log 106) -/
def execLinkAck (q : Fin 4) (seq : Nat) (s : State) : Host.Outcome State Fault Refusal :=
  .next (if !s.linkUp q then s
    else s.modLink q (fun l => { l with inflight := l.inflight.filter (fun f => !seqUpTo f.seq seq) }))

/-- NAK (R431): everything from that codeword on is sent again; the fourth failure of a message takes the route down. (DEDUCED: log 106) -/
def execNak (q : Fin 4) (seq : Nat) (s : State) : Host.Outcome State Fault Refusal :=
  .next (
    let again := (s.link q).inflight.filter (fun f => seqUpTo seq f.seq)
    if !s.linkUp q || again.isEmpty then s
    else
      let s := s.count (Reg.NLK_PORT_ERR.RETRY_CNT q) 1
      if again.any (fun f => 3 ≤ f.retries) then s.routeDown q
      else
        let s := s.modLink q (fun l => { l with
          inflight := l.inflight.map (fun f => if seqUpTo seq f.seq then { f with retries := f.retries + 1 } else f) })
        again.foldl (fun (s : State) f => s.send (.link q f.msg)) s)

/-- UNCORRECTABLE_CODEWORD (R431): it is discarded and NAK goes back with its sequence number. -/
def execUncorrectableCodeword (q : Fin 4) (seq : Nat) (s : State) : Host.Outcome State Fault Refusal :=
  .next (if !s.linkUp q then s else s.linkCtl q 0x21 (seq % 4096) 0)

/-- ACK_COALESCE_TIMER (R431): 100 ns without an acknowledgement. -/
def execAckCoalesceTimer (q : Fin 4) (s : State) : Host.Outcome State Fault Refusal :=
  .next (if !s.linkUp q || (s.link q).owed = 0 then s
    else ((s.reach (SMap.getD s.timers (32 + q) 0 + 100)).modLink q (fun l => { l with owed := 0 })).linkCtl q 0x20 (s.link q).rxSeq 0)

/-! ### Inbound messages (R432, R435) -/

/-- A message of one type arrives: a malformed one is dropped and counted; the rest is handled by `run`. (DEDUCED: log 108) -/
def State.inbound (s : State) (q : Nat) (m : LinkMsg) (ty : Nat) (run : State → State) : State :=
  if !s.linkUp q then s
  else if s.badMsg q m then (s.linkGot q m).linkDrop q
  else if m.type != ty then s
  else run (s.linkGot q m)

/-- The message carries the peer's current generation of its context (R435). (DEDUCED: log 109) -/
def State.peerCurrent (s : State) (q : Nat) (m : LinkMsg) : Bool := (s.link q).gens.getD m.ctx 0 == m.gen && m.gen != 0

/-- This module's stream for a message's context (R435). -/
def relayStream (q : Nat) (m : LinkMsg) : Nat := 256 * m.ctx + 0xC8 + q

/-- The requester under which a message acts here. -/
def State.linkReq (s : State) (q : Nat) (m : LinkMsg) : Req := s.req (0xC8 + q) m.ctx

/-- Answer a SEND or SYNC with a code of R161. (DEDUCED: log 110) -/
def State.answerSend (s : State) (q : Nat) (m : LinkMsg) (code : Nat) : State :=
  s.linkSend q (s.mkMsg q 0x03 (relayStream q m) (s.gen m.ctx) m.tag code 0 [])

/-- Answer a memory read. -/
def State.answerRead (s : State) (q : Nat) (m : LinkMsg) (status : Nat) (data : List DataUnit) : State :=
  s.linkSend q (s.mkMsg q 0x07 (relayStream q m) (s.gen m.ctx) m.tag status 0 data)

/-- Destination Anvil of SEND_DATA, SEND_INC and SYNC. (DEDUCED: log 107) -/
def linkAnvil (m : LinkMsg) : Nat := bits m.arg0 32 6

/-- The port accepts a SEND or SYNC for the message's context (R436). -/
def State.linkAllows (s : State) (q : Nat) (m : LinkMsg) : Bool :=
  bitAt (s.fld (Reg.NLK_PORT_CTX.ALLOW q)) m.ctx && s.ctxState m.ctx == 1
    && s.jobs.any (fun j => j.ctx == m.ctx && j.launchStrike.isSome && j.units.contains (linkAnvil m))

/-- Data units with their poison (R432). -/
def linkUnits (m : LinkMsg) : List (DataUnit × Nat) := m.data.zipIdx

def unitPoison (m : LinkMsg) (d : DataUnit × Nat) : Bool := d.1.poison || bitAt m.poison d.2

/-- Write the data units of a message upwards from an address; the code of R161 of the first failure. -/
def State.linkWrite (s : State) (q : Nat) (m : LinkMsg) (a : Nat) : State × Nat :=
  (linkUnits m).foldl (fun (acc : State × Nat) d =>
    if acc.2 != 0 then acc
    else
      match acc.1.writeUnit (acc.1.linkReq q m) (a + 32 * d.2) (padTo 32 d.1.bytes) (unitPoison m d) false with
      | (s, some e) =>
        let s := if e = .collision then s.report ⟨0x08, linkAnvil m, 1, some m.ctx, some (0xC8 + q), a + 32 * d.2, 0⟩ else s
        (s, sendCode e)
      | (s, none) => (s, 0)) (s, 0)

/-- What has arrived of a SEND: number of data messages and the code so far. -/
def State.recvOf (s : State) (q : Nat) (m : LinkMsg) : Nat × Nat :=
  (((s.link q).recv.find? (fun e => e.1 == m.ctx && e.2.1 == m.tag)).map (fun e => e.2.2)).getD (0, 0)

/-- Keep what has arrived of a SEND, or forget it. -/
def State.setRecv (s : State) (q : Nat) (m : LinkMsg) (x : Option (Nat × Nat)) : State :=
  s.modLink q (fun l =>
    let rest := l.recv.filter (fun e => !(e.1 == m.ctx && e.2.1 == m.tag))
    { l with recv := match x with | some (n, c) => rest ++ [(m.ctx, m.tag, n, c)] | none => rest })

/-- SEND_DATA (R435, R436): written through the destination's mover port. (DEDUCED: log 110) -/
def execSendData (q : Fin 4) (m : LinkMsg) (s : State) : Host.Outcome State Fault Refusal :=
  .next (s.inbound q m 0x01 (fun s =>
    if !s.peerCurrent q m then s.answerSend q m 3
    else if !s.linkAllows q m then s.answerSend q m 2
    else
      let (n, c) := s.recvOf q m
      let (s, code) := if c = 0 then s.linkWrite q m (storeAt (linkAnvil m) (32 * bits m.arg0 0 16)) else (s, c)
      s.setRecv q m (some (n + 1, code))))

/-- SEND_INC (R435, R436): applied once every data message that it counts has been written; SEND_DONE goes back. (DEDUCED: log 110) -/
def execSendInc (q : Fin 4) (m : LinkMsg) (s : State) : Host.Outcome State Fault Refusal :=
  .next (s.inbound q m 0x02 (fun s =>
    if !s.peerCurrent q m then s.answerSend q m 3
    else if !s.linkAllows q m then (s.setRecv q m none).answerSend q m 2
    else
      let (n, c) := s.recvOf q m
      if n != m.arg1 then s.setRecv q m none
      else
        let s := s.setRecv q m none
        let inc := bits m.arg0 8 8
        let dst := linkAnvil m
        let s := if c = 0 && inc != 0 then s.applyInc ⟨254, some dst, dst, bits m.arg0 0 4, inc, m.ctx, none⟩ else s
        s.answerSend q m c))

/-- SEND_DONE (R161, R435): the outcome of a SEND of this die. -/
def execSendDone (q : Fin 4) (m : LinkMsg) (s : State) : Host.Outcome State Fault Refusal :=
  .next (s.inbound q m 0x03 (fun s => if !s.peerCurrent q m then s else s.peerAnswer q m.tag (bits m.arg0 0 8)))

/-- LINK_SYNC (R435, R436). -/
def execLinkSync (q : Fin 4) (m : LinkMsg) (s : State) : Host.Outcome State Fault Refusal :=
  .next (s.inbound q m 0x04 (fun s =>
    if !s.peerCurrent q m then s.answerSend q m 3
    else if !s.linkAllows q m then s.answerSend q m 2
    else s.applyInc ⟨254, some (linkAnvil m), linkAnvil m, bits m.arg0 0 4, bits m.arg0 8 8, m.ctx, none⟩))

/-- The port's memory window holds a range (R437). -/
def State.inWindow (s : State) (q a n : Nat) : Bool :=
  let base := s.rd64 (Reg.NLK_PORT_RWIN_LO q)
  base ≤ a && a + n ≤ base + 65536 * s.fld (Reg.NLK_PORT_RWIN_SIZE.GRANULES q)

/-- MEM_WR (R437): context 0 inside the window, then the firewalls; a refused write is discarded and counted. -/
def execMemWr (q : Fin 4) (m : LinkMsg) (s : State) : Host.Outcome State Fault Refusal :=
  .next (s.inbound q m 0x05 (fun s =>
    if !s.peerCurrent q m then s
    else if m.ctx != 0 || !s.inWindow q m.arg0 (32 * m.data.length) then s.linkDrop q
    else
      let (s, bad) := (linkUnits m).foldl (fun (acc : State × Bool) d =>
        let (s, e) := acc.1.write (acc.1.linkReq q m) (m.arg0 + 32 * d.2) (padTo 32 d.1.bytes) (unitPoison m d)
        (s, acc.2 || e.isSome)) (s, false)
      if bad then s.linkDrop q else s))

/-- Poisoned units of undefined data. -/
def State.poisonUnits (s : State) (n : Nat) : State × List DataUnit :=
  (List.range n).foldl (fun (acc : State × List DataUnit) _ =>
    let (s, b) := acc.1.freeBytes 32
    (s, acc.2 ++ [⟨b, true⟩])) (s, [])

/-- MEM_RD (R437): a refused read returns status 1 with poisoned units. -/
def execMemRd (q : Fin 4) (m : LinkMsg) (s : State) : Host.Outcome State Fault Refusal :=
  .next (s.inbound q m 0x06 (fun s =>
    let n := m.arg1
    if !s.peerCurrent q m then s.answerRead q m 3 []
    else if m.ctx != 0 || n = 0 || 10 < n || !s.inWindow q m.arg0 (32 * n) then
      let (s, us) := s.poisonUnits (min n 10)
      s.answerRead q m 1 us
    else
      let (s, us, bad) := (List.range n).foldl (fun (acc : State × List DataUnit × Bool) i =>
        let (s, r) := acc.1.read (acc.1.linkReq q m) (m.arg0 + 32 * i) 32
        (s, acc.2.1 ++ [⟨r.bytes, r.poison⟩], acc.2.2 || r.err.isSome)) (s, [], false)
      if bad then
        let (s, us) := s.poisonUnits n
        s.answerRead q m 1 us
      else s.answerRead q m 0 us))

/-- MEM_RD_RESP (R437): it answers a read of this module, if one waits under its tag. -/
def execMemRdResp (q : Fin 4) (m : LinkMsg) (s : State) : Host.Outcome State Fault Refusal :=
  .next (s.inbound q m 0x07 (fun s =>
    if !s.peerCurrent q m || !(s.link q).reads.contains m.tag then s
    else (s.modLink q (fun l => { l with reads := l.reads.filter (· != m.tag) })).send (.memData m.tag m.data)))

/-- LINK_DOORBELL (R301, R387, R437): the context-0 page, while FWL_DB.NLK is 1. -/
def execLinkDoorbell (q : Fin 4) (m : LinkMsg) (s : State) : Host.Outcome State Fault Refusal :=
  .next (s.inbound q m 0x08 (fun s =>
    if !s.peerCurrent q m then s
    else if m.ctx != 0 then s.linkDrop q
    else if !s.mayRing (.narultil q) 0 then (s.refuseReg (.narultil q) (0x3000180000 + bits m.arg0 0 12) true).linkDrop q
    else s.doorbellWrite 0 (bits m.arg0 0 12) m.arg1))

/-! ### Generations, resets, the fabric manager (R420, R433, R435, R438) -/

/-- The fabric manager passes a message on, as FM_RELAY, to each module that it has a port to, but the one it came from (R438). (DEDUCED: log 112) -/
def State.fmRelay (s : State) (m : LinkMsg) : State :=
  if !s.flag Reg.NLK_CFG.FM then s
  else (List.range 4).foldl (fun (s : State) d =>
    if d = m.src ∨ d = s.module then s
    else match s.routeTo d with
      | some q => s.linkSend q (s.mkCtl q 0x1C (m.type + 256 * m.src) 0 [⟨padTo 32 m.header, false⟩])
      | none => s) s

/-- GEN_ANNOUNCE (R435, R438). (DEDUCED: log 109) -/
def execGenAnnounce (q : Fin 4) (m : LinkMsg) (s : State) : Host.Outcome State Fault Refusal :=
  .next (s.inbound q m 0x18 (fun s => (s.modLink q (fun l => { l with gens := l.gens.set (bits m.arg0 0 4) (bits m.arg0 16 16) })).fmRelay m))

/-- RESET_NOTICE (R420, R435, R438): the peer's new context-0 generation; it resets until READY. (DEDUCED: log 109) -/
def execResetNotice (q : Fin 4) (m : LinkMsg) (s : State) : Host.Outcome State Fault Refusal :=
  .next (s.inbound q m 0x19 (fun s =>
    (s.modLink q (fun l => { l with gens := l.gens.set 0 (bits m.arg0 16 16), resetting := true })).fmRelay m))

/-- READY (R420, R438). -/
def execReady (q : Fin 4) (m : LinkMsg) (s : State) : Host.Outcome State Fault Refusal :=
  .next (s.inbound q m 0x1A (fun s => if !s.peerCurrent q m then s else (s.modLink q (fun l => { l with resetting := false })).fmRelay m))

/-- A fabric-manager message: accepted from the module the image names, otherwise dropped and counted (R438). (DEDUCED: log 112) -/
def State.fmMessage (s : State) (q : Nat) (m : LinkMsg) (run : State → State) : State :=
  if !s.peerCurrent q m then s
  else if m.src = s.fm then run (s.event Reg.NLK_EVT.FM_MSG 292)
  else (s.linkDrop q).event Reg.NLK_EVT.FOREIGN_FM 292

/-- FM_BAR_CFG (R354, R438): its value is written to TIM_BAR_CTL with SOURCE 2. -/
def execFmBarCfg (q : Fin 4) (m : LinkMsg) (s : State) : Host.Outcome State Fault Refusal :=
  .next (s.inbound q m 0x1B (fun s => s.fmMessage q m (fun s => (s.regWrite Reg.TIM_BAR_CTL (m.arg0 % 2 ^ 32) 2 none).1)))

/-- FM_RELAY (R438): the relayed header reaches firmware through NLK_EVT. (DEDUCED: log 112) -/
def execFmRelay (q : Fin 4) (m : LinkMsg) (s : State) : Host.Outcome State Fault Refusal :=
  .next (s.inbound q m 0x1C (fun s => s.fmMessage q m (fun s => s)))

/-- LINK_CREDIT (R433): receive buffer units of a virtual channel come back, and what waited for them is sent. (DEDUCED: log 107) -/
def execLinkCredit (q : Fin 4) (m : LinkMsg) (s : State) : Host.Outcome State Fault Refusal :=
  .next (if !s.linkUp q then s
    else if s.badMsg q m then s.linkDrop q
    else if m.type != 0x22 then s
    else
      let vc := m.arg1 % 4
      let s := s.modLink q (fun l => { l with credits := l.credits.set vc (min 256 (l.credits.getD vc 0 + m.arg0)) })
      State.linkDrain ((s.link q).queue.length) q s)

end Sys2Proof.Machine
end

