-- ==== Sys2Proof/Machine/Gate.lean ====
section
/-! DEFINITION. The depot gate (R26, R447 to R455, R460). -/

namespace Sys2Proof.Machine

def State.tenant (s : State) (t : Nat) : TenSt := SMap.getD s.tenants t TenSt.fresh
def State.setTenant (s : State) (t : Nat) (x : TenSt) : State := { s with tenants := SMap.put s.tenants t TenSt.fresh x }
def State.modTenant (s : State) (t : Nat) (f : TenSt → TenSt) : State := s.setTenant t (f (s.tenant t))

/-- The gate runs (R447, R460). -/
def State.gateOn (s : State) : Bool := s.inDepot && s.flag Reg.DGT_CFG.ENABLE

/-- A tenant can be served: its context is ACTIVE and it has a key. -/
def State.tenantOn (s : State) (t : Nat) : Bool :=
  s.gateOn && 1 ≤ t && t < 16 && s.ctxState t == 1 && s.flag (Reg.DGT_TEN_STATUS.KEY_SET (t - 1))

/-- The tenant's share: its base address and its size in bytes (R26, R452). -/
def State.shareBase (s : State) (t : Nat) : Nat := s.poolBase + 0x4000000 * s.fld (Reg.DGT_TEN_BASE.GRANULE (t - 1))
def State.shareSize (s : State) (t : Nat) : Nat := 0x4000000 * s.fld (Reg.DGT_TEN_SIZE.GRANULES (t - 1))

/-- HIC source of a tenant (R456). -/
def tenantSource (t : Nat) : Nat := 301 + t

/-- OUT_Q follows the queue (R460). -/
def State.syncOut (s : State) (t : Nat) : State :=
  s.setFld (Reg.DGT_TEN_STATUS.OUT_Q (t - 1)) (min 256 (s.tenant t).outbox.length)

/-! ### Drops (R451) -/

/-- Drop a message; the tenant is 0 where it is not known. -/
def State.gateDrop (s : State) (t reason : Nat) : State :=
  let s := ((s.count Reg.DGT_DROP.CNT 1).setFld Reg.DGT_DROP.LAST_REASON reason).setFld Reg.DGT_DROP.LAST_TENANT t
  let s := s.event Reg.DGT_EVT_STATUS.DROP 301
  if t = 0 then s
  else s.modTenant t (fun x => { x with drops := x.drops.set (reason - 1) (satAdd 0xFFFF (x.drops.getD (reason - 1) 0) 1), lastDrop := reason })

/-! ### Sending (R448, R449) -/

/-- The fragments of a message (R448). -/
def fragments (t id : Nat) (m : List Byte) : List (List Byte) :=
  let n := (m.length + 1407) / 1408
  (List.range n).map (fun i =>
    let part := (m.drop (1408 * i)).take 1408
    leBytes 1 1 ++ leBytes 1 0 ++ leBytes 1 t ++ leBytes 1 0 ++ leBytes 4 id ++ leBytes 2 i ++ leBytes 2 n ++ leBytes 4 (1408 * i)
      ++ leBytes 4 m.length ++ leBytes 2 part.length ++ leBytes 2 0 ++ leBytes 8 0 ++ part)

/-- Nonce of GCM: direction bit, 31 zero bits, NONCE (R449). -/
def gcmNonce (inbound : Bool) (nonce : Nat) : Nat := ofBool inbound * 2 ^ 95 + nonce % 2 ^ 64

/-- The header of a message (R449). -/
def depotHeader (t cls nonce seq len : Nat) : List Byte :=
  leBytes 1 1 ++ leBytes 1 cls ++ leBytes 1 t ++ leBytes 1 0 ++ leBytes 8 nonce ++ leBytes 8 seq ++ leBytes 4 len ++ leBytes 8 0

/-- Send one message to a tenant; a tenant that no message has come from has no address to send to. (DEDUCED: log 116) -/
def State.sendDepot (s : State) (t cls seq : Nat) (body : List Byte) : State :=
  let x := s.tenant t
  if x.peer.isNone then s
  else
    let nonce := x.txNonce + 1
    let id := x.txId + 1
    let head := depotHeader t cls nonce seq body.length
    let m := head ++ gcmSeal x.key (gcmNonce false nonce) head body
    let s := s.modTenant t (fun x => { x with txNonce := nonce, txId := id })
    (fragments t id m).foldl (fun s f => s.send (.depot t cls seq f)) s

/-- CREDIT to a tenant (R450, R452). -/
def State.sendCredit (s : State) (t : Nat) : State :=
  let x := s.tenant t
  let s := { s with timers := SMap.put s.timers (16 + t) 0 s.nowNs }
  s.sendDepot t 8 0 (leBytes 8 x.ackSeq ++ leBytes 4 (16 - x.inbox.length) ++ leBytes 20 0)

/-- The body of a queued message: what is fixed, then its part of the share, read now (R453). -/
def State.outBody (s : State) (t : Nat) (e : DepotOut) : State × List Byte :=
  if e.len = 0 then (s, e.body)
  else
    let (s, r) := s.read (s.req 0xD8 t) e.addr e.len
    (s, e.body ++ r.bytes)

/-- Send one message of the queue (R454). -/
def State.sendOut (s : State) (t : Nat) (e : DepotOut) : State :=
  let (s, body) := s.outBody t e
  let s := s.sendDepot t e.cls e.seq body
  let fresh := !((s.tenant t).outbox.any (fun o => o.sent.isSome))
  s.modTenant t (fun x => { x with
    ackTime := if fresh then s.nowNs else x.ackTime
    outbox := x.outbox.map (fun o => if o.seq == e.seq then { o with sent := some s.nowNs } else o) })

/-- Queue sequenced messages (R453). (DEDUCED: log 116) -/
def State.queueOut (s : State) (t : Nat) (l : List DepotOut) : State :=
  let before := (s.tenant t).outbox.length
  let s := l.foldl (fun (s : State) e =>
    s.modTenant t (fun x => { x with txSeq := x.txSeq + 1, outbox := x.outbox ++ [{ e with seq := x.txSeq + 1 }] })) s
  let s := s.syncOut t
  if before < 256 && 256 ≤ (s.tenant t).outbox.length then s.event (Reg.DGT_TEN_STATUS.QUEUE_FULL (t - 1)) (tenantSource t) else s

/-- The pages of a result range (R453). -/
def resultPages (record : List Byte) (addr len : Nat) : List DepotOut :=
  let n := max 1 ((len + 8191) / 8192)
  (List.range n).map (fun i =>
    ⟨0, 2, record ++ leBytes 4 i ++ leBytes 4 n ++ leBytes 8 0, addr + 8192 * i, min 8192 (len - 8192 * i), none⟩)

/-! ### Receiving: the isolated domain (R447, R448) -/

/-- The link-local address derived from DGT_MAC (modified EUI-64). (PRESUMED: log 117) -/
def State.gateLinkLocal (s : State) : Nat :=
  let mac := s.fld Reg.DGT_MAC_LO.MAC_LO + 2 ^ 32 * s.fld Reg.DGT_MAC_HI.MAC_HI
  0xFE80 * 2 ^ 112 + (mac / 2 ^ 24 ^^^ 0x20000) * 2 ^ 40 + 0xFFFE * 2 ^ 24 + mac % 2 ^ 24

/-- The datagram is for the gate. -/
def State.forGate (s : State) (f : DepotFragment) : Bool :=
  s.gateOn && f.destPort == s.fld Reg.DGT_CFG.UDP_PORT
    && (if f.ipv6 then f.dest == s.gateLinkLocal else s.fld Reg.DGT_IP4.ADDR != 0 && f.dest == s.fld Reg.DGT_IP4.ADDR)

def fragTenant (p : List Byte) : Nat := fieldAt p 2 1
def fragId (p : List Byte) : Nat := fieldAt p 4 4
def fragIndex (p : List Byte) : Nat := fieldAt p 8 2
def fragCount (p : List Byte) : Nat := fieldAt p 10 2
def fragTotal (p : List Byte) : Nat := fieldAt p 16 4

/-- A fragment keeps every rule of its header (R448). -/
def fragOk (p : List Byte) : Bool :=
  let total := fragTotal p
  let n := (total + 1407) / 1408
  let last := fragIndex p + 1 == n
  32 ≤ p.length && fieldAt p 0 1 == 1 && zeroAt p 1 1 && 1 ≤ fragTenant p && fragTenant p ≤ 15 && zeroAt p 3 1
    && 80 ≤ total && total ≤ 8288 && fragCount p == n && fragIndex p < n && fieldAt p 12 4 == 1408 * fragIndex p
    && fieldAt p 20 2 == (if last then total - 1408 * (n - 1) else 1408) && p.length == 32 + fieldAt p 20 2 && zeroAt p 22 10

/-- The fragment belongs to a message in reassembly. -/
def Reasm.owns (r : Reasm) (f : DepotFragment) : Bool :=
  r.ipv6 == f.ipv6 && r.source == f.source && r.port == f.sourcePort && r.tenant == fragTenant f.payload && r.id == fragId f.payload

/-! ### Receiving: the vehicle side (R449, R451) -/

/-- Lengths and reserved bytes of a body; the reason that fails first among LENGTH and RESERVED. (DEDUCED: log 115) -/
def bodyReason (cls : Nat) (b : List Byte) : Option Nat :=
  let n := b.length
  let okLen : Bool := match cls with
    | 1 => n == 64
    | 3 => 48 ≤ n && n ≤ 8240 && (n - 48) % 32 == 0
    | _ => n == 32
  let clean : Bool := match cls with
    | 1 => fieldAt b 4 1 ≤ 7 && fieldAt b 5 1 ≤ 7 && zeroAt b 6 2 && zeroAt b 48 16
    | 3 => fieldAt b 12 1 ≤ 3 && fieldAt b 13 1 ≤ 7 && zeroAt b 14 2 && zeroAt b 32 16
    | 4 => fieldAt b 4 1 ≤ 7 && zeroAt b 5 3 && zeroAt b 16 16
    | 5 => fieldAt b 0 1 ≤ 1 && zeroAt b 1 3 && zeroAt b 20 12
    | _ => zeroAt b 12 20
  if !okLen then some 6 else if !clean then some 7 else none

/-- Offsets and lengths that a body names (R451). -/
def bodyRanges (cls : Nat) (b : List Byte) : List (Nat × Nat) :=
  match cls with
  | 1 => [(fieldAt b 16 8, 0), (fieldAt b 24 8, 0), (fieldAt b 36 8, fieldAt b 44 4)]
  | 3 => (fieldAt b 0 8, b.length - 48) :: (if bitAt (fieldAt b 12 1) 0 then [(fieldAt b 16 8, 0), (fieldAt b 24 8, 32)] else [])
  | 5 => if fieldAt b 0 1 = 1 then [(fieldAt b 8 8, fieldAt b 16 4)] else []
  | _ => []

/-- The submission ring a body names. -/
def bodyRing (cls : Nat) (b : List Byte) : Option Nat :=
  match cls with
  | 1 | 4 => some (fieldAt b 4 1)
  | 3 => if bitAt (fieldAt b 12 1) 0 then some (fieldAt b 13 1) else none
  | _ => none

/-- Entries that a submission ring can still take (R300, R450). -/
def State.ringFree (s : State) (c r : Nat) : Nat :=
  if !s.flag (Reg.HRT_SQ_CFG.ENABLE c r) then 0
  else
    let n := 2 ^ s.fld (Reg.HRT_SQ_CFG.LOG2 c r)
    n - 1 - (s.fld (Reg.HRT_SQ_IDX.TAIL c r) + n - s.fld (Reg.HRT_SQ_IDX.HEAD c r)) % n

/-- A message takes a sequence number (R450). -/
def sequenced (cls : Nat) : Bool := cls != 7 && cls != 8

/-- Checks 6 to 9 on a decrypted body (R451). -/
def State.bodyCheck (s : State) (t cls : Nat) (head b : List Byte) : Option Nat :=
  if fieldAt head 20 4 != b.length then some 6
  else
    match bodyReason cls b with
    | some 6 => some 6
    | r =>
      if r.isSome || !zeroAt head 3 1 || !zeroAt head 24 8 then some 7
      else if (bodyRanges cls b).any (fun x => s.shareSize t < x.1 + x.2 || x.1 % 32 != 0) then some 8
      else
        match bodyRing cls b with
        | some r => if s.ringFree t r = 0 then some 9 else none
        | none => none

/-- Nonce rule of R449. (DEDUCED: log 115) -/
def TenSt.nonceOk (x : TenSt) (n : Nat) : Bool := x.rxNonce ≤ n + 63 && !x.rxSeen.contains n

/-- A complete message reaches the vehicle side (R449, R451, R452). A duplicate is answered by CREDIT once it is authentic and no replay. (DEDUCED: log 115) -/
def State.gateMessage (s : State) (t : Nat) (peer : Bool × Nat × Nat) (m : List Byte) : State :=
  let head := m.take 32
  let cls := fieldAt m 1 1
  let seq := fieldAt m 12 8
  let nonce := fieldAt m 4 8
  let x := s.tenant t
  if !([1, 3, 4, 5, 8].contains cls) then s.gateDrop 0 1
  else if fieldAt m 0 1 != 1 then s.gateDrop 0 2
  else if !s.tenantOn t then s.gateDrop t 3
  else
    match gcmOpen x.key (gcmNonce true nonce) head ((m.drop 32).take (m.length - 48)) (m.drop (m.length - 16)) with
    | none => s.gateDrop t 4
    | some b =>
      if !x.nonceOk nonce then s.gateDrop t 5
      else
        let s := s.modTenant t (fun x => { x with rxNonce := max x.rxNonce nonce, rxSeen := (nonce :: x.rxSeen).take 64 })
        if sequenced cls && seq ≤ x.ackSeq then s.sendCredit t
        else match s.bodyCheck t cls head b with
        | some r => s.gateDrop t r
        | none =>
          if sequenced cls && (seq != x.ackSeq + 1 || 16 ≤ x.inbox.length) then s.gateDrop t 12
          else
            let s := s.modTenant t (fun x => { x with
              ackSeq := if sequenced cls then seq else x.ackSeq, peer := some peer, inbox := x.inbox ++ [(cls, b)] })
            if sequenced cls then s.sendCredit t else s

/-- DEPOT_DATAGRAM (R447 to R451). (DEDUCED: log 115) -/
def execDepotDatagram (f : DepotFragment) (s : State) : Host.Outcome State Fault Refusal :=
  .next (
    let p := f.payload
    let mine (r : Reasm) : Bool := r.owns f
    if !s.forGate f then s
    else if !f.crossingOk then
      let s := { s with reasm := s.reasm.filter (fun r => !mine r) }
      (s.event Reg.DGT_EVT_STATUS.CROSSING 301).gateDrop 0 11
    else
      let old := s.reasm.find? mine
      let r := old.getD ⟨f.ipv6, f.source, f.sourcePort, fragTenant p, fragId p, s.nowNs, fragTotal p, []⟩
      let rest := s.reasm.filter (fun r => !mine r)
      let s' := { s with reasm := rest }
      if !fragOk p || r.total != fragTotal p || (SMap.find? r.frags (fragIndex p)).isSome || (old.isNone && 64 ≤ s.reasm.length) then
        s'.gateDrop 0 10
      else
        let frags := SMap.insert r.frags (fragIndex p) (p.drop 32)
        if frags.length < fragCount p then { s with reasm := rest ++ [{ r with frags := frags }] }
        else
          let m := frags.flatMap (·.2)
          if fieldAt m 2 1 != fragTenant p then s'.gateDrop 0 10
          else s'.gateMessage (fragTenant p) (f.ipv6, f.source, f.sourcePort) m)

/-- REASSEMBLY_TIMEOUT (R448): 100 ms after a message's first fragment; `key` counts the messages in reassembly from the oldest. -/
def execReassemblyTimeout (key : Nat) (s : State) : Host.Outcome State Fault Refusal :=
  .next (match s.reasm[key]? with
    | none => s
    | some r => ({ s.reach (r.first + 100000000) with reasm := s.reasm.eraseIdx key }).gateDrop 0 10)

/-! ### Address resolution (R448) -/

/-- Bytes of a MAC or IP address, highest first. -/
def State.gateMac (s : State) : List Byte := beBytes 6 (s.fld Reg.DGT_MAC_LO.MAC_LO + 2 ^ 32 * s.fld Reg.DGT_MAC_HI.MAC_HI)

/-- ARP_REQUEST (R448). (PRESUMED: log 117) -/
def execArpRequest (senderMac : List Byte) (senderIp targetIp : Word) (s : State) : Host.Outcome State Fault Refusal :=
  .next (if !s.gateOn || s.fld Reg.DGT_IP4.ADDR = 0 || targetIp.toNat != s.fld Reg.DGT_IP4.ADDR then s
    else s.send (.resolve (padTo 6 senderMac ++ s.gateMac ++ beBytes 2 0x0806 ++ beBytes 2 1 ++ beBytes 2 0x0800 ++ beBytes 1 6
      ++ beBytes 1 4 ++ beBytes 2 2 ++ s.gateMac ++ beBytes 4 targetIp.toNat ++ padTo 6 senderMac ++ beBytes 4 senderIp.toNat)))

/-- Internet checksum. (PRESUMED: log 117) -/
def inetSum (bs : List Byte) : Nat :=
  let sum := ((List.range ((bs.length + 1) / 2)).map (fun i => beNat (padTo 2 ((bs.drop (2 * i)).take 2)))).sum
  let fold (x : Nat) : Nat := x % 65536 + x / 65536
  0xFFFF - fold (fold sum)

/-- NEIGHBOR_SOLICITATION (R448): a Neighbor Advertisement answers it. (PRESUMED: log 117) -/
def execNeighborSolicitation (senderMac senderIp target : List Byte) (s : State) : Host.Outcome State Fault Refusal :=
  .next (
    let own := beBytes 16 s.gateLinkLocal
    if !s.gateOn || target != own then s
    else
      let peer := padTo 16 senderIp
      let icmp (sum : Nat) : List Byte := beBytes 1 136 ++ beBytes 1 0 ++ beBytes 2 sum ++ beBytes 4 0x60000000 ++ own ++ beBytes 1 2 ++ beBytes 1 1 ++ s.gateMac
      let sum := inetSum (own ++ peer ++ beBytes 4 32 ++ beBytes 4 58 ++ icmp 0)
      s.send (.resolve (padTo 6 senderMac ++ s.gateMac ++ beBytes 2 0x86DD ++ beBytes 4 0x60000000 ++ beBytes 2 32 ++ beBytes 1 58
        ++ beBytes 1 255 ++ own ++ peer ++ icmp sum)))

/-! ### What accepted messages do (R452) -/

/-- Write a descriptor into a submission ring and ring its tail doorbell, as unit 0xD8. -/
def State.gateSubmit (s : State) (t r : Nat) (d : List Byte) : State :=
  let tail := s.fld (Reg.HRT_SQ_IDX.TAIL t r)
  let (s, _) := s.write (s.req 0xD8 t) (s.rd64 (Reg.HRT_SQ_BASE_LO t r) + 64 * tail) (padTo 64 d)
  s.sqDoorbell t r ((tail + 1) % 2 ^ s.fld (Reg.HRT_SQ_CFG.LOG2 t r))

/-- Take the accepted message at the front of the inbound buffer when it is of a class. -/
def State.gateTake (s : State) (t cls : Nat) (run : State → List Byte → State) : State :=
  match (s.tenant t).inbox with
  | (c, b) :: rest =>
    if c != cls || !s.tenantOn t then s
    else run (s.modTenant t (fun x => { x with inbox := rest })) b
  | [] => s

/-- The ring of a body takes a descriptor now. -/
def State.ringReady (s : State) (t cls : Nat) : Bool :=
  match (s.tenant t).inbox.head? with
  | some (_, b) => (match bodyRing cls b with | some r => s.ringFree t r != 0 | none => true)
  | none => false

/-- JOB_SUBMIT (R452): RUN_GRAPH with CONFIG FREE and DL_US 1. -/
def execJobSubmit (t : Fin 16) (s : State) : Host.Outcome State Fault Refusal :=
  .next (if !s.ringReady t 1 then s
    else s.gateTake t 1 (fun s b =>
      let base := s.shareBase t
      let r := fieldAt b 4 1
      let d := leBytes 1 1 ++ leBytes 1 1 ++ leBytes 2 2 ++ leBytes 4 (fieldAt b 0 4) ++ leBytes 8 (fieldAt b 8 8)
        ++ leBytes 8 (base + fieldAt b 16 8) ++ leBytes 8 (base + fieldAt b 24 8) ++ leBytes 4 (fieldAt b 32 4) ++ leBytes 1 2
        ++ leBytes 1 (fieldAt b 5 1)
      (s.modTenant t (fun x => { x with
        results := x.results ++ [(r, fieldAt b 0 4, base + fieldAt b 36 8, fieldAt b 44 4)] })).gateSubmit t r d))

/-- MODEL_PUT (R452): its data goes to OFFSET in the share; with LOAD it waits for the write to complete. -/
def execModelPut (t : Fin 16) (s : State) : Host.Outcome State Fault Refusal :=
  .next (s.gateTake t 3 (fun s b =>
    let (s, _) := s.write (s.req 0xD8 t) (s.shareBase t + fieldAt b 0 8) (b.drop 48)
    if bitAt (fieldAt b 12 1) 0 then s.modTenant t (fun x => { x with loads := x.loads ++ [b.take 48] }) else s))

/-- MODEL_PUT_WRITE_COMPLETE (R452): LOAD_MODEL is submitted. -/
def execModelPutWriteComplete (t : Fin 16) (s : State) : Host.Outcome State Fault Refusal :=
  .next (match (s.tenant t).loads with
    | [] => s
    | b :: rest =>
      let r := fieldAt b 13 1
      if !s.tenantOn t || s.ringFree t r = 0 then s
      else
        let base := s.shareBase t
        let pin := ofBool (bitAt (fieldAt b 12 1) 1)
        let d := leBytes 1 1 ++ leBytes 1 2 ++ leBytes 2 (16 * pin) ++ leBytes 4 (fieldAt b 8 4) ++ leBytes 8 0
          ++ leBytes 8 (base + fieldAt b 16 8) ++ leBytes 8 (base + fieldAt b 24 8)
        (s.modTenant t (fun x => { x with
          loads := rest, results := x.results ++ [(r, fieldAt b 8 4, base + fieldAt b 24 8, 32)] })).gateSubmit t r d)

/-- MODEL_DROP (R452): UNLOAD_MODEL is submitted. -/
def execModelDrop (t : Fin 16) (s : State) : Host.Outcome State Fault Refusal :=
  .next (if !s.ringReady t 4 then s
    else s.gateTake t 4 (fun s b =>
      s.gateSubmit t (fieldAt b 4 1) (leBytes 1 1 ++ leBytes 1 3 ++ leBytes 2 0 ++ leBytes 4 (fieldAt b 0 4) ++ leBytes 8 (fieldAt b 8 8))))

/-- The body of STATUS_REPLY (R450). -/
def State.statusBody (s : State) (t : Nat) : List Byte :=
  let x := s.tenant t
  leBytes 8 (s.shareSize t) ++ leBytes 8 s.nowNs ++ leBytes 4 s.strikeNo ++ (List.range 8).flatMap (fun r => leBytes 2 (s.ringFree t r))
    ++ leBytes 4 (s.ctxJobs t).length ++ x.drops.flatMap (leBytes 2) ++ leBytes 1 x.lastDrop ++ leBytes 63 0

/-- STATUS_QUERY (R452). -/
def execStatusQuery (t : Fin 16) (s : State) : Host.Outcome State Fault Refusal :=
  .next (s.gateTake t 5 (fun s b =>
    if fieldAt b 0 1 = 0 then s.queueOut t [⟨0, 6, s.statusBody t, 0, 0, none⟩]
    else s.queueOut t (resultPages (leBytes 4 0 ++ leBytes 4 (fieldAt b 4 4) ++ leBytes 24 0) (s.shareBase t + fieldAt b 8 8) (fieldAt b 16 4))))

/-- Resend every unacknowledged message that was sent, in order (R454). -/
def State.resendAll (s : State) (t : Nat) : State :=
  ((s.tenant t).outbox.filter (·.sent.isSome)).foldl (fun s e => s.sendOut t e) s

/-- CREDIT (R454): an older ACK_SEQ is ignored. -/
def execCredit (t : Fin 16) (s : State) : Host.Outcome State Fault Refusal :=
  .next (s.gateTake t 8 (fun s b =>
    let x := s.tenant t
    let ack := fieldAt b 0 8
    if serialDiff 64 ack x.peerAck < 0 then s
    else
      let s := s.modTenant t (fun x => { x with
        peerAck := ack, window := min 64 (fieldAt b 8 4), outbox := x.outbox.filter (fun e => ack < e.seq)
        ackTime := if ack = x.peerAck then x.ackTime else s.nowNs, resends := if ack = x.peerAck then x.resends else 0 })
      let s := s.syncOut t
      if s.flag (Reg.DGT_TEN_STATUS.STALLED (t.val - 1)) then
        ((s.setFld (Reg.DGT_TEN_STATUS.STALLED (t.val - 1)) 0).modTenant t (fun x => { x with resends := 0, ackTime := s.nowNs })).resendAll t
      else s))

/-! ### Results and timers (R450, R452 to R454) -/

/-- One record of a tenant's completion ring becomes pages. (DEDUCED: log 116) -/
def State.gateRecord (s : State) (t r i : Nat) : State :=
  let (s, x) := s.read (s.req 0xD8 t) (s.rd64 (Reg.HRT_CQ_BASE_LO t r) + 32 * i) 32
  let key := (bits (fieldAt x.bytes 26 1) 0 3, fieldAt x.bytes 4 4)
  let hit := (s.tenant t).results.find? (fun e => e.1 == key.1 && e.2.1 == key.2)
  let s := match hit with
    | some e => s.modTenant t (fun x => { x with results := x.results.erase e })
    | none => s
  let (a, n) := match hit with | some (_, _, a, n) => (a, n) | none => (0, 0)
  s.queueOut t (resultPages x.bytes a n)

/-- Read records from `head` to `tail` while the queue has room; answers the new head. -/
def State.gateRecords : Nat → Nat → Nat → Nat → Nat → State → State × Nat
  | 0, _, _, head, _, s => (s, head)
  | k + 1, t, r, head, tail, s =>
    if head = tail || 256 ≤ (s.tenant t).outbox.length then (s, head)
    else State.gateRecords k t r ((head + 1) % 2 ^ s.fld (Reg.HRT_CQ_CFG.LOG2 t r)) tail (s.gateRecord t r head)

/-- GATE_COMPLETION_CLAIM (R319, R321, R322, R453). -/
def execGateCompletionClaim (t : Fin 16) (r : Fin 8) (s : State) : Host.Outcome State Fault Refusal :=
  .next (
    let src := 144 + 8 * t.val + r.val
    if !s.tenantOn t || !s.flag Reg.HIC_CTL.ENABLE || s.fld (Reg.HIC_SRC_CFG.KIND src) != 2 || !s.deliverable src
      || 256 ≤ (s.tenant t).outbox.length then s
    else
      let s := s.claim src 9
      let n := 2 ^ s.fld (Reg.HRT_CQ_CFG.LOG2 t r)
      let (s, head) := State.gateRecords n t r (s.fld (Reg.HRT_CQ_IDX.HEAD t r)) (s.fld (Reg.HRT_CQ_IDX.TAIL t r)) s
      (s.cqDoorbell t r head).hicXComplete src)

/-- GATE_OUTBOUND_SEND (R454): the next message that has not been sent, inside the window. (DEDUCED: log 116) -/
def execGateOutboundSend (t : Fin 16) (s : State) : Host.Outcome State Fault Refusal :=
  .next (
    let x := s.tenant t
    match x.outbox.find? (·.sent.isNone) with
    | none => s
    | some e => if !s.tenantOn t || x.peer.isNone || x.peerAck + x.window < e.seq then s else s.sendOut t e)

/-- TIME_HINT (R450): to every ACTIVE tenant. -/
def execTimeHint (s : State) : Host.Outcome State Fault Refusal :=
  .next (if !s.inDepot then s else (List.range 15).foldl (fun (s : State) i =>
    if s.tenantOn (i + 1) then
      s.sendDepot (i + 1) 7 0 (leBytes 8 s.nowNs ++ leBytes 4 s.strikeNo ++ leBytes 4 (s.periodNs / 1000) ++ leBytes 16 0)
    else s) (s.every 2 1000000000))

/-- GATE_CREDIT_TIMER (R452). -/
def execGateCreditTimer (t : Fin 16) (s : State) : Host.Outcome State Fault Refusal :=
  .next (if s.tenantOn t then (s.every (16 + t) 10000000).sendCredit t else s)

/-- Multiple of RTO before the next resend: 1, 2, then 4 (R454). -/
def rtoFactor (n : Nat) : Nat := if n = 0 then 1 else if n = 1 then 2 else 4

/-- RTO_RESEND (R454). -/
def execRtoResend (t : Fin 16) (s : State) : Host.Outcome State Fault Refusal :=
  .next (
    let x := s.tenant t
    match x.outbox.find? (·.sent.isSome) with
    | none => s
    | some e =>
      if !s.tenantOn t || s.flag (Reg.DGT_TEN_STATUS.STALLED (t.val - 1)) then s
      else
        let s := s.reach (e.sent.getD 0 + 1000000 * s.fld Reg.DGT_TIMER.RTO_MS * rtoFactor x.resends)
        (s.resendAll t).modTenant t (fun x => { x with resends := x.resends + 1 }))

/-- STALL_TIMEOUT (R454). -/
def execStallTimeout (t : Fin 16) (s : State) : Host.Outcome State Fault Refusal :=
  .next (
    let x := s.tenant t
    if !s.tenantOn t || !(x.outbox.any (·.sent.isSome)) || s.flag (Reg.DGT_TEN_STATUS.STALLED (t.val - 1)) then s
    else
      let s := s.reach (x.ackTime + 1000000 * s.fld Reg.DGT_TIMER.STALL_MS)
      (s.setFld (Reg.DGT_TEN_STATUS.STALLED (t.val - 1)) 1).event (Reg.DGT_TEN_STATUS.STALL (t.val - 1)) (tenantSource t))

/-- DEPOT_LINK_CHANGE (R447, R460): the isolated domain has power in DEPOT only. -/
def execDepotLinkChange (up : Bool) (s : State) : Host.Outcome State Fault Refusal :=
  .next (if !s.inDepot || s.depotUp == up then s else { s with depotUp := up }.event Reg.DGT_EVT_STATUS.LINK 301)

/-! ### Keys and teardown (R455, R460) -/

/-- A key word was written; KEY7 completes the key. -/
def State.keyWord (s : State) (t k value : Nat) : State :=
  let s := s.modTenant t (fun x => { x with key := putBits x.key (32 * k) 32 value })
  if k = 7 then s.setFld (Reg.DGT_TEN_STATUS.KEY_SET (t - 1)) 1 else s

/-- The gate forgets a tenant (R455). -/
def State.gateForget (s : State) (t : Nat) : State :=
  let x := s.tenant t
  let s := s.setTenant t { TenSt.fresh with drops := x.drops, lastDrop := x.lastDrop }
  let s := { s with reasm := s.reasm.filter (fun r => r.tenant != t) }
  ((s.setFld (Reg.DGT_TEN_STATUS.KEY_SET (t - 1)) 0).setFld (Reg.DGT_TEN_STATUS.STALLED (t - 1)) 0).syncOut t

end Sys2Proof.Machine
end

