-- ==== Sys2Proof/Machine/Tongs.lean ====
section
/-! DEFINITION. The Tongs channels (R256 to R264, R411), and COPY submission descriptors (R306). Record channels share the channel rules. -/

namespace Sys2Proof.Machine

/-! ### Channel registers: 0 to 31 Tongs, 32 to 35 record channels (R269, R294) -/

def chanBase (n : Nat) : Nat := if n < 32 then 0x3000801000 + n * 0x100 else 0x3000703000 + (n - 32) * 0x100
def chanEnable (n : Nat) : FRef := ⟨chanBase n, 0, 1⟩
def chanAbort (n : Nat) : FRef := ⟨chanBase n, 1, 1⟩
def chanCtx (n : Nat) : FRef := ⟨chanBase n + 0x04, 0, 4⟩
def chanGen (n : Nat) : FRef := ⟨chanBase n + 0x04, 16, 16⟩
def chanRing (n : Nat) : Nat := chanBase n + 0x08
def chanLog2 (n : Nat) : FRef := ⟨chanBase n + 0x10, 0, 5⟩
def chanTail (n : Nat) : FRef := ⟨chanBase n + 0x14, 0, 16⟩
def chanHead (n : Nat) : FRef := ⟨chanBase n + 0x18, 0, 16⟩
def chanState (n : Nat) : FRef := ⟨chanBase n + 0x1C, 0, 2⟩
def chanLastStatus (n : Nat) : FRef := ⟨chanBase n + 0x1C, 24, 8⟩
def chanLastReason (n : Nat) : FRef := ⟨chanBase n + 0x1C, 16, 8⟩

/-- Unit code of a channel (R383). -/
def chanUnit (n : Nat) : Nat := if n < 32 then 0x80 + n else 0xB8 + (n - 32)

def State.chan (s : State) (n : Nat) : ChanSt := SMap.getD s.chans n ChanSt.idle
def State.setChan (s : State) (n : Nat) (x : ChanSt) : State := { s with chans := SMap.put s.chans n ChanSt.idle x }

/-- The engine of a channel runs: TNG_CTL or BLW_CTL ENABLE, and no COMPUTE reset in progress (R269, R294, R414). -/
def State.engineOn (s : State) (n : Nat) : Bool :=
  (if n < 32 then s.flag Reg.TNG_CTL.ENABLE else s.flag Reg.BLW_CTL.ENABLE) && !s.computeHeld

/-- The requester of a channel's running descriptor. -/
def State.chanReq (s : State) (n : Nat) : Req := ⟨chanUnit n, s.fld (chanCtx n), s.fld (chanGen n)⟩

/-- STATE of a channel that runs no descriptor: STOPPED for an enabled channel whose engine is disabled, else IDLE (R269, R294). (DEDUCED: log 125) -/
def State.chanIdle (s : State) (n : Nat) : State :=
  s.setFld (chanState n) (if !s.flag (if n < 32 then Reg.TNG_CTL.ENABLE else Reg.BLW_CTL.ENABLE) && s.flag (chanEnable n) then 3 else 0)

/-- The engine or a channel was enabled or disabled. (DEDUCED: log 125) -/
def State.chanSwitched (s : State) (n : Nat) : State :=
  if s.fld (chanState n) = 0 ∨ s.fld (chanState n) = 3 then s.chanIdle n else s

/-- A running channel shows in its STATE and in TNG_BUSY. -/
def State.chanRunning (s : State) (n : Nat) (on : Bool) : State :=
  let s := if on then s.setFld (chanState n) 1 else s.chanIdle n
  if n < 32 then s.setFlag ⟨Reg.TNG_BUSY, n, 1⟩ on else s

/-- The descriptor the channel runs next: the one it holds, or the one at HEAD, fetched now (R256). A disabled Tongs engine starts none, and what has
started goes on (R269). (DEDUCED: log 38) -/
def State.chanTake (s : State) (n : Nat) : State × Option (List Byte × Bool) :=
  let x := s.chan n
  if !(s.engineOn n || (n < 32 && x.started && !s.computeHeld)) || x.aborted || x.moved then (s, none)
  else if x.desc != [] then (s, some (x.desc, false))
  else if !s.flag (chanEnable n) || s.fld (chanHead n) == s.fld (chanTail n) then (s, none)
  else
    let c := s.fld (chanCtx n)
    let s := s.setFld (chanGen n) (s.gen c)
    let (s, d) := s.read (s.chanReq n) (s.rd64 (chanRing n) + 64 * (s.fld (chanHead n) % 2 ^ s.fld (chanLog2 n))) 64 false
    (s, some (d.bytes, d.bad))

/-! ### Tongs descriptors (R257 to R261) -/

/-- A Tongs descriptor, decoded (R257). -/
structure TDesc where
  op : Nat
  irq : Bool
  dims : Nat
  esize : Nat
  doneKind : Nat
  doneSc : Nat
  doneUnit : Nat
  src : Nat
  dst : Nat
  len0 : Nat
  len1 : Nat
  len2 : Nat
  ss1 : Nat
  ds1 : Nat
  ss2 : Nat
  ds2 : Nat
  aux : Nat
  word : Nat
  deriving DecidableEq, Repr

def TDesc.ofBytes (d : List Byte) : TDesc :=
  let b2 := fieldAt d 2 1
  let b3 := fieldAt d 3 1
  { op := fieldAt d 1 1, irq := bitAt b2 6, dims := bits b2 4 2, esize := bits b2 2 2, doneKind := bits b3 4 4,
    doneSc := bits b3 0 4, doneUnit := fieldAt d 4 1, src := fieldAt d 8 8, dst := fieldAt d 16 8, len0 := fieldAt d 24 4,
    len1 := fieldAt d 28 2, len2 := fieldAt d 30 2, ss1 := fieldAt d 32 4, ds1 := fieldAt d 36 4, ss2 := fieldAt d 40 4,
    ds2 := fieldAt d 44 4, aux := fieldAt d 48 8, word := fieldAt d 56 4 }

/-- Bytes of one element under TRANSPOSE. -/
def TDesc.es (t : TDesc) : Nat := 2 ^ t.esize

/-- Planes, rows and bytes per row of the destination: TRANSPOSE exchanges rows and columns (R258). -/
def TDesc.dstShape (t : TDesc) : Nat × Nat × Nat :=
  if t.op = 2 then (1, t.len0 / t.es, t.len1 * t.es)
  else if t.op = 1 then (t.len2, t.len1, t.len0)
  else (1, t.len1, t.len0)

/-- Extent of one side by the formula of R260. -/
def extent (planes rows len s1 s2 : Nat) : Nat := (planes - 1) * s2 + (rows - 1) * s1 + len

/-- Planes that E counts: COPY alone has more than one. -/
def TDesc.planes (t : TDesc) : Nat := if t.op = 1 then t.len2 else 1
def TDesc.srcExtent (t : TDesc) : Nat := extent t.planes t.len1 t.len0 t.ss1 t.ss2
def TDesc.dstExtent (t : TDesc) : Nat := extent t.planes t.len1 t.len0 t.ds1 t.ds2

/-- Byte ranges intersect. -/
def rangesMeet (a n b m : Nat) : Bool := a < b + m && b < a + n

/-- Code of R261 of the range an address lies in, whether or not it decodes. -/
def rangeCode (a : Nat) : Nat :=
  if a < 0x1000000000 then 0
  else if a < 0x2100000000 then 1
  else if a < 0x2200000000 then 0x40 + (a - 0x2100000000) / 0x400000
  else if a < 0x2201000000 then 0x08 + (a - 0x2200000000) / 0x200000
  else if a < 0x2202000000 then 0x10 + (a - 0x2201000000) / 0x80000
  else 0x18

/-- GEOMETRY of R259. (DEDUCED: log 38) -/
def TDesc.badGeometry (t : TDesc) : Bool :=
  let (p, r, l) := t.dstShape
  (t.len0 == 0 || t.len1 == 0 || t.len2 == 0)
    || (t.op == 1 && (t.dims == 0 || (t.dims == 1 && t.len1 != 1) || (t.dims ≤ 2 && t.len2 != 1)))
    || ((t.op == 4 || t.op == 5) && (t.dims != 2 || t.len2 != 1))
    || (t.op == 2 && (t.esize == 3 || t.len2 != 1 || t.len0 % t.es != 0))
    || (t.ds1 < l && 1 < r) || (t.ds2 < (r - 1) * t.ds1 + l && 1 < p)

/-- The mover needs a bounce region (R260): overlap that is no translation. -/
def TDesc.overlaps (t : TDesc) : Bool :=
  (t.op == 1 || t.op == 2 || t.op == 3) &&
    (rangesMeet t.src t.srcExtent t.dst t.dstExtent || (t.op == 3 && rangesMeet t.aux (4 * t.len1) t.dst t.dstExtent))

def TDesc.translates (t : TDesc) : Bool := t.op == 1 && t.ss1 == t.ds1 && t.ss2 == t.ds2

def TDesc.bounces (t : TDesc) : Bool := t.overlaps && !t.translates

/-- Destination rows: plane, row, address (R258). -/
def TDesc.rows (t : TDesc) : List (Nat × Nat × Nat) :=
  let (p, r, _) := t.dstShape
  (List.range p).flatMap (fun i => (List.range r).map (fun j => (i, j, t.dst + i * t.ds2 + j * t.ds1)))

/-- A piece of a destination row that lies within one 32-byte unit: plane, row, offset in the row, address, length. -/
structure Piece where
  plane : Nat
  row : Nat
  off : Nat
  addr : Nat
  len : Nat
  deriving DecidableEq, Repr

/-- Destination pieces in the order of the traversal (R260: last to first for a translation upwards). -/
def TDesc.pieces (t : TDesc) : List Piece :=
  let (_, _, l) := t.dstShape
  let all := t.rows.flatMap (fun x => (unitPieces (l / 32 + 2) x.2.2 l).map (fun q => ⟨x.1, x.2.1, q.1 - x.2.2, q.1, q.2⟩))
  if t.overlaps && t.translates && t.src < t.dst then all.reverse else all

/-- Steps of the mover: every piece, after every piece has gone to the bounce region where one is needed (R260). -/
def TDesc.steps (t : TDesc) : List (Bool × Piece) :=
  let ps := t.pieces.map (fun q => (false, q))
  if t.bounces then t.pieces.map (fun q => (true, q)) ++ ps else ps

/-- Distinct targets of the destination (R259, R261). -/
def TDesc.targets (t : TDesc) : Nat := (t.pieces.foldl (fun ts q => setInsert ts (rangeCode q.addr)) []).length

/-- The source row of a GATHER row, if its index names one (R258). -/
def TDesc.gatherRow (t : TDesc) (x : Nat × Bool × Bool) : Option Nat :=
  if x.2.1 || x.2.2 || t.word ≤ x.1 then none else some (t.src + x.1 * t.ss1)

/-- Every byte of both sides lies in the map (R259): a GATHER's source is its index list and the rows that its indices name. (DEDUCED: log 38) -/
def TDesc.inBounds (t : TDesc) (ranges : List (Nat × Nat)) (idx : List (Nat × Bool × Bool)) : Bool :=
  let (_, _, l) := t.dstShape
  let srcRows := match t.op with
    | 3 => idx.filterMap t.gatherRow
    | 1 | 2 => (List.range t.planes).flatMap (fun i => (List.range t.len1).map (fun j => t.src + i * t.ss2 + j * t.ss1))
    | _ => []
  t.rows.all (fun x => spanIn ranges x.2.2 l) && srcRows.all (fun a => spanIn ranges a t.len0)
    && (t.op != 3 || spanIn ranges t.aux (4 * t.len1))

/-- Bytes of the bounce region (R260). (DESIGN CHOICE: log 39) -/
def TDesc.bounceLen (t : TDesc) : Nat := if t.op = 3 then t.dstExtent else t.srcExtent

/-- The refusal of R259, if any, in the order of its codes. (DEDUCED: log 38) -/
def tongsRefusal (ranges : List (Nat × Nat)) (d : List Byte) (idx : List (Nat × Bool × Bool)) (poisoned : Bool) : Option Nat :=
  let t := TDesc.ofBytes d
  if poisoned then some 0x03
  else if fieldAt d 0 1 != 1 then some 0x01
  else if t.op == 0 || 5 < t.op then some 0x02
  else if bits (fieldAt d 2 1) 0 2 != 0 || !zeroAt d 5 3 || !zeroAt d 60 4 || 4 < t.doneKind then some 0x03
  else if !t.inBounds ranges idx then some 0x12
  else if t.op == 5 && (t.dst % 32 != 0 || t.len0 % 32 != 0 || t.ds1 % 32 != 0) then some 0x13
  else if t.badGeometry then some 0x30
  else if t.bounces && (t.aux == 0 || rangesMeet t.aux t.bounceLen t.src t.srcExtent || rangesMeet t.aux t.bounceLen t.dst t.dstExtent)
  then some 0x50
  else if 6 < t.targets then some 0x51
  else none

/-! ### Moving the data -/

/-- What one destination piece is written with; `code` is that of a source that failed (R261), or 0. -/
structure PieceData where
  bytes : List Byte
  poison : Bool
  code : Nat
  deriving DecidableEq, Repr

/-- Code of R261 of a failed source read: a collision is 3 at either side. -/
def sourceCode : Option AccErr → Nat
  | none => 0 | some .collision => 3 | some _ => 6

/-- Read the places of a source in turn, as one piece. -/
def State.readPlaces (s : State) (rq : Req) (places : List (Nat × Nat)) : State × PieceData :=
  places.foldl (fun (acc : State × PieceData) x =>
    let (s, r) := acc.1.read rq x.1 x.2 false
    (s, ⟨acc.2.bytes ++ r.bytes, acc.2.poison || r.poison, if acc.2.code = 0 then sourceCode r.err else acc.2.code⟩)) (s, ⟨[], false, 0⟩)

/-- Where the source of a piece lies: address, length, and place in the bounce region (R258, R260). (DESIGN CHOICE: log 39) -/
def TDesc.places (t : TDesc) (idx : List (Nat × Bool × Bool)) (q : Piece) : List (Nat × Nat × Nat) :=
  match t.op with
  | 1 => let a := q.plane * t.ss2 + q.row * t.ss1 + q.off; [(t.src + a, q.len, t.aux + a)]
  | 2 => (List.range q.len).map (fun k =>
      let a := (q.off + k) / t.es * t.ss1 + q.row * t.es + (q.off + k) % t.es
      (t.src + a, 1, t.aux + a))
  | _ => match t.gatherRow (idx.getD q.row (0, false, true)) with
    | some a => [(a + q.off, q.len, t.aux + q.row * t.ds1 + q.off)]
    | none => []

/-- A piece that comes from no source: the pattern, the zeros, a GATHER row without a source row (R242, R258). -/
def State.plainData (s : State) (t : TDesc) (idx : List (Nat × Bool × Bool)) (q : Piece) : State × PieceData :=
  match t.op with
  | 4 => (s, ⟨(List.range q.len).map (fun i => BitVec.ofNat 8 (t.word >>> (8 * ((q.off + i) % 4)))), false, 0⟩)
  | 3 =>
    let (_, poisoned, failed) := idx.getD q.row (0, false, true)
    if failed then (s, ⟨[], false, 6⟩)
    else if poisoned then let (s, bs) := s.freeBytes q.len; (s, ⟨bs, true, 0⟩)
    else (s, ⟨List.replicate q.len 0, false, 0⟩)
  | _ => (s, ⟨List.replicate q.len 0, false, 0⟩)

/-- The data of a piece, from the source or, once it is there, from the bounce region. -/
def State.pieceData (s : State) (rq : Req) (t : TDesc) (idx : List (Nat × Bool × Bool)) (q : Piece) (bounced : Bool) : State × PieceData :=
  match t.places idx q with
  | [] => s.plainData t idx q
  | ps => s.readPlaces rq (ps.map (fun x => (if bounced then x.2.2 else x.1, x.2.1)))

/-- Copy the source of a piece to the bounce region; the code of what failed (R260, R261). (DESIGN CHOICE: log 39) -/
def State.stagePiece (s : State) (rq : Req) (t : TDesc) (idx : List (Nat × Bool × Bool)) (q : Piece) : State × Nat :=
  (t.places idx q).foldl (fun (acc : State × Nat) x =>
    if acc.2 ≠ 0 then acc
    else
      let (s, p) := acc.1.readPlaces rq [(x.1, x.2.1)]
      if p.code ≠ 0 then (s, p.code)
      else
        let (s, e) := s.write rq x.2.2 p.bytes p.poison false
        (s, sourceCode e)) (s, 0)

/-- The segment of a target, opened at its first write (R261). -/
def segFor (segs : List Seg) (code : Nat) : List Seg :=
  if segs.any (·.target == code) then segs else segs ++ [⟨code, 0, 0, 0⟩]

/-- Change the segment of a target. -/
def segUpd (segs : List Seg) (code : Nat) (f : Seg → Seg) : List Seg := segs.map (fun g => if g.target == code then f g else g)

/-- Code of R261 of a destination error. -/
def AccErr.segCode : AccErr → Nat
  | .decode => 1 | .generation => 2 | .collision => 3 | .firewall => 4

/-- Write one piece into its segment. -/
def State.putPiece (s : State) (rq : Req) (segs : List Seg) (q : Piece) (p : PieceData) : State × List Seg :=
  let code := rangeCode q.addr
  if p.code ≠ 0 then (s, segUpd segs code (fun g => { g with code := p.code }))
  else
    match s.writeUnit rq q.addr p.bytes p.poison false with
    | (s, some e) => (s, segUpd segs code (fun g => { g with code := e.segCode }))
    | (s, none) => (s, segUpd segs code (fun g => { g with poison := satAdd 0xFFFF g.poison (ofBool p.poison), done := g.done + q.len }))

/-- One step of the mover. A segment that has failed receives no further write and has no more source reads (R262). -/
def State.moveStep (s : State) (rq : Req) (t : TDesc) (idx : List (Nat × Bool × Bool)) (segs : List Seg) (x : Bool × Piece) : State × List Seg :=
  let code := rangeCode x.2.addr
  let segs := segFor segs code
  if segs.any (fun g => g.target == code && g.code != 0) then (s, segs)
  else if x.1 then
    let (s, e) := s.stagePiece rq t idx x.2
    (s, if e = 0 then segs else segUpd segs code (fun g => { g with code := e }))
  else
    let (s, p) := s.pieceData rq t idx x.2 t.bounces
    s.putPiece rq segs x.2 p

/-- GATHER: the indices at AUX, each with its poison and whether its read failed (R258, R242). -/
def State.gatherIndices (s : State) (rq : Req) (t : TDesc) : State × List (Nat × Bool × Bool) :=
  (List.range t.len1).foldl (fun (acc : State × List (Nat × Bool × Bool)) r =>
    let (s, x) := acc.1.read rq (t.aux + 4 * r) 4 false
    (s, acc.2 ++ [(leNat x.bytes, x.poison && x.err.isNone, x.err.isSome)])) (s, [])

/-- What the bounce region holds after a copy through it is open: free bytes wherever the channel may write (R260). (DESIGN CHOICE: log 39) -/
def State.freeBounce (s : State) (rq : Req) (t : TDesc) : State :=
  if !t.bounces then s
  else
    let (s, junk) := s.freeBytes t.bounceLen
    (unitPieces (t.bounceLen / 32 + 2) t.aux t.bounceLen).foldl (fun (s : State) p =>
      if (s.accessCheck rq p.1 true).2.isNone then s.setBytes p.1 ((junk.drop (p.1 - t.aux)).take p.2) else s) s

/-- STATUS of a descriptor (R262). -/
def segStatus (segs : List Seg) : Nat :=
  if segs.all (·.code == 0) then 0 else if segs.any (·.code == 0) then 1 else 2

/-- The segments of a descriptor that was aborted after `pos` steps: what is unwritten carries ABORTED (R263). -/
def TDesc.abortSegs (t : TDesc) (pos : Nat) (segs : List Seg) : List Seg :=
  (t.steps.drop pos).foldl (fun segs x =>
    segUpd (segFor segs (rangeCode x.2.addr)) (rangeCode x.2.addr) (fun g => if g.code = 0 then { g with code := 5 } else g)) segs

/-- Move the next `units` destination units of the descriptor in channel n; at the end the movement is complete. A poisoned index is consumed
there, when the descriptor has no other fault. (DESIGN CHOICE: log 40; DEDUCED: log 41) -/
def State.moveOn (s : State) (n units : Nat) : State :=
  let x := s.chan n
  let t := TDesc.ofBytes x.desc
  let rq := s.chanReq n
  let todo := t.steps.drop x.pos
  let (s, segs) := (todo.take units).foldl (fun (acc : State × List Seg) y => acc.1.moveStep rq t x.idx acc.2 y) (s, x.segs)
  let done := decide (todo.length ≤ units)
  let s := if done then s.freeBounce rq t else s
  let ate := done && x.idx.any (·.2.1) && segStatus segs == 0
  let s := if ate then s.consumed (chanUnit n) (s.fld (chanCtx n)) 0 else s
  s.setChan n { x with
    segs := segs, pos := x.pos + units, moved := done, status := segStatus segs, faulted := x.faulted || ate
    lastWrite := if units = 0 then x.lastWrite else s.nowNs }

/-- The descriptor of channel n starts: its indices are read where it has some, and it is refused or begins to move (R256, R259). (DESIGN CHOICE: log 40) -/
def State.tongsStart (s : State) (n : Nat) (d : List Byte) (bad : Bool) : State :=
  let t := TDesc.ofBytes d
  let (s, idx) := if !bad && t.op == 3 && spanIn (mapRanges s.rawTop) t.aux (4 * t.len1) then s.gatherIndices (s.chanReq n) t else (s, [])
  let x := { s.chan n with desc := d, gen := s.fld (chanGen n), lastWrite := s.nowNs, started := true, idx := idx }
  let s := s.chanRunning n true
  match tongsRefusal (mapRanges s.rawTop) d idx bad with
  | some why => s.setChan n { x with reason := why, status := 3, moved := true, idx := [] }
  | none => s.setChan n { x with zeroed := (idx.filter (fun i => !i.2.1 && !i.2.2 && t.word ≤ i.1)).length }

/-- Run the descriptor of channel n, for `units` destination units, when its OP is `op` (or reserved) (R256, R259). (DESIGN CHOICE: log 40) -/
def State.tongsRun (s : State) (n op units : Nat) : State :=
  match s.chanTake n with
  | (_, none) => s
  | (s', some (d, bad)) =>
    let o := fieldAt d 1 1
    if !bad && o != op && 1 ≤ o && o ≤ 5 then s
    else
      let s' := if (s'.chan n).started then s' else s'.tongsStart n d bad
      if (s'.chan n).moved then s' else s'.moveOn n units

/-- TONGS_COPY (R258): `units` destination units are moved before the next command. (DESIGN CHOICE: log 40) -/
def execTongsCopy (run : TongsRun) (s : State) : Host.Outcome State Fault Refusal := .next (s.tongsRun run.ch 1 run.units)

/-- TONGS_TRANSPOSE (R258). -/
def execTongsTranspose (run : TongsRun) (s : State) : Host.Outcome State Fault Refusal := .next (s.tongsRun run.ch 2 run.units)

/-- TONGS_GATHER (R258). -/
def execTongsGather (run : TongsRun) (s : State) : Host.Outcome State Fault Refusal := .next (s.tongsRun run.ch 3 run.units)

/-- TONGS_FILL (R258). -/
def execTongsFill (run : TongsRun) (s : State) : Host.Outcome State Fault Refusal := .next (s.tongsRun run.ch 4 run.units)

/-- TONGS_SCRUB (R258). -/
def execTongsScrub (run : TongsRun) (s : State) : Host.Outcome State Fault Refusal := .next (s.tongsRun run.ch 5 run.units)

/-! ### Completion (R262, R263) -/

/-- The status record of a Tongs descriptor (R262). (DESIGN CHOICE: log 40) -/
def State.tongsRecord (s : State) (x : ChanSt) (status : Nat) : List Byte :=
  let segs := if status = 4 && x.started then (TDesc.ofBytes x.desc).abortSegs x.pos x.segs else x.segs
  let seg (g : Seg) : List Byte := leBytes 1 g.target ++ leBytes 1 g.code ++ leBytes 2 g.poison ++ leBytes 4 g.done
  leBytes 1 1 ++ leBytes 1 status ++ leBytes 1 segs.length ++ leBytes 1 x.reason ++ leBytes 4 x.zeroed
    ++ padTo 48 (segs.flatMap seg) ++ leBytes 8 s.nowNs

/-- What a COPY job's status is, by the Tongs STATUS (R311). -/
def copyStatus : Nat → Nat
  | 0 => 0 | 3 => 2 | 4 => 10 | _ => 8

/-- The end that Tongs and record channels share: status record `rec` at its place, HEAD, the increment for the statuses `good`, the
fault as group and instance, the source, the job (R262, R263, R291, R306). A descriptor gives at most one fault: the record's own access is charged only where nothing
else is. -/
def State.chanFinish (s : State) (n status : Nat) (rec : List Byte) (good : Bool) (fault : Option (Nat × Nat)) (src : Nat) : State :=
  let x := s.chan n
  let t := TDesc.ofBytes x.desc
  let ctx := s.fld (chanCtx n)
  let rq : Req := ⟨chanUnit n, ctx, x.gen⟩
  let slot := s.rd64 (chanRing n) + 64 * 2 ^ s.fld (chanLog2 n) + 64 * (s.fld (chanHead n) % 2 ^ s.fld (chanLog2 n))
  let fault := if x.faulted then none else fault
  let (s, _) := s.write rq (match x.job with | some (_, out) => out | none => slot) rec false (fault.isNone && !x.faulted)
  let s := if x.job.isSome then s else s.wrapAdd (chanHead n) 1
  let s := (s.setFld (chanLastStatus n) status).setFld (chanLastReason n) x.reason
  let s := (s.setChan n ChanSt.idle).chanRunning n false
  let s := if x.aborted then ((s.setFld (chanEnable n) 0).setFld (chanAbort n) 0).chanIdle n else s
  let s := if good && t.doneKind != 0 then
      s.applyInc ⟨255, unitOf t.doneKind t.doneUnit, 0xFF, t.doneSc, 1, ctx, none⟩ else s
  let s := match fault with
    | some (group, inst) => s.report ⟨group, inst, 1, some ctx, some (chanUnit n), 0, (s.rd (chanBase n + 0x1C)).toNat⟩
    | none => s
  let s := if t.irq || status != 0 then s.hicEvent src else s
  match x.job with
  | some (id, _) =>
    match s.jobById id with
    | some j => (s.completeJob { j with status := copyStatus status, detail := if status = 3 then x.reason else 0 }).schedule
    | none => s
  | none => s

/-- TONGS_DESCRIPTOR_COMPLETE (R262, R263). (DESIGN CHOICE: log 40) -/
def execTongsDescriptorComplete (ch : Fin 32) (s : State) : Host.Outcome State Fault Refusal :=
  .next (
    let x := s.chan ch
    if x.desc = [] || !(x.moved || x.aborted) then s
    else
      let status := if x.status = 3 then 3 else if x.aborted then 4 else x.status
      s.chanFinish ch status (s.tongsRecord x status) (status == 0) (if status = 0 ∨ status = 4 then none else some (0x3D, ch.val)) (80 + ch))

/-- A write of ABORT on channel n (R263): a running descriptor completes as ABORTED; with none, ENABLE clears at once. -/
def State.chanAbortNow (s : State) (n : Nat) : State :=
  let x := s.chan n
  if x.desc = [] then ((s.setFld (chanEnable n) 0).setFld (chanAbort n) 0).chanIdle n
  else (s.setChan n { x with aborted := true }).setFld (chanState n) 2

/-- CHANNEL_HANG (R411): a RUNNING channel that has written no unit for 10 ms is aborted, class N. -/
def execChannelHang (ch : Fin 36) (s : State) : Host.Outcome State Fault Refusal :=
  .next (
    let x := s.chan ch
    if s.fld (chanState ch) != 1 then s
    else
      let s := (s.reach (x.lastWrite + 10000000)).chanAbortNow ch
      let ctx := s.fld (chanCtx ch)
      s.report ⟨0x3D, ch % 32, 1, some ctx, some (chanUnit ch), 0, 0⟩)

/-- COPY (R306): the Tongs descriptor at INPUT goes to a channel bound to the context. -/
def execCopy (c : Fin 16) (r : Fin 8) (ch : Fin 32) (s : State) : Host.Outcome State Fault Refusal :=
  .next (if s.fld (chanCtx ch) != c.val || (s.chan ch).desc != [] || !s.engineOn ch then s
    else s.takeDesc c r 4 (fun s d =>
      let j := s.jobOf c r d (.copy ch)
      let s := s.setFld (chanGen ch) (s.gen c)
      let (s, x) := s.read (s.chanReq ch) (fieldAt d 16 5) 64 false
      let desc := if x.bad then (padTo 64 x.bytes).set 0 1 |>.set 1 6 else x.bytes
      let s := s.accept j
      let st : ChanSt := { ChanSt.idle with desc := desc, job := some (j.id, j.output), gen := s.gen c, lastWrite := s.nowNs }
      let st := if x.bad then { st with started := true, moved := true, status := 3, reason := 3 } else st
      (s.setChan ch st).chanRunning ch true))

end Sys2Proof.Machine
end

