-- ==== Sys2Proof/Machine/Patrol.lean ====
section
/-! DEFINITION. Patrol scrubs and the failure of a DRAM channel (R243, R249, R252). -/

namespace Sys2Proof.Machine

/-- A patrol reads one damaged unit: a corrected one is rewritten, an uncorrectable one written back poisoned (R249, R252). -/
def State.patrolUnit (s : State) (u : Nat) : State :=
  match SMap.find? s.damage u with
  | some 1 => let s := s.corrected (32 * u); { s with damage := SMap.erase s.damage u }
  | some _ =>
    let s := s.uncorrectable (32 * u)
    { s with damage := SMap.erase s.damage u, poison := setInsert s.poison u }
  | none => s

/-- A patrol over the units a test names; a unit that holds no damage reads clean and stays as it is. -/
def State.patrol (s : State) (mine : Nat → Bool) : State :=
  ((s.damage.map (·.1)).filter mine).foldl State.patrolUnit s

/-- CRUCIBLE_PATROL (R249): the pass of one PERIOD_MS. -/
def execCruciblePatrol (s : State) : Host.Outcome State Fault Refusal :=
  .next (if !s.inParked && s.flag Reg.CRU_CTL.PATROL_EN then (s.every 7 (1000000 * s.fld Reg.CRU_PATROL.PERIOD_MS)).patrol (fun u => s.target (32 * u) == .crucible) else s)

/-- DRAM_PATROL (R252): in one MEM_PATROL.HOURS a controller reads its part of usable DRAM; a FAILED channel has nothing to rewrite, and one in self-refresh keeps its contents (R253). -/
def execDramPatrol (ch : Fin 8) (s : State) : Host.Outcome State Fault Refusal :=
  .next (if s.flag Reg.MEM_CTL.PATROL_EN && s.fld (Reg.MEM_CH_STATUS.STATE ch) != 3 && s.fld (Reg.MEM_CH_STATUS.STATE ch) != 1 then
    (s.every (8 + ch) (3600000000000 * s.fld Reg.MEM_PATROL.HOURS)).patrol (fun u => s.target (32 * u) == .dram && dramChannel (32 * u) == ch.val)
  else s)

/-- DRAM_CHANNEL_FAILED (R252, R398): STATE FAILED, class F. -/
def execDramChannelFailed (ch : Fin 8) (s : State) : Host.Outcome State Fault Refusal :=
  .next (if s.fld (Reg.MEM_CH_STATUS.STATE ch) == 3 then s
    else (s.setFld (Reg.MEM_CH_STATUS.STATE ch) 3).fault 0x3B ch false none none)

end Sys2Proof.Machine
end

