-- ==== Sys2Proof/Machine/Intake.lean ====
section
/-! DEFINITION. Bellows: cameras, conditioning, frame slots, point streams, the frame table, golden frames (R270 to R285, R292 to R294). -/

namespace Sys2Proof.Machine

/-! ### Streams: cameras 0 to 15, point streams 16 to 23 -/

def State.stream (s : State) (k : Nat) : IntakeSt := SMap.getD s.intake k IntakeSt.idle
def State.setStream (s : State) (k : Nat) (x : IntakeSt) : State := { s with intake := SMap.put s.intake k IntakeSt.idle x }
def State.modStream (s : State) (k : Nat) (f : IntakeSt → IntakeSt) : State := s.setStream k (f (s.stream k))

/-- Unit code, HIC source, and control fields of a stream (R283, R294). -/
def streamUnit (k : Nat) : Nat := 0xA0 + k
def streamSource (k : Nat) : Nat := 112 + k
def streamEnable (k : Nat) : FRef := if k < 16 then Reg.BLW_CAM_CTL.ENABLE k else Reg.BLW_PT_CTL.ENABLE (k - 16)
def streamFence (k : Nat) : FRef := if k < 16 then Reg.BLW_CAM_CTL.FENCE k else Reg.BLW_PT_CTL.FENCE (k - 16)
def streamSlots (k : Nat) : FRef := if k < 16 then Reg.BLW_CAM_CTL.SLOTS k else Reg.BLW_PT_CTL.SLOTS (k - 16)
def streamTable (k : Nat) : Nat := if k < 16 then Reg.BLW_CAM_OUT_LO k else Reg.BLW_PT_BUF_LO (k - 16)
/-- Bit i of the stream's event register. -/
def streamEvt (k i : Nat) : FRef := ⟨if k < 16 then Reg.BLW_CAM_EVT k else Reg.BLW_PT_EVT (k - 16), i, 1⟩

/-- Set a status bit of a stream. -/
def State.streamEvent (s : State) (k i : Nat) : State := s.event (streamEvt k i) (streamSource k)

/-- Bellows runs (R294, R414). -/
def State.bellowsOn (s : State) : Bool := s.flag Reg.BLW_CTL.ENABLE && !s.computeHeld

/-- A stream receives (R294). -/
def State.streamOn (s : State) (k : Nat) : Bool := s.bellowsOn && s.flag (streamEnable k) && !s.flag (streamFence k)

/-- A stream's requests (R277, R281, R383). -/
def State.streamReq (s : State) (k : Nat) : Req := s.req (streamUnit k) 0

/-- The slot a stream writes next (R278, R285). (DESIGN CHOICE: log 54) -/
def State.freeSlot (s : State) (k : Nat) : Nat :=
  let x := s.stream k
  let slots := x.order.filter (· < s.fld (streamSlots k))
  let base (i : Nat) : Bool := x.pick != some i && x.newest.map (·.slot) != some i
  let free (i : Nat) : Bool := base i && x.held != some i && !(x.ended.any (fun f => f.slot == i))
  (slots.find? free).getD ((slots.find? base).getD 0)

/-! ### Conditioning (R273, R274) -/

/-- What fixes the source of a pipeline: BLW_CAM_FMT and BLW_CAM_SIZE. -/
structure CamGeo where
  w : Nat
  h : Nat
  dt : Nat
  cfa : Nat
  mono : Bool
  bgr : Bool
  gammaEn : Bool
  ofmt : Nat
  deriving DecidableEq, Repr

def State.camGeo (s : State) (c : Nat) : CamGeo :=
  ⟨s.fld (Reg.BLW_CAM_SIZE.WIDTH c), s.fld (Reg.BLW_CAM_SIZE.HEIGHT c), s.fld (Reg.BLW_CAM_FMT.DT c), s.fld (Reg.BLW_CAM_FMT.CFA c),
    s.flag (Reg.BLW_CAM_FMT.MONO c), s.flag (Reg.BLW_CAM_FMT.BGR c), s.flag (Reg.BLW_CAM_FMT.GAMMA_EN c), s.fld (Reg.BLW_CAM_FMT.OFMT c)⟩

def CamGeo.yuv (g : CamGeo) : Bool := g.dt == 0x1E
/-- Bits of a sample. -/
def CamGeo.bits (g : CamGeo) : Nat :=
  match g.dt with | 0x2A => 8 | 0x2B => 10 | 0x2C => 12 | 0x2D => 14 | 0x2E => 16 | _ => 8
def CamGeo.lineBytes (g : CamGeo) : Nat := if g.yuv then 2 * g.w else (g.w * g.bits + 7) / 8
def CamGeo.channels (g : CamGeo) : Nat := if g.mono then 1 else 3

/-- Sample x of a RAW line, as CSI-2 packs it (R270). (PRESUMED: log 52) -/
def rawSample (b : Nat) (line : List Byte) (x : Nat) : Nat :=
  let at_ (i : Nat) : Nat := fieldAt line i 1
  match b with
  | 8 => at_ x
  | 10 => at_ (x / 4 * 5 + x % 4) * 4 + bits (at_ (x / 4 * 5 + 4)) (2 * (x % 4)) 2
  | 12 => at_ (x / 2 * 3 + x % 2) * 16 + bits (at_ (x / 2 * 3 + 2)) (4 * (x % 2)) 4
  | 14 => at_ (x / 4 * 7 + x % 4) * 64 + bits (fieldAt line (x / 4 * 7 + 4) 3) (6 * (x % 4)) 6
  | _ => at_ (2 * x) * 256 + at_ (2 * x + 1)

/-- Fields of a parameter record (R275). -/
def prmH (p : List Byte) (i : Nat) : Nat := fieldAt p i 2
def prmX0 (p : List Byte) : Nat := prmH p 42
def prmY0 (p : List Byte) : Nat := prmH p 44
def prmCw (p : List Byte) : Nat := prmH p 46
def prmCh (p : List Byte) : Nat := prmH p 48
def prmOw (p : List Byte) : Nat := prmH p 50
def prmOh (p : List Byte) : Nat := prmH p 52

/-- Unpack, black level and white balance of one RAW sample. -/
def balanced (g : CamGeo) (p : List Byte) (lines : List (List Byte)) (x y : Nat) : Nat :=
  let k := 2 * (y % 2) + x % 2
  let v := rawSample g.bits (lines.getD y []) x * 2 ^ (16 - g.bits)
  min 65535 (((v - prmH p (2 + 2 * k)) * prmH p (10 + 2 * k) + 2048) / 4096)

/-- Colour at a CFA index: 0 red, 1 green, 2 blue. -/
def cfaColour (cfa k : Nat) : Nat :=
  match cfa, k with
  | 0, 0 => 0 | 0, 3 => 2 | 1, 1 => 0 | 1, 2 => 2 | 2, 2 => 0 | 2, 1 => 2 | 3, 3 => 0 | 3, 0 => 2 | _, _ => 1

/-- A position beyond an edge reflects across it. -/
def reflect (n : Nat) (x : Int) : Nat := if x < 0 then (-x).toNat else if (n : Int) ≤ x then (2 * (n : Int) - 2 - x).toNat else x.toNat

/-- One colour of a pixel (bilinear demosaic). -/
def demosaic (g : CamGeo) (p : List Byte) (lines : List (List Byte)) (x y col : Nat) : Nat :=
  let colourAt (dx dy : Int) : Nat :=
    cfaColour g.cfa (2 * (((y : Int) + dy) % 2).toNat + (((x : Int) + dx) % 2).toNat)
  if colourAt 0 0 = col then balanced g p lines x y
  else
    let pick (l : List (Int × Int)) : List Nat := (l.filter (fun d => colourAt d.1 d.2 == col)).map (fun d =>
      balanced g p lines (reflect g.w (x + d.1)) (reflect g.h (y + d.2)))
    let cross := pick [(-1, 0), (1, 0), (0, -1), (0, 1)]
    let vs := if cross.isEmpty then pick [(-1, -1), (1, -1), (-1, 1), (1, 1)] else cross
    if vs.length = 2 then (vs.sum + 1) / 2 else (vs.sum + 2) / 4

/-- Colour matrix (R273). -/
def colourMix (p : List Byte) (v : List Nat) (i : Nat) : Nat :=
  let sum := ((List.range 3).map (fun j => signed 16 (prmH p (18 + 2 * (3 * i + j))) * ((v.getD j 0 : Nat) : Int))).sum
  (clampInt 0 65535 ((sum + signed 16 (prmH p (36 + 2 * i)) * 4096 + 2048) / 4096)).toNat

/-- Gamma (R273). -/
def gammaOf (l : List Byte) (v : Nat) : Nat :=
  let i := v / 64
  let a : Int := fieldAt l (2 * i) 2
  let b : Int := fieldAt l (2 * i + 2) 2
  (a + ((b - a) * (v % 64 : Nat) + 32) / 64).toNat

/-- The channels of one pixel after gamma. (PRESUMED: log 52; DEDUCED: log 53) -/
def condPixel (g : CamGeo) (p gm : List Byte) (lines : List (List Byte)) (x y : Nat) : List Nat :=
  let vs : List Nat :=
    if g.yuv then
      let l := lines.getD y []
      let chans := [fieldAt l (4 * (x / 2) + 1 + 2 * (x % 2)) 1 * 256, fieldAt l (4 * (x / 2)) 1 * 256, fieldAt l (4 * (x / 2) + 2) 1 * 256]
      if g.mono then [chans.getD 0 0] else (List.range 3).map (colourMix p chans)
    else if g.mono then [balanced g p lines x y]
    else (List.range 3).map (colourMix p ((List.range 3).map (demosaic g p lines x y)))
  if g.gammaEn then vs.map (gammaOf gm) else vs

/-- Source position of an output position: index, weight of the next one, its index (R274). -/
def resizePos (c o k : Nat) : Nat × Nat × Nat :=
  let step := c * 65536 / o
  let px := (clampInt 0 (((c - 1) * 65536 : Nat) : Int) ((((2 * k + 1) * step / 2 : Nat) : Int) - 32768)).toNat
  (px / 65536, px / 256 % 256, min (px / 65536 + 1) (c - 1))

def mix (a b f : Nat) : Nat := (a * (256 - f) + b * f + 128) / 256

/-- One channel of one output value before normalisation. -/
def resized (rows : Nat → Nat → Nat) (cw ow x : Nat) (i f j : Nat) : Nat :=
  let (a, fx, b) := resizePos cw ow x
  mix (mix (rows i a) (rows i b) fx) (mix (rows j a) (rows j b) fx) f

/-- Codes of output row r, channel by channel in the order written (R273). (DEDUCED: log 53) -/
def outRow (g : CamGeo) (p gm : List Byte) (lines : List (List Byte)) (r : Nat) : List (List Nat) :=
  let (i, f, j) := resizePos (prmCh p) (prmOh p) r
  let line (y : Nat) : List (List Nat) := (List.range (prmCw p)).map (fun x => condPixel g p gm lines (prmX0 p + x) (prmY0 p + y))
  let li := line i
  let lj := line j
  let chan (c : Nat) : List Nat := (List.range (prmOw p)).map (fun x =>
    let v := resized (fun y k => ((if y = i then li else lj).getD k []).getD c 0) (prmCw p) (prmOw p) x i f j
    encode g.ofmt 0 true (f32 (ffma (fieldAt p (56 + 4 * c) 4) (toF32 (.ofInt v)) (fieldAt p (68 + 4 * c) 4))))
  let cs := (List.range g.channels).map chan
  if g.bgr && !g.mono then cs.reverse else cs

/-- Bytes of a list of codes. -/
def codeBytes (f : Nat) (codes : List Nat) : List Byte := codes.flatMap (leBytes (fmtBits f / 8))

/-- Source lines that output row r needs. -/
def linesFor (g : CamGeo) (p : List Byte) (r : Nat) : Nat :=
  let (_, _, j) := resizePos (prmCh p) (prmOh p) r
  let last := prmY0 p + j
  min g.h (if g.yuv || g.mono then last + 1 else last + 2)

/-- The parameter record breaks R276 by itself. -/
def paramBad (g : CamGeo) (p : List Byte) : Bool :=
  let okSize (c o : Nat) : Bool := (c + 3) / 4 ≤ o && o ≤ min (4 * c) 4096
  fieldAt p 0 1 != 1 || !zeroAt p 1 1 || !zeroAt p 54 2 || !zeroAt p 88 40
    || g.w < prmX0 p + prmCw p || g.h < prmY0 p + prmCh p || prmCw p < 2 || prmCh p < 2
    || !okSize (prmCw p) (prmOw p) || !okSize (prmCh p) (prmOh p)

/-- A slot's tensor descriptor breaks R205, or does not fit the frame (R276, R277). (DESIGN CHOICE: log 54) -/
def slotBad (g : CamGeo) (p d : List Byte) : Bool :=
  let w := fieldAt d 6 2
  let h := fieldAt d 8 2
  let c := fieldAt d 10 2
  let rs := 32 * fieldAt d 12 2
  w != prmOw p || h != prmOh p || c != g.channels || fieldAt d 5 1 != 16 * g.ofmt || fieldAt d 0 1 % 32 != 0
    || rs < rowBytes g.ofmt w || (1 < c && 256 * fieldAt d 14 2 < rs * h)

/-! ### Frames (R271, R272, R276 to R278) -/

/-- The golden run of the strike is still to be made (R292). -/
def State.goldWaits (s : State) (c : Nat) : Bool :=
  let x := s.stream c
  s.flag Reg.BLW_GOLD_CTL.EN && x.goldDue && !x.goldRan

/-- STATE of a camera between frames: GOLDEN while the run that follows the frame end is to be made, else IDLE (R292, R294). (DEDUCED: log 56) -/
def State.frameOver (s : State) (c : Nat) : State :=
  (s.modStream c (fun x => { x with frame := none, frameEnd := true })).setFld (Reg.BLW_CAM_STATUS.STATE c) (if s.goldWaits c then 2 else 0)

/-- A FAULTY frame ends: its slot is free, it is counted (R271). -/
def State.dropFaulty (s : State) (c : Nat) : State :=
  let s := (s.frameOver c).modStream c (fun x => { x with faultySince := true })
  let s := s.setFld (Reg.BLW_CAM_STATUS.WRITING c) 0xF
  (s.count (Reg.BLW_CAM_DROP.FAULTY_CNT c) 1).streamEvent c 1

/-- Mark the open frame FAULTY. -/
def State.spoilFrame (s : State) (c : Nat) : State :=
  s.modStream c (fun x => { x with frame := x.frame.map (fun f => { f with faulty := true }) })

/-- A geometry breach. -/
def State.camGeom (s : State) (c : Nat) : State := s.count (Reg.BLW_CAM_ERR.GEOM_CNT c) 1

/-- The header check of a packet (R271): none where the packet is lost. -/
def State.camHeader (s : State) (c : Nat) (pkt : CamPacket) : State × Bool :=
  match pkt.header with
  | .clean => (s, true)
  | .corrected => (s.count (Reg.BLW_CAM_ERR.ECC_CE_CNT c) 1, true)
  | .discarded => ((s.count (Reg.BLW_CAM_ERR.ECC_UE_CNT c) 1).spoilFrame c, false)

/-- What the buffers do with a packet: a FIFO overflow loses it and counts; a double-bit error is poison that the pipeline consumes, told once for
a frame (R242, R271, R293). The answer says whether the packet is there. (DESIGN CHOICE: log 54) -/
def State.camBuffer (s : State) (c : Nat) (pkt : CamPacket) : State × Bool :=
  match pkt.buffer with
  | .clean => (s, true)
  | .overflow => ((s.camGeom c).spoilFrame c, false)
  | .poisoned =>
    let told := match (s.stream c).frame with | some f => f.faulty | none => true
    ((if told then s else s.consumed (streamUnit c) 0 0).spoilFrame c, true)

/-- A packet of the stream's virtual channel reaches its receiver; `run` acts on it when its header is good and its type is `dt`. -/
def State.camPacket (s : State) (c : Nat) (pkt : CamPacket) (dt : Nat) (run : State → State) : State :=
  if !s.streamOn c then s
  else
    let (s', ok) := s.camHeader c pkt
    if !ok then s'
    else if pkt.vc.val != s.fld (Reg.BLW_CAM_CTL.VC c) || pkt.dt != dt then s'
    else
      let (s'', there) := s'.camBuffer c pkt
      if there then run s'' else s''

/-- Read for a stream: a read that brings poison is told (R242, R276). -/
def State.streamRead (s : State) (k a n : Nat) : State × Rd := s.read (s.streamReq k) a n

/-- Start a frame: stamp, slot, parameters (R272, R276, R278). The stamp is free within 20 ns of the header's arrival. (DEDUCED: log 51, 53, 60) -/
def State.openFrame (s : State) (c no : Nat) : State :=
  let g := s.camGeo c
  let (s, k) := s.free
  let capture := ((s.nowNs : Int) + ((k % 41 : Nat) : Int) - 20 + signed 32 (s.fld (Reg.BLW_CAM_TS_ADJ.NS c))).toNat
  let slot := s.freeSlot c
  let (s, p) := s.streamRead c (s.rd64 (Reg.BLW_CAM_PARAM_LO c)) 128
  let (s, gm) : State × Rd := if g.gammaEn then s.streamRead c (fieldAt p.bytes 80 5 / 32 * 32) 2050 else (s, ⟨[], false, none⟩)
  let (s, d) := s.streamRead c (s.rd64 (streamTable c) + 16 * slot) 16
  let s := if (p.poison && p.err.isNone) || (gm.poison && gm.err.isNone) then
      s.report ⟨0x33, streamUnit c, 1, some 0, some (streamUnit c), 0, 0⟩ else s
  let bad := p.poison || gm.poison || d.poison || paramBad g p.bytes || slotBad g p.bytes d.bytes
  let s := (s.setFlag (Reg.BLW_CAM_STATUS.PARAM_BAD c) bad).setFld (Reg.BLW_CAM_STATUS.LAST_FRAME_NO c) no
  let s := (s.setFld (Reg.BLW_CAM_STATUS.WRITING c) slot).setFld (Reg.BLW_CAM_STATUS.STATE c) 1
  s.modStream c (fun x => { x with
    frame := some ⟨slot, no, capture, bad, p.bytes, gm.bytes, d.bytes, [], 0⟩
    ended := x.ended.filter (fun f => f.slot != slot) })

/-- FRAME_START (R270 to R272, R276, R278): a start while a frame is open ends that frame as FAULTY and opens the new one. -/
def execFrameStart (cam : Fin 16) (pkt : CamPacket) (s : State) : Host.Outcome State Fault Refusal :=
  .next (s.camPacket cam pkt 0x00 (fun s =>
    let s := if (s.stream cam).frame.isSome then (s.camGeom cam).dropFaulty cam else s
    s.openFrame cam pkt.number.toNat))

/-- Write one output row of the open frame: every channel's row (R273, R277). The answer says whether a write failed. -/
def State.writeRow (s : State) (c : Nat) (g : CamGeo) (f : OpenFrame) : State × Bool :=
  let d := f.tensor
  ((outRow g f.params f.gamma f.lines f.row).zipIdx).foldl (fun (acc : State × Bool) (ch : List Nat × Nat) =>
    let (s, e) := acc.1.write (acc.1.streamReq c) (fieldAt d 0 5 + ch.2 * 256 * fieldAt d 14 2 + f.row * 32 * fieldAt d 12 2)
      (codeBytes g.ofmt ch.1)
    (s, acc.2 || e.isSome)) (s, false)

/-- Write every output row whose source lines are there; `fuel` bounds the rows. -/
def State.writeRows : Nat → Nat → CamGeo → State → State
  | 0, _, _, s => s
  | n + 1, c, g, s =>
    match (s.stream c).frame with
    | none => s
    | some f =>
      if f.faulty || prmOh f.params ≤ f.row || f.lines.length < linesFor g f.params f.row then s
      else
        let (s, bad) := s.writeRow c g f
        State.writeRows n c g (s.modStream c (fun x => { x with frame := some { f with row := f.row + 1, faulty := bad } }))

/-- LINE_PACKET (R270, R271, R273, R277). (DESIGN CHOICE: log 54) -/
def execLinePacket (cam : Fin 16) (pkt : CamPacket) (s : State) : Host.Outcome State Fault Refusal :=
  let g := s.camGeo cam
  .next (s.camPacket cam pkt g.dt (fun s =>
    match (s.stream cam).frame with
    | none => s
    | some f =>
      let fits := pkt.payload.length == g.lineBytes
      let s := s.modStream cam (fun x => { x with frame := some { f with lines := f.lines ++ [pkt.payload] } })
      let s := if fits then State.writeRows (prmOh f.params + 1) cam g s else (s.camGeom cam).spoilFrame cam
      if pkt.crcOk then s else (s.count (Reg.BLW_CAM_ERR.CRC_CNT cam) 1).spoilFrame cam))

/-- FRAME_END (R271, R278). -/
def execFrameEnd (cam : Fin 16) (pkt : CamPacket) (s : State) : Host.Outcome State Fault Refusal :=
  .next (s.camPacket cam pkt 0x01 (fun s =>
    match (s.stream cam).frame with
    | none => s
    | some f =>
      let short := f.lines.length != s.fld (Reg.BLW_CAM_SIZE.HEIGHT cam)
      let s := if short then s.camGeom cam else s
      if short || f.faulty then s.dropFaulty cam
      else (s.frameOver cam).modStream cam (fun x => { x with ended := x.ended ++ [⟨f.slot, f.no, f.capture, 0, false, false⟩] })))

/-- A stream's entry at strike time `t`, with what its status does (R283, R284): only SLOT of a STALE entry is not its frame's. -/
def State.strikeStream (s : State) (k t : Nat) : State :=
  let x := s.stream k
  let flags (f : Bool) : Nat := ofBool x.faultySince + 2 * ofBool x.goldPrev + 4 * ofBool f
  let put (s : State) (st : Nat) (f : Option Frame) : State :=
    let age := match f with | some g => min 0xFFFFFFFF (t - g.capture) | none => 0
    let slot := if st = 2 then none else f.map (·.slot)
    s.modStream k (fun x => { x with
      pick := slot, faultySince := false
      newest := (match f with | some g => if st = 2 then none else some { g with named := true } | none => x.newest)
      entry := ⟨st, slot.getD 0xFF, flags ((f.map (·.truncated)).getD false), (f.map (·.no)).getD 0,
        (f.map (·.capture)).getD 0, age, (f.map (·.points)).getD 0⟩ })
  if !s.flag (streamEnable k) || s.flag (streamFence k) then put s 4 none
  else
    match x.newest with
    | none => put s 3 none
    | some f =>
      if 1000 * s.fld Reg.BLW_STALE.LIMIT_US < t - f.capture then
        let s := if k < 16 then (s.count (Reg.BLW_CAM_DROP.STALE_CNT k) 1).setFld (Reg.BLW_CAM_STATUS.NEWEST k) 0xF else s
        put ((s.streamEvent k 2).event Reg.BLW_EVT_STATUS.STALE 141) 2 (some f)
      else put s (if f.named then 1 else 0) (some f)

/-- A frame or sweep has become complete: it is the newest (R278, R282). In the strike's own comparison cycle it counts for that strike, whose
entry is taken again while the table is not written; FLAGS stays (R283). (DESIGN CHOICE: log 55) -/
def State.complete (s : State) (k : Nat) (f : Frame) : State :=
  let s := s.modStream k (fun x => { x with
    ended := x.ended.drop 1, newest := some f, order := x.order.filter (· != f.slot) ++ [f.slot]
    closed := if (x.closed.map (·.slot)) = some f.slot then none else x.closed })
  match s.ftab with
  | some (_, t) =>
    if s.strikeCycle then
      let was := (s.stream k).entry.flags
      (s.strikeStream k t).modStream k (fun x => { x with entry := { x.entry with flags := bits was 0 2 + 4 * ofBool f.truncated } })
    else s
  | none => s

/-- FRAME_COMPLETE (R278): the oldest frame that has ended. -/
def execFrameComplete (cam : Fin 16) (s : State) : Host.Outcome State Fault Refusal :=
  .next (match (s.stream cam).ended with
    | [] => s
    | f :: _ =>
      let s := (s.complete cam f).setFld (Reg.BLW_CAM_STATUS.NEWEST cam) f.slot
      let s := if s.fld (Reg.BLW_CAM_STATUS.WRITING cam) = f.slot && (s.stream cam).frame.isNone then
          s.setFld (Reg.BLW_CAM_STATUS.WRITING cam) 0xF else s
      s.streamEvent cam 0)

/-! ### Point streams (R279 to R282) -/

/-- Field k of a template: offset, from the payload's start, type, column, scale (R280). -/
structure PtField where
  off : Nat
  whole : Bool
  ty : Nat
  col : Nat
  scale : Nat
  deriving DecidableEq, Repr

def ptField (t : List Byte) (k : Nat) : PtField :=
  let o := fieldAt t (16 + 8 * k) 2
  ⟨bits o 0 15, bitAt o 15, fieldAt t (18 + 8 * k) 1, fieldAt t (19 + 8 * k) 1, fieldAt t (20 + 8 * k) 4⟩

def ptFields (t : List Byte) : List PtField := ((List.range 8).map (ptField t)).filter (·.ty != 0)

/-- Bytes of a field's raw value. -/
def PtField.size (f : PtField) : Nat :=
  match f.ty with | 1 | 2 => 1 | 3 | 4 => 2 | 5 | 6 | 7 => 4 | _ => 0

def tmplBe (t : List Byte) : Bool := bitAt (fieldAt t 1 1) 7
def tmplPort (t : List Byte) : Nat := fieldAt t 2 2
def tmplPoint (t : List Byte) : Nat := fieldAt t 4 2
def tmplStride (t : List Byte) : Nat := fieldAt t 6 2

/-- A template that keeps its stream from starting (R280). (DEDUCED: log 57) -/
def tmplBad (t : List Byte) : Bool :=
  fieldAt t 0 1 != 1 || bits (fieldAt t 1 1) 0 7 != 0 || !zeroAt t 15 1 || !zeroAt t 80 16
    || tmplStride t = 0 || 1024 < tmplStride t || (ptFields t).any (fun f => 8 < f.ty || 7 < f.col)

/-- A multi-byte packet field (R280). -/
def pktNat (be : Bool) (p : List Byte) (i n : Nat) : Nat := if be then beNat (padTo n ((p.drop i).take n)) else fieldAt p i n

/-- Points of a datagram. -/
def tmplCount (t p : List Byte) : Nat := let n := fieldAt t 8 2; if n = 0 then pktNat (tmplBe t) p (fieldAt t 10 2) 2 else n

/-- First byte of a field for point i. -/
def PtField.place (f : PtField) (t : List Byte) (i : Nat) : Nat := if f.whole then f.off else tmplPoint t + i * tmplStride t + f.off

/-- Bytes that a datagram needs (R279). (DEDUCED: log 57) -/
def tmplNeeds (t p : List Byte) (mark : Bool) : Nat :=
  let n := tmplCount t p
  let head := max (if fieldAt t 8 2 = 0 then fieldAt t 10 2 + 2 else 0) (if mark then fieldAt t 12 2 + 1 else 0)
  if n = 0 then head else (ptFields t).foldl (fun m f => max m (f.place t (n - 1) + f.size)) head

/-- Raw value of a field in FP32 (R280); ARRIVAL is a free neighbour where it is no whole number of µs. (DEDUCED: log 58) -/
def State.ptRaw (s : State) (t p : List Byte) (f : PtField) (i : Nat) (sinceFirst : Int) : State × Nat :=
  let v := pktNat (tmplBe t) p (f.place t i) f.size
  match f.ty with
  | 1 | 3 | 5 => (s, toF32 (.ofInt v))
  | 2 | 4 | 6 => (s, toF32 (.ofInt (signed (8 * f.size) v)))
  | 7 => (s, v)
  | _ => let (s, us) := s.openQuotient sinceFirst 1000; (s, toF32 (.ofInt us))

/-- The eight columns of one point, in FP32. -/
def State.ptColumns (s : State) (t p : List Byte) (i : Nat) (sinceFirst : Int) : State × List Nat :=
  (ptFields t).foldl (fun (acc : State × List Nat) f =>
    let (s, raw) := acc.1.ptRaw t p f i sinceFirst
    (s, acc.2.set f.col (fmul raw f.scale))) (s, List.replicate 8 0)

/-- The row of one point. -/
def ptRow (half : Bool) (cols : List Nat) : List Byte :=
  if half then cols.flatMap (fun c => leBytes 2 (encode fmtFp16 0 true (f32 c))) else cols.flatMap (fun c => leBytes 4 (encode fmtFp32 0 true (f32 c)))

/-- Read a stream's template and say in TMPL_BAD what it is; answers whether the stream may start (R280). -/
def State.readTemplate (s : State) (j : Nat) : State × Bool :=
  let (s, r) := s.streamRead (16 + j) (s.rd64 (Reg.BLW_PT_TMPL_LO j)) 96
  let s := if r.poison && r.err.isNone then s.consumed (streamUnit (16 + j)) 0 (s.rd64 (Reg.BLW_PT_TMPL_LO j)) else s
  let bad := r.poison || tmplBad r.bytes
  ((s.setFlag (Reg.BLW_PT_STATUS.TMPL_BAD j) bad).modStream (16 + j) (fun x => { x with tmpl := r.bytes }), !bad)

/-- Open a sweep at its first datagram (R281, R282). (DESIGN CHOICE: log 59) -/
def State.openSweep (s : State) (j stamp : Nat) : State :=
  let slot := s.freeSlot (16 + j)
  let (s, e) := s.streamRead (16 + j) (s.rd64 (streamTable (16 + j)) + 16 * slot) 16
  s.modStream (16 + j) (fun x => { x with
    sweep := some ⟨slot, fieldAt e.bytes 0 5 / 32 * 32, fieldAt e.bytes 8 4, stamp, 0, 0, 0⟩
    ended := x.ended.filter (fun f => f.slot != slot) })

/-- The 32-byte header of a sweep (R281). -/
def sweepHeader (w : OpenSweep) : List Byte :=
  leBytes 1 1 ++ leBytes 3 0 ++ leBytes 4 w.points ++ leBytes 4 w.datagrams ++ leBytes 4 w.dropped ++ leBytes 8 w.first ++ leBytes 8 0

/-- Close the open sweep: its header is written, and it waits for its acknowledgements (R281, R282). -/
def State.closeSweep (s : State) (j : Nat) : State :=
  match (s.stream (16 + j)).sweep with
  | none => s
  | some w =>
    let (s, _) := s.write (s.streamReq (16 + j)) w.addr (sweepHeader w)
    s.modStream (16 + j) (fun x => { x with
      sweep := none, sweeps := (x.sweeps + 1) % 2 ^ 32
      ended := x.ended ++ [⟨w.slot, x.sweeps, w.first, w.points, w.dropped != 0, false⟩] })

/-- Open again the sweep that the strike closed, for a datagram stamped in the strike's comparison cycle or before it (R282). -/
def State.reopenSweep (s : State) (j : Nat) (w : OpenSweep) : State :=
  s.modStream (16 + j) (fun x => { x with
    sweep := some w, closed := none, sweeps := (x.sweeps + 2 ^ 32 - 1) % 2 ^ 32, ended := x.ended.filter (fun f => f.slot != w.slot) })

/-- The strike closes a STRIKE sweep (R282). -/
def State.closeAtStrike (s : State) (j : Nat) : State :=
  let w := (s.stream (16 + j)).sweep
  (s.closeSweep j).modStream (16 + j) (fun x => { x with closed := w })

/-- Write the points of a datagram into the open sweep (R280, R281). (DESIGN CHOICE: log 59) -/
def State.addPoints (s : State) (j : Nat) (t : List Byte) (d : PointDatagram) (w : OpenSweep) : State × OpenSweep :=
  let half := s.flag (Reg.BLW_PT_CTL.OFMT16 j)
  let n := tmplCount t d.payload
  let kept := min n (w.capacity - w.points)
  let s := (List.range kept).foldl (fun (s : State) i =>
    let (s, cols) := s.ptColumns t d.payload i ((d.stamp : Int) - w.first)
    (s.write (s.streamReq (16 + j)) (w.addr + 32 + (w.points + i) * (if half then 16 else 32)) (ptRow half cols)).1) s
  let lost := n - kept
  let s := if lost = 0 then s else (s.count (Reg.BLW_PT_STATUS.PT_DROP_CNT j) lost).streamEvent (16 + j) 1
  (s, { w with points := w.points + kept, datagrams := w.datagrams + 1, dropped := w.dropped + lost })

/-- A datagram the stream drops (R279). -/
def State.badDatagram (s : State) (j : Nat) : State := s.count (Reg.BLW_PT_STATUS.PKT_BAD_CNT j) 1

/-- A datagram of the stream's port, a sweep being open (R279 to R282). -/
def State.sweepDatagram (s : State) (j : Nat) (d : PointDatagram) : State :=
  let x := s.stream (16 + j)
  let mark := s.flag (Reg.BLW_PT_CTL.MODE j)
  match x.sweep with
  | none => s
  | some w =>
    let (s, w) := s.addPoints j x.tmpl d w
    let s := s.modStream (16 + j) (fun x => { x with sweep := some w })
    if mark && (fieldAt d.payload (fieldAt x.tmpl 12 2) 1 &&& fieldAt x.tmpl 14 1) != 0 then s.closeSweep j else s

/-- A UDP datagram for a point stream (R279): its stamp is not later than R334 lets it be; one stamped in the strike's comparison cycle or before it
belongs to the sweep that closes there (R282). (DESIGN CHOICE: log 59) -/
def State.pointDatagram (s : State) (j : Nat) (d : PointDatagram) : State :=
  let d := { d with stamp := min d.stamp (s.nowNs + 4) }
  if !s.streamOn (16 + j) || (s.stream (16 + j)).tmpl.isEmpty || tmplPort (s.stream (16 + j)).tmpl != d.port then s
  else
    let late := !s.flag (Reg.BLW_PT_CTL.MODE j) && (s.stream (16 + j)).sweep.isNone && s.time.live && decide (d.stamp ≤ s.strikeTime)
    let s := match (s.stream (16 + j)).closed with
      | some w => if late then s.reopenSweep j w else s
      | none => s
    let fresh := (s.stream (16 + j)).sweep.isNone
    let (s', ok) := if fresh then s.readTemplate j else (s, true)
    let t := (s'.stream (16 + j)).tmpl
    let s' := if !ok || tmplPort t != d.port then s'
      else if d.payload.length < tmplNeeds t d.payload (s'.flag (Reg.BLW_PT_CTL.MODE j)) then s'.badDatagram j
      else (if fresh then s'.openSweep j d.stamp else s').sweepDatagram j d
    if late then s'.closeAtStrike j else s'

/-- POINT_DATAGRAM (R279 to R282). -/
def execPointDatagram (j : Fin 8) (d : PointDatagram) (s : State) : Host.Outcome State Fault Refusal :=
  .next (s.pointDatagram j d)

/-- SWEEP_COMPLETE (R282). -/
def execSweepComplete (j : Fin 8) (s : State) : Host.Outcome State Fault Refusal :=
  .next (match (s.stream (16 + j.val)).ended with
    | [] => s
    | f :: _ => (s.complete (16 + j.val) f).streamEvent (16 + j.val) 0)

/-! ### Fences and ENABLE -/

/-- Fence a stream: KIND 2 report, its receiver discards (R292, R294, R412). -/
def State.fenceStream (s : State) (k cause : Nat) : State :=
  let s := (((s.setFld (streamFence k) 1).logWrite 2 0xFF 0xFF 0 (streamUnit k) 0 cause 0).fclEvent 2).evrCounter 10
  let s := if k < 16 then (s.setFld (Reg.BLW_CAM_STATUS.STATE k) 3).setFld (Reg.BLW_CAM_STATUS.WRITING k) 0xF else s
  s.modStream k (fun x => { x with frame := none, sweep := none })

/-- ENABLE of a stream has changed: a stream that stops holds nothing; a point stream that starts reads its template (R280, R294). (DESIGN CHOICE: log 55) -/
def State.streamEnabled (s : State) (k : Nat) : State :=
  let s := s.setStream k IntakeSt.idle
  let s := if k < 16 then
      let s := (s.setFld (Reg.BLW_CAM_STATUS.NEWEST k) 0xF).setFld (Reg.BLW_CAM_STATUS.WRITING k) 0xF
      if s.flag (streamFence k) then s else s.setFld (Reg.BLW_CAM_STATUS.STATE k) 0
    else s
  if 16 ≤ k && s.flag (streamEnable k) then (s.readTemplate (k - 16)).1 else s

/-- BLW_CTL.ENABLE has changed, or Bellows leaves a reset: every stream stops, or starts anew. (DESIGN CHOICE: log 55) -/
def State.bellowsSwitched (s : State) : State :=
  (List.range 24).foldl (fun (s : State) k =>
    if !s.flag (streamEnable k) then s
    else if k < 16 || s.flag Reg.BLW_CTL.ENABLE then s.streamEnabled k
    else s.setStream k IntakeSt.idle) s

/-! ### The strike and the frame table (R283 to R285) -/

/-- A golden frame that failed (R292). -/
def State.goldFrameFailed (s : State) (c : Nat) : State :=
  let s := ((s.setFld Reg.BLW_GOLD_CTL.FAIL 1).streamEvent c 3).event Reg.BLW_EVT_STATUS.GOLD_FAIL 141
  let s := s.fault 0x31 c false (some 0) (some (streamUnit c))
  if s.inDrive then s else s.fenceStream c 2

/-- Golden runs at a strike: one that was due and has not run has failed; the next is due (R292). -/
def State.strikeGold (s : State) (c : Nat) : State :=
  let x := s.stream c
  let on := s.flag Reg.BLW_GOLD_CTL.EN && s.flag (streamEnable c) && !s.flag (streamFence c)
  let s := if on && x.goldDue && !x.goldRan then s.goldFrameFailed c else s
  s.modStream c (fun x => { x with goldPrev := x.goldOk, goldOk := false, goldRan := false, goldDue := on, frameEnd := false })

/-- What Bellows does at strike number n of time t: STRIKE sweeps close, golden runs are judged, every stream's entry is fixed. (DESIGN CHOICE: log 55) -/
def State.strikeIntake (s : State) (n t : Nat) : State :=
  if !s.bellowsOn then s
  else
    let s := (List.range 16).foldl (fun s c => s.strikeGold c) s
    let s := (List.range 24).foldl (fun s k => s.strikeStream k t) s
    let s := (List.range 8).foldl (fun (s : State) j => if s.flag (Reg.BLW_PT_CTL.MODE j) then s else s.closeAtStrike j) s
    { s with ftab := some (n, t) }

/-- The 32 bytes of an entry (R284). -/
def IntakeEntry.bytes (e : IntakeEntry) : List Byte :=
  leBytes 1 e.status ++ leBytes 1 e.slot ++ leBytes 1 e.flags ++ leBytes 1 0 ++ leBytes 4 e.no ++ leBytes 8 e.capture
    ++ leBytes 4 e.age ++ leBytes 4 e.points ++ leBytes 8 0

/-- Base of the frame table of strike n (R284). -/
def State.ftabBase (s : State) (n : Nat) : Nat := s.rd64 Reg.BLW_FTAB_LO + n % 2 * 0x400

/-- FRAME_TABLE_PUBLISH (R284, R285): entries first, header last; the slots of the table before are released. (DEDUCED: log 60) -/
def execFrameTablePublish (s : State) : Host.Outcome State Fault Refusal :=
  .next (match s.ftab with
    | none => s
    | some (n, t) =>
      if !s.bellowsOn then s
      else
        let base := s.ftabBase n
        let s := (List.range 24).foldl (fun (s : State) k =>
          (s.write (s.streamReq k) (base + 32 + 32 * k) (s.stream k).entry.bytes).1) s
        let head := leBytes 1 1 ++ leBytes 3 0 ++ leBytes 4 n ++ leBytes 8 t ++ leBytes 16 0
        let (s, _) := s.write (s.streamReq 0) base head
        let s := (List.range 24).foldl (fun (s : State) k => s.modStream k (fun x => { x with held := x.pick })) s
        { s with ftab := none }.event Reg.BLW_EVT_STATUS.FTAB 141)

/-! ### Golden frames (R292) -/

/-- Signature of a golden record as a camera's pipeline computes it; none where its parameters break R276. (DEDUCED: log 56) -/
def goldSig (g : CamGeo) (r : List Byte) : Option Nat :=
  let p := (r.drop 32).take 128
  let g : CamGeo := { g with w := 64, h := 16, dt := 0x2C, cfa := 0 }
  if fieldAt r 0 1 != 1 || paramBad g p then none
  else
    let lines := (List.range 16).map (fun y => (r.drop (2240 + 96 * y)).take 96)
    let rows := (List.range (prmOh p)).map (outRow g p (r.drop 160) lines)
    some (crc64Ecma ((List.range g.channels).flatMap (fun c => rows.flatMap (fun row => codeBytes g.ofmt (row.getD c [])))))

/-- GOLDEN_FRAME_RUN (R292): after the stream's first frame end of the strike, or at half the period. (DEDUCED: log 56) -/
def execGoldenFrameRun (cam : Fin 16) (s : State) : Host.Outcome State Fault Refusal :=
  .next (
    let x := s.stream cam
    if !s.streamOn cam || !s.goldWaits cam then s
    else
      let s := if x.frameEnd then s else s.reach (s.strikeTime + s.periodNs / 2)
      let a := s.rd64 Reg.BLW_GOLD_LO
      let (s, r) := s.streamRead cam a 3776
      let s := if r.poison && r.err.isNone then s.consumed (streamUnit cam) 0 a else s
      let ok := !r.poison && goldSig (s.camGeo cam) r.bytes == some (fieldAt r.bytes 8 8)
      let s := s.modStream cam (fun x => { x with goldRan := true, goldOk := ok })
      let s := if s.fld (Reg.BLW_CAM_STATUS.STATE cam) = 2 then s.setFld (Reg.BLW_CAM_STATUS.STATE cam) 0 else s
      if ok then s else s.goldFrameFailed cam)

end Sys2Proof.Machine
end

