-- ==== Sys2Proof/Machine/Records.lean ====
section
/-! DEFINITION. Record channels: CBOR sequences decoded into tensors, and the packing of short samples (R286 to R291). -/

namespace Sys2Proof.Machine

/-! ### CBOR (R289) -/

/-- Head of an item: major type, additional information, argument, the bytes after it; none where it is not well formed. -/
def cborHead : List Byte → Option (Nat × Nat × Nat × List Byte)
  | [] => none
  | b :: rest =>
    let major := b.toNat / 32
    let ai := b.toNat % 32
    if ai < 24 then some (major, ai, ai, rest)
    else if ai < 28 then
      let n := 2 ^ (ai - 24)
      if rest.length < n then none
      else
        let arg := beNat (rest.take n)
        if major = 7 ∧ ai = 24 ∧ arg < 32 then none else some (major, ai, arg, rest.drop n)
    else if ai = 31 && 2 ≤ major && major ≤ 5 then some (major, ai, 0, rest)
    else none

/-- What is still to come of the items that enclose a position. -/
inductive CborFrame where
  | count (n : Nat)
  | items
  | pairs (odd : Bool)
  | chunks (major : Nat)

/-- Bytes after one well-formed item; `fuel` bounds the heads and ends. -/
def cborSkip : Nat → List CborFrame → List Byte → Option (List Byte)
  | _, [], bs => some bs
  | 0, _, _ => none
  | fuel + 1, f :: st, bs =>
    let brk : Bool := bs.head? == some 0xFF
    match f with
    | .count 0 => cborSkip fuel st bs
    | .pairs odd =>
      if brk then (if odd then none else cborSkip fuel st (bs.drop 1))
      else cborSkip fuel (.count 1 :: .pairs (!odd) :: st) bs
    | .items => if brk then cborSkip fuel st (bs.drop 1) else cborSkip fuel (.count 1 :: .items :: st) bs
    | .chunks m =>
      if brk then cborSkip fuel st (bs.drop 1)
      else
        match cborHead bs with
        | some (major, ai, arg, rest) =>
          if major = m && ai != 31 && arg ≤ rest.length then cborSkip fuel (.chunks m :: st) (rest.drop arg) else none
        | none => none
    | .count (n + 1) =>
      match cborHead bs with
      | none => none
      | some (major, ai, arg, rest) =>
        let st := .count n :: st
        if ai = 31 then
          cborSkip fuel ((if major = 4 then .items else if major = 5 then .pairs false else .chunks major) :: st) rest
        else
          match major with
          | 2 | 3 => if arg ≤ rest.length then cborSkip fuel st (rest.drop arg) else none
          | 4 => cborSkip fuel (.count arg :: st) rest
          | 5 => cborSkip fuel (.count (2 * arg) :: st) rest
          | 6 => cborSkip fuel (.count 1 :: st) rest
          | _ => cborSkip fuel st rest

/-- Bytes after the item at the front. -/
def cborNext (bs : List Byte) : Option (List Byte) := cborSkip (3 * bs.length + 3) [.count 1] bs

/-- A double float. -/
def decode64 (v : Nat) : Num :=
  let neg := bitAt v 63
  let e := bits v 52 11
  let m := bits v 0 52
  if e = 2047 then (if m = 0 then .inf neg else .nan)
  else if e = 0 then .fin neg m (-1074) else .fin neg (2 ^ 52 + m) ((e : Int) - 1075)

/-- A field's value: its kind (1 number, 2 array, 3 byte string, 4 text) with numbers or bytes, or the code that refuses the record. -/
inductive CborVal where
  | nums (kind : Nat) (l : List Num)
  | text (kind : Nat) (bs : List Byte)
  | bad (code : Nat)

/-- The number of a head. -/
def cborNum (major ai arg : Nat) : CborVal :=
  match major with
  | 0 => .nums 1 [.ofInt arg]
  | 1 => .nums 1 [.ofInt (-1 - (arg : Int))]
  | 7 => if ai = 25 then .nums 1 [decode fmtFp16 arg] else if ai = 26 then .nums 1 [f32 arg]
    else if ai = 27 then .nums 1 [decode64 arg] else .bad 6
  | _ => .bad 1

/-- Elements of an array of numbers. -/
def cborArray : Nat → List Byte → List Num → CborVal
  | 0, _, acc => .nums 2 acc
  | n + 1, bs, acc =>
    match cborHead bs with
    | none => .bad 1
    | some (major, ai, arg, rest) =>
      if ai = 31 || major = 6 then .bad 6
      else
        match cborNum major ai arg with
        | .nums _ l => cborArray n rest (acc ++ l)
        | v => v

/-- Element size and reading of a typed array (RFC 8746). -/
def typedArray (tag : Nat) : Option (Nat × (Nat → Num)) :=
  match tag with
  | 64 => some (1, fun v => .ofInt v)
  | 69 => some (2, fun v => .ofInt v)
  | 70 => some (4, fun v => .ofInt v)
  | 72 => some (1, fun v => .ofInt (signed 8 v))
  | 77 => some (2, fun v => .ofInt (signed 16 v))
  | 78 => some (4, fun v => .ofInt (signed 32 v))
  | 84 => some (2, fun v => decode fmtFp16 v)
  | 85 => some (4, fun v => f32 v)
  | _ => none

/-- The value of a field. -/
def cborValue (bs : List Byte) : CborVal :=
  match cborHead bs with
  | none => .bad 1
  | some (major, ai, arg, rest) =>
    if ai = 31 then .bad 6
    else
      match major with
      | 2 => .text 3 (rest.take arg)
      | 3 => .text 4 (rest.take arg)
      | 4 => cborArray arg rest []
      | 5 => .bad 1
      | 6 =>
        match typedArray arg, cborHead rest with
        | some (n, f), some (2, i, len, data) =>
          if i = 31 then .bad 6 else if len % n != 0 then .bad 1
          else .nums 2 ((List.range (len / n)).map (fun k => f (fieldAt data (k * n) n)))
        | some _, _ => .bad 1
        | none, _ => .bad 6
      | m => cborNum m ai arg

/-! ### Schema and records (R287, R288) -/

/-- A record descriptor (R287). -/
structure RDesc where
  pack : Bool
  src : Nat
  srcLen : Nat
  most : Nat
  schema : Nat
  outTab : Nat
  rstat : Nat
  seg : Nat
  sampleKey : Nat
  deriving DecidableEq, Repr

def RDesc.ofBytes (d : List Byte) : RDesc :=
  ⟨bitAt (fieldAt d 2 1) 5, fieldAt d 8 5, fieldAt d 16 4, fieldAt d 20 4, fieldAt d 24 5, fieldAt d 32 5, fieldAt d 40 5, fieldAt d 48 5,
    bits (fieldAt d 56 1) 0 4⟩

def schKind (sc : List Byte) (k : Nat) : Nat := fieldAt sc (8 * k) 1
def schRequired (sc : List Byte) (k : Nat) : Bool := bitAt (fieldAt sc (8 * k + 1) 1) 7
def schOut (sc : List Byte) (k : Nat) : Nat := bits (fieldAt sc (8 * k + 1) 1) 0 4
def schMax (sc : List Byte) (k : Nat) : Nat := fieldAt sc (8 * k + 2) 2
def schKeys (sc : List Byte) : List Nat := (List.range 16).filter (fun k => schKind sc k != 0)

/-- An output tensor (R205). -/
structure OutT where
  addr : Nat
  fmt : Nat
  low : Nat
  w : Nat
  h : Nat
  c : Nat
  rs : Nat
  ps : Nat
  deriving DecidableEq, Repr

def outT (tab : List Byte) (i : Nat) : OutT :=
  ⟨fieldAt tab (16 * i) 5, bits (fieldAt tab (16 * i + 5) 1) 4 4, bits (fieldAt tab (16 * i + 5) 1) 0 4, fieldAt tab (16 * i + 6) 2,
    fieldAt tab (16 * i + 8) 2, fieldAt tab (16 * i + 10) 2, 32 * fieldAt tab (16 * i + 12) 2, 256 * fieldAt tab (16 * i + 14) 2⟩

/-- Every byte of the tensor lies in the map. -/
def OutT.inside (t : OutT) (ranges : List (Nat × Nat)) : Bool :=
  spanIn ranges t.addr ((t.c - 1) * t.ps + (t.h - 1) * t.rs + rowBytes t.fmt t.w)

/-- GEOMETRY of one key's tensor. -/
def keyBad (sc tab : List Byte) (k : Nat) : Bool :=
  let t := outT tab (schOut sc k)
  t.w == 0 || t.h == 0 || t.c == 0 || t.rs < rowBytes t.fmt t.w || (1 < t.c && t.ps < t.rs * t.h) || t.w < schMax sc k
    || !(t.fmt ≤ 6 || t.fmt == 9) || (3 ≤ schKind sc k && t.fmt != 1)

/-- The refusal of a record descriptor, if any (R259, R286, R287); the schema and the table follow the descriptor's own checks. (DEDUCED: log 61) -/
def recordRefusal (ranges : List (Nat × Nat)) (d sc tab : List Byte) (poisoned : Bool) : Option Nat :=
  let r := RDesc.ofBytes d
  let inside := spanIn ranges
  let t := outT tab (schOut sc r.sampleKey)
  let segLen := (t.h * t.w * 2 + 31) / 32 * 32
  if poisoned then some 0x03
  else if fieldAt d 0 1 != 1 then some 0x01
  else if fieldAt d 1 1 != 1 then some 0x02
  else if bits (fieldAt d 2 1) 0 5 != 0 || !zeroAt d 5 3 || bits (fieldAt d 56 1) 4 4 != 0 || !zeroAt d 57 7 || 4 < bits (fieldAt d 3 1) 4 4
      || (List.range 16).any (fun k => 4 < schKind sc k || bits (fieldAt sc (8 * k + 1) 1) 4 3 != 0 || !zeroAt sc (8 * k + 4) 4)
      || (schKeys sc).any (fun k => (outT tab (schOut sc k)).low != 0) then some 0x03
  else if !inside r.src r.srcLen || !inside r.schema 128 || !inside r.outTab 256 || !inside r.rstat r.most
      || (r.pack && !inside r.seg segLen) || (schKeys sc).any (fun k => !(outT tab (schOut sc k)).inside ranges) then some 0x12
  else if (schKeys sc).any (fun k => (outT tab (schOut sc k)).addr % 32 != 0) || (r.pack && r.seg % 32 != 0) then some 0x13
  else if r.most = 0 || 16777215 < r.most || (schKeys sc).any (keyBad sc tab) || (r.pack && schKind sc r.sampleKey == 0) then some 0x30
  else none

/-- Codes of a field in its tensor. -/
def CborVal.codes (t : OutT) : CborVal → List Nat
  | .nums _ l => l.map (encode t.fmt 0 true)
  | .text _ bs => bs.map (·.toNat)
  | .bad _ => []

/-- Entries of a map: keys and values, or the first code that refuses the record. -/
def cborFields (sc : List Byte) : Nat → List Byte → List (Nat × CborVal) → Nat × List (Nat × CborVal)
  | 0, _, acc => (0, acc)
  | n + 1, bs, acc =>
    match cborHead bs with
    | none => (1, acc)
    | some (major, ai, key, rest) =>
      if ai = 31 then (6, acc)
      else if major != 0 || 15 < key || schKind sc key = 0 || acc.any (fun e => e.1 == key) then (2, acc)
      else
        let v := cborValue rest
        let go (kind len : Nat) : Nat × List (Nat × CborVal) :=
          if kind != schKind sc key then (1, acc)
          else if schMax sc key < len then (3, acc)
          else cborFields sc n ((cborNext rest).getD []) (acc ++ [(key, v)])
        match v with
        | .bad c => (c, acc)
        | .nums k l => go k l.length
        | .text k b => go k b.length

/-- Decode one record: its code and its fields (R288, R289). -/
def decodeRecord (sc : List Byte) (item : List Byte) (poisoned : Bool) : Nat × List (Nat × CborVal) :=
  if poisoned then (5, [])
  else
    match cborHead item with
    | some (5, ai, n, rest) =>
      if ai = 31 then (6, [])
      else
        let (c, fs) := cborFields sc n rest []
        if c != 0 then (c, [])
        else if (schKeys sc).any (fun k => schRequired sc k && !(fs.any (fun e => e.1 == k))) then (4, [])
        else (0, fs)
    | _ => (1, [])

/-! ### The run of a descriptor (R288 to R291) -/

/-- Packed rows: per row its codes and segments so far (R290). -/
structure PackSt where
  rows : List (List Nat × List Nat)
  map : List Byte
  deriving DecidableEq, Repr

/-- What a run has come to: status (0 while it goes on), records, refused, bytes consumed, first bad, poison consumed, packed rows. -/
structure RecSt where
  status : Nat
  records : Nat
  refused : Nat
  consumed : Nat
  firstBad : Nat
  ate : Bool
  pack : PackSt
  deriving DecidableEq, Repr

/-- Bytes of a row of codes, with 4-bit codes two to a byte (R45). -/
def rowOfCodes (f : Nat) (codes : List Nat) : List Byte :=
  if fmtBits f = 4 then (List.range ((codes.length + 1) / 2)).map (fun i =>
      BitVec.ofNat 8 (codes.getD (2 * i) 0 % 16 + 16 * (codes.getD (2 * i + 1) 0 % 16)))
  else codes.flatMap (leBytes (fmtBits f / 8))

/-- `n` codes, zero beyond those given. -/
def padCodes (n : Nat) (l : List Nat) : List Nat := l.take n ++ List.replicate (n - l.length) 0

/-- The one fault of a record descriptor, for the first of its accesses that fails: later ones are charged with nothing (R262, R291). -/
def State.chargeOnce (s : State) (rq : Req) (a len : Nat) (write : Bool) : State :=
  let n := 32 + (rq.unit - 0xB8)
  let fail := (unitPieces (len / 32 + 2) a len).findSome? (fun p => (s.accessCheck rq p.1 write).2.map (fun e => (p.1, e)))
  match fail with
  | some (p, e) =>
    if (s.chan n).faulted || (s.errReport rq p e false).isNone then s
    else (s.chargeErr rq p e).setChan n { s.chan n with faulted := true }
  | none => s

/-- A record channel writes; a write that fails is the descriptor's one fault. -/
def State.recWrite (s : State) (rq : Req) (a : Nat) (bs : List Byte) : State :=
  ((s.chargeOnce rq a bs.length true).write rq a bs false false).1

/-- Write row `i` of every tensor but the packed one; absent fields are zero (R288). (DEDUCED: log 61) -/
def State.recordRows (s : State) (rq : Req) (sc tab : List Byte) (packed : Option Nat) (i : Nat) (fs : List (Nat × CborVal)) : State :=
  (schKeys sc).foldl (fun (s : State) k =>
    if packed = some k then s
    else
      let t := outT tab (schOut sc k)
      let codes := ((fs.find? (fun e => e.1 == k)).map (fun e => e.2.codes t)).getD []
      s.recWrite rq (t.addr + i * t.rs) (rowOfCodes t.fmt (padCodes t.w codes))) s

/-- Samples placed in row r so far: the entries of the map that name it. -/
def PackSt.samples (p : PackSt) (r : Nat) : Nat := (List.range (p.map.length / 16)).countP (fun i => fieldAt p.map (16 * i + 4) 2 == r)

/-- Place a sample: the lowest-numbered row with room (R290). (DEDUCED: log 61) -/
def PackSt.place (p : PackSt) (w rec_ : Nat) (codes : List Nat) : Option PackSt :=
  match (List.range p.rows.length).find? (fun r => (p.rows.getD r ([], [])).1.length + codes.length ≤ w) with
  | none => none
  | some r =>
    let row := p.rows.getD r ([], [])
    let seg := p.samples r + 1
    some { rows := p.rows.set r (row.1 ++ codes, row.2 ++ List.replicate codes.length seg)
           map := p.map ++ leBytes 4 rec_ ++ leBytes 2 r ++ leBytes 2 row.1.length ++ leBytes 2 codes.length ++ leBytes 2 seg ++ leBytes 4 0 }

/-- A refused record (R289). -/
def State.recordRefused (s : State) (rq : Req) (r : RDesc) (sc tab : List Byte) (packed : Option Nat) (x : RecSt) (code used : Nat) :
    State × RecSt :=
  let s := s.recordRows rq sc tab packed x.records []
  let s := s.recWrite rq (r.rstat + x.records) (leBytes 1 code)
  (s, { x with records := x.records + 1, refused := x.refused + 1, consumed := x.consumed + used, ate := x.ate || code == 5
               firstBad := min x.firstBad x.records })

/-- One record that decodes. -/
def State.recordTaken (s : State) (rq : Req) (r : RDesc) (sc tab : List Byte) (packed : Option Nat) (x : RecSt) (fs : List (Nat × CborVal))
    (used : Nat) : State × RecSt :=
  let sample := packed.bind (fun k => (fs.find? (fun e => e.1 == k)).map (fun e => e.2.codes (outT tab (schOut sc k))))
  let w := (packed.map (fun k => (outT tab (schOut sc k)).w)).getD 0
  let done (p : PackSt) : State × RecSt :=
    let s := s.recordRows rq sc tab packed x.records fs
    let s := s.recWrite rq (r.rstat + x.records) (leBytes 1 0)
    (s, { x with records := x.records + 1, consumed := x.consumed + used, pack := p })
  match sample with
  | none => done x.pack
  | some codes =>
    if w < codes.length then s.recordRefused rq r sc tab packed x 3 used
    else
      match x.pack.place w x.records codes with
      | none => (s, { x with status := 2 })
      | some p => done p

/-- Decode items until the sequence ends or stops; `fuel` bounds the items. -/
def State.recordLoop (rq : Req) (r : RDesc) (sc tab data : List Byte) (poisoned : Nat → Bool) (packed : Option Nat) :
    Nat → State → RecSt → State × RecSt
  | 0, s, x => (s, x)
  | n + 1, s, x =>
    if x.status != 0 || r.most ≤ x.records || r.srcLen ≤ x.consumed then (s, x)
    else
      let bs := data.drop x.consumed
      match cborNext bs with
      | none => (s, { x with status := 3 })
      | some rest =>
        let used := bs.length - rest.length
        let bad := (List.range ((r.src + x.consumed + used - 1) / 32 + 1 - (r.src + x.consumed) / 32)).any (fun i =>
          poisoned ((r.src + x.consumed) / 32 + i))
        let (code, fs) := decodeRecord sc (bs.take used) bad
        let (s, x) := if code != 0 then s.recordRefused rq r sc tab packed x code used
          else s.recordTaken rq r sc tab packed x fs used
        State.recordLoop rq r sc tab data poisoned packed n s x

/-- Read a stretch of memory unit by unit: its bytes, and the units (address / 32) that came poisoned. -/
def State.readMarked (s : State) (rq : Req) (a n : Nat) : State × List Byte × List Nat :=
  (unitPieces (n / 32 + 2) a n).foldl (fun (acc : State × List Byte × List Nat) p =>
    let (s, x) := (acc.1.chargeOnce rq p.1 p.2 false).readUnit rq p.1 false
    (s, acc.2.1 ++ (x.bytes.drop (p.1 % 32)).take p.2, if x.poison then p.1 / 32 :: acc.2.2 else acc.2.2)) (s, [], [])

/-- The end of a packed descriptor: rows, segments and the map (R290). -/
def State.packEnd (s : State) (rq : Req) (r : RDesc) (t : OutT) (p : PackSt) : State :=
  let s := (p.rows.zipIdx).foldl (fun (s : State) (row : (List Nat × List Nat) × Nat) =>
    s.recWrite rq (t.addr + row.2 * t.rs) (rowOfCodes t.fmt (padCodes t.w row.1.1))) s
  let segs := p.rows.flatMap (fun row => (padCodes t.w row.2).flatMap (leBytes 2))
  (s.recWrite rq r.seg segs).recWrite rq (r.seg + (t.h * t.w * 2 + 31) / 32 * 32) p.map

/-- Run a record descriptor that was not refused (R288 to R291). -/
def State.recordRun (s : State) (rq : Req) (d sc tab : List Byte) : State × RecSt :=
  let r := RDesc.ofBytes d
  let packed := if r.pack then some r.sampleKey else none
  let t := outT tab (schOut sc r.sampleKey)
  let (s, data, marked) := s.readMarked rq r.src r.srcLen
  let x : RecSt := ⟨0, 0, 0, 0, 0xFFFFFFFF, false, ⟨if r.pack then List.replicate t.h ([], []) else [], []⟩⟩
  let (s, x) := State.recordLoop rq r sc tab data marked.contains packed (r.srcLen + 1) s x
  let s := if r.pack then s.packEnd rq r t x.pack else s
  (s, { x with status := if x.status = 0 && x.refused != 0 then 1 else x.status })

/-- RECORD_DECODE (R286 to R290). -/
def execRecordDecode (r : Fin 4) (s : State) : Host.Outcome State Fault Refusal :=
  let n := 32 + r.val
  .next (match s.chanTake n with
    | (_, none) => s
    | (s', some (d, bad)) =>
      let s' := s'.chanRunning n true
      let rq := s'.chanReq n
      let rd := RDesc.ofBytes d
      let ranges := mapRanges s'.rawTop
      let s' := s'.setChan n { s'.chan n with desc := d, started := true, moved := true, gen := s'.fld (chanGen n), lastWrite := s'.nowNs }
      let early := recordRefusal ranges d [] [] bad
      let blind := early.isSome && early != some 0x30
      let table (s : State) (a len : Nat) : State × Rd :=
        if blind then (s, ⟨[], false, none⟩) else (s.chargeOnce rq a len false).read rq a len false
      let (s', sc) := table s' rd.schema 128
      let (s', tab) := table s' rd.outTab 256
      match recordRefusal ranges d sc.bytes tab.bytes (bad || sc.bad || tab.bad) with
      | some why => s'.setChan n { s'.chan n with reason := why, status := 4 }
      | none =>
        let (s', y) := s'.recordRun rq d sc.bytes tab.bytes
        let x := s'.chan n
        let eats := y.ate && !x.faulted
        let s' := if eats then s'.consumed (chanUnit n) (s'.fld (chanCtx n)) rd.src else s'
        let used := (List.range y.pack.rows.length).countP (fun i => y.pack.samples i != 0)
        s'.setChan n { x with status := y.status, faulted := x.faulted || eats, counts := [y.records, y.refused, y.consumed, used, y.firstBad] })

/-- The status record of a record descriptor (R291). -/
def State.recordStatus (s : State) (x : ChanSt) (status : Nat) : List Byte :=
  let k (i : Nat) : Nat := x.counts.getD i (if i = 4 then 0xFFFFFFFF else 0)
  leBytes 1 1 ++ leBytes 1 status ++ leBytes 1 0 ++ leBytes 1 x.reason ++ leBytes 4 (k 0) ++ leBytes 4 (k 1) ++ leBytes 4 (k 2)
    ++ leBytes 2 (k 3) ++ leBytes 2 0 ++ leBytes 4 (k 4) ++ leBytes 32 0 ++ leBytes 8 s.nowNs

/-- RECORD_DESCRIPTOR_COMPLETE (R291). -/
def execRecordDescriptorComplete (r : Fin 4) (s : State) : Host.Outcome State Fault Refusal :=
  let n := 32 + r.val
  .next (
    let x := s.chan n
    if x.desc = [] || !(x.moved || x.aborted) then s
    else
      let status := if x.status = 4 then 4 else if x.aborted then 5 else x.status
      let fault := if status = 4 then some (0x3D, r.val) else if status = 2 ∨ status = 3 then some (0x33, chanUnit n) else none
      s.chanFinish n status (s.recordStatus x status) (status ≤ 1) fault (136 + r.val))

end Sys2Proof.Machine
end

