-- ==== Sys2Proof/Machine/Contexts.lean ====
section
/-! DEFINITION. Contexts: ACTIVE by ENABLE, teardown, and MSI-X delivery (R295 to R298, R318, R321, R323 to R325, R442). -/

namespace Sys2Proof.Machine

/-- The next generation (R297). -/
def nextGen (g : Nat) : Nat := if g = 0xFFFF then 1 else g + 1

/-- A context's generation advances: its handles fail, its serials start again (R297, R307). -/
def State.advanceGen (s : State) (c : Nat) : State :=
  let s := s.setFld (Reg.HRT_CTX_STATUS.GEN c) (nextGen (s.gen c))
  { s with models := s.models.filter (fun m => bits m.handle 44 4 != c), serials := SMap.erase s.serials c }

/-- A context's state and what HRT_CTX_CTL shows of it (R296). -/
def State.setCtxState (s : State) (c st : Nat) : State :=
  (s.setFld (Reg.HRT_CTX_STATUS.STATE c) st).setFlag (Reg.HRT_CTX_CTL.ENABLE c) (st == 1)

/-- Jobs and records of a context are gone without a record (R323). (DEDUCED: log 66) -/
def State.dropJobs (s : State) (c : Nat) : State :=
  ({ s with jobs := s.jobs.filter (·.ctx != c), waiting := SMap.keep (fun k => k / 8 != c) s.waiting }).syncJobs c

/-- Stop every unit that holds the context's work, and abort its channels (R263, R323). -/
def State.releaseCtx (s : State) (c : Nat) : State :=
  let s := (List.range 78).foldl (fun (s : State) u =>
    if s.flag (unitBusy u) && (s.unit u).ctx = c then s.stopUnit u else s) s
  (List.range 36).foldl (fun (s : State) n =>
    if s.fld (chanCtx n) = c && (s.flag (chanEnable n) || (s.chan n).desc != []) then s.chanAbortNow n else s) s

/-- Traffic of the context's old generation that is on its way: it is discarded where it arrives (R23, R323). (DEDUCED: log 66) -/
def State.dropTraffic (s : State) (c : Nat) : State :=
  { s with incs := s.incs.filter (·.ctx != c)
           links := s.links.map (fun (e : Nat × LinkSt) => (e.1, { e.2 with recv := e.2.recv.filter (fun r => r.1 != c) })) }

/-- Teardown of an ACTIVE tenant context (R323, R435, R455). -/
def State.teardown (s : State) (c : Nat) : State :=
  let s := (s.setCtxState c 2).advanceGen c
  let s := ((s.dropJobs c).releaseCtx c).dropTraffic c
  let s := { s with draining := SMap.insert s.draining c s.nowNs }
  ((s.announceGen c).gateForget c).schedule

/-- Transactions of a context that are outstanding (HRT_CTX_INFLIGHT): the link messages that wait for credit or an acknowledgement. -/
def State.inflight (s : State) (c : Nat) : Nat :=
  (s.links.map (fun (e : Nat × LinkSt) =>
    ((e.2.inflight.filter (fun f => f.msg.ctx == c)).length + (e.2.queue.filter (fun m => m.ctx == c)).length))).sum
    + (s.incs.filter (·.ctx == c)).length

/-- The wait of a teardown ends. -/
def State.enterScrubbing (s : State) (c : Nat) : State :=
  ({ s with draining := SMap.erase s.draining c }.setCtxState c 3).event Reg.HRT_EVT_STATUS.TEARDOWN_DONE 79

/-- TEARDOWN_QUIESCED (R323, R324). -/
def execTeardownQuiesced (c : Fin 16) (s : State) : Host.Outcome State Fault Refusal :=
  .next (if s.ctxState c != 2 || s.inflight c != 0 then s else s.enterScrubbing c)

/-- Messages of a context that have not completed within 2 ms are discarded (R298, R324, R325). -/
def State.dropLinks (s : State) (c : Nat) : State :=
  { s with links := s.links.map (fun (e : Nat × LinkSt) =>
      (e.1, { e.2 with queue := e.2.queue.filter (·.ctx != c), inflight := e.2.inflight.filter (·.msg.ctx != c) })) }

/-- QUIESCE_TIMEOUT (R324): 2 ms after the advance. (DEDUCED: log 66) -/
def execQuiesceTimeout (c : Fin 16) (s : State) : Host.Outcome State Fault Refusal :=
  .next (if s.ctxState c != 2 then s
    else
      let s := s.expire (SMap.getD s.draining c s.nowNs + 2000000)
      (((s.dropTraffic c).dropLinks c |>.enterScrubbing c).event Reg.HRT_EVT_STATUS.QUIESCE_TIMEOUT 79).fault 0x3F c false (some c) none)

/-- SCRUB_DONE was written (R323): FREE; TEARDOWN clears. -/
def State.scrubDone (s : State) (c : Nat) : State :=
  if s.ctxState c = 3 then (s.setCtxState c 0).setFld (Reg.HRT_CTX_CTL.TEARDOWN c) 0 else s

/-- TEARDOWN was written (R323): without effect on a context that is not ACTIVE; a FREE context's bit is clear. -/
def State.teardownWritten (s : State) (c : Nat) : State :=
  match s.ctxState c with
  | 1 => if c = 0 then s else s.teardown c
  | 0 => s.setFld (Reg.HRT_CTX_CTL.TEARDOWN c) 0
  | _ => s

/-! ### MSI-X (R318, R442) -/

/-- Delivery of a source's vector is possible (R442): the link is in L0, or in L1 or a substate that the device leaves (R318). -/
def State.msixReady (s : State) (v : Nat) : Bool :=
  let l := s.fld Reg.PCI_STATUS.LINK
  s.fld Reg.PCI_STATUS.DSTATE == 0 && s.msix.enabled && !s.msix.masked && s.msix.unmasked.contains v && 1 ≤ l && l ≤ 4

/-- A pending enabled source is routed to a vector that MSI-X and the masks would let through (R442). -/
def State.wantsWake (s : State) : Bool :=
  s.flag Reg.HIC_CTL.ENABLE && s.msix.enabled && !s.msix.masked && (List.range 343).any (fun src =>
    s.fld (Reg.HIC_SRC_CFG.KIND src) == 1 && s.deliverable src && s.msix.unmasked.contains (s.fld (Reg.HIC_SRC_CFG.TARGET src)))

/-- What such a source does while the function is in D3hot, in D3cold (its link down), or the link in L2: PM_PME, once while the condition
holds, or PCIE_WAKE_n (R442). (DEDUCED: log 123) -/
def State.pciePme (s : State) : State :=
  let pme := s.wantsWake && s.fld Reg.PCI_STATUS.DSTATE == 3 && s.fld Reg.PCI_STATUS.LINK % 5 != 0 && s.msix.pmeEn
  let s := if pme && !s.msix.pmeSent then s.send (.pin 3 true) else s
  let s := { s with msix := { s.msix with pmeSent := pme } }
  if !s.wantsWake then s
  else
    if (s.fld Reg.PCI_STATUS.LINK = 5 || (s.fld Reg.PCI_STATUS.LINK = 0 && s.fld Reg.PCI_STATUS.DSTATE = 3)) && s.flag Reg.PCI_CTL.WAKE_EN && s.modes.pcieWakeAt.isNone then
      { s.send (.pin 1 false) with modes := { s.modes with pcieWakeAt := some s.nowNs } }
    else s

/-- MSIX_SEND (R318, R321, R442): the claim is the message itself; a low-power link is left for it. A source that cannot be sent now may wake
the host. (PRESUMED: log 67; DEDUCED: log 123) -/
def execMsixSend (source : BitVec 9) (s : State) : Host.Outcome State Fault Refusal :=
  .next (
    let src := source.toNat
    let v := s.fld (Reg.HIC_SRC_CFG.TARGET src)
    if !s.flag Reg.HIC_CTL.ENABLE || s.fld (Reg.HIC_SRC_CFG.KIND src) != 1 || !s.deliverable src then s
    else if !s.msixReady v then s.pciePme
    else
      let e := SMap.getD s.msix.entries v (0, 0)
      ((s.claim src 8).setFld Reg.PCI_STATUS.LINK 1).send (.msix v e.1 e.2))

end Sys2Proof.Machine
end

