-- ==== Sys2Proof/Machine/Strike.lean ====
section
/-! DEFINITION. The strike: what falls due at the boundary, what starts, strike table entries, stage windows (R25, R96, R341 to R349, R372 to R374,
R381, R382, R409, R424). -/

namespace Sys2Proof.Machine

/-! ### Stage windows (R361, R372 to R374) -/

/-- Configuration and context of the job to which unit u was assigned for this strike. -/
def State.assigned (s : State) (u : Nat) : Option (Nat × Nat) := (s.assigns.find? (fun e => e.1 == u)).map (·.2)

/-- LATE: the unit started in the window and is still BUSY. It is stopped; its job completes with TIMEOUT and LATE (R374). (DEDUCED: log 81) -/
def State.lateUnit (s : State) (w u : Nat) : State :=
  let x := s.unit u
  if s.flag (unitBusy u) && x.window == some w && x.startStrike == s.strikeNo then
    (s.winBreach w u 0 x.ranSafety x.ctx).stopWith u 9 true
  else s

/-- NO_START: EXPECT is 1 and a named unit did not start inside the window (R373, R374). (DEDUCED: log 81) -/
def State.noStartUnit (s : State) (w u : Nat) : State :=
  if s.winFld (Reg.SFI_WIN_CTRL.EXPECT w) == 1 && s.winNames w u && !s.winStarts.contains (128 * w + u) then
    match s.assigned u with
    | some (config, ctx) => s.winBreach w u 1 (config < 2) ctx
    | none => s.winBreach w u 1 false 0
  else s

/-- A window reaches CLOSE: its breaches, then the closes of the primaries it names that have no partner (R361, R374). -/
def State.closeStage (s : State) (w : Nat) : State :=
  let s := { s with winClosed := setInsert s.winClosed w }
  let s := (List.range 78).foldl (fun s u => (s.lateUnit w u).noStartUnit w u) s
  (List.range 39).foldl (fun s k => if s.winNames w (2 * k) then s.missingCloses k else s) s

/-- Windows that check in this strike and have not closed. (DEDUCED: log 81) -/
def State.openStages (s : State) : List Nat :=
  if s.inDrive && s.time.live then
    (List.range 32).filter (fun w => s.winFld (Reg.SFI_WIN_CTRL.VALID w) == 1 && !s.winClosed.contains w)
  else []

/-- WINDOW_CLOSE (R374). A CLOSE of P or above closes at the next strike (R372). -/
def execWindowClose (w : Fin 32) (s : State) : Host.Outcome State Fault Refusal :=
  .next (
    let c := s.winFld (Reg.SFI_WIN_CLOSE.NS w)
    if s.openStages.contains w.val && decide (c < s.periodNs) then (s.reachFrac (s.time.strikeAt + ofNs c)).closeStage w else s)

/-! ### Strike-bound jobs (R25) -/

/-- A part of a strike-bound job on a unit that nothing can start any more ends: with TIMEOUT when no launch started it. -/
def State.sweepPart (s : State) (j : Job) (u : Nat) : State :=
  if j.ended.contains u || s.entryPending u || (s.flag (unitBusy u) && (s.unit u).job == some j.id) then s
  else s.unitDoneFor j.id u (if j.started.contains u then 0 else 9)

/-- The same over every unit of every launched strike-bound job. -/
def State.sweepJobs (s : State) : State :=
  (s.jobs.filter (fun j => j.strikeBound && j.launchStrike.isSome)).foldl (fun s j =>
    j.units.foldl (fun s u => match s.jobById j.id with | some j => s.sweepPart j u | none => s) s) s

/-- Strike-bound jobs that wait launch at this strike; one without units completes. -/
def State.launchBound (s : State) : State :=
  let waiting := s.jobs.filter (fun j => j.strikeBound && j.launchStrike.isNone)
  let s := { s with
    jobs := s.jobs.map (fun (j : Job) => if j.strikeBound && j.launchStrike.isNone then
        { j with units := s.pairClosure j.units, launchStrike := some s.strikeNo, lastStrike := s.strikeNo, launchTime := s.nowNs }
      else j)
    assigns := s.assigns ++ waiting.flatMap (fun j => (s.pairClosure j.units).map (fun u => (u, j.config, j.ctx))) }
  waiting.foldl (fun s j => if j.units.isEmpty then s.checkJob j.id else s) s

/-! ### Pairs at the boundary (R96, R381) -/

/-- A unit is held by a job of the coming strike, or by a running list, in another configuration than PAIRED (R96). (DEDUCED: log 80) -/
def State.heldUnpaired (s : State) (u : Nat) : Bool :=
  s.jobs.any (fun j => j.strikeBound && j.launchStrike.isNone && j.units.contains u && j.config != 0)
    || (s.flag (unitBusy u) && (s.unit u).config != 0 && (s.unit u).config != 3)

/-- Anvil pairs that are paired (R31, R91). -/
def State.anvilPairs (s : State) : Nat := ((List.range 32).filter (fun k => s.fld (unitPairState (2 * k)) == 1)).length

/-- The pair can be joined: both members live, neither held otherwise, and fewer than 16 Anvil pairs are paired (R31, R91, R96). (DEDUCED: log 80) -/
def State.canPair (s : State) (p : Nat) : Bool :=
  [p, p + 1].all (fun u => s.memberLive u && !s.heldUnpaired u) && (64 ≤ p || s.anvilPairs < 16)

/-- A member takes a pair state at the boundary; PAIR_CHANGED says that it is paired now and was not, or the other way round. -/
def State.memberBecomes (s : State) (u st : Nat) : State :=
  let was := s.isPaired u
  let s := s.setFld (unitPairState u) st
  if was == (st == 1) then s else s.event (unitPairChanged u) (unitSource u)

/-- A pair takes a state at the boundary. Its comparator slot is emptied when the pair changes (R381). -/
def State.pairBecomes (s : State) (p st : Nat) : State :=
  let changed := s.slotLive (slotOf p) != (st == 1)
  let s := (s.memberBecomes p st).memberBecomes (p + 1) st
  if changed then s.emptySlot (slotOf p) else s

/-- REQ of a pair asks for a paired pair: the value at the boundary counts, but a pair that a fence or a reset ended needs a new request (R96). -/
def State.pairWanted (s : State) (p : Nat) : Bool := s.flag (unitPairReq p) && !s.pairBar.contains p

/-- Step 2 of R381, splits first: a pair that was asked to split, or whose member has left, is UNPAIRED; one asked back stays PAIRED. -/
def State.pairSplit (s : State) (p : Nat) : State :=
  if !s.slotLive (slotOf p) then s
  else if s.isPaired p && s.isPaired (p + 1) && s.pairWanted p then s.pairBecomes p 1
  else s.pairBecomes p 0

/-- Step 2 of R381, joins: a pair that is asked for and can be joined is PAIRED; where it cannot, it stays UNPAIRED, and the request is judged
again at the next boundary. Among Anvil pairs that ask at one boundary the lower numbers come first. (DESIGN CHOICE: log 156) -/
def State.pairJoin (s : State) (p : Nat) : State :=
  if s.slotLive (slotOf p) then s
  else if s.pairWanted p && s.canPair p then s.pairBecomes p 1
  else s.pairBecomes p 0

/-- Steps 2 and 3 of R381 over all pairs. -/
def State.pairBoundary (s : State) : State :=
  let s := (List.range 39).foldl (fun s k => s.pairSplit (2 * k)) s
  (List.range 39).foldl (fun s k => s.pairJoin (2 * k)) s

/-- A Hearth pair is to be paired: in DRIVE alone, pair 0 always (R366, R382, R475). -/
def State.hearthWanted (s : State) (j : Nat) : Bool := s.inDrive && (j == 0 || bitAt (s.fld Reg.SFI_HRT_PAIR.REQ) j)

/-- Hearth pairs: a split takes effect at the boundary, a join begins (R382). (DEDUCED: log 89) -/
def State.hearthBoundary (s : State) (j : Nat) : State :=
  let want := s.hearthWanted j
  let state := s.fld Reg.SFI_HRT_PAIR.STATE
  if want && !bitAt state j then
    if (SMap.find? s.hearth.joins j).isSome then s
    else ({ s with hearth := { s.hearth with joins := SMap.insert s.hearth.joins j s.nowNs } }).sfiEvent 2
  else if !want && bitAt state j then s.setFld Reg.SFI_HRT_PAIR.STATE (state - 2 ^ j)
  else s

/-! ### What else a strike does -/

/-- Cores that must kick: not in reset, not fenced, not the checker of a pair in lockstep (R409). -/
def State.kicksDue (s : State) (k : Nat) : Bool :=
  !s.computeHeld && !bitAt (s.rd Reg.FCL_FENCE_NOW3).toNat (24 + k) && !(k % 2 == 1 && s.hearthPaired (k / 2))

/-- Count the strikes without a kick of each core (R409); the time before the first strike after RUN (`live` false) is no strike. (DESIGN CHOICE: log 96) -/
def State.countKicks (s : State) (live : Bool) : State :=
  { s with hearth := { s.hearth with
      missed := if live then (List.range 8).map (fun k =>
        if !s.kicksDue k || s.hearth.kicked.contains k then 0 else s.hearth.missed.getD k 0 + 1) else s.hearth.missed
      kicked := [] } }

/-- Strike slack of the strike that ends (R424): bin 0 counts strikes with a LATE breach. (DEDUCED: log 82) -/
def State.slackSample (s : State) : State :=
  let slack : Int := (s.time.period : Int) - s.stageEnd
  let s := if s.lateSeen then s.evrAdd 4 3 1 else s.evrHist 4 slack 0 500000
  s.evrExtreme 9 false (slack / 1000)

/-- The BARRIER whose release names this strike completes (R349). -/
def State.barrierStrike (s : State) : State :=
  match s.time.release with
  | some (id, named) =>
    let r := named.getD s.strikeNo
    if serialDiff 32 s.strikeNo r < 0 then s
    else
      let s := s.modTime (fun t => { t with release := none })
      match s.jobs.find? (fun j => match j.kind with | .barrier b _ => b == id | _ => false) with
      | some j => (s.completeJob { j with lastStrike := r }).timEvent 1
      | none => s
  | none => s

/-- Unit flags of a strike: the unit's first launch, its golden runs, its closes (R89, R197, R361, R371). -/
def State.freshUnit (s : State) (u : Nat) : State :=
  let s := s.setFld (unitCheckOk u) 0
  if SMap.find? s.units u == none then s
  else s.modUnit u (fun x => { x with
    launched := false, goldOk := false, goldTried := false, closed := 0, publishedNow := false
    ranSafety := s.flag (unitBusy u) && x.safety })

/-- Registers that take effect at a strike: the stage windows (R372) and Ember's (R396). (DEDUCED: log 84) -/
def State.latchIsland (s : State) : State :=
  { s with
    winForce := (List.range 32).foldl (fun m w => (List.range 6).foldl (fun m i =>
      let a := Reg.SFI_WIN_OPEN w + 4 * i
      SMap.put m a (resetWord a) (s.rd a)) m) []
    embForce := (List.range 9).foldl (fun m i =>
      let a := Reg.EMB_CTL + 4 * i
      SMap.put m a (resetWord a) (s.rd a)) [] }

/-- How many entries of the bank in force are skipped (R344). -/
def State.skips (s : State) : Nat :=
  let b := s.fld Reg.TIM_STRIKE_CTL.BANK
  ((List.range 128).filter (fun e => s.flag (Reg.TIM_ST_CTRL.VALID b e) && decide (s.periodNs ≤ s.fld (Reg.TIM_ST_OFFSET.NS b e)))).length

/-- Count skipped entries (R344). -/
def State.skipEntries (s : State) (n : Nat) : State := if n = 0 then s else (s.count Reg.TIM_ERR.SKIP_CNT n).timEvent 2

/-! ### Hand-over between modes at a boundary (R381, R382, R475) -/

/-- Cap in force in DEPOT (R470). (DEDUCED: log 143) -/
def State.depotCap (s : State) : Nat :=
  let w := min (s.fld Reg.PRC_CAP.DEPOT_W) s.depotMax
  let deg := ((signed 16 (s.fld Reg.PRC_THERMAL.INLET) - 440) / 8).toNat
  max (w - 10 * deg) (min w 220)

/-- Strike-bound work ends with ABORTED (R475): its lists stop, and what waits for a strike never launches. -/
def State.endBound (s : State) : State :=
  let s := (List.range 78).foldl (fun (s : State) u =>
    match (s.unit u).job.bind s.jobById with
    | some j => if j.strikeBound && s.flag (unitBusy u) then s.stopUnit u else s
    | none => s) s
  (s.jobs.filter Job.strikeBound).foldl (fun (s : State) j => s.retire j (verdictOf 10 j.results j.published j.poisoned j.late) 10) s

/-- Steps 1 to 4 of R475, at the boundary that follows a DEPOT request: the island returns to SAFE_INIT, FAULT_n falls, every Hearth pair splits,
the tenant pool is cleared, or its scrub is started when it is dirty, and the mode and the cap are those of DEPOT. (DEDUCED: log 126) -/
def State.enterDepot (s : State) : State :=
  let s := s.endBound
  let s := if s.armed then (s.setFld Reg.SFI_STATUS.STATE 0).setFld Reg.SFI_CTL.ARM 0 else s
  let s := (s.setFld Reg.SFI_STATUS.FAULT_PIN 0).setFld Reg.SFI_HRT_PAIR.STATE 0
  let s := { s with hearth := { s.hearth with joins := [] } }.setFld Reg.PRC_MODE.MODE 2
  let s := if s.flag Reg.PRC_MODE.POOL_DIRTY then s.setFld Reg.PRC_MODE.POOL_SCRUB 1 else s.zeroRange s.poolBase (s.usableTop - s.poolBase)
  let s := s.setFld Reg.PRC_THERMAL.CAP_W s.depotCap
  { s with modes := { s.modes with entering := false, wake := 0 } }

/-! ### The strike itself -/

/-- All channels that work take a state (R253, R268, R471). (DESIGN CHOICE: log 171) -/
def State.dramState (s : State) (v : Nat) : State :=
  (List.range 8).foldl (fun (s : State) c =>
    if s.fld (Reg.MEM_CH_STATUS.STATE c) = 3 then s else s.setFld (Reg.MEM_CH_STATUS.STATE c) v) s

/-- The end of the strike that is in force (R25, R361, R374, R375, R381, R424). -/
def State.endStrike (s : State) : State :=
  if !s.time.live then s
  else
    let s := s.openStages.foldl State.closeStage s
    let s := (List.range 39).foldl (fun s k => if s.slotLive k then s.missingCloses k else s) s
    let s := if s.inDrive then s.slackSample else s
    let s := s.modTime (fun t => { t with live := false })
    let s := { s with jobs := s.jobs.map (fun (j : Job) => if j.launchStrike.isSome && j.captures.isNone then
      { j with captures := some s.captures } else j) }
    s.sweepJobs

/-- Period of the interval that begins at this strike, in ns: a follower takes its master's (R340, R347). -/
def State.nextPeriod (s : State) : Nat :=
  if s.barRole = 2 then s.time.markPeriod else 1000 * s.fld Reg.TIM_STRIKE_CFG.PERIOD

/-- Latch the strike (R341) that falls at `t`. -/
def State.latchStrike (s : State) (t : Nat) : State :=
  let n := s.time.nextNum
  let s := (s.setFld Reg.TIM_STRIKE_NUM.NUM n).wr64 Reg.TIM_STRIKE_TIME_LO (t >>> 32)
  let s := (s.setFld Reg.TIM_STRIKE_CTL.BANK (s.fld Reg.TIM_STRIKE_CTL.NEXT_BANK)).timEvent 0
  let p := s.nextPeriod
  let trim : Int := if s.barRole = 2 then s.time.rateTrim else 0
  s.modTime (fun x => { x with
    period := p, strikeAt := t, next := some ((t : Int) + p * 2 ^ 32 + trim).toNat, nextNum := (n + 1) % 2 ^ 32, live := true, fired := [],
    events := [] })

/-- A write of TIM_STRIKE_CFG or NEXT_BANK in the strike's own comparison cycle acts at that strike (R340, R341, R350). (DESIGN CHOICE: log 75) -/
def State.restrike (s : State) : State :=
  if s.strikeCycle && s.flag Reg.TIM_STRIKE_CTL.RUN then
    let was := s.skips
    let p := s.nextPeriod
    let s := s.setFld Reg.TIM_STRIKE_CTL.BANK (s.fld Reg.TIM_STRIKE_CTL.NEXT_BANK)
    let s := s.modTime (fun x => { x with next := x.next.map (fun t => ((t : Int) + ((p : Int) - x.period) * 2 ^ 32).toNat), period := p })
    s.skipEntries (s.skips - was)
  else s

/-- Everything that begins with the strike. -/
def State.beginStrike (s : State) : State :=
  let s := (s.skipEntries s.skips).latchIsland.strikeSelftest
  let s := { s with winStarts := [], winClosed := [], assigns := [], stageEnd := 0, lateSeen := false, ageDue := some s.strikeNo,
                    cmp := { s.cmp with missed := [] } }
  let s := (List.range 78).foldl State.freshUnit s
  let s := s.setFld Reg.SFI_STATUS.EMBER_OK 0
  let s := { s with emb := { s.emb with started := false, completed := false } }
  ((s.sendMarks 0).barrierStrike.launchBound.sweepJobs).schedule

/-- A SUPERVISED job is configured in the strike (R378). -/
def State.supervisedConfigured (s : State) : Bool :=
  s.assigns.any (fun e => e.2.1 == 1 && e.2.2 == 0) || s.jobs.any (fun j => j.ctx == 0 && j.config == 1 && j.launchStrike.isSome)

/-- Ember runs: enabled, in DRIVE, not halted by class F or in OUT_OF_SERVICE (R378, R394, R419). -/
def State.embOn (s : State) : Bool :=
  s.embFld Reg.EMB_CTL.ENABLE == 1 && s.inDrive && s.time.live && !s.quench.templated

/-- A run of Ember is in progress, or the run of this strike has not been made: LATE at its deadline (R378). -/
def State.embDue (s : State) : Bool := s.emb.running || (s.embOn && !s.emb.completed)

/-- Ember's run ends with a status (R378, R379). (DEDUCED: log 91) -/
def State.emberEnds (s : State) (status : Nat) (result summary : List Byte) : State :=
  let e := s.emb
  let ok := status == 0
  -- a quench that this run's own status causes sends the frame of the run (R380)
  let frame := s.quench.publishing && !s.quench.templated
  let age := e.oldest.map (fun c => s.nowNs - c)
  let s := { s with emb := { e with
    running := false, completed := true, haveLast := true, lastStatus := status, lastStrike := e.runStrike, lastAge := age, lastEnd := s.nowNs,
    result := if ok then result.take 65536 else e.result, summary := if ok then summary else e.summary,
    pubDue := e.pubDue || (ok && s.quench.publishing) } }
  let s := (s.setFld Reg.EMB_STATUS.RUNNING 0).setFld Reg.EMB_STATUS.LAST status
  let s := (s.setFld Reg.EMB_LAST_STRIKE.NUM s.emb.lastStrike).setFld Reg.EMB_LAST_AGE.NS (min 0xFFFFFFFF (age.getD 0xFFFFFFFF))
  let s := if ok then s.setFld Reg.EMB_RESULT.BYTES s.emb.result.length else s
  let s := if status = 1 then s.count Reg.EMB_STATUS.LATE_CNT 1 else if status = 3 then s.count Reg.EMB_STATUS.FAULT_CNT 1 else s
  let s := if ok then s
    else (s.sfiEvent 6).fault 0x2B status s.supervisedConfigured (some 0) (some 0x63)
  if frame then s.safeStateFrame else s

/-- The run of this strike is not finished in time: LATE, also where it had no time to start (R378). -/
def State.emberLate (s : State) : State :=
  let s := if s.emb.started then s else { s with emb := { s.emb with started := true, runStrike := s.strikeNo, oldest := none } }
  s.emberEnds 1 [] []

/-- A safe-state frame goes out at the strike: no run completed in the one that ends, and once per strike in OUT_OF_SERVICE (R380, R419). -/
def State.frameOwed (s : State) : Bool :=
  (s.quench.publishing && !s.quench.templated && !s.emb.completed) || s.outOfService

/-- STRIKE (R341). (DEDUCED: log 91) -/
def State.strikeAt (s : State) (t : Nat) : State :=
  let late := s.embDue
  let live := s.time.live
  let s := (s.reachFrac t).endStrike
  let s := if late then s.emberLate else s
  let owed := s.frameOwed
  let s := s.pairBoundary
  let s := if s.modes.entering && s.inDrive then s.enterDepot else s
  let s := if s.modes.handAt.isSome then s.dramState 0 else s
  let s := (s.countKicks live).latchStrike t
  -- the frame carries the number of the strike at which it is sent (R380)
  let s := if owed then s.safeStateFrame else s
  let s := (List.range 4).foldl State.hearthBoundary s
  (s.strikeIntake s.strikeNo (t >>> 32)).beginStrike

/-- The generator runs and a strike is due. -/
def State.strikeDue (s : State) : Option Nat :=
  if s.flag Reg.TIM_STRIKE_CTL.RUN && !s.inParked then s.time.next else none

/-- STRIKE (R341): the next strike falls. (DESIGN CHOICE: log 2, 4) -/
def execStrike (s : State) : Host.Outcome State Fault Refusal :=
  .next (match s.strikeDue with
    | none => s
    | some t => s.strikeAt t)

/-! ### Strike table entries (R344) -/

/-- Entry e of the bank in force can still fire in this strike. -/
def State.entryReady (s : State) (e : Nat) : Bool :=
  let b := s.fld Reg.TIM_STRIKE_CTL.BANK
  s.time.live && s.flag Reg.TIM_STRIKE_CTL.RUN && s.flag (Reg.TIM_ST_CTRL.VALID b e) && !s.time.fired.contains e
    && decide (s.fld (Reg.TIM_ST_OFFSET.NS b e) < s.periodNs)

/-- Entries that fire in one comparison cycle: every event is marked, and a unit that several of them name starts once. (DESIGN CHOICE: log 75) -/
def State.fireEntries (s : State) (es : List Nat) : State :=
  let b := s.fld Reg.TIM_STRIKE_CTL.BANK
  let s := s.modTime (fun t => { t with
    fired := es.foldl setInsert t.fired
    events := es.foldl (fun l e => setInsert l (s.fld (Reg.TIM_ST_CTRL.EVENT b e))) t.events })
  let s := (List.range 78).foldl (fun (s : State) u =>
    match es.find? (fun e => s.entryNames b e u) with
    | some e => s.launch u (s.fld (Reg.TIM_ST_CTRL.EVENT b e))
    | none => s) s
  s.sweepJobs

/-- STRIKE_TABLE_ENTRY_FIRE (R344): the entry, with every other one of the same offset. (DESIGN CHOICE: log 75) -/
def execStrikeTableEntryFire (e : Fin 128) (s : State) : Host.Outcome State Fault Refusal :=
  .next (if !s.entryReady e || s.inParked then s
    else
      let b := s.fld Reg.TIM_STRIKE_CTL.BANK
      let off := s.fld (Reg.TIM_ST_OFFSET.NS b e)
      let es := (List.range 128).filter (fun i => s.entryReady i && s.fld (Reg.TIM_ST_OFFSET.NS b i) == off)
      (s.reachFrac (s.time.strikeAt + ofNs off)).fireEntries es)

end Sys2Proof.Machine
end

