-- ==== Sys2Proof/Machine/Island.lean ====
section
/-! DEFINITION. The safety island outside the strike: the age monitor, Ember, arming, safe-state frames, reports of detectors, hangs, the Hearth's
pairs and the debugger (R366, R367, R375 to R380, R382, R389, R390, R399, R407, R409, R410). -/

namespace Sys2Proof.Machine

/-! ### Result age monitor (R375) -/

/-- The age monitor reads the frame table of strike number `n` (R375): a table that cannot be read, or whose header carries another
strike number, changes no capture. (DEDUCED: log 85) -/
def State.ageRead (s : State) (n : Nat) : State :=
  let base := s.ftabBase n
  let (s, head) := s.read (s.req 0x62 0) base 32
  if head.err.isSome || head.poison || fieldAt head.bytes 4 4 != s.strikeNo then
    ((s.count Reg.SFI_AGE_STATUS.FTAB_CNT 1).sfiEvent 5).fault 0x2A 0 true (some 0) (some 0x62)
  else
    (List.range 24).foldl (fun s k =>
      let (s, e) := s.read (s.req 0x62 0) (base + 32 + 32 * k) 32
      if e.err.isNone && !e.poison && fieldAt e.bytes 0 1 < 2 then
        { s with captures := SMap.insert s.captures k (fieldAt e.bytes 8 8) }
      else s) s

/-- AGE_FRAME_TABLE_READ (R375): 4 µs after the strike, through the island's port. -/
def execAgeFrameTableRead (s : State) : Host.Outcome State Fault Refusal :=
  .next (match s.ageDue with
    | none => s
    | some n => ({ s with ageDue := none }.reachFrac (s.time.strikeAt + ofNs 4000)).ageRead n)

/-! ### Ember (R377 to R380) -/

/-- What Ember reads of the frame table (R378): the oldest capture among its streams, whether none of them is usable, and whether a read
failed. (DEDUCED: log 86) -/
def State.embInputs (s : State) : State × Option Nat × Bool × Bool :=
  let base := s.ftabBase s.strikeNo
  let rq := s.req 0x63 0
  let (s, head) := s.read rq base 32
  -- an old table stands for no input: Bellows has published none in this strike
  if head.err.isNone && !head.poison && fieldAt head.bytes 4 4 != s.strikeNo then (s, none, true, false)
  else
    let (s, old, any, bad) := (List.range 24).foldl (fun (acc : State × Option Nat × Bool × Bool) k =>
      let (s, old, any, bad) := acc
      if !bitAt (s.embFld Reg.EMB_IN.STREAMS) k then acc
      else
        let (s, e) := s.read rq (base + 32 + 32 * k) 32
        if e.err.isSome || e.poison then (s, old, any, true)
        else if fieldAt e.bytes 0 1 < 2 then
          let c := fieldAt e.bytes 8 8
          (s, some (match old with | some o => min o c | none => c), true, bad)
        else (s, old, any, bad)) (s, none, false, head.err.isSome || head.poison)
    (s, old, !any && !bad, bad)

/-- EMBER_RUN_START (R378): at EMB_OFFSET the golden vector, then the inputs; what the vector gave is the command's operand. (DESIGN CHOICE: log 92) -/
def execEmberRunStart (goldenOk : Bool) (s : State) : Host.Outcome State Fault Refusal :=
  .next (if !s.embOn || s.emb.running || s.emb.started then s
    else
      let s := s.reachFrac (s.time.strikeAt + ofNs (1000 * s.embFld Reg.EMB_OFFSET.US))
      let (s, old, noInput, bad) := s.embInputs
      let s := (s.setFlag Reg.SFI_STATUS.EMBER_OK goldenOk).setFld Reg.EMB_STATUS.RUNNING 1
      { s with emb := { s.emb with
          running := true, started := true, runStrike := s.strikeNo, goldOk := goldenOk, oldest := old, noInput := noInput, faulted := bad } })

/-- Publish the run that waits for it (R379): header and result into its buffer, and the DEGRADED record into ring 7. The copy follows the
run, or the quench, by itself: it is made by the next command of the island and in an idle cycle. (DEDUCED: log 86, 87) -/
def State.publishEmber (s : State) : State :=
  let e := s.emb
  if !e.pubDue then s
  else
    let s := { s with emb := { e with pubDue := false } }
    let b := e.lastStrike % 2
    let base := s.embFld Reg.EMB_OUT_LO.ADDR_LO + 2 ^ 32 * s.embFld Reg.EMB_OUT_HI.ADDR_HI + b * 0x20000
    let head := leBytes 1 1 ++ leBytes 3 0 ++ leBytes 4 e.result.length ++ leBytes 4 e.lastStrike ++ leBytes 4 0 ++ leBytes 8 e.lastEnd
      ++ leBytes 8 0
    let (s, _) := s.write (s.req 0x62 0) base (head ++ e.result)
    if s.embFld Reg.EMB_DEG.EN = 0 then s
    else if s.cqReady 0 7 then
      s.cqPut 0 7 0x62 (s.gen 0)
        { verdict := 1, status := 0, detail := b, tag := s.embFld Reg.EMB_DEG_TAG.TAG, strike := some e.lastStrike, age := min 0xFFFFFFFF (e.lastAge.getD 0xFFFFFFFF),
          time := s.nowNs, sqHead := 0, sq := 0, unitKind := 0, index := 0, unit := 0, noIrq := false, safety := false, gen := s.gen 0 }
    else s.count Reg.EMB_STATUS.DROP_CNT 1

/-- EMBER_RUN_COMPLETE (R378, R379): the network's outcome is the command's operand; what the golden vector and the inputs gave decides
first. (DESIGN CHOICE: log 7, 92; DEDUCED: log 86) -/
def execEmberRunComplete (run : EmberRun) (s : State) : Host.Outcome State Fault Refusal :=
  .next (if !s.emb.running then s.publishEmber
    else
      let st := if !s.emb.goldOk || s.emb.faulted then 3 else if s.emb.noInput then 2 else run.status.val
      (s.emberEnds st run.result (run.summary.take 36)).publishEmber)

/-- EMBER_DEADLINE (R378): the earlier of EMB_DEADLINE and the next strike passes; the run that is not finished is stopped with LATE. -/
def execEmberDeadline (s : State) : Host.Outcome State Fault Refusal :=
  .next (if !s.embDue then s
    else
      let due := s.time.strikeAt + ofNs (1000 * s.embFld Reg.EMB_DEADLINE.US)
      let due := match s.time.next with | some t => min t due | none => due
      (s.reachFrac due).emberLate)

/-! ### Safe-state frames (R380) -/

/-- Identifier of a safe-state frame: 11 bits where IDE is 0 (R395). -/
def State.frameId (s : State) : Nat := if s.flag Reg.SFI_CAN_CFG.IDE then s.fld Reg.SFI_CAN_CFG.ID else bits (s.fld Reg.SFI_CAN_CFG.ID) 0 11

/-- SAFE_STATE_FRAME_SENT (R380): the frame that waits longest for the controller completes on the bus. -/
def execSafeStateFrameSent (k : Fin 2) (s : State) : Host.Outcome State Fault Refusal :=
  .next (
    let s := s.publishEmber
    match s.quench.frames.find? (fun f => f.1 == k.val) with
    | none => s
    | some f =>
      if s.fld (Reg.ETH_CAN_STATUS.STATE k) = 2 then s
      else
        let s := { s with quench := { s.quench with frames := s.quench.frames.erase f } }
        ((s.send (.can k (s.flag Reg.SFI_CAN_CFG.IDE) s.frameId f.2)).count Reg.SFI_CAN_STATUS.SENT_CNT 1).evrCounter 20)

/-! ### Arming (R389, R390, R394) -/

/-- A write of 1 to SFI_CTL.ARM: `took` says that it was not clamped. Arming ends the publication of a quench, and the age monitor's captures
count anew. (DEDUCED: log 88) -/
def State.armWritten (s : State) (block : Nat) (took : Bool) : State :=
  let s := s.setFld Reg.SFI_STATUS.ARM_BLOCK block
  if !took || s.armed then s
  else
    let s := (s.setFld Reg.SFI_STATUS.STATE 1).setFld Reg.SFI_STATUS.FAULT_PIN 1
    let s := { s with captures := [], quench := { s.quench with publishing := false, cls := 0, source := 0, strike := 0, frames := [] }, emb := { s.emb with pubDue := false } }
    s.sfiEvent 1

/-! ### Fences by unit code (R407, R412) -/

/-- Fence a Hearth core. -/
def State.fenceCore (s : State) (k cause : Nat) : State :=
  let s := s.setFld ⟨Reg.FCL_FENCE_NOW3, 24 + k, 1⟩ 1
  ((s.logWrite 2 0xFF 0xFF 0 (0x58 + k) 0 cause 0).fclEvent 2).evrCounter 10

/-- Fence what a unit code names, where it can be fenced. -/
def State.fenceCode (s : State) (c cause : Nat) : State :=
  match unitOfCode c with
  | some u => if s.present u then s.fenceUnit u cause else s
  | none =>
    if 0xA0 ≤ c ∧ c < 0xB8 then s.fenceStream (c - 0xA0) cause
    else if 0x58 ≤ c ∧ c < 0x60 then s.fenceCore (c - 0x58) cause
    else s

/-- Bit of FCL_FENCE_LIST0 to 3 of a unit code. -/
def fenceBit (c : Nat) : Option FRef :=
  match unitOfCode c with
  | some u => some ⟨Reg.FCL_FENCE_LIST0 + 4 * (u / 32), u % 32, 1⟩
  | none =>
    if 0xA0 ≤ c ∧ c < 0xB8 then some ⟨Reg.FCL_FENCE_LIST3, c - 0xA0, 1⟩
    else if 0x58 ≤ c ∧ c < 0x60 then some ⟨Reg.FCL_FENCE_LIST3, 24 + (c - 0x58), 1⟩
    else none

/-- A proof kernel failure (R407). (DEDUCED: log 93) -/
def State.proofFailed (s : State) (code op d0 d1 : Nat) : State :=
  let s := (s.count Reg.FCL_CNT.C_CNT 1).logLimited 1 op ⟨0x48, code, 0, none, some code, d0, d1⟩
  let s := ((s.evrCounter 5).evrCounter 9).fenceCode code 3
  let s := match fenceBit code with | some f => s.setFld f 1 | none => s
  s.fclEvent 3

/-! ### Reports of detectors (R398, R399) -/

/-- Groups of the table of R398. (DEDUCED: log 93) -/
def knownGroup (g : Nat) : Bool :=
  (1 ≤ g && g ≤ 9) || (0x10 ≤ g && g ≤ 0x13) || (0x18 ≤ g && g ≤ 0x1B) || (0x20 ≤ g && g ≤ 0x25) || (0x28 ≤ g && g ≤ 0x33)
    || (0x38 ≤ g && g ≤ 0x41) || g == 0x48 || (0x50 ≤ g && g ≤ 0x53)

/-- Unit code that a source names, where its instance stands for one (R383, R398). -/
def sourceUnit (g i : Nat) : Option Nat :=
  if 1 ≤ g ∧ g ≤ 8 then some i
  else if 0x10 ≤ g ∧ g ≤ 0x13 then some (0x40 + i)
  else if g = 0x18 then some (0x48 + i)
  else if g = 0x20 ∨ g = 0x21 ∨ (0x28 ≤ g ∧ g ≤ 0x2A) then some 0x62
  else if g = 0x2B then some 0x63
  else if g = 0x22 ∨ g = 0x23 then some (0x58 + 2 * i)
  else if g = 0x24 ∨ g = 0x25 then some (0x58 + i)
  else if g = 0x2C then some 0x61
  else if g = 0x30 ∨ g = 0x31 then some (0xA0 + i)
  else if g = 0x32 then some (0xB0 + i)
  else if g = 0x3D then some (0x80 + i)
  else if g = 0x40 then some (0xC8 + i)
  else if g = 0x09 ∨ g = 0x19 ∨ g = 0x1A ∨ g = 0x1B ∨ g = 0x2D ∨ g = 0x2E ∨ g = 0x33 ∨ g = 0x3A ∨ g = 0x3C ∨ g = 0x41 then some i
  else none

/-- A Hearth pair failed its comparison or its replay buffer overflowed (R366, R367). -/
def State.hearthFailed (s : State) (j : Nat) (replay : Bool) : State :=
  let s := (s.count Reg.SFI_HRT_CMP.MISMATCH_CNT 1).setFld Reg.SFI_HRT_CMP.LAST_PAIR j
  (s.setFlag Reg.SFI_HRT_CMP.LAST_REPLAY replay).fault 0x22 j true (some 0) (some (0x58 + 2 * j))

/-! ### Hangs (R409, R410) -/

/-- HEARTH_HANG (R409): the core has gone FCL_HANG_CFG.STRIKES strikes without a kick; it is found once until the next COMPUTE reset. (DESIGN CHOICE: log 96) -/
def execHearthHang (core : Fin 8) (s : State) : Host.Outcome State Fault Refusal :=
  .next (if !s.kicksDue core || s.hearth.missed.getD core 0 < s.fld Reg.FCL_HANG_CFG.STRIKES || s.hearth.hung.contains core.val then s
    else
      let s := (s.setFld ⟨Reg.FCL_HANG_STATUS, core, 1⟩ 1).fclEvent 4
      let s := { s with recover := { s.recover with hangReset := true }, hearth := { s.hearth with hung := setInsert s.hearth.hung core } }
      s.fault 0x24 core false none (some (0x58 + core)))

/-- UNIT_HANG_STOP (R410): no window, and still BUSY at the second strike after its start. -/
def execUnitHangStop (u : Fin 78) (s : State) : Host.Outcome State Fault Refusal :=
  .next (
    let x := s.unit u
    if s.flag (unitBusy u) && x.window.isNone && s.time.live && decide (2 ≤ serialDiff 32 s.strikeNo x.startStrike) then
      (s.report ⟨refuseGroup u, refuseInst u, 1, some x.ctx, some (unitCode u), 0, 0⟩).stopWith u 9 true
    else s)

/-! ### Hearth pairs and the debugger (R366, R367, R382) -/

def State.modHearth (s : State) (f : HearthSt → HearthSt) : State := { s with hearth := f s.hearth }

/-- A debugger write reaches a core's register. -/
def HearthSt.put (h : HearthSt) (core reg value : Nat) : HearthSt := { h with regs := SMap.insert h.regs (65536 * core + reg) value }

/-- HEARTH_JOIN_CSR (R382): the main core's registers go to the checker, and the pair is released in lockstep. (DESIGN CHOICE: log 90) -/
def execHearthJoinCsr (j : Fin 4) (s : State) : Host.Outcome State Fault Refusal :=
  .next (if (SMap.find? s.hearth.joins j).isNone then s
    else
      let mine := s.hearth.regs.filter (fun e => e.1 / 65536 == 2 * j.val)
      let s := s.modHearth (fun h => { h with
        joins := SMap.erase h.joins j
        regs := mine.foldl (fun m e => SMap.insert m (e.1 + 65536) e.2) (h.regs.filter (fun e => e.1 / 65536 != 2 * j.val + 1)) })
      s.setFld Reg.SFI_HRT_PAIR.STATE (s.fld Reg.SFI_HRT_PAIR.STATE ||| 2 ^ j.val))

/-- HEARTH_JOIN_TIMEOUT (R382): 50 µs after the boundary. The join is over; REQ asks for it again at the next boundary. (DEDUCED: log 89) -/
def execHearthJoinTimeout (j : Fin 4) (s : State) : Host.Outcome State Fault Refusal :=
  .next (match SMap.find? s.hearth.joins j with
    | none => s
    | some t => ((s.reach (t + 50000)).modHearth (fun h => { h with joins := SMap.erase h.joins j })).fault 0x23 j true (some 0)
        (some (0x58 + 2 * j.val)))

/-- The debugger attaches to main cores only (R367). -/
def mainCore (core : Nat) : Bool := core % 2 == 0

/-- A main core halts, and in lockstep its checker with it; while ARMED the halt is class S (R367). -/
def State.haltHearth (s : State) (core : Nat) : State :=
  let s := s.modHearth (fun h => { h with halted := setInsert h.halted core })
  let s := if s.hearthPaired (core / 2) then s.modHearth (fun h => { h with halted := setInsert h.halted (core + 1) }) else s
  if s.armed then s.fault 0x22 (core / 2) true (some 0) (some (0x58 + core)) else s

/-- The island's cores halt while ISLAND_DBG is 1; otherwise a halt of them is class F (R368). -/
def State.haltIsland (s : State) : State :=
  let s := s.modHearth (fun h => { h with island := true })
  if s.flag Reg.SFI_CTL.ISLAND_DBG then s else s.fault 0x52 0 false none none

/-- DEBUG_HALT (R367, R368). (DESIGN CHOICE: log 90) -/
def execDebugHalt (core : DebugTarget) (s : State) : Host.Outcome State Fault Refusal :=
  .next (match core with
    | .hearth c => if mainCore c then s.haltHearth c else s
    | .island => s.haltIsland)

/-- DEBUG_REG_WRITE (R367): to a halted core; in lockstep the replay buffer keeps it for the checker, and a 65th entry overflows. (DESIGN CHOICE: log 90) -/
def execDebugRegWrite (core : Fin 8) (reg : BitVec 16) (value : DWord) (s : State) : Host.Outcome State Fault Refusal :=
  .next (if !mainCore core || !s.hearth.halted.contains core.val then s
    else
      let s := s.modHearth (fun h => h.put core reg.toNat value.toNat)
      if !s.hearthPaired (core / 2) then s
      else
        let l := SMap.getD s.hearth.replay (core / 2) []
        if l.length < 64 then s.modHearth (fun h => { h with replay := SMap.insert h.replay (core / 2) (l ++ [(reg.toNat, value.toNat)]) })
        else s.hearthFailed (core / 2) true)

/-- A halted main core resumes: the replay buffer drains into the checker; a single step leaves both halted (R367). -/
def State.resumeHearth (s : State) (core : Nat) (step : Bool) : State :=
  if !s.hearth.halted.contains core then s
  else
    let l := SMap.getD s.hearth.replay (core / 2) []
    let s := if s.hearthPaired (core / 2) then
        s.modHearth (fun h => { l.foldl (fun h e => h.put (core + 1) e.1 e.2) h with replay := SMap.erase h.replay (core / 2) })
      else s
    if step then s
    else
      let s := s.modHearth (fun h => { h with halted := setErase h.halted core })
      if s.hearthPaired (core / 2) then s.modHearth (fun h => { h with halted := setErase h.halted (core + 1) }) else s

/-- DEBUG_RESUME (R367, R368). (DESIGN CHOICE: log 90) -/
def execDebugResume (core : DebugTarget) (step : Bool) (s : State) : Host.Outcome State Fault Refusal :=
  .next (match core with
    | .hearth c => if mainCore c then s.resumeHearth c step else s
    | .island => if step then s else s.modHearth (fun h => { h with island := false }))

end Sys2Proof.Machine
end

