-- ==== Sys2Proof/Machine/Recovery.lean ====
section
/-! DEFINITION. Recovery: the event recorder, snapshots and dumps, resets of a unit and of the compute domain, escalation (R411 to R428). -/

namespace Sys2Proof.Machine

/-! ### Event recorder (R422 to R424) -/

/-- Take sensor readings into the registers that show them (R483). (DESIGN CHOICE: log 104) -/
def State.takeSensors (s : State) (x : Sensors) : State :=
  let s := { s with sensors := x }
  let s := (s.setFld Reg.PRC_POWER.IN_W (min 0xFFFF x.inW)).setFld Reg.PRC_POWER.VIN (min 0xFFFF x.vin)
  s.setFld Reg.PRC_THERMAL.INLET (unsign 16 x.inlet)

/-- EVR_SAMPLE (R424): each second. -/
def execEvrSample (x : Sensors) (s : State) : Host.Outcome State Fault Refusal :=
  .next (if s.inParked || !s.operates then s
    else
      let s := (s.every 0 1000000000).takeSensors x
      let s := ((s.evrHist 1 x.dieTemp (-320) 24).evrHist 2 x.vin 3100 50).evrHist 3 x.inW 0 60
      let s := ((s.evrExtreme 0 false x.dieTemp).evrExtreme 1 true x.dieTemp).evrExtreme 2 false x.vin
      let s := ((s.evrExtreme 3 true x.vin).evrExtreme 4 true x.inW).evrExtreme 5 false x.inlet
      ((s.evrExtreme 6 true x.inlet).evrExtreme 7 false x.vcore).evrExtreme 8 true x.vcore)

/-- A 32-bit word of MRAM. -/
def State.mramWord (s : State) (o : Nat) : Nat := leNat (s.mramBytes o 4)

/-- Replace a stretch of MRAM. -/
def State.mramBlock (s : State) (o : Nat) (bs : List Byte) : State :=
  let new := (bs.zipIdx.filter (fun p => p.1 != 0)).map (fun p => (o + p.2, p.1))
  { s with mram := SMap.keep (fun k => k < o) s.mram ++ new ++ SMap.keep (fun k => o + bs.length ≤ k) s.mram }

/-- The slot of a record type that a commit writes: the older one (R423). -/
def State.olderSlot (s : State) (ty : Nat) : Nat :=
  let at_ (k : Nat) : Nat := 0x150000 + 256 * (2 * (ty - 1) + k)
  let good (k : Nat) : Bool := s.mramWord (at_ k + 252) == 0x5A5AA5A5
  if !good 0 then 0
  else if !good 1 then 1
  else if 0 < serialDiff 16 (s.mramWord (at_ 0) / 65536) (s.mramWord (at_ 1) / 65536) then 1 else 0

/-- The 256 bytes of a record (R423). -/
def State.evrRecord (s : State) (ty seq : Nat) : List Byte :=
  leBytes 1 ty ++ leBytes 1 1 ++ leBytes 2 seq ++ leBytes 4 (s.rd Reg.EVR_HOURS).toNat ++ leBytes 4 (s.rd Reg.EVR_PCYCLES).toNat
    ++ (List.range 60).flatMap (fun i => leBytes 4 (SMap.getD s.evr (64 * ty + 3 + i) 0)) ++ leBytes 4 0x5A5AA5A5

/-- The newest valid record of a type, as its MRAM offset (R423). -/
def State.newestRec (s : State) (ty : Nat) : Option Nat :=
  let at_ (k : Nat) : Nat := 0x150000 + 256 * (2 * (ty - 1) + k)
  let k := 1 - s.olderSlot ty
  if s.mramWord (at_ k + 252) = 0x5A5AA5A5 then some (at_ k)
  else if s.mramWord (at_ (1 - k) + 252) = 0x5A5AA5A5 then some (at_ (1 - k))
  else none

/-- SEQ of the next commit: one more than that of the newest record. -/
def State.nextEvrSeq (s : State) : Nat :=
  match s.newestRec 1 with
  | some o => (s.mramWord o / 65536 + 1) % 65536
  | none => 1

/-- Commit the recorder (R422). -/
def State.evrCommit (s : State) : State :=
  let seq := s.nextEvrSeq
  let s := (List.range 8).foldl (fun (s : State) i =>
    s.mramBlock (0x150000 + 256 * (2 * i + s.olderSlot (i + 1))) (s.evrRecord (i + 1) seq)) s
  s.setFld Reg.EVR_INFO.SEQ seq

/-- EVR_COMMIT_TIMER (R422, R424): 1/16 h of operating hours. (DEDUCED: log 97) -/
def execEvrCommitTimer (s : State) : Host.Outcome State Fault Refusal :=
  .next (if s.inParked || !s.operates then s
    else
      let s := (s.every 1 225000000000).count Reg.EVR_HOURS.SIXTEENTHS 1
      (s.evrAdd 8 (match s.mode with | 0 => 3 | 2 => 4 | _ => 6) 1).evrCommit)

/-- EVR_CTL.CLEAR was written with TOP_LOCK clear (R424). (DEDUCED: log 97) -/
def State.evrClear (s : State) : State := { s.mramBlock 0x150000 (List.replicate 0x1000 0) with evr := [] }

/-! ### Cursor windows (R426 to R428) -/

/-- A read of FCL_LOG_WINDOW. -/
def State.logWindow (s : State) : State × Word :=
  let e := s.fld Reg.FCL_LOG_CURSOR.ENTRY
  let w := s.fld Reg.FCL_LOG_CURSOR.WORD
  let s' := if w = 15 then (s.setFld Reg.FCL_LOG_CURSOR.WORD 0).setFld Reg.FCL_LOG_CURSOR.ENTRY ((e + 1) % 16384)
    else s.setFld Reg.FCL_LOG_CURSOR.WORD (w + 1)
  (s', BitVec.ofNat 32 (s.mramWord (0x10000 + 64 * e + 4 * w)))

/-- A read of EVR_WINDOW. (DEDUCED: log 97) -/
def State.evrWindow (s : State) : State × Word :=
  let r := s.fld Reg.EVR_CURSOR.RECORD
  let w := s.fld Reg.EVR_CURSOR.WORD
  let s' := if w = 63 then (s.setFld Reg.EVR_CURSOR.WORD 0).setFld Reg.EVR_CURSOR.RECORD ((r + 1) % 16)
    else s.setFld Reg.EVR_CURSOR.WORD (w + 1)
  (s', BitVec.ofNat 32 (s.mramWord (0x150000 + 256 * r + 4 * w)))

/-- A read of SNP_WINDOW. -/
def State.snpWindow (s : State) : State × Word :=
  let w := s.fld Reg.SNP_CURSOR.WORD
  if s.flag Reg.SNP_CURSOR.SPACE then
    (s.setFld Reg.SNP_CURSOR.WORD ((w + 1) % 4096),
      BitVec.ofNat 32 (s.mramWord (0x110000 + 0x4000 * s.fld Reg.SNP_CURSOR.SLOT + 4 * w)))
  else (s.setFld Reg.SNP_CURSOR.WORD ((w + 1) % 2048), BitVec.ofNat 32 (fieldAt s.snap (4 * w) 4))

/-! ### Crash dump (R418) -/

/-- Copy a stretch of memory with its poison, which a double error becomes (R239, R241). -/
def State.imageCopy (s : State) (src dst n : Nat) : State :=
  let inSrc (k : Nat) : Bool := src ≤ k && k < src + n
  let units := (s.damage.filter (fun e => e.2 == 2 && inSrc (32 * e.1))).foldl (fun l e => setInsert l e.1) (s.poison.filter (fun u => inSrc (32 * u)))
  { s with
    mem := SMap.keep (fun k => k < dst) s.mem ++ ((SMap.keep inSrc s.mem).map (fun e => (e.1 - src + dst, e.2)))
      ++ SMap.keep (fun k => dst + n ≤ k) s.mem
    poison := s.poison.filter (fun u => 32 * u < dst) ++ units.map (fun u => u - src / 32 + dst / 32)
      ++ s.poison.filter (fun u => dst + n ≤ 32 * u)
    damage := SMap.keep (fun u => 32 * u < dst || dst + n ≤ 32 * u) s.damage }

/-- The bank images of every Anvil that is not fused off. -/
def State.bankImages (s : State) : State :=
  (List.range 1024).foldl (fun (s : State) k =>
    if s.fusedIn (k / 16) then s.imageCopy (0x2100000000 + 0x400000 * (k / 16) + 0x20000 * (k % 16)) (0x240000000 + 0x10000 * k) 0x10000
    else s) s

/-- The 512-byte header of a dump slot. -/
def State.dumpHeader (s : State) (cause domain taker time strike : Nat) (images : Bool) : List Byte :=
  let r32 (a : Nat) : List Byte := leBytes 4 (s.rd a).toNat
  leBytes 1 1 ++ leBytes 1 cause ++ leBytes 1 domain ++ leBytes 1 taker ++ r32 Reg.FCL_FIRST ++ leBytes 8 (s.rd64 Reg.FCL_FIRST_TIME_LO)
    ++ r32 Reg.FCL_FIRST_STRIKE ++ leBytes 8 time ++ leBytes 4 strike ++ r32 Reg.EVR_HOURS ++ r32 Reg.EVR_PCYCLES
    ++ leBytes 2 s.recover.dumpSeq ++ leBytes 2 (min 0xFFFF s.recover.lost)
    ++ leBytes 8 (if images then s.rd64 Reg.TOP_ANV_MASK_LO else 0) ++ leBytes 1 (ofBool images) ++ leBytes 3 0 ++ r32 Reg.FCL_CNT
    ++ (List.range 16).flatMap (fun c => r32 (Reg.FCL_CTX_N c)) ++ leBytes 4 0
    ++ (List.range 4).flatMap (fun i => r32 (Reg.FCL_FENCE_LIST0 + 4 * i)) ++ leBytes 4 (s.logSeq + 2 ^ 32 - 1)
    ++ leBytes 1 (s.fld Reg.FCL_RESET_HIST.IN_WINDOW) ++ leBytes 1 (s.fld Reg.FCL_RECOVER.COUNT) ++ leBytes 2 (s.fld Reg.FCL_RECOVER.WINDOW_S)
    ++ List.replicate 359 0 ++ leBytes 1 0x5A

/-- Write the next dump slot and then the index word. (DEDUCED: log 94; DESIGN CHOICE: log 99) -/
def State.dumpSlot (s : State) (cause domain taker time strike : Nat) (images snapped : Bool) : State :=
  let slot := (s.fld Reg.SNP_DUMP.NEWEST + 1) % 16
  let snap := if snapped && s.flag Reg.SNP_STATUS.VALID then padTo 8192 s.snap else List.replicate 8192 0
  let s' := s.mramBlock (0x110000 + 0x4000 * slot) (s.dumpHeader cause domain taker time strike images ++ snap ++ List.replicate 7680 0)
  let s' := { s' with recover := { s'.recover with dumpSeq := (s'.recover.dumpSeq + 1) % 65536 } }
  (s'.setFld Reg.SNP_DUMP.NEWEST slot).setFld Reg.SNP_DUMP.DONE 1

/-- SNP_DUMP.START was written: a dump outside a reset. (DESIGN CHOICE: log 99) -/
def State.dumpStart (s : State) : State :=
  if s.flag Reg.SNP_DUMP.BUSY || s.flag Reg.PCI_STATUS.COMPUTE_RESET then s
  else
    let s := { s with recover := { s.recover with lost := 0 } }
    s.bankImages.dumpSlot 4 0 0 s.nowNs s.strikeNo true true

/-! ### Resets of registers -/

/-- Bits of RWL fields of a register word: they keep their value (R14). -/
def rwlMask (a : Nat) : Nat :=
  match regAt a with
  | none => 0
  | some h =>
    let m := h.desc.fields.foldl (fun m f => if f.access == .rwl then putBits m f.lsb f.width (2 ^ f.width - 1) else m) 0
    (if h.hi then m / 2 ^ 32 else m) % 2 ^ 32

/-- Registers of the addresses `p` take their reset values; with `keep`, RWL fields do not. What was held or captured of them is gone. -/
def State.resetRegs (s : State) (p : Nat → Bool) (keep : Bool) : State :=
  { s with
    regs := s.regs.foldl (fun m e =>
      if p e.1 then
        let k := if keep then rwlMask e.1 else 0
        SMap.put m e.1 (resetWord e.1) (BitVec.ofNat 32 ((e.2.toNat &&& k) ||| ((resetWord e.1).toNat &&& (0xFFFFFFFF - k))))
      else m) s.regs
    heldLo := SMap.keep (fun a => !p a) s.heldLo
    capHi := SMap.keep (fun a => !p a) s.capHi
    heldWrites := s.heldWrites.filter (fun h => !p h.base) }

/-- The block of an address is one of these. -/
def inBlocks (bs : List Blk) (a : Nat) : Bool := match blockAt a with | some b => bs.contains b | none => false

/-- Follow every level input after registers were reset. -/
def State.syncAll (s : State) : State := (List.range 343).foldl State.syncSrc s

/-- Last address of a unit's register block, and one more. -/
def unitSpan (u : Nat) : Nat := if u < 76 then 0x10000 else 0x1000

/-- The local memory of a unit: base and size (R33); a post-processing unit has none. -/
def localMem (u : Nat) : Nat × Nat :=
  if u < 64 then (0x2100000000 + 0x400000 * u, 0x200000)
  else if u < 68 then (0x2200000000 + 0x200000 * (u - 64), 0x200000)
  else if u < 76 then (0x2201000000 + 0x80000 * (u - 68), 0x80000)
  else (0, 0)

/-- A unit is on the persistent fence list (R412). -/
def State.listed (s : State) (code : Nat) : Bool := match fenceBit code with | some f => s.flag f | none => false

/-- Per-unit SOFT_RESET (R96, R100, R238, R412, R414): the running list stops and its job ends ABORTED, the pair ends, registers and local
memory are fresh, and a listed unit is fenced again. (DEDUCED: log 95, 105) -/
def State.softReset (s : State) (u : Nat) : State :=
  if !s.present u || s.computeHeld then s
  else
    let s := ((s.logWrite 3 0xFF 0xFF 0 (unitCode u) 0 (4 + 256 * 4) 0).evrCounter 3)
    let s := s.leavePair u
    let s := if s.flag (unitBusy u) then s.stopWith u 10 false else s
    let s := s.resetRegs (fun a => unitBase u ≤ a && a < unitBase u + unitSpan u) true
    let s := { s with units := SMap.erase s.units u, anvils := if u < 64 then SMap.erase s.anvils u else s.anvils }
    let s := (if u < 64 then s.zeroRange (localMem u).1 (localMem u).2
      else if u < 68 then s.zeroRange ((localMem u).1 + 0x1C0000) 0x40000 else s).syncSrc (unitSource u)
    (if s.listed (unitCode u) then s.fenceUnit u 4 else s).schedule

/-! ### COMPUTE reset (R414 to R420) -/

/-- Fences leave Hearth pair 0 without both its cores, or fewer than 8 Anvils of the fuse mask unfenced (R413). -/
def State.fencesShort (s : State) : Bool :=
  bits (s.rd Reg.FCL_FENCE_NOW3).toNat 24 2 != 0
    || decide (((List.range 64).filter (fun n => s.fusedIn n && !s.flag (unitFence n))).length < 8)

/-- Records of R417: ABORTED for every accepted job, then what waits is written as ring space allows; the rest is lost. -/
def State.abortJobs (s : State) : State :=
  let s := s.jobs.foldl (fun (s : State) j => s.retire j (verdictOf 10 j.results j.published j.poisoned j.late) 10) s
  let s := (List.range 128).foldl (fun (s : State) k =>
    (List.range (s.waitingOf (k / 8) (k % 8)).length).foldl (fun (s : State) _ => s.writeOneRec (k / 8) (k % 8)) s) s
  let lost := (s.waiting.map (fun (e : Nat × List CqRec) => e.2.length)).sum
  { s with waiting := [], moder := [], recover := { s.recover with lost := lost } }

/-- Work state of the compute domain that a COMPUTE reset ends. (DEDUCED: log 101) -/
def State.dropWork (s : State) : State :=
  let s := (List.range 78).foldl (fun (s : State) u => if s.flag (unitBusy u) then s.stopUnit u else s) s
  let s := (List.range 4).foldl (fun (s : State) r => if s.fld (chanState (32 + r)) = 1 || s.fld (chanState (32 + r)) = 2 then s.setFld (chanState (32 + r)) 0 else s) s
  { s with chans := [], incs := [], hearth := { s.hearth with joins := [], halted := [], regs := [], replay := [], kicked := [], missed := List.replicate 8 0, hung := [] } }

/-- Peers learn of the reset: RESET_NOTICE, then the new generation of every other context (R420). -/
def State.tellPeers (s : State) (domain : Nat) : State :=
  let s := ((List.range 4).filter s.linkUp).foldl (fun (s : State) q => s.linkSend q (s.mkCtl q 0x19 (domain + 65536 * s.gen 0) 0)) s
  (List.range 15).foldl (fun (s : State) i => s.announceGen (i + 1)) s

/-- Every context's generation advances and every tenant is FREE (R414). -/
def State.advanceAll (s : State) : State :=
  let s := (List.range 16).foldl State.advanceGen s
  (List.range 15).foldl (fun (s : State) i =>
    ((s.setCtxState (i + 1) 0).setFld (Reg.HRT_CTX_CTL.TEARDOWN (i + 1)) 0).gateForget (i + 1)) { s with draining := [] }

/-- The isolated domain is off: no datagram crosses (R3, R447, R476). -/
def State.gateOff (s : State) : State := { s with depotUp := false, reasm := [] }

/-- A reset, an escalation or a boot without an image leaves the device OUT_OF_SERVICE (R413, R419, R466). -/
def State.enterOos (s : State) (count : Nat) : State :=
  let s := s.logWrite 4 0xFF 0xFF 0 0xFF 0 (count + 65536 * s.fld Reg.FCL_RECOVER.WINDOW_S) 0
  let s := ((s.setFld Reg.PRC_MODE.MODE 3).setFld Reg.SFI_STATUS.STATE 3).setFld Reg.SFI_STATUS.FAULT_PIN 0
  let s := (s.setFld Reg.SFI_CTL.ARM 0).stopEmber
  let s := { s with emb := { s.emb with pubDue := false }, quench := { s.quench with publishing := false, inhibit := true }
                    modes := { s.modes with entering := false } }
  (s.evrCounter 4).fclEvent 6

/-- A COMPUTE reset is requested (R415, R416, R419): everything up to the domain's being held in reset. `taker` 1: the island. (DEDUCED: log 95, 102) -/
def State.computeReset (s : State) (taker cause : Nat) : State :=
  if s.flag Reg.PCI_STATUS.COMPUTE_RESET || s.fatal || s.outOfService || s.inParked then s
  else
    let now := s.nowNs
    let strike := s.strikeNo
    let s := (s.logWrite 3 0xFF 0xFF 0 0xFF 0 (3 + 256 * cause) 0).evrCounter 1
    let stamps := (s.recover.stamps ++ [now]).drop (s.recover.stamps.length + 1 - 7)
    let n := (stamps.filter (fun t => now - t ≤ s.fld Reg.FCL_RECOVER.WINDOW_S * 1000000000)).length
    let s := { s with recover := { s.recover with stamps := stamps, hangReset := false } }
    let s := (s.setFld Reg.FCL_RESET_HIST.IN_WINDOW n).count Reg.FCL_RESET_HIST.SINCE_SYS 1
    let escalates := decide (s.fld Reg.FCL_RECOVER.COUNT ≤ n)
    let ends := escalates || s.fencesShort
    let s := { s.setFld Reg.PRC_MODE.POOL_SCRUB 0 with quench := { s.quench with inhibit := true } }
    let s := s.dropWork.snapTrigger 3
    let s := s.abortJobs.evrCommit.bankImages
    let s := s.dumpSlot (if ends then 5 else cause) 3 taker now strike true true
    let s := (s.advanceAll.tellPeers 3).setFld Reg.PCI_STATUS.COMPUTE_RESET 1
    let s := s.gateOff
    let s := if s.inDepot then s.setFld Reg.PRC_MODE.MODE 0 else s
    let s := { (s.dramState 1) with intake := [], ftab := none, modes := { s.modes with entering := false } }
    if ends then s.enterOos (if escalates then s.fld Reg.FCL_RECOVER.COUNT else 0) else s

/-- Fences of the persistent list, at the end of a reset that reached the units (R412). -/
def State.refence (s : State) : State :=
  let s := (List.range 78).foldl (fun (s : State) u => if s.listed (unitCode u) && s.present u && !s.flag (unitFence u) then s.fenceUnit u 4 else s) s
  let s := (List.range 24).foldl (fun (s : State) k => if s.listed (0xA0 + k) && !s.flag (streamFence k) then s.fenceStream k 4 else s) s
  (List.range 8).foldl (fun (s : State) k =>
    if s.listed (0x58 + k) && !bitAt (s.rd Reg.FCL_FENCE_NOW3).toNat (24 + k) then s.fenceCore k 4 else s) s

/-- The hand-over that a reset or the arming of the island ends (R476, R478). -/
def State.handoverDone (s : State) : State :=
  match s.modes.handAt with
  | none => s
  | some t =>
    let us := (s.nowNs - t) / 1000
    let s := (s.setFld Reg.PRC_MODE.HANDOVER 0).setFld Reg.PRC_HANDOVER.LAST_US (min 0xFFFFF us)
    let s := s.evrExtreme 11 true us
    { s with modes := { s.modes with handAt := none } }

/-- The compute units and their memories as a COMPUTE reset leaves them (R416). (DESIGN CHOICE: log 96) -/
def State.emptyCompute (s : State) : State :=
  let s := { s with units := [], anvils := [], cmp := ⟨[], [], [], [], false, false⟩, pairBar := [], anchors := [], winStarts := [], arms := ⟨[], false, s.arms.memCe, s.arms.memUe⟩
                    hearth := { s.hearth with kicked := List.range 8 } }
  ((s.zeroRange 0x2000000000 0x4000000).zeroRange 0x2100000000 0x10000000).zeroRange 0x2200000000 0x1400000

/-- The compute domain leaves reset (R389, R401, R414, R416, R420, R421). (DEDUCED: log 101) -/
def State.computeRelease (s : State) : State :=
  let s := ((s.setFld Reg.PCI_STATUS.COMPUTE_RESET 0).resetRegs (inBlocks [.anv, .drw, .vec, .ppu, .tng]) true).emptyCompute
  let s := if s.fatal then s else ((s.setFld Reg.SFI_STATUS.STATE 0).setFld Reg.SFI_STATUS.FAULT_PIN 0).setFld Reg.SFI_CTL.ARM 0
  let s := if s.fld Reg.FCL_FIRST.CLASS = 2 then ((s.wr Reg.FCL_FIRST 0).wr64 Reg.FCL_FIRST_TIME_LO 0).wr Reg.FCL_FIRST_STRIKE 0 else s
  let s := (s.setFld Reg.SFI_CMP_STATUS.ST_DONE 0).setFld Reg.SNP_STATUS.VALID 0
  let s := { s with snap := [], quench := { s.quench with inhibit := s.fatal, frameSeq := 0 } }
  let s := (s.dramState 0).setFld Reg.SFI_HRT_PAIR.STATE (s.fld Reg.SFI_HRT_PAIR.REQ ||| 1)
  let s := s.refence.fclEvent 5
  let s := ((List.range 4).filter s.linkUp).foldl (fun (s : State) q => s.linkSend q (s.mkCtl q 0x1A 0 0)) s
  s.handoverDone.bellowsSwitched.syncAll

/-- AUTO_COMPUTE_RESET (R415): DELAY strikes after a class S quench, or at a boundary after a Hearth hang. -/
def execAutoComputeReset (s : State) : Host.Outcome State Fault Refusal :=
  .next (if !s.flag Reg.FCL_RECOVER.AUTO then s
    else if s.recover.hangReset then s.computeReset 1 3
    else if s.quenched && s.quench.cls = 2 && decide (0 ≤ serialDiff 32 s.strikeNo (s.quench.strike + s.fld Reg.FCL_RECOVER.DELAY)) then
      s.computeReset 1 1
    else s)

end Sys2Proof.Machine
end

