-- ==== Sys2Proof/Machine/Hooks.lean ====
section
/-! DEFINITION. What a write of a register does besides the value it leaves (the tables R100, R163, R200, R231, R266 to R269, R294, R326, R327, R354,
R395, R426 to R428, R457, R460), and what a read of a register returns that is more than a word. The mode and reset registers are in `Bus`. -/

namespace Sys2Proof.Machine

/-- A write that reached a register: the value before, the value it leaves with its write-only bits, and the word written. -/
structure Wrote where
  h : RegHit
  old : Nat
  eff : Nat
  value : Nat
  deriving DecidableEq, Repr

/-- Bit i goes from 0 to 1. -/
def Wrote.rose (w : Wrote) (i : Nat) : Bool := bitAt w.eff i && !bitAt w.old i

/-- Bit i goes from 1 to 0. -/
def Wrote.fell (w : Wrote) (i : Nat) : Bool := !bitAt w.eff i && bitAt w.old i

/-- Bit i is 1 in what the write leaves. -/
def Wrote.set (w : Wrote) (i : Nat) : Bool := bitAt w.eff i

/-- Apply an effect under a condition. -/
def State.when (s : State) (c : Bool) (f : State → State) : State := if c then f s else s

/-- Sources whose level follows registers of a block (R319, R456). -/
def Blk.sources : RegHit → List Nat := fun h =>
  match h.blk with
  | .anv => [h.unit]
  | .drw => [64 + h.unit]
  | .vec => [68 + h.unit]
  | .ppu => [76 + h.i]
  | .hrt => [79]
  | .blw => (List.range 24).map (· + 112) ++ [141]
  | .tim => (List.range 10).map (· + 272)
  | .nlk => (List.range 9).map (· + 288)
  | .pci => [297, 317]
  | .eth => [298, 299, 300, 318, 319]
  | .dgt => (List.range 16).map (· + 301)
  | .sfi => (List.range 8).map (· + 320)
  | .fcl => (List.range 7).map (· + 336)
  | _ => []

/-- Mask bit of R344 of the unit a register belongs to. -/
def RegHit.maskBit (h : RegHit) : Nat :=
  match h.blk with
  | .anv => h.unit
  | .drw => 64 + h.unit
  | .vec => 68 + h.unit
  | _ => 76 + h.i

/-! ### Compute units (R88, R96, R100, R163, R200, R231, R266) -/

/-- A pair request is written on a primary (R96): joining or splitting takes effect at the next strike boundary. -/
def State.pairWritten (s : State) (p : Nat) (req : Bool) : State :=
  let s := if req then { s with pairBar := setErase s.pairBar p } else s
  let st := s.fld (unitPairState p)
  let other := s.fld (unitPairState (p + 1))
  let both (v : Nat) : State := (s.setFld (unitPairState p) v).setFld (unitPairState (p + 1)) v
  if req then (if st = 0 ∧ other = 0 then both 2 else if st = 3 ∧ other = 3 then both 1 else s)
  else if st = 2 then both 0
  else if st = 1 then both 3
  else s

/-- Registers of the compute units. -/
def State.hookUnit (s : State) (w : Wrote) : State :=
  let u := w.h.maskBit
  let o := w.h.desc.off
  if o = 0x10 then
    let s := s.when (w.rose 10) (·.fenceUnit u 1)
    let s := s.when (w.set 11) (·.softReset u)
    s.when (w.rose 0 || w.fell 0) State.schedule
  else if o = 0x14 then (if u % 2 = 0 then s.pairWritten u (w.set 8) else s)
  else if o = 0x40 then s.when (w.set 8) (·.arm u 0)
  else if w.h.blk = .anv then
    if o = 0x38 then s.when (w.set 0) (fun s => { s with arms := { s.arms with bsEcc := setInsert s.arms.bsEcc u } })
    else if o = 0xA4 then (s.when (w.set 0) (·.arm u 1)).when (w.set 1) (·.arm u 2)
    else s
  else if w.h.blk = .drw then (if o = 0xA4 then (s.when (w.set 0) (·.arm u 1)).when (w.set 1) (·.arm u 2) else s)
  else if o = 0xA0 then (s.when (w.set 0) (·.arm u 1)).when (w.set 1 && decide (76 ≤ u)) (·.arm u 2)
  else s

/-! ### Memories and movers (R263, R267, R268, R286, R294) -/

/-- Registers of Bellows. -/
def State.hookBlw (s : State) (w : Wrote) : State :=
  let o := w.h.desc.off
  let stream (k : Nat) : State :=
    (s.when (w.rose 0 || w.fell 0) (·.streamEnabled k)).when (w.rose 12) (·.fenceStream k 1)
  if o = 0x10 then ((List.range 4).foldl (fun s r => s.chanSwitched (32 + r)) s).when (w.rose 0 || w.fell 0) State.bellowsSwitched
  else if o = 0x1000 then stream w.h.i
  else if o = 0x2000 then stream (16 + w.h.i)
  else if o = 0x3000 then (s.chanSwitched (32 + w.h.i)).when (w.rose 1) (·.chanAbortNow (32 + w.h.i))
  else s

/-- Registers of Tongs. -/
def State.hookTng (s : State) (w : Wrote) : State :=
  let o := w.h.desc.off
  if o = 0x10 then (List.range 32).foldl State.chanSwitched s
  else if o = 0x1000 then (s.chanSwitched w.h.i).when (w.rose 1) (·.chanAbortNow w.h.i)
  else s

/-- Registers of the memory controllers. -/
def State.hookMem (s : State) (w : Wrote) : State :=
  if w.h.desc.off = 0x1018 then
    let s := s.when (w.set 0) (fun s => { s with arms := { s.arms with memCe := setInsert s.arms.memCe w.h.i } })
    s.when (w.set 1) (fun s => { s with arms := { s.arms with memUe := setInsert s.arms.memUe w.h.i } })
  else s

/-! ### Hearth rings and contexts, interrupts (R296, R300, R320, R322, R323) -/

/-- A FREE tenant context becomes ACTIVE in DEPOT (R296); POOL_DIRTY is set before the first (R475). (DEDUCED: log 126) -/
def State.ctxEnabled (s : State) (c : Nat) : State := (s.setFld Reg.PRC_MODE.POOL_DIRTY 1).setCtxState c 1

/-- Registers of the queue manager. -/
def State.hookHrt (s : State) (w : Wrote) : State :=
  let o := w.h.desc.off
  let i := w.h.i
  let j := w.h.j
  if o = 0x28 then s.when (w.rose 8) (·.wr Reg.HRT_RPT_IDX 0)
  else if o = 0x1000 then
    let s := (s.when (w.rose 1) (·.teardownWritten i)).when (w.set 2) (·.scrubDone i)
    s.when (w.rose 0) (·.ctxEnabled i)
  else if o = 0x20008 then s.when (w.rose 11) (·.wr (Reg.HRT_SQ_IDX i j) 0)
  else if o = 0x20208 then s.when (w.rose 11) (fun s => (s.wr (Reg.HRT_CQ_IDX i j) 0).setFld (Reg.HRT_CQ_CFG.PHASE i j) 1)
  else s

/-- Registers of the interrupt controller. -/
def State.hookHic (s : State) (w : Wrote) : State :=
  let o := w.h.desc.off
  let src := w.value % 512
  if o = 0x104 then s.hicCompleteBy w.h.i src
  else if o = 0x200 then s.hicXComplete src
  else if o = 0x204 then s.hicEvent src
  else s

/-! ### Time (R336, R339, R342) -/

/-- Registers of the time unit. -/
def State.hookTim (s : State) (w : Wrote) : State :=
  if w.h.desc.off = 0x10 then
    ((s.when (w.rose 0) State.runStart).when (w.fell 0) (·.runStop.sweepJobs)).when (!w.rose 0 && !w.fell 0) State.restrike
  else if w.h.desc.off = 0x14 then s.restrike
  else if w.h.desc.off = 0x50 then s.gptpConfig
  else s

/-! ### Safety, faults, recovery (R363, R365, R390, R398, R400, R401, R409, R412, R418, R421, R422, R424) -/

/-- Registers of the safety island. `before` is the state that the write met. -/
def State.hookSfi (s before : State) (w : Wrote) : State :=
  if w.h.desc.off = 0x10 then
    let s := if bitAt w.value 0 then
        let s := s.armWritten before.armBlock before.mayArm
        if s.armed && !before.armed then s.handoverDone else s
      else s
    s.setFlag Reg.SFI_CTL.ARM s.armed
  else if w.h.desc.off = 0x30 then (s.when (w.set 0) State.startSelftest).when (w.set 2) State.cmpInject
  else s

/-- FCL_FIRST and what was latched with it clear. -/
def State.clearFirst (s : State) : State := ((s.wr Reg.FCL_FIRST 0).wr64 Reg.FCL_FIRST_TIME_LO 0).wr Reg.FCL_FIRST_STRIKE 0

/-- FCL_INJECT (R398): source 0x5F00 + INSTANCE in the class given; in DEPOT no source reports class S, and a class S one there is class C (R391). (DESIGN CHOICE: log 170) -/
def State.injectFault (s : State) (v : Nat) : State :=
  let cls := if bits v 30 2 = 2 ∧ s.fld Reg.PRC_MODE.MODE = 2 then 0 else bits v 30 2
  s.report ⟨0x5F, bits v 0 8, cls, if cls = 1 then some (bits v 16 4) else none, none, 0, 0⟩

/-- Registers of the fault collector. -/
def State.hookFcl (s before : State) (w : Wrote) : State :=
  let o := w.h.desc.off
  if o = 0x20 then s.when (w.set 0) State.clearFirst
  else if o = 0x50 then
    { s with hearth := { s.hearth with kicked := (List.range 8).foldl (fun l k => if w.set k then setInsert l k else l) s.hearth.kicked } }
  else if o = 0x80 then s.when before.safeInit (·.injectFault w.eff)
  else if 0xA0 ≤ o ∧ o ≤ 0xAC then
    let a := Reg.FCL_FENCE_LIST0 + (o - 0xA0)
    s.wr a (BitVec.ofNat 32 ((s.rd a).toNat - ((s.rd a).toNat &&& w.eff)))
  else if o = 0x100 then
    s.when (bitAt w.value 31 && bitAt w.old 31)
      (fun s => (s.setFld (Reg.FCL_CTX_N.OVERFLOW w.h.i) 0).setFld (Reg.FCL_CTX_N.SOURCE w.h.i) 0)
  else s

/-- Registers of the event recorder. -/
def State.hookEvr (s : State) (w : Wrote) : State :=
  if w.h.desc.off = 0x10 then (s.when (w.set 8) State.evrCommit).when (w.set 9) State.evrClear else s

/-- Registers of the snapshot engine. -/
def State.hookSnp (s : State) (w : Wrote) : State :=
  let o := w.h.desc.off
  if o = 0x10 then s.when (w.set 1) (·.snapTrigger 0)
  else if o = 0x14 then s.when (bitAt w.value 31 && bitAt w.old 31) (fun s => { s with snap := [] })
  else if o = 0x30 then s.when (w.set 0) State.dumpStart
  else s

/-! ### Links and the gate (R430, R460) -/

/-- Registers of the Narultil ports. -/
def State.hookNlk (s : State) (w : Wrote) : State :=
  if w.h.desc.off = 0x1000 then
    let q := w.h.i
    if w.rose 0 then s.startTraining q
    else if w.fell 0 then (s.portLeaves q 0).setFld (Reg.NLK_PORT_CTL.RETRAIN q) 0
    else if !w.set 0 then s.setFld (Reg.NLK_PORT_CTL.RETRAIN q) 0
    else s.when (w.rose 1) (·.startTraining q)
  else s

/-- Registers of the gate: a key word. -/
def State.hookDgt (s : State) (w : Wrote) : State :=
  let o := w.h.desc.off
  if 0x1110 ≤ o ∧ o ≤ 0x112C then s.keyWord (w.h.i + 1) ((o - 0x1110) / 4) w.value else s

/-- The effect of a write, without the mode and reset registers. -/
def State.hookBasic (s before : State) (w : Wrote) : State :=
  let s := match w.h.blk with
    | .anv | .drw | .vec | .ppu => s.hookUnit w
    | .cru => s.when (w.h.desc.off == 0x10 && w.set 8) (fun s => { s with arms := { s.arms with cru := true } })
    | .mem => s.hookMem w
    | .blw => s.hookBlw w
    | .tng => s.hookTng w
    | .hrt => s.hookHrt w
    | .hic => s.hookHic w
    | .tim => s.hookTim w
    | .sfi => s.hookSfi before w
    | .fcl => s.hookFcl before w
    | .evr => s.hookEvr w
    | .snp => s.hookSnp w
    | .nlk => s.hookNlk w
    | .dgt => s.hookDgt w
    | _ => s
  (Blk.sources w.h).foldl State.syncSrc s

/-! ### Reads -/

/-- A read of a register of the window with everything it does (R14, R16, R321, R324, R426 to R428). -/
def State.fullRead (s : State) (a : Nat) : State × Word :=
  match s.liveReg a with
  | none => (s, 0)
  | some h =>
    let o := h.desc.off
    if h.blk = .hic ∧ o = 0x100 then s.claimRead h.i
    else if h.blk = .hrt ∧ o = 0x1008 then (s, BitVec.ofNat 32 (min 0xFFFF (s.inflight h.i)))
    else if h.blk = .fcl ∧ o = 0x34 then s.logWindow
    else if h.blk = .evr ∧ o = 0x18 then s.evrWindow
    else if h.blk = .snp ∧ o = 0x24 then s.snpWindow
    else s.regRead a

end Sys2Proof.Machine
end

