-- ==== Sys2Proof/Machine/Verify.lean ====
section
/-! DEFINITION. SHA-384 (FIPS 180-4) and the verification of an ECDSA P-384 signature (FIPS 186-4), as R462 to R464 use them. -/

namespace Sys2Proof.Machine

/-! ### SHA-384 -/

/-- The primes below 410: the first eighty. -/
def shaPrimes : List Nat :=
  (List.range 410).filter (fun n => 2 ≤ n && [2, 3, 5, 7, 11, 13, 17, 19].all (fun p => n == p || n % p != 0))

/-- The first 64 bits of the fraction of the k-th root of a number below 512, found bit by bit from the top. -/
def rootFraction (k n : Nat) : Nat :=
  ((List.range 69).foldl (fun r i => let t := r + 2 ^ (68 - i); if t ^ k ≤ n * 2 ^ (64 * k) then t else r) 0) % 2 ^ 64

/-- Round constants of SHA-384: from the cube roots of the first eighty primes. -/
def shaK : List Nat := shaPrimes.map (rootFraction 3)

/-- Initial hash value of SHA-384: from the square roots of the ninth to the sixteenth prime. -/
def sha384Init : List Nat := ((shaPrimes.drop 8).take 8).map (rootFraction 2)

/-- Rotation of a 64-bit word to the right. -/
def rotr64 (x n : Nat) : Nat := (x >>> n) ||| ((x <<< (64 - n)) % 2 ^ 64)

/-- The next word of the message schedule, from the last sixteen (newest first). -/
def shaNext (w : List Nat) : Nat :=
  let w15 := w.getD 14 0
  let w2 := w.getD 1 0
  let s0 := rotr64 w15 1 ^^^ rotr64 w15 8 ^^^ (w15 >>> 7)
  let s1 := rotr64 w2 19 ^^^ rotr64 w2 61 ^^^ (w2 >>> 6)
  (w.getD 15 0 + s0 + w.getD 6 0 + s1) % 2 ^ 64

/-- The schedule of 80 words from the sixteen of a block. -/
def shaSchedule (block : List Nat) : List Nat :=
  ((List.range 64).foldl (fun w _ => shaNext w :: w) block.reverse).reverse

/-- One round on the eight working variables. -/
def shaRound (v : List Nat) (kw : Nat) : List Nat :=
  match v with
  | [a, b, c, d, e, f, g, h] =>
    let t1 := h + (rotr64 e 14 ^^^ rotr64 e 18 ^^^ rotr64 e 41) + ((e &&& f) ^^^ ((2 ^ 64 - 1 - e) &&& g)) + kw
    let t2 := (rotr64 a 28 ^^^ rotr64 a 34 ^^^ rotr64 a 39) + ((a &&& b) ^^^ (a &&& c) ^^^ (b &&& c))
    [(t1 + t2) % 2 ^ 64, a, b, c, (d + t1) % 2 ^ 64, e, f, g]
  | _ => v

/-- One block. -/
def shaBlock (h : List Nat) (block : List Nat) : List Nat :=
  let v := ((shaSchedule block).zip shaK).foldl (fun v p => shaRound v (p.1 + p.2)) h
  (h.zip v).map (fun p => (p.1 + p.2) % 2 ^ 64)

/-- Cut into pieces of `n`; `fuel` bounds their number. -/
def piecesOf {α : Type} (n : Nat) : Nat → List α → List (List α)
  | 0, _ => []
  | _, [] => []
  | fuel + 1, l => l.take n :: piecesOf n fuel (l.drop n)

/-- The padded message: 0x80, zeros, and the length in bits. -/
def shaPad (bs : List Byte) : List Byte :=
  bs ++ [0x80] ++ List.replicate ((239 - bs.length % 128) % 128) 0 ++ beBytes 16 (8 * bs.length)

/-- SHA-384. (PRESUMED: log 118) -/
def sha384 (bs : List Byte) : List Byte :=
  let blocks := piecesOf 128 (bs.length / 128 + 2) (shaPad bs)
  let h := blocks.foldl (fun h b => shaBlock h ((piecesOf 8 16 b).map beNat)) sha384Init
  (h.take 6).flatMap (beBytes 8)

/-! ### ECDSA P-384 -/

/-- Field prime, group order, coefficient b and base point of P-384. -/
def p384P : Nat := 2 ^ 384 - 2 ^ 128 - 2 ^ 96 + 2 ^ 32 - 1
def p384N : Nat := 0xffffffffffffffffffffffffffffffffffffffffffffffffc7634d81f4372ddf581a0db248b0a77aecec196accc52973
def p384B : Nat := 0xb3312fa7e23ee7e4988e056be3f82d19181d9c6efe8141120314088f5013875ac656398d8a2ed19d2a85c8edd3ec2aef
def p384G : Nat × Nat :=
  (0xaa87ca22be8b05378eb1c71ef320ad746e1d3b628ba79b9859f741e082542a385502f25dbf55296c3a545e3872760ab7,
   0x3617de4a96262c6f5d9e98bf9292dc29f8f41dbd289a147ce9da3113b5f0b8c00a60b1ce1d7e819d7a431d7c90ea0e5f)

/-- Bits of a number, most significant first. -/
def bitsDown (n v : Nat) : List Bool := (List.range n).map (fun i => bitAt v (n - 1 - i))

/-- Power modulo m of a 384-bit exponent. -/
def powModulo (m x e : Nat) : Nat :=
  (bitsDown 384 e).foldl (fun a b => let q := a * a % m; if b then q * x % m else q) 1

/-- Inverse modulo a prime. -/
def invModulo (m x : Nat) : Nat := powModulo m x (m - 2)

/-- A point in Jacobian coordinates: (X / Z², Y / Z³), the point at infinity where Z is 0. -/
structure P384 where
  x : Nat
  y : Nat
  z : Nat
  deriving DecidableEq, Repr

/-- Difference in the field. -/
def p384Sub (a b : Nat) : Nat := (a + (p384P - b % p384P)) % p384P

/-- Twice a point. -/
def p384Double (a : P384) : P384 :=
  let d := a.z * a.z % p384P
  let g := a.y * a.y % p384P
  let b := a.x * g % p384P
  let m := 3 * p384Sub a.x d * (a.x + d) % p384P
  let x := p384Sub (m * m) (8 * b)
  ⟨x, p384Sub (m * p384Sub (4 * b) x) (8 * g * g), 2 * a.y * a.z % p384P⟩

/-- Point addition. -/
def p384Add (a b : P384) : P384 :=
  if a.z = 0 then b
  else if b.z = 0 then a
  else
    let za := a.z * a.z % p384P
    let zb := b.z * b.z % p384P
    let u := a.x * zb % p384P
    let v := a.y * (b.z * zb % p384P) % p384P
    let h := p384Sub (b.x * za) u
    let r := p384Sub (b.y * (a.z * za % p384P)) v
    if h = 0 then (if r = 0 then p384Double a else ⟨1, 1, 0⟩)
    else
      let h2 := h * h % p384P
      let h3 := h * h2 % p384P
      let uh := u * h2 % p384P
      let x := p384Sub (r * r) (h3 + 2 * uh)
      ⟨x, p384Sub (r * p384Sub uh x) (v * h3), h * a.z * b.z % p384P⟩

/-- Scalar multiple. -/
def p384Mul (k : Nat) (q : Nat × Nat) : P384 :=
  (bitsDown 384 k).foldl (fun a b => let d := p384Double a; if b then p384Add d ⟨q.1, q.2, 1⟩ else d) ⟨1, 1, 0⟩

/-- The point lies on the curve. -/
def p384On (q : Nat × Nat) : Bool :=
  decide (q.1 < p384P) && decide (q.2 < p384P)
    && q.2 * q.2 % p384P == (q.1 * q.1 * q.1 + (p384P - 3) * q.1 + p384B) % p384P

/-- A signature (r, s) of a digest holds under a public key. -/
def p384Verify (key : Nat × Nat) (digest : List Byte) (r s : Nat) : Bool :=
  if r = 0 ∨ p384N ≤ r ∨ s = 0 ∨ p384N ≤ s ∨ !p384On key then false
  else
    let w := invModulo p384N s
    let u1 := beNat digest * w % p384N
    let u2 := r * w % p384N
    let p := p384Add (p384Mul u1 p384G) (p384Mul u2 key)
    p.z != 0 && p.x * invModulo p384P (p.z * p.z % p384P) % p384P % p384N == r

end Sys2Proof.Machine
end

