-- ==== Sys2Proof/Machine/Boot.lean ====
section
/-! DEFINITION. Boot: flash images and their verification, placement, image records, PORST and SYS resets, the boot record, input power (R414, R461 to
R469, R481, R494 to R496). -/

namespace Sys2Proof.Machine

/-! ### Images (R461 to R464) -/

/-- A record of an image body: type, TARGET, image offset of its payload, payload. -/
structure ImgRec where
  type : Nat
  target : Nat
  offset : Nat
  data : List Byte
  deriving DecidableEq, Repr

/-- The records of a body (R463); `none` where one is malformed or of an undefined TYPE. `off` is the image offset of the first. (DEDUCED: log 128) -/
def parseRecs : Nat → Nat → List Byte → Option (List ImgRec)
  | _, _, [] => some []
  | 0, _, _ :: _ => none
  | fuel + 1, off, b :: bs =>
    let l := b :: bs
    let len := fieldAt l 4 4
    let ty := fieldAt l 0 2
    if l.length < 16 + len ∨ len % 16 ≠ 0 ∨ ty = 0 ∨ 8 < ty then none
    else (parseRecs fuel (off + 16 + len) (l.drop (16 + len))).map (fun rs =>
      ⟨ty, fieldAt l 8 8, off + 16, (l.drop 16).take len⟩ :: rs)

/-- An image that the ROM has accepted up to its last check. -/
structure Image where
  secver : Nat
  seq : Nat
  digest : List Byte
  body : List Byte
  recs : List ImgRec
  deriving DecidableEq, Repr

/-- The checks of R464 but for the body's digest. (DEDUCED: log 128) -/
def State.acceptImage (s : State) (kind : Nat) (head body : List Byte) : Option Image :=
  let slot := fieldAt head 6 1
  let key := (head.drop 64).take 96
  let sig := head.drop 160
  if fieldAt head 0 4 ≠ 0x59524331 ∨ fieldAt head 4 1 ≠ 1 ∨ fieldAt head 5 1 ≠ kind ∨ 4 ≤ slot ∨ bitAt (s.fld Reg.TOP_SEC.REVOKED) slot
      ∨ body.length ≠ fieldAt head 12 4 ∨ body.length % 16 ≠ 0 ∨ 0x3000000 < 256 + body.length
      ∨ fieldAt head 7 1 < s.fld Reg.TOP_SEC.MIN_SECVER ∨ 63 < fieldAt head 7 1 then none
  else if sha384 key ≠ s.boot.keyHashes.getD slot [] then none
  else
    match parseRecs (body.length / 16 + 1) 256 body with
    | none => none
    | some recs =>
      if 16 < (recs.filter (fun r => r.type == 5)).length then none
      else if !p384Verify (beNat (key.take 48), beNat (key.drop 48)) (sha384 (head.take 160)) (beNat (sig.take 48)) (beNat ((sig.drop 48).take 48))
        then none
      else some ⟨fieldAt head 7 1, fieldAt head 8 4, (head.drop 16).take 48, body, recs⟩

/-- Bytes of the boot flash. -/
def State.flashBytes (s : State) (o n : Nat) : List Byte := (List.range n).map (fun i => SMap.getD s.boot.flash (o + i) 0)

/-- The image of a slot, if the ROM accepts it so far. -/
def State.slotImage (s : State) (k : Nat) : Option Image :=
  let head := s.flashBytes (0x4000000 * k) 256
  if fieldAt head 0 4 ≠ 0x59524331 then none
  else s.acceptImage 1 head (s.flashBytes (0x4000000 * k + 256) (min 0x3000000 (fieldAt head 12 4)))

/-- CONFIG entries of an image, in order: image offset, ID, VALUE. -/
def ImgRec.configs (r : ImgRec) : List (Nat × Nat × Nat) :=
  (List.range (r.data.length / 8)).map (fun i => (r.offset + 8 * i, fieldAt r.data (8 * i) 2, fieldAt r.data (8 * i + 4) 4))

/-- The legal value of a CONFIG field (R463). -/
def State.configLegal (s : State) (id v : Nat) : Nat :=
  match id with
  | 1 => min v (if s.isMB then 35 else 48)
  | 2 => min v 4
  | 3 => clampNat 26 34 v
  | 4 => min v 2000
  | 5 => clampNat 1 7 v
  | _ => clampNat 8000 140000 v

/-- BOOT_TRIES of an image. (DEDUCED: log 129) -/
def State.imageTries (s : State) (img : Image) : Nat :=
  ((img.recs.filter (fun r => r.type == 8)).flatMap ImgRec.configs).foldl (fun d e => if e.2.1 = 5 then s.configLegal 5 e.2.2 else d) 3

/-! ### Placement and image records (R377, R384, R463) -/

/-- Place bytes in memory with fresh check codes. -/
def State.place (s : State) (a : Nat) (bs : List Byte) : State := (s.zeroRange a bs.length).setBytes a bs

/-- Where the copy of Ember's image stands: the last 4 MiB of the firmware region (R35, R377). (DESIGN CHOICE: log 132) -/
def emberCopy : Nat := 0x40000000 - 0x400000

/-- Place one record. (DESIGN CHOICE: log 132) -/
def State.placeRec (s : State) (r : ImgRec) : State :=
  match r.type with
  | 1 =>
    let s := s.place r.target r.data
    { s with boot := { s.boot with firmware := s.boot.firmware ++ [(r.target, r.data.length)] } }
  | 2 => { s with boot := { s.boot with islandMem := s.boot.islandMem ++ r.data } }
  | 3 => { s with boot := { s.boot with sentinelMem := s.boot.sentinelMem ++ r.data } }
  | 4 =>
    let image := r.data.take 0x400000
    let s := (s.place 0x2202000000 image).place emberCopy image
    { s with boot := { s.boot with ember := image.length, emberDigest := sha384 image } }
  | 5 => { s.place r.target r.data with golden := s.golden ++ [(r.target, r.data.length)] }
  | 6 => { s with boot := { s.boot with proofs := s.boot.proofs ++ r.data } }
  | _ => s

/-- What a failed digest leaves of the placement: the targets are scrubbed. -/
def State.scrubPlaced (s : State) (img : Image) : State :=
  img.recs.foldl (fun (s : State) r => if r.type = 1 ∨ r.type = 5 then s.zeroRange r.target r.data.length
    else if r.type = 4 then (s.zeroRange 0x2202000000 0x400000).zeroRange emberCopy 0x400000 else s) s

/-- The firmware as it stands in memory. -/
def State.firmwareBytes (s : State) : List Byte := s.boot.firmware.flatMap (fun r => s.bytesAt r.1 r.2)

/-- A CONFIG entry takes effect; a clamped value and an undefined ID are reported (R463). -/
def State.applyConfig (s : State) (e : Nat × Nat × Nat) : State :=
  let v := e.2.2
  let legal := s.configLegal e.2.1 v
  if e.2.1 = 0 ∨ 6 < e.2.1 then s.cfgReport (2 ^ 63 + e.1) 1 ⟨0, 16, 2, e.2.1, 0⟩
  else
    let s := if legal = v then s else s.cfgReport (2 ^ 63 + e.1) 1 ⟨32, 32, 0, v, legal⟩
    match e.2.1 with
    | 1 => { s with poolGiB := legal }
    | 2 => { s with fm := legal }
    | 3 => s.setFld Reg.PCI_WIN_SIZE.LOG2 legal
    | 4 => { s with boot := { s.boot with stepWaitMs := legal } }
    | 5 => { s with boot := { s.boot with bootTries := legal } }
    | _ => { s with boot := { s.boot with drivePeriodUs := legal } }

/-- Registers of the boot record: CONFIRM makes the running slot GOOD and raises the fused minimum; PENDING marks a slot (R465). (DEDUCED: log 133) -/
def State.hookBoot (s : State) (w : Wrote) : State :=
  let slotFld (k : Nat) : FRef := if k = 0 then Reg.PRC_BOOT.STATE_A else Reg.PRC_BOOT.STATE_B
  let mark (s : State) (k : Nat) : State :=
    let s := s.setFld (slotFld k) 2
    { s with boot := { s.boot with tries := s.boot.tries.set k 0 } }
  let s := if bitAt w.value 0 && !s.boot.service && !s.boot.waiting then
      let s := s.setFld (slotFld (s.fld Reg.TOP_BOOT.SLOT)) 1
      s.setFld Reg.TOP_SEC.MIN_SECVER (max (s.fld Reg.TOP_SEC.MIN_SECVER) (s.fld Reg.TOP_BOOT.SECVER))
    else s
  let s := if bitAt w.value 3 then mark s 0 else s
  if bitAt w.value 4 then mark s 1 else s

/-- A REG entry: an aligned 32-bit register write with SOURCE 1 (R463). The mode and reset requests are no part of a boot. (DEDUCED: log 131) -/
def State.applyReg (s : State) (off a v : Nat) : State :=
  match s.regWrite a v 1 (some (2 ^ 63 + off)) with
  | (s', some (h, old, eff)) =>
    let w : Wrote := ⟨h, old, eff, v⟩
    let s' := s'.hookBasic s w
    if h.blk = .prc ∧ h.desc.off = 0x28 then s'.hookBoot w
    else if h.blk = .prc ∧ h.desc.off = 0x10 then s'.setFld Reg.PRC_MODE.REQ 0
    else s'
  | (s', none) => s'

/-- The REG and CONFIG entries of one record. -/
def State.applyRec (s : State) (r : ImgRec) : State :=
  match r.type with
  | 7 => (List.range (r.data.length / 16)).foldl (fun (s : State) i =>
      s.applyReg (r.offset + 16 * i) (fieldAt r.data (16 * i) 8) (fieldAt r.data (16 * i + 8) 4)) s
  | 8 => r.configs.foldl State.applyConfig s
  | _ => s

/-! ### The boot itself (R413, R464 to R467) -/

/-- Nothing of the image that ran before is left; `service`: a service image runs now. -/
def State.dropImage (s : State) (service : Bool) : State :=
  { s with
    golden := []
    boot := { s.boot with firmware := [], islandMem := [], sentinelMem := [], proofs := [], ember := 0, waiting := false, service := service
                          stepWaitMs := 1500, bootTries := 3, drivePeriodUs := 33333 } }

/-- The SHA-384 of the firmware as it was placed is kept in MRAM. -/
def State.noteFirmware (s : State) : State := { s with boot := { s.boot with digest := sha384 s.firmwareBytes } }

/-- Run an image whose every check has passed: placement, fences, and, unless fences end the boot, its records. `domain` 0: a service image. -/
def State.runImage (s : State) (img : Image) (slot : Option Nat) (domain : Nat) : State :=
  let s := (img.recs.foldl State.placeRec (s.dropImage slot.isNone)).noteFirmware
  let s := (s.setFld Reg.TOP_BOOT.SECVER img.secver).wr Reg.TOP_IMG_SEQ (BitVec.ofNat 32 img.seq)
  let s := match slot with | some k => s.setFld Reg.TOP_BOOT.SLOT k | none => s
  let s := s.refence
  if domain ≠ 0 ∧ s.fencesShort then (s.dumpSlot 5 domain 1 s.nowNs s.strikeNo false false).enterOos 0
  else
    let s := img.recs.foldl State.applyRec s
    { s with modes := { s.modes with barLog2 := s.fld Reg.PCI_WIN_SIZE.LOG2 } }

/-- No image was accepted (R466). (DEDUCED: log 130) -/
def State.noImage (s : State) : State :=
  let s := { s with boot := { s.boot with waiting := true, service := false, frameAt := s.nowNs } }
  ((s.setFld Reg.PRC_MODE.MODE 3).setFld Reg.SFI_STATUS.FAULT_PIN 0).evrCounter 4

/-- Boot the accepted slots in turn: a body that does not match its DIGEST is scrubbed, and the other slot is tried. (DEDUCED: log 129) -/
def State.tryBoot (domain : Nat) : List (Nat × Image) → State → State
  | [], s => s.noImage
  | (k, img) :: rest, s =>
    let st := if k = 0 then Reg.PRC_BOOT.STATE_A else Reg.PRC_BOOT.STATE_B
    let s := if s.fld st = 2 then { s with boot := { s.boot with tries := s.boot.tries.set k (s.boot.tries.getD k 0 + 1) } } else s
    if sha384 img.body = img.digest then s.runImage img (some k) domain else State.tryBoot domain rest (s.scrubPlaced img)

/-- A PENDING slot that has used its tries becomes BAD (R465). (DEDUCED: log 129) -/
def State.retireSlot (s : State) (k : Nat) : State :=
  let st := if k = 0 then Reg.PRC_BOOT.STATE_A else Reg.PRC_BOOT.STATE_B
  match s.slotImage k with
  | some img => if s.fld st = 2 && decide (s.imageTries img ≤ s.boot.tries.getD k 0) then s.setFld st 3 else s
  | none => s

/-- The accepted images among the GOOD and PENDING slots, higher SEQ first. (DEDUCED: log 129) -/
def State.candidates (s : State) : List (Nat × Image) :=
  let one (k : Nat) : List (Nat × Image) :=
    let st := s.fld (if k = 0 then Reg.PRC_BOOT.STATE_A else Reg.PRC_BOOT.STATE_B)
    if st = 1 ∨ st = 2 then (s.slotImage k).toList.map (fun i => (k, i)) else []
  match one 0, one 1 with
  | [a], [b] => if a.2.seq < b.2.seq then [b, a] else [a, b]
  | a, b => a ++ b

/-- The ROM boots (R464 to R466). -/
def State.bootUp (s : State) (domain : Nat) : State :=
  let s := ((s.dramState 0).retireSlot 0).retireSlot 1
  State.tryBoot domain s.candidates s

/-! ### PORST and SYS (R414) -/

/-- Register words that fuses and the MRAM hold. -/
def fixedWords : List Nat :=
  [Reg.TOP_IDENT, Reg.TOP_ANV_MASK_LO, Reg.TOP_ANV_MASK_HI, Reg.TOP_SEC, Reg.EVR_HOURS, Reg.EVR_PCYCLES, Reg.FCL_FENCE_LIST0, Reg.FCL_FENCE_LIST1,
    Reg.FCL_FENCE_LIST2, Reg.FCL_FENCE_LIST3]

/-- Fields of other registers that the MRAM holds. -/
def fixedFields : List FRef :=
  [Reg.PRC_MODE.POOL_DIRTY, Reg.PRC_BOOT.STATE_A, Reg.PRC_BOOT.STATE_B, Reg.SNP_DUMP.NEWEST]

/-- The device with everything reset but fuses, flash, MRAM and the levels of its pins; `keep` names further registers that survive. (DEDUCED: log 135, 146) -/
def State.blank (s : State) (keep : Nat → Bool) : State :=
  let r : State := { State.reset with
    pending := s.pending, regs := SMap.keep (fun a => keep a || fixedWords.contains a) s.regs, mram := s.mram, logSeq := s.logSeq
    sensors := s.sensors, recover := { State.reset.recover with dumpSeq := s.recover.dumpSeq }
    boot := { BootSt.fresh with flash := s.boot.flash, keyHashes := s.boot.keyHashes, tries := s.boot.tries, digest := s.boot.digest
                                emberDigest := s.boot.emberDigest }
    modes := { ModeSt.fresh with parkOk := s.modes.parkOk, shorePwr := s.modes.shorePwr, perst := s.modes.perst }
    out := s.out, freeCtr := s.freeCtr }
  let r := fixedFields.foldl (fun r f => r.setFld f (s.fld f)) r
  if keep Reg.PRC_CAP then r else r.setFld Reg.PRC_CAP.DEPOT_W r.depotMax

/-- The recorder resumes from its committed records (R422). (DEDUCED: log 135) -/
def State.reloadEvr (s : State) : State :=
  (List.range 8).foldl (fun (s : State) i =>
    match s.newestRec (i + 1) with
    | none => s
    | some o => { s with evr := (List.range 60).foldl (fun m k =>
        let m := SMap.put m (64 * (i + 1) + 3 + k) 0 (s.mramWord (o + 12 + 4 * k))
        if i = 5 ∧ k % 3 = 2 ∧ k < 36 ∧ s.mramWord (o + 12 + 4 * k) ≠ 0 then SMap.put m (64 * 16 + k / 3) 0 1 else m) s.evr }) s

/-- The pins as a held reset or the loss of VIN leaves them: COOL_REQ low, WAKE_n and PCIE_WAKE_n released (R493). -/
def State.pinsFall (s : State) : State :=
  let s := if s.modes.coolReq then s.send (.pin 2 false) else s
  let s := if s.modes.wakeAt.isSome then s.send (.pin 0 true) else s
  if s.modes.pcieWakeAt.isSome then s.send (.pin 1 true) else s

/-- PORST (R414, R467, R493, R495): everything resets, the power-cycle count goes up, the ROM boots. (DEDUCED: log 130, 135) -/
def State.porst (s : State) (vin : Nat) : State :=
  let s := s.pinsFall.send (.pin 2 true)
  let s := { s with sensors := { s.sensors with vin := vin } }.blank (fun _ => false)
  let s := (s.reloadEvr.count Reg.EVR_PCYCLES.COUNT 1).setFld Reg.TOP_BOOT.CAUSE 1
  (s.logWrite 3 0xFF 0xFF 0 0xFF 0 1 0).bootUp 1

/-- PORST: the effective rising edge of PORST_n. -/
def execPorst (release : BootOutcome) (s : State) : Host.Outcome State Fault Refusal :=
  .next (if !s.modes.powered then s else s.porst release.vin)

/-- Registers that survive a SYS reset (R427, R482). -/
def survivesSys : Nat → Bool := inBlocks [.evr, .snt]

/-- A register of a firewall region that is locked, fixed until PORST (R397). -/
def State.lockedRegion (s : State) (a : Nat) : Bool :=
  (List.range 64).any (fun r => s.flag (Reg.FWL_RGN_CTL.LOCK r) && Reg.FWL_RGN_BASE_LO r ≤ a && a ≤ Reg.FWL_RGN_CTL r)

/-- What a SYS reset leaves: the sentinel, the recorder, MRAM, the DRAM and the locked firewall regions. -/
def State.sysState (s : State) : State :=
  let inDram (a : Nat) : Bool := a < 0x1000000000
  let r := s.blank (fun a => survivesSys a || s.lockedRegion a)
  { r with
    mem := SMap.keep inDram s.mem
    poison := s.poison.filter (fun u => inDram (32 * u))
    damage := SMap.keep (fun u => inDram (32 * u)) s.damage
    evr := s.evr
    modes := { r.modes with sentinel := s.modes.sentinel, wakeAt := s.modes.wakeAt, pcieWakeAt := s.modes.pcieWakeAt, accHits := s.modes.accHits,
                            proofDue := s.modes.proofDue } }

/-- A SYS reset (R414): `code` is the cause of its report, `why` the cause of the boot that follows. (DEDUCED: log 130) -/
def State.sysReset (s : State) (code why : Nat) : State :=
  let s := s.evrCommit
  let s := (s.logWrite 3 0xFF 0xFF 0 0xFF 0 (2 + 256 * code) 0).evrCounter 2
  ((s.sysState).setFld Reg.TOP_BOOT.CAUSE why).bootUp 2

/-! ### Without an image; service images (R464, R466) -/

/-- OOS_SAFE_STATE_FRAME_TIMER (R466): once per second while no image has been accepted. -/
def execOosSafeStateFrameTimer (s : State) : Host.Outcome State Fault Refusal :=
  .next (if !s.boot.waiting || !s.operates then s
    else
      let s := s.reach s.boot.frameAt
      let s := s.queueFrame templateFrame
      { s with boot := { s.boot with frameAt := s.boot.frameAt + 1000000000 } })

/-- SERVICE_IMAGE_BOOT (R464): through J4, while TOP_LOCK is clear. A device that runs an image leaves it as at a SYS reset. (DEDUCED: log 134) -/
def execServiceImageBoot (image : List Byte) (s : State) : Host.Outcome State Fault Refusal :=
  .next (if s.locked || !s.operates || s.inParked then s
    else
      match s.acceptImage 2 (image.take 256) (image.drop 256) with
      | none => s
      | some img =>
        if sha384 img.body ≠ img.digest then s
        else
          let s := if s.boot.waiting then s.setFld Reg.PRC_MODE.MODE 0
            else
              let s := (s.evrCommit.logWrite 3 0xFF 0xFF 0 0xFF 0 (2 + 256 * 4) 0).evrCounter 2
              ((s.sysState).setFld Reg.TOP_BOOT.CAUSE 2).dramState 0
          s.runImage img none 0)

/-! ### Input power (R494 to R496) -/

/-- VIN_START (R495): the hot-swap stage charges, the sentinel rail and the supervisor come up; PORST_n is still low. -/
def execVinStart (s : State) : Host.Outcome State Fault Refusal :=
  .next (if s.modes.powered then s else { s with modes := { s.modes with powered := true, inReset := true } })

/-- VIN_LOSS (R496): power is lost with everything that only power held, and every pin falls. (DEDUCED: log 146) -/
def execVinLoss (s : State) : Host.Outcome State Fault Refusal :=
  .next (if !s.modes.powered then s
    else
      let s := s.pinsFall.blank (fun _ => false)
      { s with modes := { s.modes with powered := false, inReset := false, coolReq := false } })

end Sys2Proof.Machine
end

