-- ==== Sys2Proof/Machine/Power.lean ====
section
/-! DEFINITION. Power, modes and wakes: PARKED, DEPOT, the hand-over, the sentinel (R29, R30, R331, R470 to R480, R497, R499). -/

namespace Sys2Proof.Machine

def State.modModes (s : State) (f : ModeSt → ModeSt) : State := { s with modes := f s.modes }

/-! ### The sentinel's clock (R331, R472) -/

/-- Device time (ns) at PARKED entry. -/
def State.parkedNs (s : State) : Nat := s.modes.parkedAt / 2 ^ 32

/-- Device time in ns, carried on by the sentinel's count in PARKED: a cycle of 48 MHz is 125/6 ns. -/
def State.sntNow (s : State) : Nat := if s.inParked then s.parkedNs + s.modes.sentinel * 125 / 6 else s.nowNs

/-- Move that time forward to `t` ns. (DESIGN CHOICE: log 3) -/
def State.sntReach (s : State) (t : Nat) : State :=
  if s.inParked then s.modModes (fun m => { m with sentinel := max m.sentinel (((t - s.parkedNs) * 6 + 124) / 125) }) else s.reach t

/-- A periodic event of the sentinel in PARKED is due `period` ns after it was last due. (DESIGN CHOICE: log 149) -/
def State.sntEvery (s : State) (key period : Nat) : State :=
  let s := s.sntReach (max (SMap.getD s.timers key 0) s.parkedNs + period)
  { s with timers := SMap.put s.timers key 0 s.sntNow }

/-- COOL_REQ takes a level (R499). -/
def State.coolReq (s : State) (level : Bool) : State :=
  if s.modes.coolReq == level then s else (s.modModes (fun m => { m with coolReq := level })).send (.pin 2 level)

/-! ### Parking (R390, R422, R471) -/

/-- The island leaves ARMED with DRIVE. -/
def State.disarm (s : State) : State :=
  let s := if s.armed then (s.setFld Reg.SFI_STATUS.STATE 0).setFld Reg.SFI_CTL.ARM 0 else s
  s.setFld Reg.SFI_STATUS.FAULT_PIN 0

/-- Blocks whose registers live on in PARKED: the retention domain, and those of the sentinel, fuses and MRAM. (DEDUCED: log 136) -/
def heldInPark : Nat → Bool :=
  inBlocks [.top, .hrt, .hic, .tim, .fwl, .sfi, .emb, .anv, .blw, .tng, .snt, .prc, .evr]

/-- Register words of other blocks that the MRAM holds. (DESIGN CHOICE: log 98) -/
def mramWords : List Nat := [Reg.FCL_FENCE_LIST0, Reg.FCL_FENCE_LIST1, Reg.FCL_FENCE_LIST2, Reg.FCL_FENCE_LIST3, Reg.SNP_DUMP]

/-- Work of the domains that power off: accepted jobs complete with ABORTED, units and channels stop, ports go down. (DEDUCED: log 136) -/
def State.powerOff (s : State) : State :=
  let s := s.dropWork
  let s := s.jobs.foldl (fun (s : State) j => s.retire j (verdictOf 10 j.results j.published j.poisoned j.late) 10) s
  let s := (List.range 4).foldl (fun (s : State) q => s.portLeaves q 0) s
  let s := (List.range 32).foldl (fun (s : State) n => s.setFld (chanState n) 0) s
  let s := { s with
    units := [], anvils := [], cmp := ⟨[], [], [], [], false, false⟩, pairBar := [], anchors := [], winStarts := [], intake := [], ftab := none, ageDue := none, canRx := []
    snap := [], msix := .fresh, hearth := .fresh, arms := ⟨[], false, [], []⟩, emb := { s.emb with running := false, pubDue := false }
    quench := { s.quench with frames := [] } }
  let s := s.setFld Reg.EMB_STATUS.RUNNING 0
  let s := s.resetRegs (fun a => !heldInPark a && !mramWords.contains a) true
  ((s.zeroRange 0x2000000000 0x4000000).zeroRange 0x2100000000 0x10000000).zeroRange 0x2200000000 0x2400000

/-- Enter PARKED. (DEDUCED: log 136) -/
def State.enterPark (s : State) : State :=
  let s := (s.disarm).evrCommit
  let s := if s.flag Reg.TIM_STRIKE_CTL.RUN then (s.setFld Reg.TIM_STRIKE_CTL.RUN 0).runStop else s
  let s := s.powerOff.dramState 1
  let s := s.modTime (fun t => { t with live := false })
  let s := (s.setFld Reg.PRC_MODE.MODE 1).setFld Reg.PRC_MODE.POOL_SCRUB 0
  let s := s.modModes (fun m => { m with
    sentinel := 0, parkedAt := s.now, accHits := 0, wake := 0, entering := false, parkWaits := false, overs := 0 })
  s.syncAll

/-! ### Wakes (R331, R472 to R474, R479) -/

/-- Supply allows a wake other than a vehicle wake (R473). -/
def State.supplyOk (s : State) : Bool := 10 * s.fld Reg.SNT_SUPPLY.VIN_MIN ≤ s.sensors.vin

/-- What was to be kept in memory does not match its digest in MRAM: the firmware, or the copy of Ember's image (R377, R474). -/
def State.keptBad (s : State) : Bool :=
  (s.boot.firmware != [] && sha384 s.firmwareBytes != s.boot.digest)
    || (s.boot.ember != 0 && sha384 (s.bytesAt emberCopy s.boot.ember) != s.boot.emberDigest)

/-- The sentinel releases WAKE_n, which it drives in PARKED alone (R473, R493). -/
def State.releaseWakeN (s : State) : State :=
  if s.modes.wakeAt.isSome then (s.modModes (fun m => { m with wakeAt := none })).send (.pin 0 true) else s

/-- The module wakes into DRIVE; `bits` are the events of SNT_WAKE.CAUSE, `kind` 1 vehicle, 2 proof, 3 depot. (DESIGN CHOICE: log 103, 132; DEDUCED: log 137, 138, 139) -/
def State.wakeUp (s : State) (events kind : Nat) : State :=
  let (s, dur) := s.openQuotient (s.modes.sentinel * 125 : Nat) 6
  let dur := dur.toNat
  let s := (s.coolReq true).releaseWakeN.wr64 Reg.SNT_PARK_LO dur
  let s := { s with now := s.modes.parkedAt + ofNs dur, timers := SMap.put s.timers 1 0 (SMap.getD s.timers 1 0 + dur) }
  let s := s.evrAdd 8 5 (dur / 225000000000)
  let s := (s.setFld Reg.SNT_WAKE.CAUSE events).setFld Reg.TOP_BOOT.CAUSE 3
  let s := (s.setFld Reg.TIM_GPTP_CTL.STEP_ARM 1).setFld Reg.TIM_GPTP_STATUS.STEPPED 0
  let s := (s.setFld Reg.TIM_GPTP_STATUS.STATE 0).modTime (fun t => { t with twoStep := [], goodSyncs := 0, gptp := false })
  let s := (s.dramState 0).setFld Reg.PRC_MODE.MODE 0
  let s := (s.setFld Reg.PRC_THERMAL.CAP_W (s.fld Reg.PRC_CAP.DRIVE_W)).modModes (fun m => { m with wake := kind })
  if s.keptBad then s.sysReset 0 4
  else
    let s := if s.boot.ember = 0 then s else s.place 0x2202000000 (s.bytesAt emberCopy s.boot.ember)
    (s.refence.bellowsSwitched).syncAll

/-- Enter PARKED; an overdue proof timer wakes the module again at once (R479). (DEDUCED: log 140) -/
def State.park (s : State) : State :=
  let s := s.enterPark
  if s.modes.proofDue && s.flag Reg.SNT_CTL.PROOF_EN && s.supplyOk then
    (s.modModes (fun m => { m with proofDue := false })).wakeUp 8 2
  else s

/-! ### The hand-over (R476) -/

/-- The hand-over starts; `cause` is PRC_HANDOVER.CAUSE. (DEDUCED: log 142) -/
def State.handOver (s : State) (cause : Nat) : State :=
  let s := ((s.setFld Reg.PRC_MODE.HANDOVER 1).setFld Reg.PRC_MODE.MODE 0).setFld Reg.PRC_HANDOVER.CAUSE cause
  let s := (s.setFld Reg.PRC_MODE.POOL_SCRUB 0).modModes (fun m => { m with handAt := some s.nowNs })
  let s := s.gateOff.setFld Reg.PRC_THERMAL.CAP_W (s.fld Reg.PRC_CAP.DRIVE_W)
  let s := (List.range 15).foldl (fun (s : State) i =>
    if s.ctxState (i + 1) = 0 then s else (s.setFld (Reg.HRT_CTX_CTL.TEARDOWN (i + 1)) 1).teardownWritten (i + 1)) s
  let s := s.dramState 1
  if s.barRole = 2 then s
  else
    let s := if s.flag Reg.TIM_STRIKE_CTL.RUN then (s.setFld Reg.TIM_STRIKE_CTL.RUN 0).runStop else s
    let s := s.setFld Reg.TIM_STRIKE_CFG.PERIOD s.boot.drivePeriodUs
    (s.setFld Reg.TIM_STRIKE_CTL.RUN 1).runStart

/-- The mode logic sees a trigger: in DEPOT the hand-over starts, and an entry in progress is abandoned. (DEDUCED: log 141) -/
def State.trigger (s : State) (cause : Nat) : State :=
  if s.inDepot then s.handOver cause
  else if s.modes.entering then s.modModes (fun m => { m with entering := false })
  else s

/-! ### Requests (R475, R476, R483) -/

/-- The parked confirmation is valid (R446). -/
def State.parkValid (s : State) : Bool := s.flag (Reg.ETH_CAN_STATUS.PARK_VALID (s.fld Reg.ETH_CAN_PARK.CH))

/-- Conditions of a DEPOT request that fail, as DEPOT_BLOCK shows them. -/
def State.depotBlock (s : State) : Nat :=
  ofBool (!s.modes.parkOk) + 2 * ofBool (!s.parkValid) + 4 * ofBool (!s.modes.shorePwr) + 8 * ofBool (!s.flag Reg.PRC_MODE.DEPOT_EN)

/-- A DEPOT entry that no strike boundary will bring takes place at once. (DEDUCED: log 126) -/
def State.enterNow (s : State) : State := if s.modes.entering && s.strikeDue.isNone then s.enterDepot else s

/-- A request written to PRC_MODE.REQ: it clears, and acts where it applies. (DEDUCED: log 141) -/
def State.modeRequest (s : State) (req : Nat) : State :=
  let s := s.setFld Reg.PRC_MODE.REQ 0
  match req with
  | 1 =>
    if !s.inDrive then s
    else if s.flag Reg.PRC_MODE.HANDOVER then s.modModes (fun m => { m with parkWaits := true })
    else s.park
  | 2 =>
    if !s.inDrive || s.flag Reg.PRC_MODE.HANDOVER then s
    else
      let b := s.depotBlock
      let s := s.setFld Reg.PRC_MODE.DEPOT_BLOCK b
      if b ≠ 0 then s else (s.modModes (fun m => { m with entering := true })).enterNow
  | 3 => s.trigger 5
  | _ => s

/-- A park request that waited for the end of a hand-over (R476). -/
def State.latePark (s : State) : State :=
  if s.modes.parkWaits && !s.flag Reg.PRC_MODE.HANDOVER then
    let s := s.modModes (fun m => { m with parkWaits := false })
    if s.inDrive then s.park else s
  else s

/-! ### Pins and wake events (R472, R473, R476, R479) -/

/-- The sample of the wake that ended the last stay in PARKED is not over: 125/6 ns of the sentinel's clock (R479). (DEDUCED: log 177) -/
def State.inWakeSample (s : State) : Bool :=
  let woke := s.modes.parkedAt + ofNs (s.rd64 Reg.SNT_PARK_LO)
  s.modes.wake != 0 && decide (woke ≤ s.now ∧ 6 * (s.now - woke) < ofNs 125)

/-- SNT_WAKE.CAUSE takes a further event of the sample of a wake (R479). (DEDUCED: log 177) -/
def State.alsoCause (s : State) (bit : Nat) : State :=
  if s.inWakeSample then s.setFld Reg.SNT_WAKE.CAUSE (s.fld Reg.SNT_WAKE.CAUSE ||| 2 ^ bit) else s

/-- A vehicle wake event: a wake from PARKED, another event of the sample of a wake, an upgrade of a proof or depot wake, or a trigger. -/
def State.vehicleWake (s : State) (bit : Nat) : State :=
  if !s.operates then s
  else if s.inParked then s.wakeUp (2 ^ bit) 1
  else
    let s := if s.modes.wake = 2 ∨ s.modes.wake = 3 then
        let s := s.setFld Reg.SNT_WAKE.CAUSE (s.fld Reg.SNT_WAKE.CAUSE ||| 2 ^ bit)
        s.modModes (fun m => { m with proofDue := m.proofDue || m.wake == 2, wake := 1 })
      else s.alsoCause bit
    s.trigger 1

/-- WAKE_N: held low for 1 ms while the sentinel does not drive it. -/
def execWakeN (s : State) : Host.Outcome State Fault Refusal :=
  .next (if s.modes.wakeAt.isSome || !s.flag Reg.SNT_CTL.PIN_EN then s else s.vehicleWake 0)

/-- CAN_WAKE. -/
def execCanWake (s : State) : Host.Outcome State Fault Refusal :=
  .next (if s.flag Reg.SNT_CTL.CANW_EN then s.vehicleWake 1 else s)

/-- Wake the vehicle, not the module: WAKE_n for 50 ms, and PCIE_WAKE_n while PCIE_PERST_n is low (R473, R480). -/
def State.wakeVehicle (s : State) (bit : Nat) : State :=
  let s := s.setFld Reg.SNT_WAKE.CAUSE (2 ^ bit)
  let s := if s.flag Reg.SNT_CTL.VEH_WAKE && s.modes.wakeAt.isNone then
      ((s.modModes (fun m => { m with wakeAt := some s.sntNow })).count Reg.SNT_WAKE.VEH_WAKES 1).send (.pin 0 false)
    else s
  if s.flag Reg.SNT_CTL.PCIE_WAKE && !s.modes.perst && s.modes.pcieWakeAt.isNone then
    (s.modModes (fun m => { m with pcieWakeAt := some s.sntNow })).send (.pin 1 false)
  else s

/-- CAMERA_SAMPLE: the mean absolute difference from the background is the operand. -/
def execCameraSample (difference : Nat) (s : State) : Host.Outcome State Fault Refusal :=
  .next (if !s.inParked || !s.operates || !s.flag Reg.SNT_CTL.CAM_EN then s
    else
      let s := s.sntEvery 5 (1000000000 * s.fld Reg.SNT_CAM_CFG.PERIOD_S)
      if s.fld Reg.SNT_CAM_CFG.THRESH < difference && s.supplyOk then s.wakeVehicle 5 else s)

/-- ACCEL_SAMPLE: the magnitude less that at PARKED entry is the operand; two consecutive samples above the threshold count. -/
def execAccelSample (mg : Nat) (s : State) : Host.Outcome State Fault Refusal :=
  .next (if !s.inParked || !s.operates || !s.flag Reg.SNT_CTL.ACC_EN then s
    else
      let s := s.sntEvery 6 (1000000000 / s.fld Reg.SNT_ACC_CFG.RATE_HZ)
      if mg ≤ s.fld Reg.SNT_ACC_CFG.THRESH_MG then s.modModes (fun m => { m with accHits := 0 })
      else
        let s := s.modModes (fun m => { m with accHits := m.accHits + 1 })
        if 2 ≤ s.modes.accHits && s.supplyOk then s.wakeVehicle 6 else s)

/-- SUPPLY_SAMPLE: every 10 ms in PARKED; PARK_OK and SHORE_PWR high make a depot wake where it is allowed, and a proof timer that the supply held
back makes its wake once the supply allows it. (DEDUCED: log 139, 140) -/
def execSupplySample (x : Sensors) (parkOk shorePwr : Bool) (s : State) : Host.Outcome State Fault Refusal :=
  .next (if !s.inParked || !s.operates then s
    else
      let s := ((s.sntEvery 4 10000000).takeSensors x).modModes (fun m => { m with parkOk := parkOk, shorePwr := shorePwr })
      let depot := parkOk && shorePwr && s.flag Reg.SNT_CTL.DEPOT_WAKE && s.flag Reg.PRC_MODE.DEPOT_EN
      let proof := s.modes.proofDue && s.flag Reg.SNT_CTL.PROOF_EN
      if !s.supplyOk then s
      else if depot then s.wakeUp (16 + 8 * ofBool proof) 3
      else if proof then (s.modModes (fun m => { m with proofDue := false })).wakeUp 8 2
      else s)

/-- PROOF_TIMER: a proof wake from PARKED; otherwise the set is overdue until the next PARKED entry. (DEDUCED: log 139, 140) -/
def execProofTimer (s : State) : Host.Outcome State Fault Refusal :=
  .next (if !s.operates then s
    else if s.inParked && s.flag Reg.SNT_CTL.PROOF_EN && s.supplyOk then s.wakeUp 8 2
    else (if s.flag Reg.SNT_CTL.PROOF_EN && s.supplyOk then s.alsoCause 3 else s).modModes (fun m => { m with proofDue := true }))

/-- PARK_OK_CHANGE: a low level is a trigger. -/
def execParkOkChange (level : Bool) (s : State) : Host.Outcome State Fault Refusal :=
  .next (
    let s := s.modModes (fun m => { m with parkOk := level })
    if level || !s.operates then s else s.trigger 2)

/-- SHORE_PWR_CHANGE: a low level is a trigger. -/
def execShorePwrChange (level : Bool) (s : State) : Host.Outcome State Fault Refusal :=
  .next (
    let s := s.modModes (fun m => { m with shorePwr := level })
    if level || !s.operates then s else s.trigger 4)

/-- The sentinel releases PCIE_WAKE_n (R480). -/
def State.releasePcieWake (s : State) : State :=
  if s.modes.pcieWakeAt.isSome then (s.modModes (fun m => { m with pcieWakeAt := none })).send (.pin 1 true) else s

/-- PCIE_WAKE_TIMEOUT: 100 ms after the assertion. -/
def execPcieWakeTimeout (s : State) : Host.Outcome State Fault Refusal :=
  .next (match s.modes.pcieWakeAt with
    | none => s
    | some t => (s.sntReach (t + 100000000)).releasePcieWake)

/-- WAKE_PULSE_END: the 50 ms pulse is over. -/
def execWakePulseEnd (s : State) : Host.Outcome State Fault Refusal :=
  .next (match s.modes.wakeAt with
    | none => s
    | some t => (s.sntReach (t + 50000000)).releaseWakeN)

/-- COOL_REQ_TIMER (R499): 30 s after PARKED entry. -/
def execCoolReqTimer (s : State) : Host.Outcome State Fault Refusal :=
  .next (if !s.inParked || !s.operates || !s.modes.coolReq then s else (s.sntReach (s.parkedNs + 30000000000)).coolReq false)

/-! ### Pool scrub (R477) -/

/-- POOL_SCRUB_COMPLETE: the last unit is written. -/
def execPoolScrubComplete (s : State) : Host.Outcome State Fault Refusal :=
  .next (if !s.flag Reg.PRC_MODE.POOL_SCRUB then s
    else
      let s := s.zeroRange s.poolBase (s.usableTop - s.poolBase)
      (s.setFld Reg.PRC_MODE.POOL_DIRTY 0).setFld Reg.PRC_MODE.POOL_SCRUB 0)

/-! ### Power and supplies (R470, R497) -/

/-- Cap of the mode (R470). -/
def State.capNow (s : State) : Nat :=
  match s.mode with
  | 2 => s.depotCap
  | 3 => 25
  | _ => s.fld Reg.PRC_CAP.DRIVE_W

/-- POWER_SAMPLE (R470): every 100 µs. In DRIVE ten consecutive samples above the cap count once; in DEPOT an interval above it is throttled. (DESIGN CHOICE: log 7; DEDUCED: log 143) -/
def execPowerSample (x : Sensors) (s : State) : Host.Outcome State Fault Refusal :=
  .next (if !s.operates || s.inParked then s
    else
      let s := (s.every 3 100000).takeSensors x
      let cap := s.capNow
      let s := s.setFld Reg.PRC_THERMAL.CAP_W cap
      let above := decide (10 * cap < x.inW)
      if s.inDrive then
        let n := if above then s.modes.overs + 1 else 0
        if n < 10 then s.modModes (fun m => { m with overs := n })
        else ((s.modModes (fun m => { m with overs := 0 })).count Reg.PRC_OVER.DRIVE_OVER_CNT 1).evrExtreme 4 true x.inW
      else if s.inDepot && above then s.count Reg.PRC_OVER.THROTTLE_CNT 1
      else s)

/-- SUPPLY_MONITOR_TRIP (R497): group 0x53, class F. The monitors run in every state but PARKED, monitor 7 in DEPOT only. (DEDUCED: log 145) -/
def execSupplyMonitorTrip (monitor : Byte) (s : State) : Host.Outcome State Fault Refusal :=
  .next (if !s.operates || s.inParked || 7 < monitor.toNat || (monitor.toNat == 7 && !s.inDepot) then s
    else s.fault 0x53 monitor.toNat false none none)

/-! ### No command -/

/-- An empty queue: one comparison cycle of device time, or one cycle of the sentinel in PARKED; Ember's copy is made. (DESIGN CHOICE: log 1, 149) -/
def State.idle (s : State) : State :=
  if !s.operates then s
  else if s.inParked then s.modModes (fun m => { m with sentinel := m.sentinel + 1 })
  else s.publishEmber.tick

end Sys2Proof.Machine
end

