-- ==== Sys2Proof/Machine/Bus.lean ====
section
/-! DEFINITION. Accesses to the register window and the doorbell pages from outside: who may, what width, what they do (R13 to R19, R34, R38, R387). -/

namespace Sys2Proof.Machine

/-- A keyed reset request (R415, R483): SYS comes first. -/
def State.resetWritten (s : State) (v : Nat) : State :=
  if bits v 8 8 ≠ 0xC3 then s
  else if bitAt v 1 then s.sysReset 4 2
  else if bitAt v 0 then s.computeReset 0 4
  else s

/-- Registers of the mode logic (R483). -/
def State.hookPrc (s : State) (w : Wrote) : State :=
  let o := w.h.desc.off
  if o = 0x10 then (if bits w.eff 0 2 = 0 then s else s.modeRequest (bits w.eff 0 2))
  else if o = 0x14 then s.resetWritten w.eff
  else if o = 0x28 then s.hookBoot w
  else s

/-- Everything a write does besides the value it leaves. -/
def State.hook (s before : State) (w : Wrote) : State :=
  if w.h.blk = .prc then s.hookPrc w
  else
    let s := s.hookBasic before w
    match w.h.blk with
    | .tim => s.enterNow
    | .sfi => s.latePark
    | _ => s

/-- Code of SOURCE in a report record (R18). -/
def sourceOf : Party → Nat
  | .narultil _ => 2
  | _ => 0

/-- A write that reaches a register. -/
def State.writeWord (s : State) (a value source : Nat) : State :=
  match s.regWrite a (value % 2 ^ 32) source none with
  | (s', some (h, old, eff)) => s'.hook s ⟨h, old, eff, value % 2 ^ 32⟩
  | (s', none) => s'

/-- An address of the register window (R33). -/
def inRegs (a : Nat) : Bool := regBase ≤ a && a ≤ regTop

/-- A store of a party to an address outside the register window: to a memory, or a decode error (R33, R34). J4 makes register accesses
only (R383). (DESIGN CHOICE: log 12, 151) -/
def State.memStore (s : State) (who : Party) (a size value : Nat) : State :=
  match who with
  | .jtag => s.chargeErr (s.partyReq who) a .decode
  | _ => (s.write (s.partyReq who) a (leBytes size value)).1

/-- A load of a party from an address outside the register window (R33, R34). A Hearth core that loads a poisoned unit takes the access fault
of R403 and gets no data; another reader gets the data with its mark. (DESIGN CHOICE: log 12, 151) -/
def State.memLoad (s : State) (who : Party) (a size : Nat) : State :=
  let (s, r) := match who with
    | .jtag => let (s, bs) := (s.chargeErr (s.partyReq who) a .decode).freeBytes size
      (s, (⟨bs, true, some .decode⟩ : Rd))
    | _ => s.read (s.partyReq who) a size
  match who with
  | .hearth k =>
    if r.poison then (if r.err.isNone then s.fault 0x25 k false (some 0) (some (0x58 + k)) a else s)
    else s.send (.memData a [⟨r.bytes, false⟩])
  | _ => s.send (.memData a [⟨r.bytes, r.poison⟩])

/-- A write by a party, of a width in bytes. Without power, and in reset, nothing answers, nor to the gate outside DEPOT; in PARKED a doorbell is latched and nothing else
is reached (R296, R471). (DESIGN CHOICE: log 12; DEDUCED: log 127, 176) -/
def State.busWrite (s : State) (who : Party) (a size value : Nat) : State :=
  if !s.partyOn who then s
  else if !inRegs a then (if s.inParked then s else s.memStore who a size value)
  else if !s.windowAllows who a true then (if s.inParked then s else s.refuseReg who a true)
  else if size ≠ 4 ∨ a % 4 ≠ 0 then s
  else
    match doorbellAt a with
    | some (c, off) => s.doorbellWrite c off (value % 2 ^ 32)
    | none => if s.inParked then s else s.writeWord a value (sourceOf who)

/-- A read of the register window by a party: the state and the word. (DESIGN CHOICE: log 12; DEDUCED: log 127, 176) -/
def State.busRead (s : State) (who : Party) (a size : Nat) : State × Word :=
  if !s.partyOn who || s.inParked then (s, 0)
  else if !s.windowAllows who a false then (s.refuseReg who a false, 0)
  else if size ≠ 4 ∨ a % 4 ≠ 0 then (s, 0)
  else
    match doorbellAt a with
    | some (c, off) => (s, s.doorbellRead c off)
    | none => s.fullRead a

/-- A read by a party, whose word goes back to it: of the window, where a party that R34 keeps out gets poisoned data, or of a memory. -/
def State.readOut (s : State) (who : Party) (a size : Nat) : State :=
  let live := s.partyOn who && !s.inParked
  if live && !inRegs a then s.memLoad who a size
  else if live && partyOutside who && !s.windowAllows who a false then
    let (s, bs) := (s.refuseReg who a false).freeBytes size
    s.send (.memData a [⟨bs, true⟩])
  else
    let (s, v) := s.busRead who a size
    s.send (.readData a v)

/-- The field of a register that holds the bits a reference names; one that ignores writes where there is none. -/
def RegHit.field (h : RegHit) (f : FRef) : FieldDesc :=
  (h.desc.fields.find? (fun d => d.lsb ≤ f.lsb && f.lsb + f.width ≤ d.lsb + d.width)).getD ⟨0, 0, .ro, .val 0, .any⟩

/-- A write that reaches one field of a register of one word. -/
def State.writeOne (s : State) (f : FRef) (v source : Nat) : State :=
  match s.liveReg f.addr with
  | none => s
  | some h =>
    let word := putBits 0 f.lsb f.width v
    let (s', eff) := s.writeFields h f.addr word source none [h.field f]
    s'.hook s ⟨h, (s.rd f.addr).toNat, eff, word⟩

/-- A party writes one field of a register: every other field keeps its value and has no effect. (DESIGN CHOICE: log 172) -/
def State.poke (s : State) (who : Party) (f : FRef) (v : Nat) : State :=
  if !s.partyOn who || (s.inParked && s.windowAllows who f.addr true) then s
  else if !s.windowAllows who f.addr true then (if s.inParked then s else s.refuseReg who f.addr true)
  else s.writeOne f v (sourceOf who)

/-- COMPUTE_RESET_RELEASE (R416): the compute domain leaves reset; a hand-over that the reset met ends with it (R478). -/
def execComputeResetRelease (s : State) : Host.Outcome State Fault Refusal :=
  .next (if !s.flag Reg.PCI_STATUS.COMPUTE_RESET || s.outOfService then s else s.computeRelease.latePark)

end Sys2Proof.Machine
end

