-- ==== Sys2Proof/Machine/Commands.lean ====
section
/-! DEFINITION. The commands that are an access to one register: each makes it at the register's address, as the party that sends it. -/

namespace Sys2Proof.Machine

/-! ### Any register (R13 to R19) -/

/-- REGISTER_WRITE (R13, R14, R17). -/
def execRegisterWrite (who : Party) (addr size value : Nat) (s : State) : Host.Outcome State Fault Refusal :=
  .next (s.busWrite who addr size value)

/-- PAIR_LO_READ (R16): the read of a register, whose `_HI` word a `_LO` captures. -/
def execPairLoRead (who : Party) (addr size : Nat) (s : State) : Host.Outcome State Fault Refusal :=
  .next (s.readOut who addr size)

/-- TOP_LOCK_SET (R481). -/
def execTopLockSet (who : Party) (s : State) : Host.Outcome State Fault Refusal :=
  .next (s.poke who Reg.TOP_LOCK.LOCK 1)

/-- KEY_SLOT_REVOKE (R481). -/
def execKeySlotRevoke (who : Party) (slots : BitVec 4) (s : State) : Host.Outcome State Fault Refusal :=
  .next (s.poke who Reg.TOP_SEC.REVOKED slots.toNat)

/-! ### Strikes (R339, R342) -/

/-- STRIKE_RUN_START (R339). -/
def execStrikeRunStart (who : Party) (s : State) : Host.Outcome State Fault Refusal :=
  .next (s.poke who Reg.TIM_STRIKE_CTL.RUN 1)

/-- STRIKE_RUN_STOP (R342). -/
def execStrikeRunStop (who : Party) (s : State) : Host.Outcome State Fault Refusal :=
  .next (s.poke who Reg.TIM_STRIKE_CTL.RUN 0)

/-! ### Contexts and interrupts (R296, R320 to R323) -/

/-- CTX_ENABLE (R296). -/
def execCtxEnable (who : Party) (c : Fin 16) (value : Bool) (s : State) : Host.Outcome State Fault Refusal :=
  .next (s.poke who (Reg.HRT_CTX_CTL.ENABLE c) (ofBool value))

/-- TEARDOWN (R323). -/
def execTeardown (who : Party) (c : Fin 16) (s : State) : Host.Outcome State Fault Refusal :=
  .next (s.poke who (Reg.HRT_CTX_CTL.TEARDOWN c) 1)

/-- SCRUB_DONE (R323). -/
def execScrubDone (who : Party) (c : Fin 16) (s : State) : Host.Outcome State Fault Refusal :=
  .next (s.poke who (Reg.HRT_CTX_CTL.SCRUB_DONE c) 1)

/-- HIC_CLAIM (R321). -/
def execHicClaim (who : Party) (core : Fin 8) (s : State) : Host.Outcome State Fault Refusal :=
  .next (s.readOut who (Reg.HIC_CLAIM core) 4)

/-- HIC_COMPLETE (R322). -/
def execHicComplete (who : Party) (core : Fin 8) (source : BitVec 9) (s : State) : Host.Outcome State Fault Refusal :=
  .next (s.poke who ⟨Reg.HIC_COMPLETE core, 0, 9⟩ source.toNat)

/-- HIC_XCOMPLETE (R322). -/
def execHicXcomplete (who : Party) (source : BitVec 9) (s : State) : Host.Outcome State Fault Refusal :=
  .next (s.poke who ⟨Reg.HIC_XCOMPLETE, 0, 9⟩ source.toNat)

/-- HIC_SET (R320). -/
def execHicSet (who : Party) (source : BitVec 9) (s : State) : Host.Outcome State Fault Refusal :=
  .next (s.poke who ⟨Reg.HIC_SET, 0, 9⟩ source.toNat)

/-! ### Compute units (R88, R96, R163, R200, R231, R266, R412, R414) -/

/-- SOFT_RESET (R414). -/
def execSoftReset (who : Party) (u : Fin 78) (s : State) : Host.Outcome State Fault Refusal :=
  .next (s.poke who ⟨unitBase u + 0x10, 11, 1⟩ 1)

/-- FENCE bit of what can be fenced by a write; a Hearth core has none. (DEDUCED: log 144) -/
def fenceField : FenceUnit → Option FRef
  | .unit u => some (unitFence u)
  | .camera c => some (Reg.BLW_CAM_CTL.FENCE c)
  | .point j => some (Reg.BLW_PT_CTL.FENCE j)
  | .core _ => none

/-- UNIT_FENCE (R412, cause 1). (DEDUCED: log 144) -/
def execUnitFence (who : Party) (w : FenceUnit) (s : State) : Host.Outcome State Fault Refusal :=
  .next (match fenceField w with | some f => s.poke who f 1 | none => s)

/-- PAIR_REQUEST (R96). -/
def execPairRequest (who : Party) (u : Fin 78) (req : Bool) (s : State) : Host.Outcome State Fault Refusal :=
  .next (s.poke who (unitPairReq u) (ofBool req))

/-- RESIDUE_INJECT (R88, R195, R219). -/
def execResidueInject (who : Party) (u : Fin 78) (s : State) : Host.Outcome State Fault Refusal :=
  .next (s.poke who ⟨unitBase u + 0x40, 8, 1⟩ 1)

/-- INJ_PRO (R163). -/
def execInjPro (who : Party) (n : Fin 64) (s : State) : Host.Outcome State Fault Refusal :=
  .next (s.poke who (Reg.ANV_FUS_CTL.INJ_PRO n) 1)

/-- INJ_EPI (R163). -/
def execInjEpi (who : Party) (n : Fin 64) (s : State) : Host.Outcome State Fault Refusal :=
  .next (s.poke who (Reg.ANV_FUS_CTL.INJ_EPI n) 1)

/-- INJ_ROPE (R200). -/
def execInjRope (who : Party) (p : Fin 4) (s : State) : Host.Outcome State Fault Refusal :=
  .next (s.poke who (Reg.DRW_DUP_CTL.INJ_ROPE p) 1)

/-- INJ_OUT (R200). -/
def execInjOut (who : Party) (p : Fin 4) (s : State) : Host.Outcome State Fault Refusal :=
  .next (s.poke who (Reg.DRW_DUP_CTL.INJ_OUT p) 1)

/-- INJ_A (R231): Swages 0 to 7, then the two post-processing units. -/
def execInjA (who : Party) (u : Fin 10) (s : State) : Host.Outcome State Fault Refusal :=
  .next (s.poke who ⟨unitBase (68 + u) + 0xA0, 0, 1⟩ 1)

/-- INJ_B (R231). -/
def execInjB (who : Party) (u : Fin 2) (s : State) : Host.Outcome State Fault Refusal :=
  .next (s.poke who (Reg.PPU_DUP.INJ_B u) 1)

/-- BS_ECC_INJECT (R266). -/
def execBsEccInject (who : Party) (n : Fin 64) (s : State) : Host.Outcome State Fault Refusal :=
  .next (s.poke who (Reg.ANV_BS_ECC.INJECT n) 1)

/-! ### Memories and movers (R263, R267 to R269, R286) -/

/-- CRU_INJECT (R267). -/
def execCruInject (who : Party) (s : State) : Host.Outcome State Fault Refusal :=
  .next (s.poke who Reg.CRU_CTL.INJECT 1)

/-- MEM_CE_INJECT (R268). -/
def execMemCeInject (who : Party) (ch : Fin 8) (s : State) : Host.Outcome State Fault Refusal :=
  .next (s.poke who (Reg.MEM_CH_INJECT.CE ch) 1)

/-- MEM_UE_INJECT (R268). -/
def execMemUeInject (who : Party) (ch : Fin 8) (s : State) : Host.Outcome State Fault Refusal :=
  .next (s.poke who (Reg.MEM_CH_INJECT.UE ch) 1)

/-- TONGS_TAIL_WRITE (R269). -/
def execTongsTailWrite (who : Party) (ch : Fin 32) (tail : BitVec 16) (s : State) : Host.Outcome State Fault Refusal :=
  .next (s.poke who (Reg.TNG_CH_TAIL.TAIL ch) tail.toNat)

/-- TONGS_ABORT (R263). -/
def execTongsAbort (who : Party) (ch : Fin 32) (s : State) : Host.Outcome State Fault Refusal :=
  .next (s.poke who (Reg.TNG_CH_CTL.ABORT ch) 1)

/-- RECORD_TAIL_WRITE (R286). -/
def execRecordTailWrite (who : Party) (r : Fin 4) (tail : BitVec 16) (s : State) : Host.Outcome State Fault Refusal :=
  .next (s.poke who (Reg.BLW_REC_TAIL.TAIL r) tail.toNat)

/-- RECORD_ABORT (R286). -/
def execRecordAbort (who : Party) (r : Fin 4) (s : State) : Host.Outcome State Fault Refusal :=
  .next (s.poke who (Reg.BLW_REC_CTL.ABORT r) 1)

/-! ### Safety and faults (R363, R365, R390, R398, R400, R401, R409, R412) -/

/-- COMPARATOR_SELFTEST (R363). -/
def execComparatorSelftest (who : Party) (s : State) : Host.Outcome State Fault Refusal :=
  .next (s.poke who Reg.SFI_CMP_CTL.ST_RUN 1)

/-- COMPARATOR_INJECT (R365): into the slot that INJ_SLOT names. -/
def execComparatorInject (who : Party) (s : State) : Host.Outcome State Fault Refusal :=
  .next (s.poke who Reg.SFI_CMP_CTL.INJ 1)

/-- ARM (R390). -/
def execArm (who : Party) (s : State) : Host.Outcome State Fault Refusal :=
  .next (s.poke who Reg.SFI_CTL.ARM 1)

/-- FCL_CLEAR_FIRST (R401). -/
def execFclClearFirst (who : Party) (s : State) : Host.Outcome State Fault Refusal :=
  .next (s.poke who Reg.FCL_CLEAR.FIRST 1)

/-- FCL_INJECT (R398). -/
def execFclInject (who : Party) (cls : Fin 4) (ctx : Fin 16) (inst : Byte) (s : State) : Host.Outcome State Fault Refusal :=
  .next (s.busWrite who Reg.FCL_INJECT 4 (cls.val * 2 ^ 30 + ctx.val * 2 ^ 16 + inst.toNat))

/-- FCL_CTX_N_CLEAR (R400). -/
def execFclCtxNClear (who : Party) (c : Fin 16) (s : State) : Host.Outcome State Fault Refusal :=
  .next (s.poke who (Reg.FCL_CTX_N.VALID c) 1)

/-- HANG_KICK (R409). -/
def execHangKick (who : Party) (cores : BitVec 8) (s : State) : Host.Outcome State Fault Refusal :=
  .next (s.poke who Reg.FCL_HANG_KICK.CORE cores.toNat)

/-- Unit code of what can be fenced (R383). -/
def fenceUnitCode : FenceUnit → Nat
  | .unit u => unitCode u
  | .camera c => 0xA0 + c.val
  | .point j => 0xB0 + j.val
  | .core k => 0x58 + k.val

/-- FENCE_LIST_ADD (R412). -/
def execFenceListAdd (who : Party) (w : FenceUnit) (s : State) : Host.Outcome State Fault Refusal :=
  .next (match fenceBit (fenceUnitCode w) with | some f => s.poke who f 1 | none => s)

/-- FENCE_LIST_CLEAR (R412): the same bit of FCL_FENCE_CLR. -/
def execFenceListClear (who : Party) (w : FenceUnit) (s : State) : Host.Outcome State Fault Refusal :=
  .next (match fenceBit (fenceUnitCode w) with | some f => s.poke who ⟨f.addr + 0x40, f.lsb, 1⟩ 1 | none => s)

/-! ### Recovery (R415, R418, R421, R422, R424, R426 to R428) -/

/-- PRC_RESET_COMPUTE (R416). -/
def execPrcResetCompute (who : Party) (key : Byte) (s : State) : Host.Outcome State Fault Refusal :=
  .next (s.busWrite who Reg.PRC_RESET 4 (key.toNat * 256 + 1))

/-- PRC_RESET_SYS (R414). -/
def execPrcResetSys (who : Party) (key : Byte) (s : State) : Host.Outcome State Fault Refusal :=
  .next (s.busWrite who Reg.PRC_RESET 4 (key.toNat * 256 + 2))

/-- SNP_DUMP_START (R418). -/
def execSnpDumpStart (who : Party) (s : State) : Host.Outcome State Fault Refusal :=
  .next (s.poke who Reg.SNP_DUMP.START 1)

/-- SNP_TRIGGER (R421). -/
def execSnpTrigger (who : Party) (s : State) : Host.Outcome State Fault Refusal :=
  .next (s.poke who Reg.SNP_CTL.TRIGGER 1)

/-- FCL_LOG_WINDOW_READ (R426). -/
def execFclLogWindowRead (who : Party) (s : State) : Host.Outcome State Fault Refusal :=
  .next (s.readOut who Reg.FCL_LOG_WINDOW 4)

/-- EVR_WINDOW_READ (R427). -/
def execEvrWindowRead (who : Party) (s : State) : Host.Outcome State Fault Refusal :=
  .next (s.readOut who Reg.EVR_WINDOW 4)

/-- SNP_WINDOW_READ (R428). -/
def execSnpWindowRead (who : Party) (s : State) : Host.Outcome State Fault Refusal :=
  .next (s.readOut who Reg.SNP_WINDOW 4)

/-- EVR_COMMIT (R422). -/
def execEvrCommit (who : Party) (s : State) : Host.Outcome State Fault Refusal :=
  .next (s.poke who Reg.EVR_CTL.COMMIT 1)

/-- EVR_CLEAR (R424). -/
def execEvrClear (who : Party) (s : State) : Host.Outcome State Fault Refusal :=
  .next (s.poke who Reg.EVR_CTL.CLEAR 1)

/-! ### Links, gate, boot record, modes (R430, R460, R465, R471, R475 to R477) -/

/-- LINK_TRAIN (R430): by ENABLE, or by RETRAIN. -/
def execLinkTrain (who : Party) (q : Fin 4) (retrain : Bool) (s : State) : Host.Outcome State Fault Refusal :=
  .next (s.poke who (if retrain then Reg.NLK_PORT_CTL.RETRAIN q else Reg.NLK_PORT_CTL.ENABLE q) 1)

/-- TENANT_KEY_WRITE (R460): word k of tenant t's key; context 0 has none. -/
def execTenantKeyWrite (who : Party) (t : Fin 16) (k : Fin 8) (word : Word) (s : State) : Host.Outcome State Fault Refusal :=
  .next (if t.val = 0 then s else s.poke who ⟨Reg.DGT_TEN_KEY0 (t.val - 1) + 4 * k.val, 0, 32⟩ word.toNat)

/-- BOOT_CONFIRM (R465). -/
def execBootConfirm (who : Party) (s : State) : Host.Outcome State Fault Refusal :=
  .next (s.poke who Reg.PRC_BOOT.CONFIRM 1)

/-- BOOT_PENDING (R465). -/
def execBootPending (who : Party) (slotB : Bool) (s : State) : Host.Outcome State Fault Refusal :=
  .next (s.poke who (if slotB then Reg.PRC_BOOT.PENDING_B else Reg.PRC_BOOT.PENDING_A) 1)

/-- PARK_REQUEST (R471). -/
def execParkRequest (who : Party) (s : State) : Host.Outcome State Fault Refusal :=
  .next (s.poke who Reg.PRC_MODE.REQ 1)

/-- DEPOT_REQUEST (R475). -/
def execDepotRequest (who : Party) (s : State) : Host.Outcome State Fault Refusal :=
  .next (s.poke who Reg.PRC_MODE.REQ 2)

/-- LEAVE_DEPOT_REQUEST (R476). -/
def execLeaveDepotRequest (who : Party) (s : State) : Host.Outcome State Fault Refusal :=
  .next (s.poke who Reg.PRC_MODE.REQ 3)

/-- POOL_SCRUB (R477). -/
def execPoolScrub (who : Party) (s : State) : Host.Outcome State Fault Refusal :=
  .next (s.poke who Reg.PRC_MODE.POOL_SCRUB 1)

end Sys2Proof.Machine
end

