-- ==== Sys2Proof/Machine/Blocks.lean ====
section
/-! DEFINITION. What Draw pipes, Swages and post-processing units share: reads that may fail or bring poison, blocks, rounded FP32 helpers,
outputs, duplicated units, and their counters (R104, R180, R184, R186, R196, R204, R227, R228, R242). -/

namespace Sys2Proof.Machine

/-! ### Reads -/

/-- Reads of one instruction: the state so far, whether a read brought poison, and whether one ended in a decode or generation error. -/
structure Pull where
  s : State
  poison : Bool
  stop : Bool

/-- Read bytes under the unit's stream identifier. (DEDUCED: log 44) -/
def Pull.read (p : Pull) (u a len : Nat) : Pull × List Byte :=
  let (s, r) := p.s.read (p.s.unitReq u) a len
  (⟨s, p.poison || r.poison, p.stop || r.err == some .decode || r.err == some .generation⟩, r.bytes)

/-- Read several rows of one length. -/
def Pull.rows (p : Pull) (u len : Nat) (addrs : List Nat) : Pull × List (List Byte) :=
  addrs.foldl (fun (acc : Pull × List (List Byte)) a =>
    let (p, b) := acc.1.read u a len
    (p, acc.2 ++ [b])) (p, [])

/-- Element codes of a packed row of bytes (R45). -/
def codesOf (f n : Nat) (bs : List Byte) : List Nat :=
  if fmtBits f = 4 then (List.range n).map (fun i => bits (fieldAt bs (i / 2) 1) (4 * (i % 2)) 4)
  else (List.range n).map (fun i => fieldAt bs (i * (fmtBits f / 8)) (fmtBits f / 8))

/-- The values of a packed row. -/
def valuesOf (f n : Nat) (bs : List Byte) : List Num := (codesOf f n bs).map (decode f)

/-! ### Instructions and blocks (R184, R204) -/

/-- BLOCK: a 40-bit address. -/
def blockAddr (d : Ins) : Nat := insA d 8

/-- RSVD bits of the instruction; `flags` is what byte 2 may hold. -/
def blockGrowth (d : Ins) (flags : Nat) : Bool := (insB d 2 ||| flags) != flags || !zeroAt d 3 5 || !zeroAt d 13 19

/-- Bytes a Swage may reach (R202): no fetch region of a Draw pipe, no Ember memory. -/
def swageOk (a len : Nat) : Bool :=
  boundsSpan a len && !meets [(a, a + len)] (((List.range 4).map (fun p => (0x2200000000 + p * 0x200000 + 0x1C0000, 0x2200000000 + p * 0x200000 + 0x200000)))
    ++ [(0x2202000000, 0x2202400000)])

/-- Where a unit's blocks may lie (R202, R508). -/
def blockSpan (u a len : Nat) : Bool := if 68 ≤ u ∧ u < 76 then swageOk a len else boundsSpan a len

/-- Reasons of the instruction word itself. -/
def blockWord (u : Nat) (d : Ins) (flags : Nat) : List Nat :=
  why (blockGrowth d flags) 0x03 ++ why (!blockSpan u (blockAddr d) 128) 0x12 ++ why (blockAddr d % 64 != 0) 0x13

/-- An 8-byte address field: bits [39:0], and whether bits [63:40] are zero. -/
def blkAddr (b : List Byte) (i : Nat) : Nat := fieldAt b i 5
def blkHigh (b : List Byte) (i : Nat) : Bool := fieldAt b (i + 5) 3 != 0

/-- VERSION, KIND and GROW of a block. (DEDUCED: log 43) -/
def blockHead (b : List Byte) (kind : Nat) : List Nat :=
  why (fieldAt b 0 1 != 1) 0x01 ++ why (fieldAt b 1 1 != kind) 0x02 ++ why (!zeroAt b 96 32) 0x03

/-- Fetch the block, unless its address is refused. -/
def State.blockFetch (s : State) (u : Nat) (d : Ins) : Pull × List Byte :=
  if blockAddr d % 64 = 0 && blockSpan u (blockAddr d) 128 then (Pull.mk s false false).read u (blockAddr d) 128
  else (⟨s, false, false⟩, [])

/-- Whether the configuration rules apply: PAIRED or SUPERVISED work outside the golden list. (DEDUCED: log 45) -/
def State.safetyWork (s : State) (u : Nat) : Bool := (s.unit u).safety && !(s.unit u).goldRun

/-! ### FP32 helpers -/

/-- Larger and smaller of two values; NaN if either is, the first when they compare equal. -/
def fmax (a b : Nat) : Nat := if fnan a || fnan b then fNan else if flt a b then b else a
def fmin (a b : Nat) : Nat := if fnan a || fnan b then fNan else if flt b a then b else a

/-- Smallest integral value not below x. -/
def fceil (x : Nat) : Nat :=
  match f32 x with
  | .fin neg m e => toF32 (.fin neg (Num.round 4 (.fin neg m e)).natAbs 0)
  | v => toF32 v

/-- ldexp_rne of R168: zero of x's sign below −300; special values follow IEEE 754. -/
def fscale (x : Nat) (k : Int) : Nat :=
  match f32 x with
  | .fin neg m e => if k < -300 then toF32 (.fin neg 0 0) else toF32 (.fin neg m (e + k))
  | v => toF32 v

/-- An integral FP32 value as an integer; an infinite one as a value beyond every exponent. -/
def fint (x : Nat) : Int :=
  match f32 x with
  | .inf neg => if neg then -1000 else 1000
  | v => v.round 2

/-- sum64 of R210: balanced trees over chunks of 64, added in ascending order to an accumulator that starts at +0. -/
def sum64 (l : List Nat) : Nat :=
  (List.range (ceilDiv l.length 64)).foldl (fun acc c =>
    fadd acc (treeSum 6 ((List.range 64).map (fun i => l.getD (64 * c + i) 0)))) 0

/-- A whole number in FP32. -/
def fnat (n : Nat) : Nat := toF32 (.ofInt n)

/-! ### Outputs -/

/-- Write bytes under the unit's stream identifier; a paired checker writes nothing outside itself (R198, R229). -/
def State.unitWrite (s : State) (u a : Nat) (bs : List Byte) (poison : Bool) : State :=
  if s.isChecker u then s else (s.write (s.unitReq u) a bs poison).1

/-- Write a row whose 32-byte units are poisoned one by one: `bad` says it of a byte offset of the row. -/
def State.unitWriteRow (s : State) (u a : Nat) (bs : List Byte) (bad : Nat → Bool) : State :=
  (unitPieces (bs.length / 32 + 2) a bs.length).foldl (fun s p =>
    s.unitWrite u p.1 ((bs.drop (p.1 - a)).take p.2) ((List.range p.2).any (fun i => bad (p.1 - a + i)))) s

/-- DUP_CNT and LAST_UNIT of a privileged unit. -/
def unitDupCnt (u : Nat) : FRef := ⟨unitBase u + 0xA0, 16, 16⟩
def unitDupLast (u : Nat) : FRef := ⟨unitBase u + 0xA0, 8, 1⟩

/-- A duplicated-unit mismatch (R196, R228): the answer says whether the element is poisoned. -/
def State.unitDup (s : State) (u last : Nat) : State × Bool :=
  let s := ((s.count (unitDupCnt u) 1).setFld (unitDupLast u) last).unitEvent u 4
  let s := if u < 68 then s.unitFault u 0x11 (u - 64) else s.unitFault u 0x19 (unitCode u)
  (s, (s.unit u).config == 2)

/-- Spend an injection on a duplicated unit, if it is armed and the unit has an element to process; a mismatch that the unit's checker has reported
concerns that element, which FREE work writes poisoned. (DEDUCED: log 46; DESIGN CHOICE: log 164) -/
def State.spendDup (s : State) (u k last : Nat) (any : Bool) : State × Bool :=
  if any && s.armedFor u (k + 3) then (s.spend u (k + 3), (s.unit u).config == 2)
  else if any && s.armedFor u k then (s.spend u k).unitDup u last else (s, false)

/-- Cycles waited: no clock is modelled, so the count is a free value. -/
def State.spendStall (s : State) (u : Nat) : State :=
  let (s, w) := s.free
  s.count (unitStall u) w

/-- CONFIG (R188, R226) beside other reasons of a first check; where it is the only one, it waits for the checks of what the instruction then reads,
which have lower codes. -/
def configLate (reasons : List Nat) (config : Bool) : List Nat := if reasons.isEmpty then [] else reasons ++ why config 0x34

/-- Outcome of an instruction whose checks gave `reasons`. A refused one has consumed what it read, its block at `addr` above all (R241, R242). -/
def Pull.check (p : Pull) (u addr : Nat) (reasons : List Nat) (go : Issue) : Issue :=
  if reasons.isEmpty then go else .refuse (p.s.eatIf u addr p.poison) reasons (p.s.pc u)

end Sys2Proof.Machine
end

