-- ==== Sys2Proof/Machine/Detect.lean ====
section
/-! DEFINITION. Reports of the detectors that stand outside the commands' own effects: what each sets in the block that owns it (R88, R89, R158, R195,
R196, R219, R228, R272, R293, R332, R364, R398, R399). -/

namespace Sys2Proof.Machine

/-- SELFTEST_FAIL of a unit with a residue plane (R100, R200, R231). -/
def unitSelftestFail (u : Nat) : FRef := ⟨unitBase u + (if u < 68 then 0x44 else 0x40), 11, 1⟩

/-- The self-test of the residue plane has failed (R89, R195, R219, R412): outside DRIVE the unit fences itself. The report of a Draw pipe or a
Swage comes under group 0x02 with its unit code. (DESIGN CHOICE: log 27) -/
def State.selftestFault (s : State) (u : Nat) : State :=
  let s := s.setFld (unitSelftestFail u) 1
  let s := if u < 64 then s.setFld (unitCheckOk u) 0 else s
  if s.inDrive then s else s.fenceUnit u 2

/-- A residue mismatch (R88, R195, R219): the element it concerns is the next one that the unit checks. (DESIGN CHOICE: log 164) -/
def State.residueSeen (s : State) (u : Nat) : State :=
  let f : FRef := if u < 64 then Reg.ANV_RES_STATUS.MISMATCH_CNT u
    else if u < 68 then Reg.DRW_RES_STATUS.MISMATCH_CNT (u - 64) else Reg.VEC_RES.MISMATCH_CNT (u - 68)
  let s := (s.count f 1).arm u 3
  if u < 64 then s.event (Reg.ANV_EVT_STATUS.RESIDUE u) u else s.unitEvent u 2

/-- A copy mismatch (R158, R196, R228): the report does not say in which of a unit's two duplicated parts, but a Swage has one. (DESIGN CHOICE: log 164) -/
def State.copySeen (s : State) (u : Nat) : State :=
  let (s, k) := s.free
  let part := if 68 ≤ u ∧ u < 76 then 0 else k % 2
  let s := s.arm u (4 + part)
  if u < 64 then (s.count (Reg.ANV_FUS_STATUS.DUP_CNT u) 1).setFld (Reg.ANV_FUS_STATUS.LAST_UNIT u) part
  else ((s.count (unitDupCnt u) 1).setFld (unitDupLast u) part).unitEvent u 4

/-- What a report also sets in the block that owns its detector. (DESIGN CHOICE: log 164) -/
def State.detector (s : State) (g i : Nat) : State :=
  match (sourceUnit g i).bind unitOfCode with
  | some u =>
    if g = 0x02 then (if u < 76 then s.selftestFault u else s)
    else if g = 0x01 ∨ g = 0x10 ∨ g = 0x18 then s.residueSeen u
    else if g = 0x03 ∨ g = 0x11 ∨ g = 0x19 then s.copySeen u
    else s
  | none =>
    if g = 0x2C then (s.count Reg.TIM_ERR.DUP_CNT 1).timEvent 9
    else if g = 0x21 then (s.setFld Reg.SFI_CMP_STATUS.ST_FAIL 1).setFld Reg.SFI_STATUS.CMP_ST_OK 0
    else if g = 0x30 ∧ i < 16 then s.spoilFrame i
    else if g = 0x32 ∧ i < 8 then s.streamEvent (16 + i) 3
    else s

/-- A class N report about a unit's list damages its job (R311). -/
def State.harmSource (s : State) (g i : Nat) (safety : Bool) : State :=
  match (sourceUnit g i).bind unitOfCode with
  | some u => if groupClass g = .sn ∧ s.classOf g safety = 1 then s.harm u else s
  | none => s

/-- FAULT_REPORT (R398, R399): a detector's report reaches the collector. `d0` and `d1` are its DETAIL words. (DEDUCED: log 93) -/
def execFaultReport (src : BitVec 16) (ctx : Option (Fin 16)) (safety : Bool) (op : Byte) (d0 d1 : DWord) (s : State) :
    Host.Outcome State Fault Refusal :=
  .next (
    let g := src.toNat / 256
    let i := src.toNat % 256
    if !knownGroup g then s
    else if g = 0x22 then s.hearthFailed (i % 4) false
    else if g = 0x48 then s.proofFailed i op.toNat d0.toNat d1.toNat
    else ((s.detector g i).harmSource g i safety).fault g i safety (ctx.map (·.val)) (sourceUnit g i) d0.toNat d1.toNat)

end Sys2Proof.Machine
end

