-- ==== Sys2Proof/Machine/Draw.lean ====
section
/-! DEFINITION. Draw pipes: attention, key-value pages, rotary codes, masks, rollback (R166 to R200). -/

namespace Sys2Proof.Machine

/-! ### Draw blocks (R184, R187, R191) -/

def atFmtK (b : List Byte) : Nat := bits (fieldAt b 2 1) 4 4
def atFmtQ (b : List Byte) : Nat := bits (fieldAt b 2 1) 0 4
def atFmtO (b : List Byte) : Nat := bits (fieldAt b 3 1) 4 4
def atFmtV (b : List Byte) : Nat := bits (fieldAt b 3 1) 0 4
def atTree (b : List Byte) : Bool := bitAt (fieldAt b 4 1) 6
def atSegment (b : List Byte) : Bool := bitAt (fieldAt b 4 1) 5
def atCausal (b : List Byte) : Bool := bitAt (fieldAt b 4 1) 4
def atSat (b : List Byte) : Bool := bitAt (fieldAt b 4 1) 3
def atRmode (b : List Byte) : Nat := bits (fieldAt b 4 1) 0 3
def atRopeHalf (b : List Byte) : Bool := bitAt (fieldAt b 5 1) 2
def atRope (b : List Byte) : Nat := bits (fieldAt b 5 1) 0 2
def atTokens (b : List Byte) : Nat := fieldAt b 6 1
def atG (b : List Byte) : Nat := fieldAt b 7 1
/-- Head dimension D. -/
def atDim (b : List Byte) : Nat := 32 * fieldAt b 8 1
def atPage (b : List Byte) : Nat := fieldAt b 9 1
def atC (b : List Byte) : Nat := fieldAt b 11 1
def atL (b : List Byte) : Nat := fieldAt b 12 3
def atWindow (b : List Byte) : Nat := fieldAt b 16 3
def atScale (b : List Byte) : Nat := fieldAt b 20 4
def atQStride (b : List Byte) : Nat := 32 * fieldAt b 24 2
def atOStride (b : List Byte) : Nat := 32 * fieldAt b 26 2
def atRopeRows (b : List Byte) : Nat := fieldAt b 28 2
def atQ (b : List Byte) : Nat := blkAddr b 32
def atO (b : List Byte) : Nat := blkAddr b 40
def atPmap (b : List Byte) : Nat := blkAddr b 48
def atPos (b : List Byte) : Nat := blkAddr b 56
def atSegQ (b : List Byte) : Nat := blkAddr b 64
def atSegK (b : List Byte) : Nat := blkAddr b 72
def atTreeAddr (b : List Byte) : Nat := blkAddr b 80
def atRopeAddr (b : List Byte) : Nat := blkAddr b 88
/-- RD (R172). -/
def ropeDims (b : List Byte) : Nat := if fieldAt b 10 1 = 0 then atDim b else 2 * fieldAt b 10 1
def atRows (b : List Byte) : Nat := atTokens b * atG b

/-- Bytes of a cached row: D elements, rounded up to 32 bytes (R177). -/
def cacheRow (f dim : Nat) : Nat := ceilDiv (rowBytes f dim) 32 * 32

/-- Formats of operands, outputs, and sources of KVAPPEND (R166, R187). -/
def drwOperand (f : Nat) : Bool := f == 2 || f == 3 || f == 4
def drwOutput (f : Nat) : Bool := 2 ≤ f && f ≤ 6

/-- Rows of `len` bytes at a stride all pass the BOUNDS test. -/
def rowsInBounds (a stride rows len : Nat) : Bool := (List.range rows).all (fun r => boundsSpan (a + r * stride) len)

/-- Bytes of the rotary tables: TL, then TH (R172). -/
def ropeBytes (b : List Byte) : Nat := (64 + atRopeRows b) * (ropeDims b / 2) * 8

/-! ### Rotary position codes (R172) -/

/-- Rotate one pair by the table entries of its position: (x0, x1) and the FP32 results. -/
def rotatePair (tlc tls thc ths x0 x1 : Nat) : Nat × Nat :=
  let c := ffma thc tlc (fneg (fmul ths tls))
  let s := ffma ths tlc (fmul thc tls)
  (ffma x0 c (fneg (fmul x1 s)), ffma x0 s (fmul x1 c))

/-- The partner of dimension d in its pair, its index in the table, and whether it is the first of the pair. -/
def ropeIndex (half : Bool) (rd d : Nat) : Nat × Nat × Bool :=
  if half then (if d < rd / 2 then (d + rd / 2, d, true) else (d - rd / 2, d - rd / 2, false))
  else (if d % 2 = 0 then (d + 1, d / 2, true) else (d - 1, d / 2, false))

/-- A row of FP32 codes rotated by two table rows. -/
def rotateRow (half : Bool) (rd : Nat) (tl th : List Byte) (x : List Nat) : List Nat :=
  (List.range x.length).map (fun d =>
    if rd ≤ d then x.getD d 0
    else
      let (o, i, first) := ropeIndex half rd d
      let e (t : List Byte) (k : Nat) : Nat := fieldAt t (8 * i + 4 * k) 4
      let (a, b) := if first then (d, o) else (o, d)
      let r := rotatePair (e tl 0) (e tl 1) (e th 0) (e th 1) (x.getD a 0) (x.getD b 0)
      if first then r.1 else r.2)

/-- Read the table rows of a position and rotate a row of FP32 codes. -/
def Pull.rotate (p : Pull) (u : Nat) (b : List Byte) (pos : Nat) (x : List Nat) : Pull × List Nat :=
  let rd := ropeDims b
  let len := rd / 2 * 8
  let (p, tl) := p.read u (atRopeAddr b + pos % 64 * len) len
  let (p, th) := p.read u (atRopeAddr b + (64 + pos / 64) * len) len
  (p, rotateRow (atRopeHalf b) rd tl th x)

/-! ### Page entries (R177, R178) -/

structure PageEntry where
  version : Nat
  flags : Nat
  fill : Nat
  k : Nat
  v : Nat
  grow : Nat
  deriving DecidableEq, Repr

def PageEntry.valid (e : PageEntry) : Bool := bitAt e.flags 0

def pageEntry (b : List Byte) : PageEntry := ⟨fieldAt b 0 1, fieldAt b 1 1, fieldAt b 2 2, fieldAt b 4 5, fieldAt b 9 5, fieldAt b 14 2⟩

/-- Cached rows may lie in DRAM, in the Crucible, or in the pipe's own staging memory below the fetch region (R177). -/
def cachePlace (u a len : Nat) : Bool :=
  a + len ≤ 0x1000000000 || (0x2000000000 ≤ a && a + len ≤ 0x2004000000)
    || (0x2200000000 + (u - 64) * 0x200000 ≤ a && a + len ≤ 0x2200000000 + (u - 64) * 0x200000 + 0x1C0000)

/-- Reasons of an entry whose rows 0 to `rows` − 1 are used. A KVAPPEND too refuses with PAGE an entry of another version, or with a bit set that is
zero. (DEDUCED: log 43; DESIGN CHOICE: log 166) -/
def entryReasons (u : Nat) (e : PageEntry) (fillBad : Bool) (rows ks vs : Nat) : List Nat :=
  why (!cachePlace u e.k (rows * ks) || !cachePlace u e.v (rows * vs)) 0x12
    ++ why (e.k % 32 != 0 || e.v % 32 != 0) 0x13
    ++ why (e.version != 1 || !e.valid || bits e.flags 2 6 != 0 || e.grow != 0 || fillBad) 0x31

/-- Read entries `first` to `first + n - 1`. -/
def Pull.entries (p : Pull) (u pmap first n : Nat) : Pull × List PageEntry :=
  let (p, rows) := p.rows u 16 ((List.range n).map (fun i => pmap + 16 * (first + i)))
  (p, rows.map pageEntry)

/-- Rewrite bytes 0 to 3 of an entry as one write (R178). -/
def State.writeEntry (s : State) (u pmap e : Nat) (valid spec : Bool) (fill : Nat) (poison : Bool) : State :=
  s.unitWrite u (pmap + 16 * e) (leBytes 1 1 ++ leBytes 1 (ofBool valid + 2 * ofBool spec) ++ leBytes 2 fill) poison

/-! ### ATTN: checks (R166, R173 to R176, R185, R188) -/

def attnGrowth (b : List Byte) : Bool :=
  bitAt (fieldAt b 4 1) 7 || bits (fieldAt b 5 1) 3 5 != 0 || fieldAt b 15 1 != 0 || fieldAt b 19 1 != 0 || !zeroAt b 30 2
    || blkHigh b 32 || blkHigh b 40 || blkHigh b 48 || blkHigh b 56 || (atSegment b && (blkHigh b 64 || blkHigh b 72))
    || (atTree b && blkHigh b 80) || (atRope b != 0 && blkHigh b 88)

/-- Positions of the query tokens (R174). -/
def queryPos (b : List Byte) (pos : List Byte) (t : Nat) : Nat := if atPos b = 0 then atL b + t - atTokens b else fieldAt pos (4 * t) 4

/-- (DEDUCED: log 43) -/
def attnReasons (s : State) (u : Nat) (b pos masks : List Byte) : List Nat :=
  let rows := atRows b
  let qLen := rowBytes (atFmtQ b) (atDim b)
  let oLen := rowBytes (atFmtO b) (atDim b)
  let n := atTokens b
  let tree := atTree b
  let slots := atL b + atC b
  why (attnGrowth b) 0x03
    ++ why (!drwOperand (atFmtQ b) || !drwOperand (atFmtK b) || !drwOperand (atFmtV b) || !drwOutput (atFmtO b)) 0x04
    ++ why (4 < atRmode b) 0x07
    ++ why (!rowsInBounds (atQ b) (atQStride b) rows qLen || !rowsInBounds (atO b) (atOStride b) rows oLen
        || !boundsSpan (atPmap b) (16 * ceilDiv slots (2 ^ atPage b)) || (atPos b != 0 && !boundsSpan (atPos b) (4 * n))
        || (atSegment b && (!boundsSpan (atSegQ b) (2 * n) || !boundsSpan (atSegK b) (2 * atL b)))
        || (tree && !boundsSpan (atTreeAddr b) (8 * n)) || (atRope b != 0 && !boundsSpan (atRopeAddr b) (ropeBytes b))) 0x12
    ++ why (atQ b % 32 != 0 || atO b % 32 != 0) 0x13
    ++ why (128 < rows || n == 0 || 128 < n || atG b == 0 || 16 < atG b || fieldAt b 8 1 == 0 || 8 < fieldAt b 8 1 || atPage b < 4
        || 12 < atPage b || atQStride b < qLen || atOStride b < oLen || slots == 0 || (atPos b == 0 && atL b < n)) 0x30
    ++ why (if tree then n != atC b || atC b == 0 || 64 < atC b || atPos b == 0
          || (List.range (min n 64)).any (fun t => fieldAt masks (8 * t) 8 / 2 ^ t != 1)
        else atC b != 0) 0x32
    ++ why (atRope b != 0 && (atRope b == 3 || atDim b < ropeDims b || (atRope b == 2 && tree)
          || (List.range n).any (fun t => 64 * atRopeRows b ≤ queryPos b pos t) || (atRope b == 2 && 64 * atRopeRows b < slots))) 0x33
    ++ why (s.safetyWork u && atC b != 0) 0x34

/-! ### ATTN: arithmetic (R167 to R170) -/

/-- The running state of one query row. -/
structure RowSt where
  m : Nat
  l : Nat
  o : List Nat
  deriving DecidableEq, Repr

/-- The scaled score of a query row and a key row (R167). -/
def scoreOf (wide : Bool) (scale : Nat) (q k : List Num) : Nat :=
  let w : Int := if wide then -48 else -32
  fmul (((q.zip k).foldl (fun (a : AccSt) p => a.addProduct w p.1 p.2) AccSt.zero).fp32 w) scale

/-- mc of a chunk: the largest of its allowed values, −infinity where there is none. -/
def chunkMax (ys : List (Option Nat)) : Nat := ys.foldl (fun m y => match y with | some v => fmax m v | none => m) fNegInf

/-- One chunk of one row (R168): `ys` the scaled scores of allowed keys, `vs` the FP32 value rows, `mn` the new maximum. -/
def RowSt.chunk (r : RowSt) (dim : Nat) (ys : List (Option Nat)) (vs : List (List Nat)) (mn : Nat) : RowSt :=
  let r := if r.m != fNegInf && flt r.m mn then
      let k := fint (fsub r.m mn)
      { r with l := fscale r.l k, o := r.o.map (fun x => fscale x k) }
    else r
  let p := ys.map (fun y => match y with | some v => exp2z (fsub v mn) | none => 0)
  let l := fadd r.l (treeSum 6 p)
  let o := (List.range dim).map (fun d =>
    fadd (r.o.getD d 0) (treeSum 6 ((List.range 64).map (fun i => match ys.getD i none with
      | some _ => fmul (p.getD i 0) ((vs.getD i []).getD d 0)
      | none => 0))))
  ⟨mn, l, o⟩

/-- All chunks of one row: one pass, or with the final maximum `top` in every chunk (R168, R170). -/
def attnRow (dim : Nat) (chunks : List (List (Option Nat) × List (List Nat))) (top : Option Nat) : RowSt :=
  chunks.foldl (fun (r : RowSt) c =>
    let mc := chunkMax c.1
    if mc = fNegInf then r else r.chunk dim c.1 c.2 (match top with | some t => t | none => fmax r.m (fceil mc)))
    ⟨fNegInf, 0, List.replicate dim 0⟩

/-- M[r] of R170. -/
def rowTop (chunks : List (List (Option Nat) × List (List Nat))) : Nat :=
  chunks.foldl (fun m c => let mc := chunkMax c.1; if mc = fNegInf then m else fmax m (fceil mc)) fNegInf

/-- The output codes of a row. -/
def RowSt.out (r : RowSt) (f rm : Nat) (sat : Bool) : List Nat :=
  r.o.map (fun x => if r.m = fNegInf then 0 else encode f rm sat (f32 (fdiv x r.l)))

/-- A key is allowed for a query token (R174 to R176). The segment rule, padding too, is one of committed keys: with TREE = 1 the mask alone decides
over candidates. (DESIGN CHOICE: log 167) -/
def allowedKey (b pos masks sq sk : List Byte) (t s : Nat) : Bool :=
  if s < atL b then
    let pq := queryPos b pos t
    let seg := fieldAt sq (2 * t) 2
    (!atCausal b || s ≤ pq) && (atWindow b == 0 || decide ((pq : Int) - s < atWindow b))
      && (!atSegment b || (seg != 0 && fieldAt sk (2 * s) 2 == seg))
  else bitAt (fieldAt masks (8 * t) 8) (s - atL b)

/-! ### ATTN -/

/-- What an ATTN has read. -/
structure AttnIn where
  q : List (List Num)
  k : List (List Num)
  v : List (List Nat)

/-- Rows of a cache: slot s lies at row s mod 2^n of page s / 2^n. -/
def cacheAddrs (es : List PageEntry) (n stride slots : Nat) (base : PageEntry → Nat) : List Nat :=
  (List.range slots).map (fun s => ((es[s / 2 ^ n]?).map base).getD 0 + s % 2 ^ n * stride)

/-- Values of a row for the score: rotated by `pos` into FP16, or as stored. -/
def Pull.scoreRow (p : Pull) (u : Nat) (b : List Byte) (f : Nat) (rope : Bool) (pos : Nat) (row : List Byte) : Pull × List Num :=
  let x := valuesOf f (atDim b) row
  if rope then
    let (p, y) := p.rotate u b pos (x.map toF32)
    (p, y.zipIdx.map (fun e => if e.2 < ropeDims b then fpDecode fmtFp16 (fpEncode fmtFp16 0 true (f32 e.1)) else x.getD e.2 .nan))
  else (p, x)

/-- Read everything an ATTN needs; K again for the second pass. -/
def Pull.attnRead (p : Pull) (u : Nat) (b pos : List Byte) (es : List PageEntry) (twoPass : Bool) : Pull × AttnIn :=
  let slots := atL b + atC b
  let dim := atDim b
  let (p, qs) := p.rows u (rowBytes (atFmtQ b) dim) ((List.range (atRows b)).map (fun r => atQ b + r * atQStride b))
  let (p, q) := qs.zipIdx.foldl (fun (acc : Pull × List (List Num)) e =>
    let (p, x) := acc.1.scoreRow u b (atFmtQ b) (atRope b != 0) (queryPos b pos (e.2 / atG b)) e.1
    (p, acc.2 ++ [x])) (p, [])
  let kAddrs := cacheAddrs es (atPage b) (cacheRow (atFmtK b) dim) slots PageEntry.k
  let (p, _) := if twoPass then p.rows u (rowBytes (atFmtK b) dim) kAddrs else (p, [])
  let (p, ks) := p.rows u (rowBytes (atFmtK b) dim) kAddrs
  let (p, k) := ks.zipIdx.foldl (fun (acc : Pull × List (List Num)) e =>
    let (p, x) := acc.1.scoreRow u b (atFmtK b) (atRope b == 2) e.2 e.1
    (p, acc.2 ++ [x])) (p, [])
  let (p, vs) := p.rows u (rowBytes (atFmtV b) dim) (cacheAddrs es (atPage b) (cacheRow (atFmtV b) dim) slots PageEntry.v)
  (p, ⟨q, k, vs.map (fun r => (valuesOf (atFmtV b) dim r).map toF32)⟩)

/-- Both Q and K are FP8 as they enter the score stage (R166). -/
def scoreWide (b : List Byte) : Bool := atRope b != 0 || atFmtQ b == 4 || atFmtK b == 4

/-- Chunks of one query row: scaled scores of the allowed keys, and their value rows. -/
def attnChunks (b pos masks sq sk : List Byte) (x : AttnIn) (r : Nat) : List (List (Option Nat) × List (List Nat)) :=
  let slots := atL b + atC b
  (List.range (ceilDiv slots 64)).map (fun c =>
    ((List.range 64).map (fun i =>
      let s := 64 * c + i
      if s < slots && allowedKey b pos masks sq sk (r / atG b) s then
        some (scoreOf (scoreWide b) (atScale b) (x.q.getD r []) (x.k.getD s []))
      else none),
     (List.range 64).map (fun i => x.v.getD (64 * c + i) [])))

/-- Note a finished row (R169, R200). -/
def State.noteRow (s : State) (u : Nat) (empty nan : Bool) : State :=
  let n := u - 64
  let s := if empty then (s.count (Reg.DRW_ROW_STATUS.EMPTY_CNT n) 1).unitEvent u 1 else s
  if nan then s.count (Reg.DRW_ROW_STATUS.NAN_CNT n) 1 else s

/-- The injected score mismatch, in the first row processed (R195). The answer says whether that row is poisoned. (DEDUCED: log 46) -/
def State.drwResidue (s : State) (u row : Nat) : State × Bool :=
  if s.armedFor u 3 then ((s.spend u 3).setFld (Reg.DRW_RES_STATUS.LAST_ROW (u - 64)) row, (s.unit u).config == 2)
  else if s.armedFor u 0 && s.residueChecks u then
    let n := u - 64
    let s := ((s.spend u 0).count (Reg.DRW_RES_STATUS.MISMATCH_CNT n) 1).setFld (Reg.DRW_RES_STATUS.LAST_ROW n) row
    ((s.unitEvent u 2).unitFault u 0x10 n, (s.unit u).config == 2)
  else (s, false)

/-- Cycles of an ATTN, in which the score or value stage works: free values (R193, R200). -/
def State.drwCycles (s : State) (u : Nat) : State :=
  let (s, k) := s.free
  (s.wr64 (unitBase u + 0x70) ((s.rd64 (unitBase u + 0x70) + k) % 2 ^ 64)).spendStall u

/-- Compute and write every row of an ATTN. (DEDUCED: log 46) -/
def State.attnRun (s : State) (u : Nat) (b pos masks sq sk : List Byte) (x : AttnIn) (twoPass poison : Bool) : State :=
  let rows := atRows b
  let checker := s.isChecker u
  let first := if checker then rows - 1 else 0
  let (s, badScore) := s.drwResidue u first
  let (s, badRope) := s.spendDup u 2 1 (atRope b != 0)
  let (s, badOut) := s.spendDup u 1 0 true
  let order := if checker then (List.range rows).reverse else List.range rows
  order.foldl (fun s r =>
    let chunks := attnChunks b pos masks sq sk x r
    let st := attnRow (atDim b) chunks (if twoPass then some (rowTop chunks) else none)
    let codes := st.out (atFmtO b) (atRmode b) (atSat b)
    let s := s.noteRow u (chunks.all (fun c => c.1.all Option.isNone)) (fnan st.m || fnan st.l)
    let s := codes.zipIdx.foldl (fun s e => s.emit u (sigRecord r e.2 0 (atFmtO b) 0 e.1 0)) s
    let size := fmtBits (atFmtO b) / 8
    let whole := poison || (r == first && (badScore || badRope))
    s.unitWriteRow u (atO b + r * atOStride b) (codes.flatMap (leBytes size)) (fun i => whole || (r == first && badOut && i < size))) s

/-- ATTN comes to issue (R168, R170, R178, R180, R185): it stops at the first bad page entry it meets. What the fetcher leaves in the fetch region
(R179) is not modelled: its bytes stay. (DEDUCED: log 44; DESIGN CHOICE: log 168) -/
def State.attnIssue (s : State) (u : Nat) (d : Ins) : Issue :=
  let twoPass := insFlag d 2 7
  let (p, b) := s.blockFetch u d
  let word := blockWord u d 0x80
  if b.isEmpty then .refuse p.s word (p.s.pc u)
  else
    let n := atTokens b
    let (p, pos) := if atPos b = 0 then (p, []) else p.read u (atPos b) (4 * n)
    let (p, masks) := if atTree b then p.read u (atTreeAddr b) (8 * n) else (p, [])
    let head := word ++ blockHead b 1 ++ attnReasons s u b pos masks
    p.check u (blockAddr d) (head ++ why p.stop 0x31) (
      let slots := atL b + atC b
      let pages := ceilDiv slots (2 ^ atPage b)
      let ks := cacheRow (atFmtK b) (atDim b)
      let vs := cacheRow (atFmtV b) (atDim b)
      let (p, es) := p.entries u (atPmap b) 0 pages
      let bad := (es.zipIdx.map (fun e =>
        let need := min (2 ^ atPage b) (slots - e.2 * 2 ^ atPage b)
        entryReasons u e.1 (e.1.fill < need) need ks vs)).find? (fun r => !r.isEmpty) |>.getD []
      p.check u (blockAddr d) (bad ++ why p.stop 0x31) (
        let (p, sq) := if atSegment b then p.read u (atSegQ b) (2 * n) else (p, [])
        let (p, sk) := if atSegment b then p.read u (atSegK b) (2 * atL b) else (p, [])
        let (p, x) := p.attnRead u b pos es twoPass
        let s := p.s.eatIf u (blockAddr d) p.poison
        p.check u (blockAddr d) (why p.stop 0x31) (.done ((s.attnRun u b pos masks sq sk x twoPass p.poison).drwCycles u))))

/-- ATTN (R168). -/
def execAttn (p : Fin 4) (s : State) : Host.Outcome State Fault Refusal :=
  .next (s.issue (64 + p) [0x20] (fun d s => s.attnIssue (64 + p) d))

/-! ### KVAPPEND (R187) -/

def kvFmtK (b : List Byte) : Nat := bits (fieldAt b 2 1) 4 4
def kvFmtKs (b : List Byte) : Nat := bits (fieldAt b 2 1) 0 4
def kvFmtV (b : List Byte) : Nat := bits (fieldAt b 3 1) 4 4
def kvFmtVs (b : List Byte) : Nat := bits (fieldAt b 3 1) 0 4
def kvSpec (b : List Byte) : Bool := bitAt (fieldAt b 4 1) 7
def kvHalf (b : List Byte) : Bool := bitAt (fieldAt b 4 1) 6
def kvRope (b : List Byte) : Bool := bitAt (fieldAt b 4 1) 5
def kvS0 (b : List Byte) : Nat := fieldAt b 12 3
def kvKStride (b : List Byte) : Nat := 32 * fieldAt b 16 2
def kvVStride (b : List Byte) : Nat := 32 * fieldAt b 18 2
def kvKSrc (b : List Byte) : Nat := blkAddr b 32
def kvVSrc (b : List Byte) : Nat := blkAddr b 40
def kvPos (b pos : List Byte) (t : Nat) : Nat := if atPos b = 0 then kvS0 b + t else fieldAt pos (4 * t) 4

def kvGrowth (b : List Byte) : Bool :=
  bitAt (fieldAt b 4 1) 4 || fieldAt b 5 1 != 0 || fieldAt b 7 1 != 0 || fieldAt b 11 1 != 0 || fieldAt b 15 1 != 0 || !zeroAt b 20 8
    || !zeroAt b 30 2 || !zeroAt b 64 24 || blkHigh b 32 || blkHigh b 40 || blkHigh b 48 || (kvRope b && (blkHigh b 56 || blkHigh b 88))

/-- (DEDUCED: log 43) -/
def kvReasons (b pos : List Byte) : List Nat :=
  let n := atTokens b
  let kLen := rowBytes (kvFmtKs b) (atDim b)
  let vLen := rowBytes (kvFmtVs b) (atDim b)
  let last := (kvS0 b + n - 1) / 2 ^ atPage b
  why (kvGrowth b) 0x03
    ++ why (!drwOperand (kvFmtK b) || !drwOperand (kvFmtV b) || !drwOutput (kvFmtKs b) || !drwOutput (kvFmtVs b)) 0x04
    ++ why (4 < atRmode b) 0x07
    ++ why (!rowsInBounds (kvKSrc b) (kvKStride b) n kLen || !rowsInBounds (kvVSrc b) (kvVStride b) n vLen
        || !boundsSpan (atPmap b + 16 * (kvS0 b / 2 ^ atPage b)) (16 * (last + 1 - kvS0 b / 2 ^ atPage b))
        || (kvRope b && ((atPos b != 0 && !boundsSpan (atPos b) (4 * n)) || !boundsSpan (atRopeAddr b) (ropeBytes b)))) 0x12
    ++ why (n == 0 || 128 < n || fieldAt b 8 1 == 0 || 8 < fieldAt b 8 1 || atPage b < 4 || 12 < atPage b || kvKStride b < kLen
        || kvVStride b < vLen) 0x30
    ++ why (kvRope b && (atDim b < ropeDims b || (List.range n).any (fun t => 64 * atRopeRows b ≤ kvPos b pos t))) 0x33

/-- KVAPPEND that the configuration does not permit (R188). -/
def State.kvConfig (s : State) (u : Nat) (b : List Byte) : Bool := s.safetyWork u && ((s.unit u).config == 0 || kvSpec b)

/-- The FP32 row of a source, rotated if asked (R187). The pair layout of KVAPPEND lies in byte 4. -/
def Pull.kvRow (p : Pull) (u : Nat) (b : List Byte) (rope : Bool) (pos : Nat) (x : List Num) : Pull × List Num :=
  if rope then
    let rd := ropeDims b
    let len := rd / 2 * 8
    let (p, tl) := p.read u (atRopeAddr b + pos % 64 * len) len
    let (p, th) := p.read u (atRopeAddr b + (64 + pos / 64) * len) len
    let y := rotateRow (kvHalf b) rd tl th (x.map toF32)
    (p, y.zipIdx.map (fun e => if e.2 < rd then f32 e.1 else x.getD e.2 .nan))
  else (p, x)

/-- Write the rows of one page and then its entry. -/
def State.kvPage (s : State) (u : Nat) (b : List Byte) (page : Nat) (e : PageEntry) (ks vs : List (List Nat)) (poison : Bool)
    (badK : Bool) : State :=
  let n := atPage b
  let s0 := kvS0 b
  let size (f : Nat) : Nat := fmtBits f / 8
  let s := (List.range (atTokens b)).foldl (fun s t =>
    let slot := s0 + t
    if slot / 2 ^ n != page then s
    else
      let r := slot % 2 ^ n
      let k := ks.getD t []
      let v := vs.getD t []
      let s := k.zipIdx.foldl (fun s c => s.emit u (sigRecord t c.2 1 (kvFmtK b) 0 c.1 0)) s
      let s := v.zipIdx.foldl (fun s c => s.emit u (sigRecord t (0x8000 + c.2) 1 (kvFmtV b) 0 c.1 0)) s
      let s := s.unitWriteRow u (e.k + r * cacheRow (kvFmtK b) (atDim b)) (k.flatMap (leBytes (size (kvFmtK b))))
        (fun i => poison || (t == 0 && badK && i < size (kvFmtK b)))
      s.unitWrite u (e.v + r * cacheRow (kvFmtV b) (atDim b)) (v.flatMap (leBytes (size (kvFmtV b)))) poison) s
  let top := min (2 ^ n) (s0 + atTokens b - page * 2 ^ n)
  s.writeEntry u (atPmap b) page e.valid (kvSpec b || bitAt e.flags 1) top poison

/-- KVAPPEND comes to issue (R180, R187). (DEDUCED: log 44) -/
def State.kvIssue (s : State) (u : Nat) (d : Ins) : Issue :=
  let (p, b) := s.blockFetch u d
  let word := blockWord u d 0
  if b.isEmpty then .refuse p.s word (p.s.pc u)
  else
    let n := atTokens b
    let (p, pos) := if atPos b = 0 || !kvRope b then (p, []) else p.read u (atPos b) (4 * n)
    p.check u (blockAddr d) (configLate (word ++ blockHead b 2 ++ kvReasons b pos ++ why p.stop 0x31) (s.kvConfig u b)) (
      let size := 2 ^ atPage b
      let first := kvS0 b / size
      let pages := (kvS0 b + n - 1) / size + 1 - first
      let ks := cacheRow (kvFmtK b) (atDim b)
      let vs := cacheRow (kvFmtV b) (atDim b)
      let (p, es) := p.entries u (atPmap b) first pages
      let bad := es.zipIdx.flatMap (fun e =>
        entryReasons u e.1 (e.1.fill != (if e.2 = 0 then kvS0 b % size else 0)) (min size (kvS0 b + n - (first + e.2) * size)) ks vs)
      p.check u (blockAddr d) (bad ++ why p.stop 0x31 ++ why (s.kvConfig u b) 0x34) (
        let (p, kr) := p.rows u (rowBytes (kvFmtKs b) (atDim b)) ((List.range n).map (fun t => kvKSrc b + t * kvKStride b))
        let (p, vr) := p.rows u (rowBytes (kvFmtVs b) (atDim b)) ((List.range n).map (fun t => kvVSrc b + t * kvVStride b))
        let (p, kx) := kr.zipIdx.foldl (fun (acc : Pull × List (List Num)) e =>
          let (p, x) := acc.1.kvRow u b (kvRope b) (kvPos b pos e.2) (valuesOf (kvFmtKs b) (atDim b) e.1)
          (p, acc.2 ++ [x])) (p, [])
        let kc := kx.map (fun r => r.map (encode (kvFmtK b) (atRmode b) (atSat b)))
        let vc := vr.map (fun r => (valuesOf (kvFmtVs b) (atDim b) r).map (encode (kvFmtV b) (atRmode b) (atSat b)))
        let s := p.s.eatIf u (blockAddr d) p.poison
        let (s, badK) := s.spendDup u 2 1 (kvRope b)
        p.check u (blockAddr d) (why p.stop 0x31) (
          .done ((es.zipIdx.foldl (fun s e => s.kvPage u b (first + e.2) e.1 kc vc p.poison badK) s).spendStall u))))

/-- KVAPPEND (R187). -/
def execKvappend (p : Fin 4) (s : State) : Host.Outcome State Fault Refusal :=
  .next (s.issue (64 + p) [0x21] (fun d s => s.kvIssue (64 + p) d))

/-! ### ROLLBACK (R190 to R192) -/

def rbFmtK (b : List Byte) : Nat := bits (fieldAt b 2 1) 4 4
def rbFmtV (b : List Byte) : Nat := bits (fieldAt b 2 1) 0 4
def rbAccept (b : List Byte) : Nat := blkAddr b 40
def rbRelease (b : List Byte) : Nat := blkAddr b 48
def rbPmap (b : List Byte) : Nat := blkAddr b 32

def rbGrowth (b : List Byte) : Bool :=
  !zeroAt b 3 5 || fieldAt b 10 1 != 0 || !zeroAt b 15 17 || !zeroAt b 56 40 || blkHigh b 32 || blkHigh b 40 || blkHigh b 48

/-- First page of the candidate range and how many pages it meets (R191). -/
def rbFirst (b : List Byte) : Nat := atL b / 2 ^ atPage b
def rbPages (b : List Byte) : Nat := (atL b + atC b + 2 ^ atPage b - 1) / 2 ^ atPage b - rbFirst b

/-- (DEDUCED: log 43) -/
def rbReasons (b : List Byte) : List Nat :=
  why (rbGrowth b) 0x03
    ++ why (!drwOperand (rbFmtK b) || !drwOperand (rbFmtV b)) 0x04
    ++ why (!boundsSpan (rbPmap b + 16 * rbFirst b) (16 * rbPages b) || !boundsSpan (rbAccept b) 96 || !boundsSpan (rbRelease b) 32) 0x12
    ++ why (fieldAt b 8 1 == 0 || 8 < fieldAt b 8 1 || atPage b < 4 || 12 < atPage b) 0x30
    ++ why (64 < atC b) 0x32

/-- The acceptance record (R190, R191). -/
def recA (r : List Byte) : Nat := fieldAt r 1 1
def recPath (r : List Byte) (j : Nat) : Nat := fieldAt r (8 + j) 1
def recReasons (r : List Byte) (c : Nat) : List Nat :=
  let a := min 64 (recA r)
  why (fieldAt r 0 1 != 1) 0x01 ++ why (!zeroAt r 2 2 || !zeroAt r 72 24) 0x03
    ++ why (c < recA r || (List.range a).any (fun j => c ≤ recPath r j || (j + 1 < a && recPath r (j + 1) ≤ recPath r j))) 0x32

/-- Copy one row unit by unit; poison moves with it (R241). -/
def State.copyRow (s : State) (u src dst len : Nat) (poison : Bool) : State × Bool :=
  (List.range (len / 32)).foldl (fun (acc : State × Bool) i =>
    let (s, r) := acc.1.readUnit (acc.1.unitReq u) (src + 32 * i)
    let stop := r.err == some .decode || r.err == some .generation
    (s.unitWrite u (dst + 32 * i) r.bytes (r.poison || poison), acc.2 || stop)) (s, false)

/-- Where a slot's rows lie. -/
def slotRows (b : List Byte) (es : List PageEntry) (slot : Nat) : Nat × Nat :=
  let e := (es[slot / 2 ^ atPage b - rbFirst b]?).getD ⟨0, 0, 0, 0, 0, 0⟩
  let r := slot % 2 ^ atPage b
  (e.k + r * cacheRow (rbFmtK b) (atDim b), e.v + r * cacheRow (rbFmtV b) (atDim b))

/-- The accepted candidates that move, as (from, to) slots. -/
def rbMoves (b r : List Byte) : List (Nat × Nat) :=
  ((List.range (recA r)).filter (fun j => recPath r j != j)).map (fun j => (atL b + recPath r j, atL b + j))

/-- Copies, entries and the release record (R191, R192). -/
def State.rollback (s : State) (u : Nat) (b r : List Byte) (es : List PageEntry) (poison : Bool) : State :=
  let n := atPage b
  let s := (rbMoves b r).foldl (fun s m =>
    let (s, _) := s.copyRow u (slotRows b es m.1).1 (slotRows b es m.2).1 (cacheRow (rbFmtK b) (atDim b)) poison
    (s.copyRow u (slotRows b es m.1).2 (slotRows b es m.2).2 (cacheRow (rbFmtV b) (atDim b)) poison).1) s
  let ln := atL b + recA r
  let pages := (List.range es.length).map (fun i => rbFirst b + i)
  let gone := pages.filter (fun e => ln ≤ e * 2 ^ n)
  let s := (pages.zip es).foldl (fun s e =>
    if ln ≤ e.1 * 2 ^ n then s.writeEntry u (rbPmap b) e.1 false false 0 poison
    else s.writeEntry u (rbPmap b) e.1 e.2.valid false (min (2 ^ n) (ln - e.1 * 2 ^ n)) poison) s
  s.unitWrite u (rbRelease b) (padTo 32 (leBytes 1 1 ++ leBytes 1 gone.length ++ leBytes 2 0 ++ gone.flatMap (leBytes 4))) poison

/-- ROLLBACK comes to issue. (DEDUCED: log 44) -/
def State.rbIssue (s : State) (u : Nat) (d : Ins) : Issue :=
  let (p, b) := s.blockFetch u d
  let word := blockWord u d 0
  if b.isEmpty then .refuse p.s word (p.s.pc u)
  else
    p.check u (blockAddr d) (configLate (word ++ blockHead b 3 ++ rbReasons b ++ why p.stop 0x31) (s.safetyWork u)) (
      let (p, r) := p.read u (rbAccept b) 96
      p.check u (blockAddr d) (recReasons r (atC b) ++ why p.stop 0x31 ++ why (s.safetyWork u) 0x34) (
        let (p, es) := p.entries u (rbPmap b) (rbFirst b) (rbPages b)
        let moved := (rbMoves b r).flatMap (fun m => [m.1, m.2])
        let bad := moved.any (fun m => !cachePlace u (slotRows b es m).1 (cacheRow (rbFmtK b) (atDim b))
          || !cachePlace u (slotRows b es m).2 (cacheRow (rbFmtV b) (atDim b)))
        let s := p.s.eatIf u (blockAddr d) p.poison
        p.check u (blockAddr d) (why bad 0x12 ++ why p.stop 0x31) (.done ((s.rollback u b r es p.poison).spendStall u))))

/-- ROLLBACK (R191). -/
def execRollback (p : Fin 4) (s : State) : Host.Outcome State Fault Refusal :=
  .next (s.issue (64 + p) [0x22] (fun d s => s.rbIssue (64 + p) d))

end Sys2Proof.Machine
end

