-- ==== Sys2Proof/Machine/Load.lean ====
section
/-! DEFINITION. Loading a graph: the check of every instruction, the split records, room, pins, and LOAD_MODEL itself (R35, R67, R101, R103, R111,
R112, R139, R140, R306, R307, R375, R403, R413). -/

namespace Sys2Proof.Machine

/-! ### The check of every instruction (R111, R112) -/

/-- A list under the check: a scratch state that holds what its instructions do to one another, and the first refusal. -/
structure Scan where
  s : State
  found : Option (Nat × Nat)

/-- Configurations that V_PAIRED and BF16_SUPERVISED are checked against: FREE, and each that the graph declares. -/
def graphTried (g : GraphImage) : List Nat := 2 :: g.configs

/-- Reasons under any of the configurations. -/
def State.underAll (s : State) (u : Nat) (configs : List Nat) (f : State → List Nat) : List Nat :=
  configs.flatMap (fun c => f (s.modUnit u (fun x => { x with config := c })))

/-- Reasons of a WAIT but EVENT, which depends on the strike table at launch. -/
def State.waitStatic (s : State) (d : Ins) : List Nat := (s.waitReasons d).filter (· != 0x1A)

/-- Reasons of a SIG or GOLD: growth bits, and the window that is open at that point of the list (R131, R132). -/
def State.sigStatic (s : State) (u : Nat) (d0 : Ins) (gold : Bool) : List Nat :=
  let (d, bad) := s.sigForm u d0 (if gold then 10 else 9)
  let wrong := if gold || insFlag d 2 0 then s.openNumber u != some (sigWindow d) else (s.unit u).sig.isSome
  why (bad || (if gold then goldGrowth d else sigGrowth d)) 0x03 ++ why wrong 0x18

/-- The open window after a SIG or GOLD. -/
def State.sigAfter (s : State) (u : Nat) (d0 : Ins) (gold : Bool) : State :=
  let d := (s.sigForm u d0 (if gold then 10 else 9)).1
  s.modUnit u (fun x => { x with sig := if gold || insFlag d 2 0 then none else some (sigWindow d, 0) })

/-- Reasons of an instruction of a Marmer list that its form does not give (R99). -/
def State.marmerStatic (s : State) (u : Nat) (configs : List Nat) (d : Ins) : List Nat :=
  match insB d 0 with
  | 1 => if m2Format (insBits (m2Load d) 8 0 4) then loadsReasons (m2Load d) else [0x11]
  | 2 => s.underAll u configs (fun s => s.m2Reasons u d)
  | 3 => why (!m2Format (mmaFmtC (s.m2Out u d).1.ins)) 0x11
  | 4 => s.waitStatic (m2Ins 8 d)
  | 7 => s.sigStatic u d false
  | 8 => s.sigStatic u d true
  | _ => []

/-- Reasons of an instruction of a Z1 list that its form does not give; of the blocks of Draw pipes, Swages and post-processing units the
instruction word alone. -/
def State.ownStatic (s : State) (u : Nat) (configs : List Nat) (d : Ins) : List Nat :=
  match insOp d with
  | 1 => loadsReasons d
  | 2 => why (!zeroAt d 2 30) 0x03
  | 3 => s.underAll u configs (fun s => s.passReasons u ((s.anvil u).pend ++ [d]))
  | 5 => epiReasons d
  | 6 => s.underAll u configs (fun s => s.storeReasons u d)
  | 7 => s.underAll u configs (fun s => s.sendReasons u d)
  | 8 => s.waitStatic d
  | 9 => s.sigStatic u d false
  | 10 => s.sigStatic u d true
  | 11 => why (!zeroAt d 2 30) 0x03
  | 12 => syncReasons d
  | 13 => scrubReasons d
  | 0x20 => blockWord u d 0x80
  | 0x21 | 0x22 | 0x40 | 0x41 | 0x42 | 0x43 | 0x44 | 0x50 => blockWord u d 0
  | _ => []

/-- What an instruction leaves for those after it: the pass under construction, loaded slots, the open window, an open Marmer chain. -/
def State.staticAfter (s : State) (u : Nat) (i : Nat) (d : Ins) : State :=
  if s.marmer u then
    match insB d 0 with
    | 7 => s.sigAfter u d false
    | 8 => s.sigAfter u d true
    | _ => s
  else
    match insOp d with
    | 3 => s.modAnvil u (fun x => { x with pend := [] })
    | 4 => s.modAnvil u (fun x => { x with pendAt := if x.pend.isEmpty then i else x.pendAt, pend := x.pend ++ [d] })
    | 5 => s.modAnvil u (fun x => { x with slots := SMap.insert x.slots (8 * insBits d 3 7 1 + insBits d 3 0 3) d })
    | 9 => s.sigAfter u d false
    | 10 => s.sigAfter u d true
    | _ => s

/-- Check instruction `i` of a list. A refused pass is refused at its first problem (R110, R116). -/
def Scan.ins (configs : List Nat) (u : Nat) (x : Scan) (e : Ins × Nat) : Scan :=
  match x.found with
  | some _ => x
  | none =>
    let (d, i) := e
    let s := x.s
    let first := if (s.anvil u).pend.isEmpty then i else (s.anvil u).pendAt
    let form := s.formReasons u d
    if !form.isEmpty then ⟨s, some (lowest form, i)⟩
    else if s.breaksPass u d then ⟨s, some (0x09, first)⟩
    else
      let own := if s.marmer u then s.marmerStatic u configs d else s.ownStatic u configs d
      if own.isEmpty then ⟨s.staticAfter u i d, none⟩ else ⟨s, some (lowest own, if s.marmer u || insOp d != 3 then i else first)⟩

/-- Instructions of a list of an image. -/
def listCode (l : ListImage) (image : List Byte) : List Ins :=
  let size := if l.marmer then 16 else 32
  (List.range l.count).map (fun i => (image.drop (l.offset + size * i)).take size)

/-- The scratch state in which a list is checked: its unit has just started it. -/
def State.scratch (s : State) (l : ListImage) : State :=
  ((s.modUnit l.unit (fun _ => { UnitSt.none with m2 := l.marmer })).setAnvil l.unit AnvSt.idle)

/-- The first refusal of a list: its reason and the index. A list that ends inside a pass is refused there (R116). -/
def State.listRefused (s : State) (configs : List Nat) (l : ListImage) (image : List Byte) : Option (Nat × Nat) :=
  let x := (listCode l image).zipIdx.foldl (Scan.ins configs l.unit) ⟨s.scratch l, none⟩
  if x.found.isNone && !(x.s.anvil l.unit).pend.isEmpty then some (0x09, (x.s.anvil l.unit).pendAt) else x.found

/-- The first refused instruction in the order of the image: unit kind, unit index, list number, instruction index, reason. -/
def State.firstRefused (s : State) (g : GraphImage) (image : List Byte) : Option (Nat × Nat × Nat × Nat × Nat) :=
  g.lists.zipIdx.findSome? (fun e => (s.listRefused (graphTried g) e.1 image).map (fun r =>
    ((reportUnit e.1.unit).1, (reportUnit e.1.unit).2, e.2, r.2, r.1)))

/-! ### Split records (R139) -/

/-- A split record at its place in the image. -/
def splitRecord (x : SplitImage) (image : List Byte) : List Byte := (image.drop x.offset).take 8

/-- A record that refuses the load: MODE, EXPORT, PIECES or RSVD outside the table. (DEDUCED: log 173) -/
def splitBad (r : List Byte) : Bool :=
  1 < fieldAt r 2 1 || (fieldAt r 3 1 != 1 && fieldAt r 3 1 != 2) || fieldAt r 4 2 < 2 || 128 < fieldAt r 4 2 || fieldAt r 6 2 != 0

/-- The split that a record describes: an adaptive one takes its piece count from the Anvils that are there (R67). -/
def State.splitOf (s : State) (g : GraphImage) (x : SplitImage) (r : List Byte) : SplitSt :=
  SplitSt.recut ⟨fieldAt r 0 2, fieldAt r 2 1 == 1, fieldAt r 3 1 == 2, x, fieldAt r 4 2⟩ (s.splitPieces g)

/-! ### Room, pins, units (R35, R101, R307, R413) -/

/-- Byte ranges of the vehicle-resident model region that are taken: context-0 graphs, and the golden ranges of the image (R384). -/
def State.residentTaken (s : State) : List (Nat × Nat) :=
  (s.models.filter (fun m => bits m.handle 44 4 == 0)).map (fun m => (m.base, m.base + m.image.bytes)) ++ s.golden.map (fun g => (g.1, g.1 + g.2))

/-- Where a context-0 graph of `n` bytes goes: the lowest gap of the region, on a 32-byte boundary. (DESIGN CHOICE: log 64) -/
def State.residentGap (s : State) (n : Nat) : Option Nat :=
  let taken := s.residentTaken
  ((0x40000000 :: taken.map (fun r => ceilDiv r.2 32 * 32)).filter (fun a =>
    0x40000000 ≤ a && a + n ≤ 0x240000000 && !meets [(a, a + n)] taken)).foldl (fun m a => some (m.elim a (min a))) none

/-- Pinned entries of Anvil n (R101). -/
def State.pinsOf (s : State) (n : Nat) : Nat := ((s.models.flatMap (·.pinned)).filter (fun p => p.1 == n)).length

/-- Instructions that a graph at `base` pins (R101): the first ones of each Anvil list that asks for it. -/
def graphPins (g : GraphImage) (base : Nat) (image : List Byte) : List (Nat × Nat × List Byte) :=
  (g.lists.filter (fun l => l.unit.val < 64)).flatMap (fun l =>
    ((listCode l image).take l.pins).zipIdx.map (fun e => (l.unit.val, base + l.offset + (if l.marmer then 16 else 32) * e.2, e.1)))

/-- The device cannot take the graph (R101, R307, R413): no pins left, no serial left, or a unit that a context-0 graph needs is absent, fenced or
not enabled. (DESIGN CHOICE: log 64) -/
def State.noRoom (s : State) (c : Nat) (g : GraphImage) (pins : List (Nat × Nat × List Byte)) : Bool :=
  (List.range 64).any (fun n => 448 < s.pinsOf n + (pins.filter (fun p => p.1 == n)).length)
    || 0xFFFFFFFF ≤ SMap.getD s.serials c 0
    || (c == 0 && ((graphStages g).flatten ++ g.lists.map (fun l => l.unit.val)).any (fun u =>
      !s.present u || s.flag (unitFence u) || !s.flag (unitEnable u)))

/-! ### LOAD_MODEL (R306) -/

/-- The load report (R306). -/
def loadReport (handle : Nat) (ref : Option (Nat × Nat × Nat × Nat × Nat)) : List Byte :=
  let (k, u, l, i, why) := ref.getD (0, 0, 0, 0, 0)
  leBytes 1 1 ++ leBytes 1 0 ++ leBytes 1 k ++ leBytes 1 u ++ leBytes 8 handle ++ leBytes 2 l ++ leBytes 2 i ++ leBytes 1 why
    ++ leBytes 15 0

/-- What the report gives for a load that a split record refuses, and no instruction: open. (DESIGN CHOICE: log 157) -/
def State.openRefusal (s : State) : State × (Nat × Nat × Nat × Nat × Nat) :=
  let (s, a) := s.free
  let (s, b) := s.free
  let (s, c) := s.free
  let (s, d) := s.free
  let (s, e) := s.free
  (s, (a % 256, b % 256, c % 65536, d % 65536, e % 256))

/-- What refuses the load: an instruction, or a split record (R111, R139). -/
def State.loadRefused (s : State) (g : GraphImage) (image : List Byte) : State × Option (Nat × Nat × Nat × Nat × Nat) :=
  match s.firstRefused g image with
  | some r => (s, some r)
  | none =>
    if g.splits.any (fun x => splitBad (splitRecord x image)) then
      let (s, r) := s.openRefusal
      (s, some r)
    else (s, none)

/-- The age table takes the entries of a context-0 graph's published results (R375). -/
def State.fillAges (s : State) (g : GraphImage) : State :=
  (g.results.zip g.ages).foldl (fun s e =>
    (s.setFld (Reg.SFI_AGE_MASK.STREAMS ((g.ageBase + e.1) % 256)) e.2.1).setFld (Reg.SFI_AGE_LIMIT.LIMIT_US ((g.ageBase + e.1) % 256)) e.2.2) s

/-- The graph is loaded at `base` under a new handle. -/
def State.addModel (s : State) (c base handle : Nat) (g : GraphImage) (image : List Byte) (pins : List (Nat × Nat × List Byte)) : State :=
  let m : Model := ⟨handle, base, g, g.splits.map (fun x => s.splitOf g x (splitRecord x image)), pins, false⟩
  let s := { s with serials := SMap.insert s.serials c (SMap.getD s.serials c 0 + 1), models := s.models ++ [m] }
  if c = 0 then s.fillAges g else s

/-- Where a graph's image lies when it is loaded: a context-0 graph in the vehicle-resident region, if it has a gap, others in place (R306). -/
def State.modelBase (s : State) (c input : Nat) (g : GraphImage) : Option Nat := if c = 0 then s.residentGap g.bytes else some input

/-- A context-0 image is written to its place (R306). -/
def State.placeImage (s : State) (c base : Nat) (image : List Byte) : State × Option AccErr :=
  if c = 0 then s.write (s.req 0x60 c) base image else (s, none)

/-- A graph that passed the check is loaded, and reported; where a write fails it is not, and the job ends with FAULT. (DESIGN CHOICE: log 157) -/
def State.loadGraph (s : State) (c base : Nat) (j : Job) (g : GraphImage) (image : List Byte) (pins : List (Nat × Nat × List Byte)) : State :=
  let handle := s.gen c * 2 ^ 48 + c * 2 ^ 44 + (SMap.getD s.serials c 0 + 1)
  let (s, e) := s.placeImage c base image
  if e.isSome then s.enqueueRec c j.cq (s.recordOf j 2 8)
  else
    let (s, e) := s.write (s.req 0x60 c) j.output (loadReport handle none)
    if e.isSome then s.enqueueRec c j.cq (s.recordOf j 2 8)
    else
      let s := s.addModel c base handle g image pins
      s.enqueueRec c j.cq (s.recordOf j 0 0)

/-- A load that fails with REFUSED or RESOURCE: the report, and the record. -/
def State.loadFails (s : State) (c : Nat) (j : Job) (ref : Option (Nat × Nat × Nat × Nat × Nat)) (status : Nat) : State :=
  let (s, _) := s.write (s.req 0x60 c) j.output (loadReport 0 ref)
  let (k, u, _, i, why) := ref.getD (0, 0, 0, 0, 0)
  s.enqueueRec c j.cq (s.recordOf { j with detail := why, unitKind := k, index := i, unit := u } 2 status)

/-- LOAD_MODEL once the image has been read whole. -/
def State.loadImage (s : State) (c input : Nat) (pin : Bool) (j : Job) (g : GraphImage) (image : List Byte) : State :=
  match s.loadRefused g image with
  | (s, some r) => s.loadFails c j (some r) 2
  | (s, none) =>
    match s.modelBase c input g with
    | none => s.loadFails c j none 11
    | some base =>
      let pins := if pin then graphPins g base image else []
      if s.noRoom c g pins then s.loadFails c j none 11 else s.loadGraph c base j g image pins

/-- LOAD_MODEL (R111, R306, R307, R403, R413). Where the parts of the image at INPUT lie is the command's operand. (DESIGN CHOICE: log 7, 64) -/
def execLoadModel (c : Fin 16) (r : Fin 8) (image : GraphImage) (s : State) : Host.Outcome State Fault Refusal :=
  .next (s.takeDesc c r 2 (fun s d =>
    let input := fieldAt d 16 5
    let j := s.jobOf c r d .loadModel
    let (s, x) := s.read (s.req 0x60 c) input image.bytes
    if x.bad then
      let s := if x.poison && x.err.isNone then s.consumed 0x60 c input else s
      s.enqueueRec c j.cq (s.recordOf j 2 8)
    else s.loadImage c input (bitAt (fieldAt d 2 2) 4) j image x.bytes))

end Sys2Proof.Machine
end

