-- ==== Sys2Proof/Machine/Net.lean ====
section
/-! DEFINITION. PCIe, the vehicle Ethernet bridge and CAN as seen from their wires (R318, R334, R440 to R446, R459, R480). -/

namespace Sys2Proof.Machine

/-! ### PCIe memory requests (R440, R441) -/

/-- PCI_EVT_STATUS bit i (source 297). -/
def State.pciEvent (s : State) (i : Nat) : State := s.event ⟨Reg.PCI_EVT_STATUS, i, 1⟩ 297

/-- Device address of an offset of a BAR; none past its end. (DEDUCED: log 124) -/
def State.barAddress (s : State) (bar : Bar) (off len : Nat) : Option Nat :=
  match bar with
  | .bar0 => if off + len ≤ 0x40000000 then some (regBase + off) else none
  | .bar2 => none
  | .bar4 => if off + len ≤ 2 ^ s.modes.barLog2 then some (s.rd64 Reg.PCI_WIN_LO + off) else none

/-- An inbound request that is refused is counted. -/
def State.inboundRefused (s : State) : State := s.count Reg.PCI_STATUS.UR_CNT 1

/-- Data of a memory read as units with their poison marks. -/
def dataUnits (a : Nat) (bs : List Byte) (poisoned : Nat → Bool) : List DataUnit :=
  (unitPieces (bs.length / 32 + 2) a bs.length).map (fun p => ⟨(bs.drop (p.1 - a)).take p.2, poisoned p.1⟩)

/-- A byte of BAR2 (R440, R442): the MSI-X table's entries of address, data and mask, then the PBA. -/
def State.bar2Byte (s : State) (o : Nat) : Byte :=
  if o < 0x1000 then
    let e := SMap.getD s.msix.entries (o / 16) (0, 0)
    BitVec.ofNat 8 ((e.1 + 2 ^ 64 * e.2 + 2 ^ 96 * ofBool (!s.msix.unmasked.contains (o / 16))) / 2 ^ (8 * (o % 16)))
  else if o < 0x1020 then
    let waits (v : Nat) : Bool := (List.range 343).any (fun src =>
      s.fld (Reg.HIC_SRC_CFG.KIND src) == 1 && s.fld (Reg.HIC_SRC_CFG.TARGET src) == v && s.flag (Reg.HIC_SRC_STATE.PENDING src))
    BitVec.ofNat 8 ((List.range 8).foldl (fun m i => m + ofBool (waits (8 * (o - 0x1000) + i)) <<< i) 0)
  else 0

/-- Bytes of BAR2 are written: the table takes them, the PBA is read only. -/
def State.bar2Write (s : State) (o : Nat) (data : List Byte) : State :=
  let m := (List.range 256).foldl (fun (m : MsixSt) v =>
    if 16 * v + 16 ≤ o ∨ o + data.length ≤ 16 * v then m
    else
      let n := leNat ((List.range 16).map (fun i => if o ≤ 16 * v + i then data.getD (16 * v + i - o) (s.bar2Byte (16 * v + i)) else s.bar2Byte (16 * v + i)))
      { m with entries := SMap.insert m.entries v (bits n 0 64, bits n 64 32)
               unmasked := if bitAt n 96 then setErase m.unmasked v else setInsert m.unmasked v }) s.msix
  { s with msix := m }.pciePme

/-- An offset range lies in BAR2. -/
def inBar2 (bar : Bar) (off len : Nat) : Bool := bar == .bar2 && decide (off + len ≤ 0x2000)

/-- PCIE_MEM_READ: the data with the mark of a poisoned unit, or status UR. (DEDUCED: log 124) -/
def execPcieMemRead (bar : Bar) (off len : Nat) (s : State) : Host.Outcome State Fault Refusal :=
  .next (if inBar2 bar off len && s.operates && !s.inParked then
      s.send (.memData off (dataUnits off ((List.range len).map (fun i => s.bar2Byte (off + i))) (fun _ => false)))
    else match (if s.operates && !s.inParked then s.barAddress bar off len else none) with
    | none => s
    | some a =>
      if inRegs a then
        let ok := s.windowAllows .pcie a false
        let (s, v) := s.busRead .pcie a len
        if ok then s.send (.readData a v) else s.inboundRefused.send (.pcieError off)
      else
        let (s, r) := s.read (s.req 0xC0 0) a len
        if r.err.isSome then s.inboundRefused.send (.pcieError off)
        else s.send (.memData a (dataUnits a r.bytes (fun x => s.isPoisoned x || (SMap.getD s.damage (x / 32) 0 == 2)))))

/-- A posted write that is refused: counted, and logged as an advisory non-fatal error. -/
def State.advisory (s : State) : State := (s.inboundRefused.setFld Reg.PCI_STATUS.AER 1).syncSrc 317

/-- PCIE_MEM_WRITE: performed in the order received. (DEDUCED: log 124) -/
def execPcieMemWrite (bar : Bar) (off : Nat) (data : List Byte) (s : State) : Host.Outcome State Fault Refusal :=
  .next (if inBar2 bar off data.length && s.operates && !s.inParked then s.bar2Write off data
    else match (if s.operates && !s.inParked then s.barAddress bar off data.length else none) with
    | none => s
    | some a =>
      if inRegs a then
        let ok := s.windowAllows .pcie a true
        let s := s.busWrite .pcie a data.length (leNat data)
        if ok then s else s.advisory
      else
        let (s, e) := s.write (s.req 0xC0 0) a data
        if e.isSome then s.advisory else s)

/-! ### The endpoint (R318, R441, R442, R480) -/

/-- The link takes a state, with its events. -/
def State.linkTakes (s : State) (link speed width : Nat) : State :=
  let was := s.fld Reg.PCI_STATUS.LINK
  let s := s.setFld Reg.PCI_STATUS.LINK link
  let s := (s.setFld Reg.PCI_STATUS.SPEED (if link = 0 then 0 else speed)).setFld Reg.PCI_STATUS.WIDTH (if link = 0 then 0 else width)
  if was = 0 ∧ link = 1 then s.pciEvent 0 else if was = 1 ∧ link = 0 then s.pciEvent 1 else s

/-- PCIE_PERST: the low level resets the endpoint and its configuration space, and a new BAR4 size takes effect; the rising edge in PARKED, or
during another wake, is a vehicle wake event, and ends PCIE_WAKE_n. (DEDUCED: log 124) -/
def execPciePerst (level : Bool) (s : State) : Host.Outcome State Fault Refusal :=
  .next (
    let was := s.modes.perst
    let s := s.modModes (fun m => { m with perst := level })
    if !s.operates then s
    else if !level then
      if s.inParked || !was then s
      else
        let s := ((s.linkTakes 0 0 0).setFld Reg.PCI_STATUS.DSTATE 0).pciEvent 3
        { s with msix := .fresh, modes := { s.modes with barLog2 := s.fld Reg.PCI_WIN_SIZE.LOG2 } }
    else if was then s
    else
      let s := s.releasePcieWake
      if s.inParked || ((s.modes.wake == 2 || s.modes.wake == 3) && s.inDrive) then s.vehicleWake 2 else s)

/-- PCIE_DSTATE_CHANGE (R442): D0, or D3hot, in which a pending source may send PME. (DEDUCED: log 123) -/
def execPcieDstateChange (d3 : Bool) (s : State) : Host.Outcome State Fault Refusal :=
  .next (
    let v := if d3 then 3 else 0
    if !s.operates || s.inParked || s.fld Reg.PCI_STATUS.DSTATE = v then s
    else ((s.setFld Reg.PCI_STATUS.DSTATE v).pciEvent 2).pciePme)

/-- PCIE_LINK_STATE_CHANGE (R318, R442, R480): while PCIE_PERST_n is low the link stays down. (DEDUCED: log 122) -/
def execPcieLinkStateChange (link speed : Fin 6) (width : Fin 16) (s : State) : Host.Outcome State Fault Refusal :=
  .next (if !s.operates || s.inParked || (!s.modes.perst && link.val != 0) then s
    else
      let s := s.linkTakes link speed width
      if link.val = 1 then s.releasePcieWake else s.pciePme)

/-- PCIE_CONFIG_WRITE (R442). (DEDUCED: log 122) -/
def execPcieConfigWrite (w : CfgWrite) (s : State) : Host.Outcome State Fault Refusal :=
  .next (if !s.operates || s.inParked || !s.modes.perst then s
    else
      let m := s.msix
      let m := match w with
        | .msixEnable on => { m with enabled := on }
        | .functionMask on => { m with masked := on }
        | .vectorMask v on => { m with unmasked := if on then setErase m.unmasked v.toNat else setInsert m.unmasked v.toNat }
        | .vectorEntry v a d => { m with entries := SMap.insert m.entries v.toNat (a.toNat, d.toNat) }
        | .pmeEnable on => { m with pmeEn := on }
      ({ s with msix := m }).pciePme)

/-! ### The Ethernet bridge (R443, R444) -/

/-- Layer 2 of a frame: destination, VLAN (0 untagged), EtherType, payload. -/
structure Layer2 where
  dest : Nat
  vlan : Nat
  type : Nat
  payload : List Byte
  deriving DecidableEq, Repr

/-- Parse a frame. (DEDUCED: log 119; PRESUMED: log 120) -/
def parseEth (bs : List Byte) : Layer2 :=
  let at_ (i n : Nat) : Nat := beNat ((bs.drop i).take n)
  if at_ 12 2 = 0x8100 then ⟨at_ 0 6, at_ 14 2 % 4096, at_ 16 2, bs.drop 18⟩ else ⟨at_ 0 6, 0, at_ 12 2, bs.drop 14⟩

/-- ETH_MAC. -/
def State.ethMac (s : State) : Nat := s.rd64 Reg.ETH_MAC_LO % 2 ^ 48

/-- Ports of the entries that a frame matches by VLAN and destination: union of PORTS, or none. (DEDUCED: log 119) -/
def State.forwardPorts (s : State) (f : Layer2) : Option Nat :=
  let hits := (List.range 64).filter (fun i => s.flag (Reg.ETH_FWD.VALID i) && s.fld (Reg.ETH_FWD.VLAN i) == f.vlan
    && (s.fld (Reg.ETH_FWD_MAC.MAC_LO i) + 2 ^ 32 * s.fld Reg.ETH_MAC_HI.MAC_HI == f.dest))
  if hits.isEmpty then none else some (hits.foldl (fun m i => m ||| s.fld (Reg.ETH_FWD.PORTS i)) 0)

/-- A UDP datagram in a frame: destination port, payload, and whether it is whole and its checksum holds (R279). -/
structure Udp where
  port : Nat
  payload : List Byte
  good : Bool
  deriving DecidableEq, Repr

/-- UDP over what the IP header says: source and destination addresses, fragmentation, the IP payload. (PRESUMED: log 120) -/
def udpOf (pseudo : List Byte) (fragment : Bool) (bs : List Byte) : Option Udp :=
  if bs.length < 8 then none
  else
    let len := beNat ((bs.drop 4).take 2)
    let sum := beNat ((bs.drop 6).take 2)
    let whole := 8 ≤ len && len ≤ bs.length
    let data := bs.take len
    let check := inetSum (pseudo ++ beBytes 4 len ++ beBytes 4 17 ++ data)
    some ⟨beNat ((bs.drop 2).take 2), data.drop 8, whole && !fragment && (sum == 0 || check == 0)⟩

/-- The UDP datagram of a frame, if it is one with a visible port: IPv4 or IPv6, first fragments included. (PRESUMED: log 120) -/
def parseUdp (f : Layer2) : Option Udp :=
  let b := f.payload
  let at_ (i n : Nat) : Nat := beNat ((b.drop i).take n)
  if f.type = 0x0800 then
    let ihl := 4 * bits (at_ 0 1) 0 4
    let total := at_ 2 2
    if at_ 0 1 / 16 ≠ 4 ∨ at_ 9 1 ≠ 17 ∨ ihl < 20 ∨ total < ihl ∨ b.length < total ∨ at_ 6 2 % 8192 ≠ 0 then none
    else udpOf ((b.drop 12).take 8) (bitAt (at_ 6 2) 13) ((b.take total).drop ihl)
  else if f.type = 0x86DD then
    let total := 40 + at_ 4 2
    if at_ 0 1 / 16 ≠ 6 ∨ b.length < total then none
    else if at_ 6 1 = 17 then udpOf ((b.drop 8).take 32) false ((b.take total).drop 40)
    else if at_ 6 1 = 44 ∧ at_ 40 1 = 17 ∧ at_ 42 2 / 8 = 0 then udpOf ((b.drop 8).take 32) true ((b.take total).drop 48)
    else none
  else none

/-- A frame refused towards E2. -/
def State.e2Drop (s : State) : State := (s.count Reg.ETH_DROP.E2_CNT 1).event Reg.ETH_EVT_STATUS.E2_DROP 298

/-- Deliver to E2, with the stamp of the frame's arrival (R334): only a UDP datagram for the port of an enabled point stream (R444). -/
def State.toE2 (s : State) (f : Layer2) : State :=
  match parseUdp f with
  | none => s.e2Drop
  | some u =>
    let js := (List.range 8).filter (fun j => s.streamOn (16 + j) && tmplPort (s.stream (16 + j)).tmpl == u.port
      && !(s.stream (16 + j)).tmpl.isEmpty)
    if js.isEmpty then s.e2Drop
    else
      let (s, stamp) := s.stampNs
      js.foldl (fun (s : State) j => if u.good then s.pointDatagram j ⟨u.port, u.payload, stamp⟩ else s.badDatagram j) s

/-- Send a frame on E0 or E1, when the port runs and its link is up. -/
def State.ethTransmit (s : State) (p : Nat) (bs : List Byte) : State :=
  if s.flag (Reg.ETH_PORT_CTL.ENABLE p) && s.flag (Reg.ETH_PORT_STATUS.LINK p) then s.send (.eth p bs) else s

/-- ETH_FRAME_RECEIVED (R443, R444): by static entry to the other port, to E2, to the time unit, or dropped. A gPTP frame is the time unit's:
its content comes with the commands of R333 to R337. Received frames are counted. (DEDUCED: log 119) -/
def execEthFrameReceived (p : Fin 2) (f : EthFrame) (s : State) : Host.Outcome State Fault Refusal :=
  .next (if !s.operates || s.inParked || !s.flag (Reg.ETH_PORT_CTL.ENABLE p) then s
    else if !f.fcsOk then s.count (Reg.ETH_PORT_STATUS.CRC_CNT p) 1
    else if 1522 < f.bytes.length + 4 then s
    else
      let s := { s with ethRx := s.ethRx.set p (s.ethRx.getD p 0 + 1) }
      let l := parseEth f.bytes
      if l.type = 0x88F7 ∧ l.dest = 0x0180C200000E then s
      else
        match s.forwardPorts l with
        | some m =>
          let s := if bitAt m (1 - p.val) then s.ethTransmit (1 - p.val) f.bytes else s
          if bitAt m 2 || l.dest == s.ethMac then s.toE2 l else s
        | none =>
          if l.dest = s.ethMac then s.toE2 l
          else (s.count Reg.ETH_DROP.NOFWD_CNT 1).event Reg.ETH_EVT_STATUS.NOFWD 298)

/-- ETH_PORT_LINK_CHANGE (R459). -/
def execEthPortLinkChange (p : Fin 2) (up : Bool) (s : State) : Host.Outcome State Fault Refusal :=
  .next (if !s.operates || s.inParked || (up && !s.flag (Reg.ETH_PORT_CTL.ENABLE p)) then s
    else (s.setFlag (Reg.ETH_PORT_STATUS.LINK p) up).syncSrc (318 + p.val))

/-! ### CAN (R445, R446) -/

/-- A controller takes part on the bus. -/
def State.canOn (s : State) (k : Nat) : Bool :=
  s.operates && !s.inParked && s.flag (Reg.ETH_CAN_CTL.ENABLE k) && s.fld (Reg.ETH_CAN_STATUS.STATE k) != 2

/-- Receive a frame: its stamp, and RX where it passes the controller's filters, whose contents the manual does not give a register: a free
value. (DESIGN CHOICE: log 114) -/
def State.canReceive (s : State) (k : Nat) (f : CanFrame) : State :=
  let (s, pass) := s.free
  let s := { s with canRx := SMap.insert s.canRx k (f, s.nowNs) }
  if pass % 2 = 1 then s.event (Reg.ETH_CAN_STATUS.RX k) (299 + k) else s

/-- CAN_FRAME_RECEIVED (R445). -/
def execCanFrameReceived (k : Fin 2) (f : CanFrame) (s : State) : Host.Outcome State Fault Refusal :=
  .next (if s.canOn k then s.canReceive k f else s)

/-- The frame carries the identifier of the parked confirmation, on its controller. -/
def State.isParkFrame (s : State) (k : Nat) (f : CanFrame) : Bool :=
  let m := if f.ide then 2 ^ 29 else 2 ^ 11
  s.fld Reg.ETH_CAN_PARK.CH == k && f.ide == s.flag Reg.ETH_CAN_PARK.IDE && f.id % m == s.fld Reg.ETH_CAN_PARK.ID % m

/-- Every field of a parked confirmation frame but its counter. -/
def parkFieldsOk (f : CanFrame) : Bool :=
  !f.fd && f.data.length == 8 && fieldAt f.data 0 1 == 1 && fieldAt f.data 1 1 == 0xA5 && fieldAt f.data 4 2 == 0
    && fieldAt f.data 6 2 == crc16Ccitt (f.data.take 6)

/-- Check a parked confirmation frame: the first after PORST or SYS needs no counter and does not make the confirmation valid. (DEDUCED: log 121) -/
def State.parkFrame (s : State) (k : Nat) (f : CanFrame) : State :=
  let c := fieldAt f.data 2 2
  let step := match s.modes.confCounter with | none => 1 | some o => (c + 65536 - o) % 65536
  if !parkFieldsOk f || step = 0 || decide (15 < step) then s.count (Reg.ETH_CAN_STATUS.PARK_BAD_CNT k) 1
  else
    let first := s.modes.confCounter.isNone
    let s := s.modModes (fun m => { m with confCounter := some c, confAt := s.nowNs })
    if first then s else s.setFld (Reg.ETH_CAN_STATUS.PARK_VALID k) 1

/-- PARKED_CONFIRMATION (R446). -/
def execParkedConfirmation (k : Fin 2) (f : CanFrame) (s : State) : Host.Outcome State Fault Refusal :=
  .next (if !s.canOn k then s
    else
      let s := s.canReceive k f
      if s.isParkFrame k f then s.parkFrame k f else s)

/-- PARK_CONFIRMATION_TIMEOUT (R446): a confirmation that was valid ceases to be, which is a trigger (R476). -/
def execParkConfirmationTimeout (s : State) : Host.Outcome State Fault Refusal :=
  .next (if !s.parkValid || s.inParked then s
    else
      let k := s.fld Reg.ETH_CAN_PARK.CH
      let s := s.expire (s.modes.confAt + 1000000 * s.fld Reg.ETH_CAN_PARK_TMO.TIMEOUT_MS)
      ((s.setFld (Reg.ETH_CAN_STATUS.PARK_VALID k) 0).event (Reg.ETH_CAN_STATUS.PARK_LOST k) (299 + k)).trigger 3)

/-- CAN_BUS_OFF (R445). -/
def execCanBusOff (k : Fin 2) (s : State) : Host.Outcome State Fault Refusal :=
  .next (if s.canOn k then (s.setFld (Reg.ETH_CAN_STATUS.STATE k) 2).event (Reg.ETH_CAN_STATUS.BUS_OFF k) (299 + k) else s)

/-- BUS_OFF_RECOVERY (R445). -/
def execBusOffRecovery (k : Fin 2) (s : State) : Host.Outcome State Fault Refusal :=
  .next (if s.fld (Reg.ETH_CAN_STATUS.STATE k) = 2 then s.setFld (Reg.ETH_CAN_STATUS.STATE k) 0 else s)

end Sys2Proof.Machine
end

