-- ==== Sys2Proof/Machine/Post.lean ====
section
/-! DEFINITION. Post-processing units: detection lists (R220 to R225, R228, R229). -/

namespace Sys2Proof.Machine

/-! ### The DETECT block (R220) -/

def dtBox (b : List Byte) : Nat := bits (fieldAt b 2 1) 6 2
def dtAll (b : List Byte) : Bool := bitAt (fieldAt b 2 1) 5
def dtSigmoid (b : List Byte) : Bool := bitAt (fieldAt b 2 1) 4
def dtClip (b : List Byte) : Bool := bitAt (fieldAt b 2 1) 3
def dtFmtBox (b : List Byte) : Nat := bits (fieldAt b 3 1) 4 4
def dtFmtScore (b : List Byte) : Nat := bits (fieldAt b 3 1) 0 4
def dtN (b : List Byte) : Nat := fieldAt b 4 2
def dtNcls (b : List Byte) : Nat := fieldAt b 6 2
def dtMaxOut (b : List Byte) : Nat := fieldAt b 8 2
def dtFmtAnchor (b : List Byte) : Nat := bits (fieldAt b 10 1) 0 4
def dtIou (b : List Byte) : Nat := fieldAt b 12 4
def dtMin (b : List Byte) : Nat := fieldAt b 16 4
def dtVar (b : List Byte) (i : Nat) : Nat := fieldAt b (20 + 4 * i) 4
def dtClamp (b : List Byte) : Nat := fieldAt b 36 4
def dtImgW (b : List Byte) : Nat := fieldAt b 40 4
def dtImgH (b : List Byte) : Nat := fieldAt b 44 4
def dtBoxAddr (b : List Byte) : Nat := blkAddr b 48
def dtScoreAddr (b : List Byte) : Nat := blkAddr b 56
def dtAnchorAddr (b : List Byte) : Nat := blkAddr b 64
def dtOut (b : List Byte) : Nat := blkAddr b 72

/-- Bytes of the three input arrays, and the most that may be written. -/
def dtBoxLen (b : List Byte) : Nat := rowBytes (dtFmtBox b) (4 * dtN b)
def dtScoreLen (b : List Byte) : Nat := rowBytes (dtFmtScore b) (dtN b * dtNcls b)
def dtAnchorLen (b : List Byte) : Nat := rowBytes (dtFmtAnchor b) (4 * dtN b)
/-- (DEDUCED: log 49) -/
def dtOutLen (b : List Byte) : Nat := 32 + 32 * min (dtMaxOut b) (if dtAll b then dtN b * dtNcls b else dtN b)

def dtReasons (b : List Byte) : List Nat :=
  let anchor := dtBox b == 0
  blockHead b 0x50
    ++ why (bits (fieldAt b 2 1) 0 3 != 0 || bits (fieldAt b 10 1) 4 4 != 0 || fieldAt b 11 1 != 0 || !zeroAt b 80 16 || blkHigh b 48
        || blkHigh b 56 || (anchor && blkHigh b 64) || blkHigh b 72) 0x03
    ++ why (dtFmtBox b < 4 || 6 < dtFmtBox b || dtFmtScore b < 2 || 6 < dtFmtScore b
        || (anchor && dtFmtAnchor b != fmtFp16 && dtFmtAnchor b != fmtFp32)) 0x04
    ++ why (!boundsSpan (dtBoxAddr b) (dtBoxLen b) || !boundsSpan (dtScoreAddr b) (dtScoreLen b)
        || (anchor && !boundsSpan (dtAnchorAddr b) (dtAnchorLen b)) || !boundsSpan (dtOut b) (dtOutLen b)) 0x12
    ++ why (dtBoxAddr b % 32 != 0 || dtScoreAddr b % 32 != 0 || (anchor && dtAnchorAddr b % 32 != 0) || dtOut b % 32 != 0) 0x13
    ++ why (16384 < dtN b || dtNcls b == 0 || 1024 < dtNcls b || dtMaxOut b == 0 || 1024 < dtMaxOut b
        || !fle 0 (dtIou b) || !fle (dtIou b) fOne) 0x30
    ++ why (dtBox b == 3) 0x40

/-! ### Boxes and entries (R221, R222) -/

/-- A box in corner form: x1, y1, x2, y2. -/
structure Corners where
  x1 : Nat
  y1 : Nat
  x2 : Nat
  y2 : Nat
  deriving DecidableEq, Repr

def fHalf : Nat := 0x3F000000

/-- The box of four values, with its anchor (R221). -/
def boxOf (b : List Byte) (t a : List Nat) : Corners :=
  let g (l : List Nat) (i : Nat) : Nat := l.getD i 0
  let centre : Nat × Nat × Nat × Nat :=
    if dtBox b = 0 then
      (ffma (fmul (g t 0) (dtVar b 0)) (g a 2) (g a 0), ffma (fmul (g t 1) (dtVar b 1)) (g a 3) (g a 1),
        fmul (g a 2) (fex (fmin (fmul (g t 2) (dtVar b 2)) (dtClamp b))), fmul (g a 3) (fex (fmin (fmul (g t 3) (dtVar b 3)) (dtClamp b))))
    else (g t 0, g t 1, g t 2, g t 3)
  let (cx, cy, w, h) := centre
  let r : Corners :=
    if dtBox b = 2 then ⟨g t 0, g t 1, g t 2, g t 3⟩
    else ⟨fsub cx (fmul fHalf w), fsub cy (fmul fHalf h), fadd cx (fmul fHalf w), fadd cy (fmul fHalf h)⟩
  if dtClip b then
    let clip (top x : Nat) : Nat := fmin (fmax x 0) top
    ⟨clip (dtImgW b) r.x1, clip (dtImgH b) r.y1, clip (dtImgW b) r.x2, clip (dtImgH b) r.y2⟩
  else r

def Corners.bad (r : Corners) : Bool := fnan r.x1 || fnan r.y1 || fnan r.x2 || fnan r.y2

/-- One entry: candidate, class, score, box. -/
structure Det where
  index : Nat
  cls : Nat
  score : Nat
  box : Corners
  deriving DecidableEq, Repr

def Det.nan (e : Det) : Bool := fnan e.score || e.box.bad

/-- Index of the largest score; NaN ranks below every number, ties to the lowest class. -/
def bestClass (l : List Nat) : Nat :=
  (l.zipIdx.foldl (fun (best : Option (Nat × Nat)) e =>
    if fnan e.1 then best
    else match best with
      | none => some e
      | some m => if flt m.1 e.1 then some e else best) none).elim 0 (·.2)

/-- The entries of one candidate. -/
def entriesOf (all : Bool) (i : Nat) (scores : List Nat) (box : Corners) : List Det :=
  if all then scores.zipIdx.map (fun e => ⟨i, e.2, e.1, box⟩)
  else let k := bestClass scores; [⟨i, k, scores.getD k 0, box⟩]

/-- Insert into a list ordered by score descending, after its equals. -/
def insertDet (e : Det) : List Det → List Det
  | [] => [e]
  | x :: t => if flt x.score e.score then e :: x :: t else x :: insertDet e t

/-- Order by score descending; equals stay in candidate and class order. -/
def sortDets (l : List Det) : List Det := l.foldl (fun acc e => insertDet e acc) []

/-! ### Suppression (R223) -/

def areaOf (r : Corners) : Nat := fmul (fmax 0 (fsub r.x2 r.x1)) (fmax 0 (fsub r.y2 r.y1))

/-- Entry a is suppressed by the kept entry b. -/
def suppressed (iou : Nat) (a b : Corners) : Bool :=
  let ix := fmax 0 (fsub (fmin a.x2 b.x2) (fmax a.x1 b.x1))
  let iy := fmax 0 (fsub (fmin a.y2 b.y2) (fmax a.y1 b.y1))
  let inter := fmul ix iy
  let uni := fsub (fadd (areaOf a) (areaOf b)) inter
  flt (fmul iou uni) inter

/-- The walk: kept entries in order, until MAX_OUT are kept. -/
def walkDets (iou most : Nat) : List Det → List Det → List Det
  | kept, [] => kept
  | kept, e :: t =>
    if most ≤ kept.length then kept
    else if kept.any (fun k => k.cls == e.cls && suppressed iou e.box k.box) then walkDets iou most kept t
    else walkDets iou most (kept ++ [e]) t

/-- The first entry that the walk compares with a kept one. -/
def firstCompared (l : List Det) : Option Det := (l.zipIdx.find? (fun e => (l.take e.2).any (fun k => k.cls == e.1.cls))).map (·.1)

/-! ### DETECT (R222, R224) -/

/-- Header bytes. -/
def dtHeader (poison : Bool) (count entries dropped : Nat) : List Byte :=
  padTo 32 (leBytes 1 1 ++ leBytes 1 (128 * ofBool poison) ++ leBytes 2 count ++ leBytes 4 entries ++ leBytes 4 dropped)

/-- Record bytes. -/
def Det.bytes (e : Det) : List Byte :=
  padTo 32 (leBytes 4 e.box.x1 ++ leBytes 4 e.box.y1 ++ leBytes 4 e.box.x2 ++ leBytes 4 e.box.y2 ++ leBytes 4 e.score ++ leBytes 2 e.cls
    ++ leBytes 2 e.index)

/-- Signature records of a kept entry of rank j (R229). -/
def Det.records (e : Det) (j : Nat) : List (List Byte) :=
  [e.box.x1, e.box.y1, e.box.x2, e.box.y2, e.score].zipIdx.map (fun v => sigRecord j v.2 0 fmtFp32 0 v.1 0)
    ++ [sigRecord j 5 0 fmtInt32 0 (e.cls + 65536 * e.index) 0]

/-- Decode every candidate (R221, R222). -/
def detsOf (b box score anchor : List Byte) : List Det :=
  let t := (valuesOf (dtFmtBox b) (4 * dtN b) box).map toF32
  let a := if dtBox b = 0 then (valuesOf (dtFmtAnchor b) (4 * dtN b) anchor).map toF32 else []
  let sc := (valuesOf (dtFmtScore b) (dtN b * dtNcls b) score).map toF32
  let sc := if dtSigmoid b then sc.map (act 4 0 0) else sc
  (List.range (dtN b)).flatMap (fun i =>
    entriesOf (dtAll b) i ((sc.drop (i * dtNcls b)).take (dtNcls b)) (boxOf b ((t.drop (4 * i)).take 4) ((a.drop (4 * i)).take 4)))

/-- Write the list: header and records (R224). (DEDUCED: log 49; PRESUMED: log 50) -/
def State.dtWrite (s : State) (u : Nat) (b : List Byte) (kept : List Det) (entries dropped : Nat) (poison : Bool) (bad : Det → Bool) : State :=
  let s := s.emit u (sigRecord 0xFFFF 0 0 fmtInt32 0 kept.length 0)
  let s := kept.zipIdx.foldl (fun s e => (e.1.records e.2).foldl (fun s r => s.emit u r) s) s
  let s := s.unitWrite u (dtOut b) (dtHeader poison kept.length entries dropped) false
  kept.zipIdx.foldl (fun s e => s.unitWrite u (dtOut b + 32 + 32 * e.2) e.1.bytes (poison || bad e.1)) s

/-- Finish a DETECT from what it has read. (DEDUCED: log 46, 49) -/
def State.dtRun (s : State) (u : Nat) (b box score anchor : List Byte) (poison : Bool) : State :=
  let n := u - 76
  let dets := detsOf b box score anchor
  let nans := dets.filter Det.nan
  let good := sortDets (dets.filter (fun e => !e.nan && fle (dtMin b) e.score))
  let within := good.take 16384
  let dropped := good.length - within.length
  let kept := walkDets (dtIou b) (dtMaxOut b) [] within
  let s := s.count (Reg.PPU_RESULT.NAN_CNT n) nans.length
  let s := if dropped = 0 then s else (s.count (Reg.PPU_RESULT.DROP_CNT n) dropped).unitEvent u 1
  let (s, badA) := s.spendDup u 1 0 (dtN b != 0)
  let firstCand := if s.isChecker u then dtN b - 1 else 0
  let pair := firstCompared within
  let (s, badB) := s.spendDup u 2 1 pair.isSome
  s.dtWrite u b kept good.length dropped poison (fun e => (badA && e.index == firstCand) || (badB && pair == some e))

/-- DETECT comes to issue. -/
def State.dtIssue (s : State) (u : Nat) (d : Ins) : Issue :=
  let (p, b) := s.blockFetch u d
  if b.isEmpty then .refuse p.s (blockWord u d 0) (p.s.pc u)
  else
    p.check u (blockAddr d) (blockWord u d 0 ++ dtReasons b) (
      let (p, box) := p.read u (dtBoxAddr b) (dtBoxLen b)
      let (p, score) := p.read u (dtScoreAddr b) (dtScoreLen b)
      let (p, anchor) := if dtBox b = 0 then p.read u (dtAnchorAddr b) (dtAnchorLen b) else (p, [])
      let s := p.s.eatIf u (dtBoxAddr b) p.poison
      .done ((s.dtRun u b box score anchor p.poison).spendStall u))

/-- DETECT (R220). -/
def execDetect (u : Fin 2) (s : State) : Host.Outcome State Fault Refusal :=
  .next (s.issue (76 + u) [0x50] (fun d s => s.dtIssue (76 + u) d))

end Sys2Proof.Machine
end

