-- ==== Sys2Proof/Machine/Vector.lean ====
section
/-! DEFINITION. Swages: element-wise work, normalisation, reductions, the window path, and the acceptance test (R201 to R219, R226 to R231). -/

namespace Sys2Proof.Machine

/-! ### Tensors (R202, R205, R206) -/

/-- A tensor descriptor; strides in bytes. -/
structure Tensor where
  addr : Nat
  fmt : Nat
  low : Nat
  w : Nat
  h : Nat
  c : Nat
  rs : Nat
  ps : Nat
  deriving DecidableEq, Repr

def tensorAt (b : List Byte) (i : Nat) : Tensor :=
  ⟨fieldAt b i 5, bits (fieldAt b (i + 5) 1) 4 4, bits (fieldAt b (i + 5) 1) 0 4, fieldAt b (i + 6) 2, fieldAt b (i + 8) 2, fieldAt b (i + 10) 2,
    32 * fieldAt b (i + 12) 2, 256 * fieldAt b (i + 14) 2⟩

def Tensor.present (t : Tensor) : Bool := t.w != 0
def Tensor.rowAddr (t : Tensor) (c h : Nat) : Nat := t.addr + c * t.ps + h * t.rs
def Tensor.rowLen (t : Tensor) : Nat := rowBytes t.fmt t.w
/-- Rows in order of (c, h). -/
def Tensor.places (t : Tensor) : List (Nat × Nat) := (List.range t.c).flatMap (fun c => (List.range t.h).map (fun h => (c, h)))
/-- Byte ranges (first, one past the last). -/
def Tensor.ranges (t : Tensor) : List (Nat × Nat) := t.places.map (fun p => (t.rowAddr p.1 p.2, t.rowAddr p.1 p.2 + t.rowLen))

def Tensor.ok (t : Tensor) : Bool := t.ranges.all (fun r => swageOk r.1 (r.2 - r.1))

/-- Element formats that are not ZB and not reserved. -/
def swageFmt (f : Nat) : Bool := f ≤ 6 || f == 9

/-- Reasons of a present descriptor by itself. -/
def Tensor.reasons (t : Tensor) : List Nat :=
  if !t.present then []
  else
    why (t.low != 0) 0x03 ++ why (!swageFmt t.fmt) 0x04 ++ why (t.addr % 32 != 0) 0x13
      ++ why (t.h == 0 || t.c == 0 || t.rs < t.rowLen || (1 < t.c && t.ps < t.rs * t.h)) 0x30

/-- A descriptor that must be there, or must not. -/
def needs (t : Tensor) (want : Bool) : List Nat := why (t.present != want) 0x30

/-- A tensor as it was read. -/
structure TensorIn where
  t : Tensor
  rows : List (List Byte)

def Pull.tensor (p : Pull) (u : Nat) (t : Tensor) : Pull × TensorIn :=
  let (p, rows) := p.rows u t.rowLen (t.places.map (fun e => t.rowAddr e.1 e.2))
  (p, ⟨t, rows⟩)

/-- Read a tensor that is there. -/
def Pull.tensorIf (p : Pull) (u : Nat) (t : Tensor) : Pull × TensorIn := if t.present then p.tensor u t else (p, ⟨t, []⟩)

/-- Element code at a place. -/
def TensorIn.code (x : TensorIn) (c h w : Nat) : Nat :=
  let row := x.rows.getD (c * x.t.h + h) []
  if fmtBits x.t.fmt = 4 then bits (fieldAt row (w / 2) 1) (4 * (w % 2)) 4 else fieldAt row (w * (fmtBits x.t.fmt / 8)) (fmtBits x.t.fmt / 8)

/-- Its FP32 value (R207). -/
def TensorIn.val (x : TensorIn) (c h w : Nat) : Nat := toF32 (decode x.t.fmt (x.code c h w))

/-- Its value, broadcast along extents of 1 (R209). -/
def TensorIn.cast (x : TensorIn) (c h w : Nat) : Nat :=
  x.val (if x.t.c = 1 then 0 else c) (if x.t.h = 1 then 0 else h) (if x.t.w = 1 then 0 else w)

/-- Block fields of R204. -/
def vecSub (b : List Byte) : Nat := fieldAt b 2 1
def vecSat (b : List Byte) : Bool := bitAt (fieldAt b 3 1) 7
def vecRmode (b : List Byte) : Nat := bits (fieldAt b 3 1) 4 3
def vecAct (b : List Byte) : Nat := bits (fieldAt b 3 1) 0 4
def vecX (b : List Byte) : Tensor := tensorAt b 16
def vecY (b : List Byte) : Tensor := tensorAt b 32
def vecZ (b : List Byte) : Tensor := tensorAt b 48
def vecO (b : List Byte) : Tensor := tensorAt b 64
def vecP0 (b : List Byte) : Nat := fieldAt b 80 4
def vecP1 (b : List Byte) : Nat := fieldAt b 84 4

/-- ACT, then conversion to O's format (R207). -/
def vecConvert (b : List Byte) (x : Nat) : Nat :=
  encode (vecO b).fmt (vecRmode b) (vecSat b) (f32 (act (vecAct b) (vecP0 b) (vecP1 b) x))

/-- A reserved ACT code, or CLAMP parameters that R148 refuses. (DEDUCED: log 43) -/
def actBad (b : List Byte) : Bool :=
  8 < vecAct b || (vecAct b == 2 && (fnan (vecP0 b) || fnan (vecP1 b) || flt (vecP1 b) (vecP0 b)))

/-- Reasons every tensor block may have: its head, RMODE, its descriptors. -/
def vecReasons (b : List Byte) (kind top : Nat) (acts : Bool) : List Nat :=
  blockHead b kind ++ why (4 < vecRmode b) 0x07 ++ why (top < vecSub b || (acts && actBad b)) 0x40
    ++ (vecX b).reasons ++ (vecY b).reasons ++ (vecZ b).reasons ++ (vecO b).reasons

/-! ### Outputs (R95, R206, R228, R229) -/

/-- Pack the codes of a row; the upper half of an odd row's last byte is open (R45). -/
def State.packRow (s : State) (f : Nat) (codes : List Nat) : State × List Byte :=
  if fmtBits f = 4 then
    let (s, hi) : State × Nat := if codes.length % 2 = 0 then (s, 0) else let (s, k) := s.free; (s, k % 16)
    (s, (List.range ((codes.length + 1) / 2)).map (fun i => BitVec.ofNat 8 (codes.getD (2 * i) 0 + 16 * codes.getD (2 * i + 1) hi)))
  else (s, codes.flatMap (leBytes (fmtBits f / 8)))

/-- 32-byte units of the output that an input's bytes meet. (DEDUCED: log 47) -/
def overlapUnits (outs ins : List (Nat × Nat)) : List Nat :=
  (outs.flatMap (fun o => ((List.range ((o.2 + 31) / 32 - o.1 / 32)).map (fun i => o.1 / 32 + i)).filter (fun k =>
    ins.any (fun x => max (max o.1 x.1) (32 * k) < min (min o.2 x.2) (32 * k + 32))))).foldl setInsert []

/-- The content of those units is unspecified: free values. (DEDUCED: log 47) -/
def State.freeUnits (s : State) (u : Nat) (units : List Nat) (poison : Bool) : State :=
  units.foldl (fun s k =>
    let (s, bs) := s.freeBytes 32
    s.unitWrite u (32 * k) bs poison) s

/-- Write an output tensor: its records, its rows, and what an overlap spoils. `bad` says that its first element is poisoned. (DEDUCED: log 46) -/
def State.writeTensor (s : State) (u : Nat) (t : Tensor) (code : Nat → Nat → Nat → Nat) (ins : List (Nat × Nat)) (poison bad : Bool) : State :=
  let order := if s.isChecker u then
      (List.range t.c).flatMap (fun c => (List.range t.h).reverse.map (fun h => (c, h))) else t.places
  let first := order.headD (0, 0)
  let s := order.foldl (fun s p =>
    let codes := (List.range t.w).map (code p.1 p.2)
    let s := codes.zipIdx.foldl (fun s e => s.emit u (sigRecord p.2 e.2 (p.1 % 256) t.fmt (p.1 / 256) e.1 0)) s
    let (s, bs) := s.packRow t.fmt codes
    s.unitWriteRow u (t.rowAddr p.1 p.2) bs (fun i => poison || (bad && p == first && i < max 1 (fmtBits t.fmt / 8)))) s
  s.freeUnits u (overlapUnits t.ranges ins) poison

/-- The common end of an instruction of a Swage: consumption of poison, the injected output mismatch, the output. -/
def Pull.vecDone (p : Pull) (u : Nat) (b : List Byte) (code : Nat → Nat → Nat → Nat) (ins : List (Nat × Nat)) : Issue :=
  let s := p.s.eatIf u (vecX b).addr p.poison
  let (s, bad) := s.spendDup u 1 0 true
  .done ((s.writeTensor u (vecO b) code ins p.poison bad).spendStall u)

/-- Fetch and check an instruction's block, then go on. -/
def State.vecIssue (s : State) (u : Nat) (d : Ins) (reasons : List Byte → List Nat) (go : Pull → List Byte → Issue) : Issue :=
  let (p, b) := s.blockFetch u d
  if b.isEmpty then .refuse p.s (blockWord u d 0) (p.s.pc u) else p.check u (blockAddr d) (blockWord u d 0 ++ reasons b) (go p b)

/-! ### ELT (R208, R209) -/

def sameShape (a o : Tensor) : Bool := a.w == o.w && a.h == o.h && a.c == o.c
/-- Each extent equals that of X or is 1. -/
def casts (y x : Tensor) : Bool := (y.w == x.w || y.w == 1) && (y.h == x.h || y.h == 1) && (y.c == x.c || y.c == 1)

/-- Inputs that a SUB uses. -/
def eltUsesY (sub : Nat) : Bool := 1 ≤ sub
def eltUsesZ (sub : Nat) : Bool := sub == 4 || sub == 5

/-- (DEDUCED: log 48) -/
def eltReasons (b : List Byte) : List Nat :=
  let sub := vecSub b
  let x := vecX b
  let y := vecY b
  let z := vecZ b
  let o := vecO b
  let affine := sub == 8
  blockHead b 0x40 ++ why (4 < vecRmode b) 0x07 ++ why (8 < sub || actBad b) 0x40
    ++ x.reasons ++ z.reasons ++ o.reasons ++ why (!zeroAt b 4 12 || !zeroAt b 88 8) 0x03
    ++ (if affine then why (y.fmt != fmtFp32) 0x04 ++ why (y.addr % 32 != 0) 0x13 else y.reasons)
    ++ needs x true ++ needs o true ++ (if affine then [] else needs y (eltUsesY sub)) ++ needs z (eltUsesZ sub)
    ++ why (!sameShape o x || (eltUsesY sub && !affine && !casts y x) || (eltUsesZ sub && !casts z x)) 0x30
    ++ why (!x.ok || !o.ok || (if affine then !swageOk y.addr (8 * x.c) else y.present && !y.ok) || (z.present && !z.ok)) 0x12

/-- Result before ACT. -/
def eltOp (sub x y z : Nat) (pair : Nat × Nat) : Nat :=
  match sub with
  | 0 => x
  | 1 => fadd x y
  | 2 => fsub x y
  | 3 => fmul x y
  | 4 => ffma x y z
  | 5 => fadd (fmul x y) z
  | 6 => fmax x y
  | 7 => fmin x y
  | _ => ffma pair.1 x pair.2

/-- Ranges of an input unless the output is computed in place over it (R206). -/
def inPlace (o x : Tensor) : Bool :=
  o.addr == x.addr && o.rs == x.rs && o.ps == x.ps && sameShape o x && fmtBits o.fmt == fmtBits x.fmt
def inputRanges (o x : Tensor) : List (Nat × Nat) := if !x.present || inPlace o x then [] else x.ranges

/-- An FP32 pair of a packed array. -/
def pairBytes (v : List Byte) (i : Nat) : Nat × Nat := (fieldAt v (8 * i) 4, fieldAt v (8 * i + 4) 4)

def eltGo (u : Nat) (p : Pull) (b : List Byte) : Issue :=
  let sub := vecSub b
  let o := vecO b
  let affine := sub == 8
  let (p, x) := p.tensor u (vecX b)
  let (p, y) := if affine then (p, (⟨vecY b, []⟩ : TensorIn)) else p.tensorIf u (vecY b)
  let (p, z) := p.tensorIf u (vecZ b)
  let (p, sb) := if affine then p.read u (vecY b).addr (8 * (vecX b).c) else (p, [])
  let code (c h w : Nat) : Nat := vecConvert b (eltOp sub (x.val c h w) (y.cast c h w) (z.cast c h w) (pairBytes sb c))
  let ins := inputRanges o x.t ++ inputRanges o z.t
    ++ (if affine then [((vecY b).addr, (vecY b).addr + 8 * (vecX b).c)] else inputRanges o y.t)
  p.vecDone u b code ins

/-- ELT (R208). -/
def execElt (v : Fin 8) (s : State) : Host.Outcome State Fault Refusal :=
  .next (s.issue (68 + v) [0x40] (fun d s => s.vecIssue (68 + v) d eltReasons (eltGo (68 + v))))

/-! ### NORM (R210, R211) -/

def normStats (b : List Byte) : Bool := vecSub b == 2 || vecSub b == 3
def normLayer (b : List Byte) : Bool := vecSub b == 0 || vecSub b == 2
def normEps (b : List Byte) : Nat := fieldAt b 4 4

/-- (DEDUCED: log 48) -/
def normReasons (b : List Byte) : List Nat :=
  let x := vecX b
  let y := vecY b
  let z := vecZ b
  let o := vecO b
  let stats := normStats b
  vecReasons b 0x41 3 (!stats) ++ why (!zeroAt b 8 8 || !zeroAt b 88 8) 0x03
    ++ needs x true ++ needs o (!stats) ++ needs y (!stats) ++ needs z stats
    ++ why (!stats && !sameShape o x) 0x30
    ++ why (!x.ok || (if stats then !swageOk z.addr (8 * x.c * x.h) else !o.ok || !swageOk y.addr (8 * x.w))) 0x12

/-- mu and rs of a row (R210). -/
def normPair (layer : Bool) (eps : Nat) (x : List Nat) : Nat × Nat :=
  let n := fnat x.length
  let mu := if layer then fdiv (sum64 x) n else 0
  let d := x.map (fun v => fsub v mu)
  let v := fdiv (sum64 (d.map (fun e => fmul e e))) n
  (mu, fdiv fOne (fsqrt (fadd v eps)))

def normGo (u : Nat) (p : Pull) (b : List Byte) : Issue :=
  let xt := vecX b
  let (p, x) := p.tensor u xt
  let row (c h : Nat) : List Nat := (List.range xt.w).map (x.val c h)
  let stat (c h : Nat) : Nat × Nat := normPair (normLayer b) (normEps b) (row c h)
  if normStats b then
    let s := p.s.eatIf u xt.addr p.poison
    let (s, bad) := s.spendDup u 1 0 true
    let base := (vecZ b).addr
    let s := xt.places.zipIdx.foldl (fun s e =>
      let (mu, rs) := stat e.1.1 e.1.2
      let m := e.1.1 * xt.h + e.1.2
      let s := s.emit u (sigRecord (m % 65536) 0 0xFF fmtFp32 (m / 65536) mu 0)
      let s := s.emit u (sigRecord (m % 65536) 1 0xFF fmtFp32 (m / 65536) rs 0)
      s.unitWrite u (base + 8 * m) (leBytes 4 mu ++ leBytes 4 rs) (p.poison || (bad && e.2 == 0))) s
    .done ((s.freeUnits u (overlapUnits [(base, base + 8 * xt.c * xt.h)] xt.ranges) p.poison).spendStall u)
  else
    let (p, gb) := p.read u (vecY b).addr (8 * xt.w)
    let code (c h w : Nat) : Nat :=
      let (mu, rs) := stat c h
      vecConvert b (ffma (pairBytes gb w).1 (fmul (fsub (x.val c h w) mu) rs) (pairBytes gb w).2)
    p.vecDone u b code (xt.ranges ++ [((vecY b).addr, (vecY b).addr + 8 * xt.w)])

/-- NORM (R210). -/
def execNorm (v : Fin 8) (s : State) : Host.Outcome State Fault Refusal :=
  .next (s.issue (68 + v) [0x41] (fun d s => s.vecIssue (68 + v) d normReasons (normGo (68 + v))))

/-! ### RED (R212) -/

def redAxis (b : List Byte) : Nat := fieldAt b 4 1

def redReasons (b : List Byte) : List Nat :=
  let x := vecX b
  let o := vecO b
  let a := redAxis b
  let sub := vecSub b
  let cut (k n : Nat) : Nat := if a = k then 1 else n
  vecReasons b 0x42 6 (sub ≤ 4) ++ why (!zeroAt b 5 11 || !zeroAt b 88 8) 0x03 ++ why (5 ≤ sub && o.fmt != fmtInt32) 0x04
    ++ needs x true ++ needs o true ++ needs (vecY b) false ++ needs (vecZ b) false
    ++ why (2 < a || o.w != cut 0 x.w || o.h != cut 1 x.h || o.c != cut 2 x.c) 0x30
    ++ why (!x.ok || !o.ok) 0x12

/-- The largest (or smallest) value; NaN if any is, the lowest index among equals. -/
def redBest (less : Nat → Nat → Bool) (l : List Nat) : Nat :=
  if l.any fnan then fNan else l.foldl (fun m x => if less m x then x else m) (l.headD 0)

/-- Index of the largest (or smallest) value: NaN ranks below every number, ties to the lowest index. -/
def argBest (less : Nat → Nat → Bool) (l : List Nat) : Nat :=
  (l.zipIdx.foldl (fun (best : Option (Nat × Nat)) e =>
    if fnan e.1 then best
    else match best with
      | none => some e
      | some m => if less m.1 e.1 then some e else best) none).elim 0 (·.2)

/-- The reduction of a list (R212). -/
def redOp (sub : Nat) (l : List Nat) : Nat :=
  match sub with
  | 0 => sum64 l
  | 1 => fdiv (sum64 l) (fnat l.length)
  | 2 => sum64 (l.map (fun x => fmul x x))
  | 3 => redBest flt l
  | _ => redBest (fun a b => flt b a) l

def redGo (u : Nat) (p : Pull) (b : List Byte) : Issue :=
  let xt := vecX b
  let sub := vecSub b
  let (p, x) := p.tensor u xt
  let line (c h w : Nat) : List Nat :=
    match redAxis b with
    | 0 => (List.range xt.w).map (fun i => x.val c h i)
    | 1 => (List.range xt.h).map (fun i => x.val c i w)
    | _ => (List.range xt.c).map (fun i => x.val i h w)
  let code (c h w : Nat) : Nat :=
    if sub = 5 then argBest flt (line c h w)
    else if sub = 6 then argBest (fun a b => flt b a) (line c h w)
    else vecConvert b (redOp sub (line c h w))
  p.vecDone u b code xt.ranges

/-- RED (R212). -/
def execRed (v : Fin 8) (s : State) : Host.Outcome State Fault Refusal :=
  .next (s.issue (68 + v) [0x42] (fun d s => s.vecIssue (68 + v) d redReasons (redGo (68 + v))))

/-! ### WIN (R213 to R217) -/

def winKH (b : List Byte) : Nat := fieldAt b 4 1
def winKW (b : List Byte) : Nat := fieldAt b 5 1
def winSH (b : List Byte) : Nat := bits (fieldAt b 6 1) 4 4
def winSW (b : List Byte) : Nat := bits (fieldAt b 6 1) 0 4
def winDH (b : List Byte) : Nat := bits (fieldAt b 7 1) 4 4
def winDW (b : List Byte) : Nat := bits (fieldAt b 7 1) 0 4
def winPT (b : List Byte) : Nat := fieldAt b 8 1
def winPL (b : List Byte) : Nat := fieldAt b 9 1
def winG (b : List Byte) : Nat := fieldAt b 10 2
def winCig (b : List Byte) : Nat := fieldAt b 12 2
def winCog (b : List Byte) : Nat := fieldAt b 14 2
def winWs (b : List Byte) : Nat := fieldAt b 88 5
def winPad (b : List Byte) : Nat := fieldAt b 93 2
def winConv (b : List Byte) : Bool := vecSub b == 0

/-- Operand pairs of the window path (R214). -/
def winPair (a b : Nat) : Bool := (a == 1 && b == 1) || (a == 1 && b == 0) || (a == 0 && b == 0) || pairFp8 a b || pairFp16 a b

/-- Tiles of at most 7 × 7 taps in row-major order (R216): the first row and column of each. -/
def winTiles (b : List Byte) : List (Nat × Nat) :=
  (List.range (ceilDiv (winKH b) 7)).flatMap (fun i => (List.range (ceilDiv (winKW b) 7)).map (fun j => (7 * i, 7 * j)))

/-- A convolution whose filter runs in passes. (DEDUCED: log 48) -/
def winMulti (b : List Byte) : Bool := winConv b && (7 < winKH b || 7 < winKW b)

/-- Bytes of the workspace. -/
def winWsLen (b : List Byte) : Nat := 4 * (vecO b).c * (vecO b).h * (vecO b).w

def winReasons (b : List Byte) : List Nat :=
  let x := vecX b
  let y := vecY b
  let z := vecZ b
  let o := vecO b
  let conv := winConv b
  let between (v lo hi : Nat) : Bool := lo ≤ v && v ≤ hi
  let ranges := between (winKH b) 1 31 && between (winKW b) 1 31 && between (winSH b) 1 4 && between (winSW b) 1 4
    && between (winDH b) 1 4 && between (winDW b) 1 4 && winPT b ≤ 30 && winPL b ≤ 30 && winG b != 0 && winCig b != 0 && winCog b != 0
  let shape := if conv then
      x.c == winG b * winCig b && o.c == winG b * winCog b && y.w == winKW b && y.h == winKH b && y.c == o.c * winCig b
    else winCig b == 1 && winCog b == 1 && winG b == x.c && winG b == o.c
  let line := winCig b * ((min (winKH b) 7 - 1) * winDH b + 1) * (ceilDiv x.rowLen 32 * 32)
  vecReasons b 0x43 3 true ++ why (fieldAt b 95 1 != 0) 0x03 ++ why (conv && !winPair x.fmt y.fmt) 0x04
    ++ needs x true ++ needs o true ++ needs y conv ++ (if conv then [] else needs z false)
    ++ why (!ranges || !shape || 65536 < line || (winMulti b && (winWs b == 0 || !swageOk (winWs b) (winWsLen b)))) 0x30
    ++ why (winMulti b && winWs b % 32 != 0) 0x13
    ++ why (!x.ok || !o.ok || (conv && !y.ok) || (conv && z.present && !swageOk z.addr (8 * o.c))) 0x12

/-- Input position of a tap, if it is in range. -/
def tapAt (b : List Byte) (x : Tensor) (yy xx kh kw : Nat) : Option (Nat × Nat) :=
  let iy : Int := (yy * winSH b + kh * winDH b : Nat) - (winPT b : Int)
  let ix : Int := (xx * winSW b + kw * winDW b : Nat) - (winPL b : Int)
  if 0 ≤ iy ∧ iy < x.h ∧ 0 ≤ ix ∧ ix < x.w then some (iy.toNat, ix.toNat) else none

/-- Taps of a tile. -/
def tileTaps (b : List Byte) (t : Nat × Nat) : List (Nat × Nat) :=
  (List.range (min 7 (winKH b - t.1))).flatMap (fun i => (List.range (min 7 (winKW b - t.2))).map (fun j => (t.1 + i, t.2 + j)))

/-- Exact accumulation of a tile for one output element (R214). -/
def tileAcc (b : List Byte) (x y : TensorIn) (t : Nat × Nat) (oc yy xx : Nat) : AccSt :=
  let w := weightOf x.t.fmt y.t.fmt 0
  let g := oc / winCog b
  (List.range (winCig b)).foldl (fun acc i =>
    (tileTaps b t).foldl (fun acc k =>
      let a := match tapAt b x.t yy xx k.1 k.2 with
        | some p => x.code (g * winCig b + i) p.1 p.2
        | none => winPad b % 2 ^ fmtBits x.t.fmt
      acc.addProduct w (decode x.t.fmt a) (decode y.t.fmt (y.code (oc * winCig b + i) k.1 k.2))) acc) AccSt.zero

/-- FP32 partial after some tiles (R216). -/
def winPartial (b : List Byte) (x y : TensorIn) (tiles : List (Nat × Nat)) (oc yy xx : Nat) : Nat :=
  let w := weightOf x.t.fmt y.t.fmt 0
  match tiles with
  | [] => 0
  | t :: rest => rest.foldl (fun p k => fadd p ((tileAcc b x y k oc yy xx).fp32 w)) ((tileAcc b x y t oc yy xx).fp32 w)

/-- The pooled value of one output element (R217). -/
def poolOf (b : List Byte) (x : TensorIn) (c yy xx : Nat) : Nat :=
  let taps := (List.range (winKH b)).flatMap (fun i => (List.range (winKW b)).map (fun j => (i, j)))
  let vs := (taps.filterMap (fun k => tapAt b x.t yy xx k.1 k.2)).map (fun p => x.val c p.1 p.2)
  if vecSub b = 1 then (if vs.isEmpty then fNegInf else redBest flt vs)
  else if vs.isEmpty then 0
  else fdiv (vs.foldl fadd 0) (fnat (if vecSub b = 3 then winKH b * winKW b else vs.length))

/-- The injected accumulator mismatch (R219): the answer says whether the first output is poisoned. (DEDUCED: log 46) -/
def State.vecResidue (s : State) (u : Nat) : State × Bool :=
  if s.armedFor u 3 then (s.spend u 3, (s.unit u).config == 2)
  else if s.armedFor u 0 && s.residueChecks u then
    let v := u - 68
    let s := ((s.spend u 0).count (Reg.VEC_RES.MISMATCH_CNT v) 1).unitEvent u 2
    (s.unitFault u 0x18 v, (s.unit u).config == 2)
  else (s, false)

/-- Hold the partials of all but the last pass in the workspace (R216). (DEDUCED: log 48) -/
def State.winWorkspace (s : State) (u : Nat) (b : List Byte) (x y : TensorIn) (poison : Bool) : State :=
  let o := vecO b
  let tiles := (winTiles b).dropLast
  (List.range o.c).foldl (fun s oc => (List.range o.h).foldl (fun s yy => (List.range o.w).foldl (fun s xx =>
    s.unitWrite u (winWs b + 4 * ((oc * o.h + yy) * o.w + xx)) (leBytes 4 (winPartial b x y tiles oc yy xx)) poison) s) s) s

def winGo (u : Nat) (p : Pull) (b : List Byte) : Issue :=
  let o := vecO b
  let conv := winConv b
  let (p, x) := p.tensor u (vecX b)
  let (p, y) := p.tensorIf u (vecY b)
  let pairs := conv && (vecZ b).present
  let (p, sb) := if pairs then p.read u (vecZ b).addr (8 * o.c) else (p, [])
  let tiles := winTiles b
  let code (oc yy xx : Nat) : Nat :=
    if conv then
      let v := winPartial b x y tiles oc yy xx
      vecConvert b (if pairs then ffma (pairBytes sb oc).1 v (pairBytes sb oc).2 else v)
    else vecConvert b (poolOf b x oc yy xx)
  let s := p.s.eatIf u x.t.addr p.poison
  let (s, badAcc) := if conv && !p.poison then s.vecResidue u else (s, false)
  let (s, badOut) := s.spendDup u 1 0 true
  let s := if winMulti b then s.winWorkspace u b x y p.poison else s
  let ins := x.t.ranges ++ (if conv then y.t.ranges else []) ++ (if pairs then [((vecZ b).addr, (vecZ b).addr + 8 * o.c)] else [])
  .done ((s.writeTensor u o code ins p.poison (badAcc || badOut)).spendStall u)

/-- WIN (R213). -/
def execWin (v : Fin 8) (s : State) : Host.Outcome State Fault Refusal :=
  .next (s.issue (68 + v) [0x43] (fun d s => s.vecIssue (68 + v) d winReasons (winGo (68 + v))))

/-! ### ACCEPT (R189, R190, R218, R226) -/

def acC (b : List Byte) : Nat := fieldAt b 4 1
def acFmt (b : List Byte) : Nat := bits (fieldAt b 5 1) 0 4
def acVocab (b : List Byte) : Nat := fieldAt b 8 4
def acStride (b : List Byte) : Nat := 32 * fieldAt b 12 4
def acTok (b : List Byte) : Nat := blkAddr b 16
def acPar (b : List Byte) : Nat := blkAddr b 24
def acPrior (b : List Byte) : Nat := blkAddr b 32
def acLogit (b : List Byte) : Nat := blkAddr b 40
def acRec (b : List Byte) : Nat := blkAddr b 48
def acRowLen (b : List Byte) : Nat := rowBytes (acFmt b) (acVocab b)

/-- Reasons of an ACCEPT but for its configuration and its parents. (DEDUCED: log 48) -/
def acReasons (b : List Byte) : List Nat :=
  let n := acC b
  blockHead b 0x44 ++ why (vecSub b != 0) 0x40
    ++ why (fieldAt b 3 1 != 0 || bits (fieldAt b 5 1) 4 4 != 0 || !zeroAt b 6 2 || !zeroAt b 56 40 || blkHigh b 16 || blkHigh b 24
        || blkHigh b 32 || blkHigh b 40 || blkHigh b 48) 0x03
    ++ why (acFmt b != fmtFp16 && acFmt b != fmtFp32) 0x04
    ++ why (!swageOk (acTok b) (4 * n) || !swageOk (acPar b) n || !swageOk (acPrior b) (acRowLen b) || !swageOk (acRec b) 96
        || (List.range n).any (fun i => !swageOk (acLogit b + i * acStride b) (acRowLen b))) 0x12
    ++ why (n == 0 || 64 < n || acVocab b == 0 || 1048576 < acVocab b) 0x30

/-- The walk of R189: `row` is the address of the current logits row, `cur` its parent code. -/
def acWalk (u : Nat) (b tok par : List Byte) : Nat → Pull → Nat → Nat → List Nat → Pull × List Nat × Nat
  | 0, p, _, _, path => (p, path, 0)
  | k + 1, p, row, cur, path =>
    let (p, bs) := p.read u row (acRowLen b)
    let best := argBest flt ((valuesOf (acFmt b) (acVocab b) bs).map toF32)
    match (List.range (acC b)).find? (fun i => fieldAt par i 1 == cur && fieldAt tok (4 * i) 4 == best) with
    | none => (p, path, best)
    | some i => acWalk u b tok par k p (acLogit b + i * acStride b) i (path ++ [i])

def State.acIssue (s : State) (u : Nat) (d : Ins) : Issue :=
  s.vecIssue u d (fun b => configLate (acReasons b) (s.safetyWork u)) (fun p b =>
    let n := acC b
    let (p, tok) := p.read u (acTok b) (4 * n)
    let (p, par) := p.read u (acPar b) n
    let bad := (List.range n).any (fun i => fieldAt par i 1 != 0xFF && i ≤ fieldAt par i 1)
    p.check u (blockAddr d) (why bad 0x32 ++ why (s.safetyWork u) 0x34) (
      let (p, path, bonus) := acWalk u b tok par (n + 1) p (acPrior b) 0xFF []
      let s := p.s.eatIf u (acTok b) p.poison
      let (s, dup) := s.spendDup u 1 0 true
      let rec_ := padTo 96 (leBytes 1 1 ++ leBytes 1 path.length ++ leBytes 2 0 ++ leBytes 4 bonus ++ path.map (BitVec.ofNat 8))
      .done ((s.unitWrite u (acRec b) rec_ (p.poison || dup)).spendStall u)))

/-- ACCEPT (R218). -/
def execAccept (v : Fin 8) (s : State) : Host.Outcome State Fault Refusal :=
  .next (s.issue (68 + v) [0x44] (fun d s => s.acIssue (68 + v) d))

end Sys2Proof.Machine
end

