-- ==== Sys2Proof/Machine/Dispatch.lean ====
section
/-! DEFINITION. The dispatch: one arm per command, each one direct call of its meaning. -/

namespace Sys2Proof.Machine

def exec (i : Instr) (s : State) : Host.Outcome State Fault Refusal :=
  match i with
  | .registerWrite who addr size value => Sys2Proof.Machine.execRegisterWrite who addr size value s
  | .pairLoRead who addr size => Sys2Proof.Machine.execPairLoRead who addr size s
  | .topLockSet who => Sys2Proof.Machine.execTopLockSet who s
  | .keySlotRevoke who slots => Sys2Proof.Machine.execKeySlotRevoke who slots s
  | .strike => Sys2Proof.Machine.execStrike s
  | .strikeTableEntryFire e => Sys2Proof.Machine.execStrikeTableEntryFire e s
  | .goldenRunEnd u => Sys2Proof.Machine.execGoldenRunEnd u s
  | .strikeRunStart who => Sys2Proof.Machine.execStrikeRunStart who s
  | .strikeRunStop who => Sys2Proof.Machine.execStrikeRunStop who s
  | .syncReceived p m => Sys2Proof.Machine.execSyncReceived p m s
  | .followUpReceived p m => Sys2Proof.Machine.execFollowUpReceived p m s
  | .pdelayExchange p m => Sys2Proof.Machine.execPdelayExchange p m s
  | .gmSyncTransmit => Sys2Proof.Machine.execGmSyncTransmit s
  | .syncTimeout => Sys2Proof.Machine.execSyncTimeout s
  | .strikeMarkTimer => Sys2Proof.Machine.execStrikeMarkTimer s
  | .strikeMark q m => Sys2Proof.Machine.execStrikeMark q m s
  | .markCoastTimeout => Sys2Proof.Machine.execMarkCoastTimeout s
  | .markLostTimeout => Sys2Proof.Machine.execMarkLostTimeout s
  | .arrive module id mask => Sys2Proof.Machine.execArrive module id mask s
  | .release id strike => Sys2Proof.Machine.execRelease id strike s
  | .sqTailDoorbell who c r value => Sys2Proof.Machine.execSqTailDoorbell who c r value s
  | .cqHeadDoorbell who c r value => Sys2Proof.Machine.execCqHeadDoorbell who c r value s
  | .descriptorReadError c r => Sys2Proof.Machine.execDescriptorReadError c r s
  | .nop c r => Sys2Proof.Machine.execNop c r s
  | .runGraph c r => Sys2Proof.Machine.execRunGraph c r s
  | .loadModel c r image => Sys2Proof.Machine.execLoadModel c r image s
  | .unloadModel c r => Sys2Proof.Machine.execUnloadModel c r s
  | .copy c r ch => Sys2Proof.Machine.execCopy c r ch s
  | .descriptorFence c r => Sys2Proof.Machine.execDescriptorFence c r s
  | .barrier c r => Sys2Proof.Machine.execBarrier c r s
  | .deadlineExpire job => Sys2Proof.Machine.execDeadlineExpire job s
  | .completionRecordWrite c r => Sys2Proof.Machine.execCompletionRecordWrite c r s
  | .moderationTimer c r => Sys2Proof.Machine.execModerationTimer c r s
  | .ctxEnable who c value => Sys2Proof.Machine.execCtxEnable who c value s
  | .teardown who c => Sys2Proof.Machine.execTeardown who c s
  | .teardownQuiesced c => Sys2Proof.Machine.execTeardownQuiesced c s
  | .quiesceTimeout c => Sys2Proof.Machine.execQuiesceTimeout c s
  | .scrubDone who c => Sys2Proof.Machine.execScrubDone who c s
  | .hicClaim who core => Sys2Proof.Machine.execHicClaim who core s
  | .hicComplete who core source => Sys2Proof.Machine.execHicComplete who core source s
  | .hicXcomplete who source => Sys2Proof.Machine.execHicXcomplete who source s
  | .hicSet who source => Sys2Proof.Machine.execHicSet who source s
  | .msixSend source => Sys2Proof.Machine.execMsixSend source s
  | .loads n => Sys2Proof.Machine.execLoads n s
  | .swap n => Sys2Proof.Machine.execSwap n s
  | .mmaP n => Sys2Proof.Machine.execMmaP n s
  | .mma n => Sys2Proof.Machine.execMma n s
  | .epi n => Sys2Proof.Machine.execEpi n s
  | .store n => Sys2Proof.Machine.execStore n s
  | .send n => Sys2Proof.Machine.execSend n s
  | .wait u => Sys2Proof.Machine.execWait u s
  | .sigOpen u => Sys2Proof.Machine.execSigOpen u s
  | .sigClose u => Sys2Proof.Machine.execSigClose u s
  | .gold u => Sys2Proof.Machine.execGold u s
  | .fence u => Sys2Proof.Machine.execFence u s
  | .sync u => Sys2Proof.Machine.execSync u s
  | .scrub n => Sys2Proof.Machine.execScrub n s
  | .shadowFillComplete n => Sys2Proof.Machine.execShadowFillComplete n s
  | .blockDrain n => Sys2Proof.Machine.execBlockDrain n s
  | .writeBufferDrain n => Sys2Proof.Machine.execWriteBufferDrain n s
  | .sendComplete n => Sys2Proof.Machine.execSendComplete n s
  | .syncCounterIncrement index => Sys2Proof.Machine.execSyncCounterIncrement index s
  | .waitTimeout u => Sys2Proof.Machine.execWaitTimeout u s
  | .storeComplete n => Sys2Proof.Machine.execStoreComplete n s
  | .tileListEnd u => Sys2Proof.Machine.execTileListEnd u s
  | .softReset who u => Sys2Proof.Machine.execSoftReset who u s
  | .unitFence who w => Sys2Proof.Machine.execUnitFence who w s
  | .pairRequest who u req => Sys2Proof.Machine.execPairRequest who u req s
  | .residueInject who u => Sys2Proof.Machine.execResidueInject who u s
  | .injPro who n => Sys2Proof.Machine.execInjPro who n s
  | .injEpi who n => Sys2Proof.Machine.execInjEpi who n s
  | .injRope who p => Sys2Proof.Machine.execInjRope who p s
  | .injOut who p => Sys2Proof.Machine.execInjOut who p s
  | .injA who u => Sys2Proof.Machine.execInjA who u s
  | .injB who u => Sys2Proof.Machine.execInjB who u s
  | .bsEccInject who n => Sys2Proof.Machine.execBsEccInject who n s
  | .cruInject who => Sys2Proof.Machine.execCruInject who s
  | .memCeInject who ch => Sys2Proof.Machine.execMemCeInject who ch s
  | .memUeInject who ch => Sys2Proof.Machine.execMemUeInject who ch s
  | .attn p => Sys2Proof.Machine.execAttn p s
  | .kvappend p => Sys2Proof.Machine.execKvappend p s
  | .rollback p => Sys2Proof.Machine.execRollback p s
  | .elt v => Sys2Proof.Machine.execElt v s
  | .norm v => Sys2Proof.Machine.execNorm v s
  | .red v => Sys2Proof.Machine.execRed v s
  | .win v => Sys2Proof.Machine.execWin v s
  | .accept v => Sys2Proof.Machine.execAccept v s
  | .detect u => Sys2Proof.Machine.execDetect u s
  | .tongsTailWrite who ch tail => Sys2Proof.Machine.execTongsTailWrite who ch tail s
  | .tongsCopy run => Sys2Proof.Machine.execTongsCopy run s
  | .tongsTranspose run => Sys2Proof.Machine.execTongsTranspose run s
  | .tongsGather run => Sys2Proof.Machine.execTongsGather run s
  | .tongsFill run => Sys2Proof.Machine.execTongsFill run s
  | .tongsScrub run => Sys2Proof.Machine.execTongsScrub run s
  | .tongsDescriptorComplete ch => Sys2Proof.Machine.execTongsDescriptorComplete ch s
  | .tongsAbort who ch => Sys2Proof.Machine.execTongsAbort who ch s
  | .channelHang ch => Sys2Proof.Machine.execChannelHang ch s
  | .cruciblePatrol => Sys2Proof.Machine.execCruciblePatrol s
  | .dramPatrol ch => Sys2Proof.Machine.execDramPatrol ch s
  | .frameStart cam pkt => Sys2Proof.Machine.execFrameStart cam pkt s
  | .linePacket cam pkt => Sys2Proof.Machine.execLinePacket cam pkt s
  | .frameEnd cam pkt => Sys2Proof.Machine.execFrameEnd cam pkt s
  | .frameComplete cam => Sys2Proof.Machine.execFrameComplete cam s
  | .frameTablePublish => Sys2Proof.Machine.execFrameTablePublish s
  | .pointDatagram j d => Sys2Proof.Machine.execPointDatagram j d s
  | .sweepComplete j => Sys2Proof.Machine.execSweepComplete j s
  | .goldenFrameRun cam => Sys2Proof.Machine.execGoldenFrameRun cam s
  | .recordTailWrite who r tail => Sys2Proof.Machine.execRecordTailWrite who r tail s
  | .recordDecode r => Sys2Proof.Machine.execRecordDecode r s
  | .recordDescriptorComplete r => Sys2Proof.Machine.execRecordDescriptorComplete r s
  | .recordAbort who r => Sys2Proof.Machine.execRecordAbort who r s
  | .signatureClose slot checker => Sys2Proof.Machine.execSignatureClose slot checker s
  | .comparatorSelftest who => Sys2Proof.Machine.execComparatorSelftest who s
  | .comparatorSelftestDone ok => Sys2Proof.Machine.execComparatorSelftestDone ok s
  | .comparatorInject who => Sys2Proof.Machine.execComparatorInject who s
  | .windowClose w => Sys2Proof.Machine.execWindowClose w s
  | .ageFrameTableRead => Sys2Proof.Machine.execAgeFrameTableRead s
  | .emberRunStart goldenOk => Sys2Proof.Machine.execEmberRunStart goldenOk s
  | .emberRunComplete run => Sys2Proof.Machine.execEmberRunComplete run s
  | .emberDeadline => Sys2Proof.Machine.execEmberDeadline s
  | .safeStateFrameSent k => Sys2Proof.Machine.execSafeStateFrameSent k s
  | .arm who => Sys2Proof.Machine.execArm who s
  | .faultReport src ctx safety op d0 d1 => Sys2Proof.Machine.execFaultReport src ctx safety op d0 d1 s
  | .hearthJoinCsr j => Sys2Proof.Machine.execHearthJoinCsr j s
  | .hearthJoinTimeout j => Sys2Proof.Machine.execHearthJoinTimeout j s
  | .debugHalt core => Sys2Proof.Machine.execDebugHalt core s
  | .debugRegWrite core reg value => Sys2Proof.Machine.execDebugRegWrite core reg value s
  | .fclClearFirst who => Sys2Proof.Machine.execFclClearFirst who s
  | .fclInject who cls ctx inst => Sys2Proof.Machine.execFclInject who cls ctx inst s
  | .fclCtxNClear who c => Sys2Proof.Machine.execFclCtxNClear who c s
  | .hangKick who cores => Sys2Proof.Machine.execHangKick who cores s
  | .hearthHang core => Sys2Proof.Machine.execHearthHang core s
  | .unitHangStop u => Sys2Proof.Machine.execUnitHangStop u s
  | .fenceListAdd who w => Sys2Proof.Machine.execFenceListAdd who w s
  | .fenceListClear who w => Sys2Proof.Machine.execFenceListClear who w s
  | .autoComputeReset => Sys2Proof.Machine.execAutoComputeReset s
  | .prcResetCompute who key => Sys2Proof.Machine.execPrcResetCompute who key s
  | .computeResetRelease => Sys2Proof.Machine.execComputeResetRelease s
  | .prcResetSys who key => Sys2Proof.Machine.execPrcResetSys who key s
  | .snpDumpStart who => Sys2Proof.Machine.execSnpDumpStart who s
  | .snpTrigger who => Sys2Proof.Machine.execSnpTrigger who s
  | .fclLogWindowRead who => Sys2Proof.Machine.execFclLogWindowRead who s
  | .evrWindowRead who => Sys2Proof.Machine.execEvrWindowRead who s
  | .snpWindowRead who => Sys2Proof.Machine.execSnpWindowRead who s
  | .evrCommit who => Sys2Proof.Machine.execEvrCommit who s
  | .evrCommitTimer => Sys2Proof.Machine.execEvrCommitTimer s
  | .evrSample x => Sys2Proof.Machine.execEvrSample x s
  | .evrClear who => Sys2Proof.Machine.execEvrClear who s
  | .resetNotice q m => Sys2Proof.Machine.execResetNotice q m s
  | .genAnnounce q m => Sys2Proof.Machine.execGenAnnounce q m s
  | .ready q m => Sys2Proof.Machine.execReady q m s
  | .linkTrain who q retrain => Sys2Proof.Machine.execLinkTrain who q retrain s
  | .linkTrainingComplete q t => Sys2Proof.Machine.execLinkTrainingComplete q t s
  | .sendData q m => Sys2Proof.Machine.execSendData q m s
  | .sendInc q m => Sys2Proof.Machine.execSendInc q m s
  | .sendDone q m => Sys2Proof.Machine.execSendDone q m s
  | .linkSync q m => Sys2Proof.Machine.execLinkSync q m s
  | .memWr q m => Sys2Proof.Machine.execMemWr q m s
  | .memRd q m => Sys2Proof.Machine.execMemRd q m s
  | .memRdResp q m => Sys2Proof.Machine.execMemRdResp q m s
  | .linkDoorbell q m => Sys2Proof.Machine.execLinkDoorbell q m s
  | .fmBarCfg q m => Sys2Proof.Machine.execFmBarCfg q m s
  | .fmRelay q m => Sys2Proof.Machine.execFmRelay q m s
  | .linkAck q seq => Sys2Proof.Machine.execLinkAck q seq s
  | .nak q seq => Sys2Proof.Machine.execNak q seq s
  | .linkCredit q m => Sys2Proof.Machine.execLinkCredit q m s
  | .pcieMemRead bar off len => Sys2Proof.Machine.execPcieMemRead bar off len s
  | .pcieMemWrite bar off data => Sys2Proof.Machine.execPcieMemWrite bar off data s
  | .pciePerst level => Sys2Proof.Machine.execPciePerst level s
  | .pcieDstateChange d3 => Sys2Proof.Machine.execPcieDstateChange d3 s
  | .ethFrameReceived p f => Sys2Proof.Machine.execEthFrameReceived p f s
  | .canFrameReceived k f => Sys2Proof.Machine.execCanFrameReceived k f s
  | .parkedConfirmation k f => Sys2Proof.Machine.execParkedConfirmation k f s
  | .parkConfirmationTimeout => Sys2Proof.Machine.execParkConfirmationTimeout s
  | .depotDatagram f => Sys2Proof.Machine.execDepotDatagram f s
  | .arpRequest senderMac senderIp targetIp => Sys2Proof.Machine.execArpRequest senderMac senderIp targetIp s
  | .neighborSolicitation senderMac senderIp target => Sys2Proof.Machine.execNeighborSolicitation senderMac senderIp target s
  | .reassemblyTimeout key => Sys2Proof.Machine.execReassemblyTimeout key s
  | .jobSubmit t => Sys2Proof.Machine.execJobSubmit t s
  | .modelPut t => Sys2Proof.Machine.execModelPut t s
  | .modelPutWriteComplete t => Sys2Proof.Machine.execModelPutWriteComplete t s
  | .modelDrop t => Sys2Proof.Machine.execModelDrop t s
  | .statusQuery t => Sys2Proof.Machine.execStatusQuery t s
  | .credit t => Sys2Proof.Machine.execCredit t s
  | .gateCompletionClaim t r => Sys2Proof.Machine.execGateCompletionClaim t r s
  | .gateOutboundSend t => Sys2Proof.Machine.execGateOutboundSend t s
  | .timeHint => Sys2Proof.Machine.execTimeHint s
  | .gateCreditTimer t => Sys2Proof.Machine.execGateCreditTimer t s
  | .rtoResend t => Sys2Proof.Machine.execRtoResend t s
  | .stallTimeout t => Sys2Proof.Machine.execStallTimeout t s
  | .tenantKeyWrite who t k word => Sys2Proof.Machine.execTenantKeyWrite who t k word s
  | .porst release => Sys2Proof.Machine.execPorst release s
  | .vinStart => Sys2Proof.Machine.execVinStart s
  | .vinLoss => Sys2Proof.Machine.execVinLoss s
  | .supplyMonitorTrip monitor => Sys2Proof.Machine.execSupplyMonitorTrip monitor s
  | .powerSample x => Sys2Proof.Machine.execPowerSample x s
  | .bootConfirm who => Sys2Proof.Machine.execBootConfirm who s
  | .bootPending who slotB => Sys2Proof.Machine.execBootPending who slotB s
  | .parkRequest who => Sys2Proof.Machine.execParkRequest who s
  | .depotRequest who => Sys2Proof.Machine.execDepotRequest who s
  | .leaveDepotRequest who => Sys2Proof.Machine.execLeaveDepotRequest who s
  | .parkOkChange level => Sys2Proof.Machine.execParkOkChange level s
  | .shorePwrChange level => Sys2Proof.Machine.execShorePwrChange level s
  | .poolScrub who => Sys2Proof.Machine.execPoolScrub who s
  | .poolScrubComplete => Sys2Proof.Machine.execPoolScrubComplete s
  | .wakeN => Sys2Proof.Machine.execWakeN s
  | .canWake => Sys2Proof.Machine.execCanWake s
  | .cameraSample difference => Sys2Proof.Machine.execCameraSample difference s
  | .accelSample mg => Sys2Proof.Machine.execAccelSample mg s
  | .supplySample x parkOk shorePwr => Sys2Proof.Machine.execSupplySample x parkOk shorePwr s
  | .proofTimer => Sys2Proof.Machine.execProofTimer s
  | .coolReqTimer => Sys2Proof.Machine.execCoolReqTimer s
  | .uncorrectableCodeword q seq => Sys2Proof.Machine.execUncorrectableCodeword q seq s
  | .ackCoalesceTimer q => Sys2Proof.Machine.execAckCoalesceTimer q s
  | .narultilPortDown q => Sys2Proof.Machine.execNarultilPortDown q s
  | .pcieLinkStateChange link speed width => Sys2Proof.Machine.execPcieLinkStateChange link speed width s
  | .pcieConfigWrite w => Sys2Proof.Machine.execPcieConfigWrite w s
  | .pcieWakeTimeout => Sys2Proof.Machine.execPcieWakeTimeout s
  | .wakePulseEnd => Sys2Proof.Machine.execWakePulseEnd s
  | .ethPortLinkChange p up => Sys2Proof.Machine.execEthPortLinkChange p up s
  | .depotLinkChange up => Sys2Proof.Machine.execDepotLinkChange up s
  | .canBusOff k => Sys2Proof.Machine.execCanBusOff k s
  | .busOffRecovery k => Sys2Proof.Machine.execBusOffRecovery k s
  | .dramChannelFailed ch => Sys2Proof.Machine.execDramChannelFailed ch s
  | .serviceImageBoot image => Sys2Proof.Machine.execServiceImageBoot image s
  | .oosSafeStateFrameTimer => Sys2Proof.Machine.execOosSafeStateFrameTimer s
  | .debugResume core step => Sys2Proof.Machine.execDebugResume core step s

end Sys2Proof.Machine
end

