-- ==== Sys2Proof/Safety.lean ====
section
/-! DEFINITION. What claims call a sound state: every memory of the block in its one canonical form, so that equal contents are equal data. -/

namespace Sys2Proof.Machine

/-- Canonical memory: keys rise strictly and no entry equals what an unlisted key reads as (0). -/
def CellsWf (m : List Host.Cell) : Prop := SMap.wf m = true ∧ ∀ c ∈ m, c.2 ≠ 0

/-- The form of memory, MRAM, flash, registers, poison marks and stored errors that every step keeps. -/
structure State.Canonical (s : State) : Prop where
  mem : CellsWf s.mem
  mram : CellsWf s.mram
  flash : CellsWf s.boot.flash
  regs : SMap.wf s.regs = true
  poison : setWf s.poison = true
  damage : SMap.wf s.damage = true

/-- A write by a party reaches the register at an address: power is up and PORST_n released, the device is not PARKED, the firewall lets the
party through (R387), a write of the gate comes in DEPOT, and the register is there and not held in a COMPUTE reset (R38, R414). -/
def State.reaches (s : State) (who : Party) (a : Nat) : Bool :=
  s.partyOn who && !s.inParked && s.windowAllows who a true && (s.liveReg a).isSome

/-- A read by a party reaches the register at an address. -/
def State.gives (s : State) (who : Party) (a : Nat) : Bool :=
  s.partyOn who && !s.inParked && s.windowAllows who a false && (s.liveReg a).isSome

/-- A field of a register takes a value, and the register's write-only fields read 0 (R14). -/
def State.stored (s : State) (f : FRef) (v : Nat) : State :=
  let hide (x : Nat) : Nat := match regAt f.addr with | some h => h.desc.hideWo x | none => x
  s.wr f.addr (BitVec.ofNat 32 (hide (putBits (hide (s.rd f.addr).toNat) f.lsb f.width v)))

/-- The levels of `n` interrupt sources from `first` on follow the registers (R319). -/
def State.syncRange (s : State) (first n : Nat) : State := (List.range n).foldl (fun s k => s.syncSrc (k + first)) s

/-- A list of unit `u` runs, its next instruction is `d`, of opcode `op`, and nothing speaks against running it; fetching it leaves `t` (R101, R105,
R108, R110). -/
structure State.Heads (s : State) (u op : Nat) (d : Ins) (t : State) : Prop where
  can : s.canIssue u = true
  fetch : s.fetch u = (t, ⟨d, false, none⟩)
  form : t.formReasons u d = []
  op : t.opOf u d = op
  list : t.listReasons u = []
  place : t.breaksPass u d = false

/-- The same on an Anvil that runs no Marmer list (R99). -/
structure State.HeadsZ1 (s : State) (n op : Nat) (d : Ins) (t : State) : Prop extends State.Heads s n op d t where
  z1 : t.marmer n = false

/-- The queue manager takes the descriptor `d` of opcode `op` at the head of ring r of context c; `t` is the state past it (R303 to R306). -/
structure State.Takes (s : State) (c r op : Nat) (d : List Byte) (t : State) : Prop where
  fetches : s.fetches c r = true
  read : s.readDesc c r = ((s.readDesc c r).1, ⟨d, false, none⟩)
  op : fieldAt d 1 1 = op
  check : (s.readDesc c r).1.descCheck c d = none
  turn : (bitAt (fieldAt d 2 2) 2 && s.jobs.any (fun j => j.ctx == c && j.ring == r)) = false
  past : t = (s.readDesc c r).1.advanceHead c r

/-- A message of type `ty` arrives on a port that is up, and is well formed (R432). -/
def State.hears (s : State) (q : Nat) (m : LinkMsg) (ty : Nat) : Bool := s.linkUp q && !s.badMsg q m && m.type == ty

/-- The accepted message at the front of tenant t's inbound buffer is `b`, of class `cls`; `u` is the state without it (R451, R452). -/
structure State.Holds (s : State) (t cls : Nat) (b : List Byte) (u : State) : Prop where
  front : (s.tenant t).inbox = (cls, b) :: (s.tenant t).inbox.tail
  on : s.tenantOn t = true
  past : u = s.modTenant t (fun x => { x with inbox := (s.tenant t).inbox.tail })

/-- A packet of a camera's stream and of type `dt` reaches its receiver with a good header; `t` is the state after the header (R270, R271). -/
structure State.Receives (s : State) (c : Nat) (pkt : CamPacket) (dt : Nat) (t : State) : Prop where
  on : s.streamOn c = true
  header : s.camHeader c pkt = (t, true)
  vc : pkt.vc.val = s.fld (Reg.BLW_CAM_CTL.VC c)
  dt : pkt.dt = dt
  there : pkt.buffer = .clean

/-- Distance of two numbers (R17). -/
def distance (x y : Nat) : Nat := if x < y then y - x else x - y

/-- A command leaves the queue alone, sends nothing it would take back, and keeps the canonical form. -/
structure Kept (s t : State) : Prop where
  queue : t.pending = s.pending
  sent : s.out <+: t.out
  canon : s.Canonical → t.Canonical

end Sys2Proof.Machine
end

