-- ==== Sys2Proof/WellFormed.lean ====
section
/-! DEFINITION. Which commands are well formed: what the sender of each can spell, by the spec's own widths. A meaning is total, so an
ill-formed command is harmless; it is one that nothing on the wires or the fabric could be. -/

namespace Sys2Proof

/-- An access of one of the fabric's sizes, its data within it (R13: any size may be tried), at an address of 40 bits (R145). -/
def wfAccess (addr size value : Nat) : Bool :=
  [1, 2, 4, 8].contains size && decide (addr + size ≤ 2 ^ 40) && decide (value < 256 ^ size)

/-- Poison units hold 32 bytes (R240). -/
def DataUnit.wf (u : DataUnit) : Bool := u.bytes.length == 32

/-- A message is one 32-byte header unit and at most ten data units (R432). -/
def LinkMsg.wf (m : LinkMsg) : Bool := m.header.length == 32 && decide (m.data.length ≤ 10) && m.data.all DataUnit.wf

/-- Fields of a Sync (R336): an 8-bit domain, a 16-bit sequence number, a 48-bit second part, a 64-bit signed correction, a 32-bit signed rate. -/
def SyncMsg.wf (m : SyncMsg) : Bool :=
  decide (m.domain < 2 ^ 8) && decide (-(2 ^ 31) ≤ m.rate) && decide (m.rate < 2 ^ 31) && decide (m.seq < 2 ^ 16) && decide (m.origin < 2 ^ 48 * 10 ^ 9) && decide (-(2 ^ 63) ≤ m.correction) && decide (m.correction < 2 ^ 63)

/-- A data type has 6 bits, a payload a 16-bit length, and a short packet (data types 0 to 15) no payload (R270). -/
def CamPacket.wf (p : CamPacket) : Bool :=
  decide (p.dt < 64) && decide (p.payload.length < 2 ^ 16) && (decide (16 ≤ p.dt) || p.payload.isEmpty)

/-- A UDP payload and port (R279). -/
def PointDatagram.wf (d : PointDatagram) : Bool := decide (d.port < 2 ^ 16) && decide (d.payload.length < 2 ^ 16)

/-- The result is at most 64 KiB and the summary has 36 bytes (R378). -/
def EmberRun.wf (r : EmberRun) : Bool := decide (r.result.length ≤ 65536) && r.summary.length == 36

/-- Training ends with 8, 4 or no lanes and one generation for each context (R430, R435). -/
def TrainResult.wf (t : TrainResult) : Bool := [0, 4, 8].contains t.lanes && decide (t.version < 256) && t.gens.length == 16

/-- Two addresses and a type stand before the data (R443). -/
def EthFrame.wf (f : EthFrame) : Bool := decide (14 ≤ f.bytes.length)

/-- Identifiers of 11 and 29 bits, data of at most 8 bytes, or 64 in a CAN FD frame (R445). -/
def CanFrame.wf (f : CanFrame) : Bool :=
  decide (f.id < (if f.ide then 2 ^ 29 else 2 ^ 11)) && decide (f.data.length ≤ (if f.fd then 64 else 8))

/-- Ports of 16 bits and addresses of 32 or 128 (R448). -/
def DepotFragment.wf (f : DepotFragment) : Bool :=
  let w := if f.ipv6 then 128 else 32
  decide (f.source < 2 ^ w) && decide (f.dest < 2 ^ w) && decide (f.sourcePort < 2 ^ 16) && decide (f.destPort < 2 ^ 16)
    && decide (f.payload.length < 2 ^ 16)

/-- Lists and split records lie in the image; a Marmer list is an Anvil's; 64 result indices, each with 24 streams; units that exist (R99, R139,
R306, R311, R344, R375). -/
def GraphImage.wf (g : GraphImage) : Bool :=
  g.lists.all (fun l => decide (l.offset + (if l.marmer then 16 else 32) * l.count ≤ g.bytes) && (!l.marmer || decide (l.unit.val < 64)))
    && g.splits.all (fun x => decide (x.offset + 8 ≤ g.bytes)) && g.results.all (· < 64)
    && g.ages.all (fun a => decide (a.1 < 2 ^ 24) && decide (a.2 < 2 ^ 32)) && g.configs.all (· < 3) && g.slices.all (fun l => l.all (· < 78))

/-- The command is one that its sender can spell. -/
def Instr.WellFormed : Instr → Bool
  | .registerWrite _ a n v => wfAccess a n v
  | .pairLoRead _ a n => wfAccess a n 0
  | .syncReceived _ m => m.wf
  | .followUpReceived _ m => m.wf
  | .loadModel _ _ g => g.wf
  | .frameStart _ p => p.wf
  | .linePacket _ p => p.wf
  | .frameEnd _ p => p.wf
  | .pointDatagram _ d => d.wf
  | .emberRunComplete r => r.wf
  | .resetNotice _ m => m.wf
  | .genAnnounce _ m => m.wf
  | .ready _ m => m.wf
  | .linkTrainingComplete _ t => t.wf
  | .sendData _ m => m.wf
  | .sendInc _ m => m.wf
  | .sendDone _ m => m.wf
  | .linkSync _ m => m.wf
  | .memWr _ m => m.wf
  | .memRd _ m => m.wf
  | .memRdResp _ m => m.wf
  | .linkDoorbell _ m => m.wf
  | .fmBarCfg _ m => m.wf
  | .fmRelay _ m => m.wf
  | .linkCredit _ m => m.wf
  | .linkAck _ n => decide (n < 2 ^ 12)
  | .nak _ n => decide (n < 2 ^ 12)
  | .uncorrectableCodeword _ n => decide (n < 2 ^ 12)
  | .pcieMemRead _ off len => decide (0 < len) && decide (len ≤ 4096) && decide (off + len ≤ 2 ^ 64)
  | .pcieMemWrite _ off d => decide (0 < d.length) && decide (d.length ≤ 512) && decide (off + d.length ≤ 2 ^ 64)
  | .ethFrameReceived _ f => f.wf
  | .canFrameReceived _ f => f.wf
  | .parkedConfirmation _ f => f.wf
  | .depotDatagram f => f.wf
  | .arpRequest mac _ _ => mac.length == 6
  | .neighborSolicitation mac ip t => mac.length == 6 && ip.length == 16 && t.length == 16
  | .serviceImageBoot image => decide (image.length ≤ 48 * 2 ^ 20)
  | .topLockSet .. | .keySlotRevoke .. | .strike | .strikeTableEntryFire .. | .goldenRunEnd .. | .strikeRunStart .. | .strikeRunStop ..
  | .pdelayExchange .. | .gmSyncTransmit | .syncTimeout | .strikeMarkTimer | .strikeMark .. | .markCoastTimeout | .markLostTimeout
  | .arrive .. | .release .. | .sqTailDoorbell .. | .cqHeadDoorbell .. | .descriptorReadError .. | .nop .. | .runGraph ..
  | .unloadModel .. | .copy .. | .descriptorFence .. | .barrier .. | .deadlineExpire .. | .completionRecordWrite .. | .moderationTimer ..
  | .ctxEnable .. | .teardown .. | .teardownQuiesced .. | .quiesceTimeout .. | .scrubDone .. | .hicClaim .. | .hicComplete ..
  | .hicXcomplete .. | .hicSet .. | .msixSend .. | .loads .. | .swap .. | .mmaP .. | .mma .. | .epi .. | .store .. | .send .. | .wait ..
  | .sigOpen .. | .sigClose .. | .gold .. | .fence .. | .sync .. | .scrub .. | .shadowFillComplete .. | .blockDrain ..
  | .writeBufferDrain .. | .sendComplete .. | .syncCounterIncrement .. | .waitTimeout .. | .storeComplete .. | .tileListEnd ..
  | .softReset .. | .unitFence .. | .pairRequest .. | .residueInject .. | .injPro .. | .injEpi .. | .injRope .. | .injOut .. | .injA ..
  | .injB .. | .bsEccInject .. | .cruInject .. | .memCeInject .. | .memUeInject .. | .attn .. | .kvappend .. | .rollback .. | .elt ..
  | .norm .. | .red .. | .win .. | .accept .. | .detect .. | .tongsTailWrite .. | .tongsCopy .. | .tongsTranspose .. | .tongsGather ..
  | .tongsFill .. | .tongsScrub .. | .tongsDescriptorComplete .. | .tongsAbort .. | .channelHang .. | .cruciblePatrol | .dramPatrol ..
  | .frameComplete .. | .frameTablePublish | .sweepComplete .. | .goldenFrameRun .. | .recordTailWrite .. | .recordDecode ..
  | .recordDescriptorComplete .. | .recordAbort .. | .signatureClose .. | .comparatorSelftest .. | .comparatorSelftestDone ..
  | .comparatorInject .. | .windowClose .. | .ageFrameTableRead | .emberRunStart .. | .emberDeadline | .safeStateFrameSent .. | .arm ..
  | .faultReport .. | .hearthJoinCsr .. | .hearthJoinTimeout .. | .debugHalt .. | .debugRegWrite .. | .fclClearFirst .. | .fclInject ..
  | .fclCtxNClear .. | .hangKick .. | .hearthHang .. | .unitHangStop .. | .fenceListAdd .. | .fenceListClear .. | .autoComputeReset
  | .prcResetCompute .. | .computeResetRelease | .prcResetSys .. | .snpDumpStart .. | .snpTrigger .. | .fclLogWindowRead ..
  | .evrWindowRead .. | .snpWindowRead .. | .evrCommit .. | .evrCommitTimer | .evrSample .. | .evrClear .. | .linkTrain ..
  | .pciePerst .. | .pcieDstateChange .. | .parkConfirmationTimeout | .reassemblyTimeout .. | .jobSubmit .. | .modelPut ..
  | .modelPutWriteComplete .. | .modelDrop .. | .statusQuery .. | .credit .. | .gateCompletionClaim .. | .gateOutboundSend .. | .timeHint
  | .gateCreditTimer .. | .rtoResend .. | .stallTimeout .. | .tenantKeyWrite .. | .porst .. | .vinStart | .vinLoss
  | .supplyMonitorTrip .. | .powerSample .. | .bootConfirm .. | .bootPending .. | .parkRequest .. | .depotRequest ..
  | .leaveDepotRequest .. | .parkOkChange .. | .shorePwrChange .. | .poolScrub .. | .poolScrubComplete | .wakeN | .canWake
  | .cameraSample .. | .accelSample .. | .supplySample .. | .proofTimer | .coolReqTimer | .ackCoalesceTimer .. | .narultilPortDown ..
  | .pcieLinkStateChange .. | .pcieConfigWrite .. | .pcieWakeTimeout | .wakePulseEnd | .ethPortLinkChange .. | .depotLinkChange ..
  | .canBusOff .. | .busOffRecovery .. | .dramChannelFailed .. | .oosSafeStateFrameTimer | .debugResume .. => true

end Sys2Proof
end

