-- ==== Sys2Proof/Certificates/Slice0/Obligations.lean ====
section
/-! DEFINITION. What the model is claimed to satisfy. An equation `exec c s = .next t` is a command's whole effect: what `t` does not name is as
it was. -/

open Sys2Proof Sys2Proof.Machine

/-! ### The block as a whole -/

/-- A step with a command at the front of the queue is that command's effect on the state with the rest of the queue. -/
def Obligations.StepRunsFrontCommand : Prop :=
  ∀ (s : State) (c : Instr) (rest : List Instr), s.pending = c :: rest → step s = exec c { s with pending := rest }

/-- A step with an empty queue idles: one comparison cycle of device time passes, or one cycle of the sentinel in PARKED, and nothing happens without
power or in PORST (the model's choice: log 1). -/
def Obligations.EmptyQueueIdles : Prop :=
  ∀ s : State, s.pending = [] →
    step s = .next s.idle
    ∧ (s.operates = false → step s = .next s)
    ∧ (s.operates = true → s.inParked = true →
        step s = .next { s with modes := { s.modes with sentinel := s.modes.sentinel + 1 } })

/-- Every command, whatever its operands, takes every state to a next state (none faults and none is refused), leaves the queue alone, takes back
nothing that the device has sent, and keeps the canonical form of the memories. -/
def Obligations.EveryCommandCompletes : Prop :=
  ∀ (c : Instr) (s : State), ∃ t, exec c s = .next t ∧ t.pending = s.pending ∧ s.out <+: t.out ∧ (s.Canonical → t.Canonical)

/-- The memories (module memory, MRAM, flash, registers, poison marks, stored errors) are in their canonical form after every step from a state in
which they are. -/
def Obligations.EveryStepKeepsCanonical : Prop :=
  ∀ s t : State, s.Canonical → step s = .next t → t.Canonical

/-- After reset the memories are canonical, nothing is listed and no command waits. -/
def Obligations.ResetIsCanonical : Prop :=
  State.reset.Canonical ∧ State.reset.mem = [] ∧ State.reset.poison = [] ∧ State.reset.damage = [] ∧ State.reset.pending = [] ∧ State.reset.out = []

/-! ### Lists of the Anvils -/

/-- R119 to R133: what LOADS, SWAP, MMA.P, MMA, EPI, STORE, SEND and SCRUB do when they are at the head of a list that may run them, with every operand
legal and no hazard ahead. In each, PC goes up by one and everything the equation does not name is as the fetch left it. -/
def Obligations.AnvilInstructionsComplete : Prop :=
  ∀ (n : Fin 64) (s t : State) (d : Ins),
    (s.HeadsZ1 n 1 d t → loadsReasons d = [] → insFlag d 2 7 = false → t.mustWait n (loadsRegion d).ranges [] = false →
      exec (.loads n) s = .next ((t.loadsFill n d).advance n))
    ∧ (s.HeadsZ1 n 2 d t → zeroAt d 2 30 = true → (t.anvil n).filling = false →
      exec (.swap n) s = .next ((t.modAnvil n AnvSt.exchange).advance n))
    ∧ (s.HeadsZ1 n 4 d t →
      exec (.mmaP n) s = .next ((t.modAnvil n (fun x => { x with
        pendAt := if x.pend.isEmpty then t.pc n else x.pendAt, pend := x.pend ++ [d] })).advance n))
    ∧ (s.HeadsZ1 n 3 d t →
      let ds := (t.anvil n).pend ++ [d]
      t.passReasons n ds = [] →
      t.mustWait n (ds.flatMap (fun o => (readRegions o (t.proOf n o) (t.epiOf n o)).flatMap Region.ranges)) [] = false →
      exec (.mma n) s = .next ((t.runPass n (if (t.anvil n).pend.isEmpty then t.pc n else (t.anvil n).pendAt) ds).advance n))
    ∧ (s.HeadsZ1 n 5 d t → epiReasons d = [] →
      exec (.epi n) s = .next ((t.modAnvil n (fun x => { x with
        slots := SMap.insert x.slots (8 * insBits d 3 7 1 + insBits d 3 0 3) d })).advance n))
    ∧ (s.HeadsZ1 n 6 d t → t.storeReasons n d = [] → t.mustWait n (storeSrc d) (storeOwn n d) = false →
      let e := t.effectRecord n 6 (insH d 4) (insW d 16) (storeRows d)
      let (w, r) := (e.spoil n (storeOwn n d)).storeAll n d
      exec (.store n) s = .next ((if e.isChecker n || storeRows d = 0 then e
        else w.modAnvil n (fun x => { x with stores := x.stores ++ [⟨insFlag d 2 6, insB d 3, r.poison, r.failed⟩] })).advance n))
    ∧ (s.HeadsZ1 n 7 d t → t.sendReasons n d = [] → (t.anvil n).sends.length < 32 →
      let own := if !insFlag d 2 6 && sendDst d == n.val then [(32 * insH d 8, 32 * insH d 8 + sendLen d)] else []
      t.mustWait n [(32 * insH d 4, 32 * insH d 4 + sendLen d)] own = false →
      let e := t.effectRecord n 7 (insH d 4) (insH d 8 + 65536 * sendDst d) (insH d 6)
      exec (.send n) s = .next ((if e.isChecker n then e else if insFlag d 2 6 then e.sendPeer n d else (e.spoil n own).sendLocal n d).advance n))
    ∧ (s.HeadsZ1 n 13 d t → scrubReasons d = [] →
      t.mustWait n [] [(32 * insH d 4, 32 * insH d 4 + scrubLen d)] = false → (t.anvil n).wb = [] →
      exec (.scrub n) s = .next (((List.range (scrubLen d / 32)).foldl (fun s i => s.scrubUnit n (32 * insH d 4 + 32 * i))
        (t.spoil n [(32 * insH d 4, 32 * insH d 4 + scrubLen d)])).advance n))

/-- R122: a SWAP that meets a running fill is executed when the fill completes, and until then no instruction of the list is issued: every command that
would run one leaves the state as it is. The cycles that the wait adds to ANV_STALL are a free value (timing). -/
def Obligations.SwapWaitsForTheFill : Prop :=
  ∀ (n : Fin 64) (s t : State) (d : Ins),
    (s.HeadsZ1 n 2 d t → zeroAt d 2 30 = true → (t.anvil n).filling = true →
      exec (.swap n) s = .next (((t.free.1.modAnvil n (fun x => { x with swapWait := true })).count (Reg.ANV_STALL.CYCLES n) t.free.2).advance n))
    ∧ ((s.anvil n).swapWait = true →
      (∀ c ∈ [Instr.loads n, .swap n, .mmaP n, .mma n, .epi n, .store n, .send n, .scrub n], exec c s = .next s)
      ∧ (∀ u : Fin 78, u.val = n.val → ∀ c ∈ [Instr.wait u, .sigOpen u, .sigClose u, .gold u, .fence u, .sync u], exec c s = .next s))

/-- R74, R75, R105, R161, R244: what the engines of an Anvil do by themselves. -/
def Obligations.AnvilEnginesComplete : Prop :=
  ∀ (n : Fin 64) (s : State),
    ((s.anvil n).filling = true → (s.anvil n).swapWait = false →
      exec (.shadowFillComplete n) s = .next (s.modAnvil n (fun x => { x with filling := false, swapWait := false })))
    ∧ ((s.anvil n).filling = true → (s.anvil n).swapWait = true →
      exec (.shadowFillComplete n) s = .next (s.modAnvil n (fun x => { x with
        active := x.shadow, shadow := x.active, filling := false, swapWait := false })))
    ∧ (∀ (w : State) (h g : Half) (p q : PassSt),
      s.marmer n = false → (s.anvil n).oldest = some h → (s.anvil n).passes.find? (fun p => p.no == h.pass) = some p → s.await n p = some w →
      (w.anvil n).oldest = some g → (w.anvil n).passes.find? (fun q => q.no == p.no) = some q →
      let (v, q, r) := g.elems.foldl (State.drainElem n g.elems) (w, q, none)
      let v := match r with | some r => v.wbBytes n r.off r.bs r.poison | none => v
      exec (.blockDrain n) s = .next ((v.modAnvil n (fun x => x.drained q)).showLanes n))
    ∧ (∀ (e : WbEntry) (rest : List WbEntry), (s.anvil n).wb = e :: rest →
      exec (.writeBufferDrain n) s = .next ((s.modAnvil n (fun x => { x with wb := rest })).planeWrite n e))
    ∧ (∀ (x : StoreSt) (rest : List StoreSt), (s.anvil n).stores = x :: rest →
      exec (.storeComplete n) s = .next (
        let t := s.modAnvil n (fun a => { a with stores := rest })
        if x.publish && !x.failed then t.publish n x.result x.poison else t))
    ∧ (∀ x : SendSt, (s.anvil n).sends.find? (s.sendReady n) = some x →
      let t := s.modAnvil n (fun a => { a with sends := a.sends.erase x })
      let t := t.setFld (Reg.ANV_SEND_STATUS.OUTSTANDING n) (t.anvil n).sends.length
      exec (.sendComplete n) s = .next (if x.code = 0 then t else t.sendFailed n x.code))


/-! ### Commands that are an access to one register -/

/-- R13, R16: an access to a register by its address. A word write to a register that is no pair applies each field of the value and has the
register's effects; a write of a `_LO` word of a pair is held, and the write of its `_HI` word applies both at once. A read of a `_LO` word answers
with it and captures the `_HI` word beside it, which the next read of `_HI` answers with. -/
def Obligations.RegisterAccessesComplete : Prop :=
  ∀ (s : State) (who : Party) (a value : Nat) (h : RegHit), a % 4 = 0 → inRegs a = true → doorbellAt a = none → s.liveReg a = some h →
    (s.reaches who a = true → h.desc.pair = false →
      let (t, eff) := s.applyValue h a (value % 2 ^ 32) (sourceOf who) none
      exec (.registerWrite who a 4 value) s = .next (t.hook s ⟨h, (s.rd a).toNat, eff, value % 2 ^ 32⟩))
    ∧ (s.reaches who a = true → h.desc.pair = true → h.hi = false →
      exec (.registerWrite who a 4 value) s = .next { s with heldLo := SMap.insert s.heldLo a (BitVec.ofNat 32 (value % 2 ^ 32)) })
    ∧ (s.reaches who a = true → h.desc.pair = true → h.hi = true →
      let low := ((SMap.find? s.heldLo (a - 4)).getD (s.rd (a - 4))).toNat
      let u := { s with heldLo := SMap.erase s.heldLo (a - 4) }
      let (t, eff) := u.applyValue h (a - 4) (low + 2 ^ 32 * (value % 2 ^ 32)) (sourceOf who) none
      exec (.registerWrite who a 4 value) s = .next (t.hook s ⟨h, s.rd64 (a - 4), eff, value % 2 ^ 32⟩))
    ∧ (s.gives who a = true → h.desc.pair = true → h.hi = false → h.blk ∉ [.hic, .fcl, .evr, .snp, .tim] → h.desc.off ≠ 0x1008 →
      let t := (s.clearRc h a).clearRc { h with hi := true } (a + 4)
      exec (.pairLoRead who a 4) s = .next (({ t with capHi := SMap.insert (s.clearRc h a).capHi (a + 4) (s.derived { h with hi := true } (a + 4)) } :
        State).send (.readData a (s.derived h a))))
    ∧ (∀ size, s.gives who a = true → size ≠ 4 → exec (.pairLoRead who a size) s = .next (s.send (.readData a 0)))

/-- R88, R96, R163, R200, R231, R266, R412, R414: the register commands of compute units and streams, for every party that reaches the register. Each
sets its bit (an injection bit and SOFT_RESET read 0 afterwards), has its effect, and the levels of the interrupt sources that the register feeds
follow. RESIDUE_INJECT exists on the units that multiply: the Anvils, the Draw pipes and the Swages. -/
def Obligations.UnitRegisterCommandsComplete : Prop :=
  ∀ (s : State) (who : Party),
    (∀ u : Fin 78, s.reaches who (unitBase u + 0x10) = true →
      exec (.softReset who u) s = .next (((s.stored ⟨unitBase u + 0x10, 11, 1⟩ 1).softReset u).syncSrc u))
    ∧ (∀ u : Fin 78, s.reaches who (unitBase u + 0x10) = true → s.flag (unitFence u) = false →
      exec (.unitFence who (.unit u)) s = .next (((s.stored (unitFence u) 1).fenceUnit u 1).syncSrc u))
    ∧ (∀ c : Fin 16, s.reaches who (Reg.BLW_CAM_CTL c) = true → s.flag (Reg.BLW_CAM_CTL.FENCE c) = false →
      exec (.unitFence who (.camera c)) s
        = .next ((((s.setFld (Reg.BLW_CAM_CTL.FENCE c) 1).fenceStream c 1).syncRange 112 24).syncSrc 141))
    ∧ (∀ j : Fin 8, s.reaches who (Reg.BLW_PT_CTL j) = true → s.flag (Reg.BLW_PT_CTL.FENCE j) = false →
      exec (.unitFence who (.point j)) s
        = .next ((((s.setFld (Reg.BLW_PT_CTL.FENCE j) 1).fenceStream (16 + j) 1).syncRange 112 24).syncSrc 141))
    ∧ (∀ (u : Fin 78) (req : Bool), s.reaches who (unitBase u + 0x14) = true → u.val % 2 = 0 →
      exec (.pairRequest who u req) s = .next (((s.stored (unitPairReq u) (ofBool req)).pairWritten u req).syncSrc u))
    ∧ (∀ u : Fin 78, u.val < 76 → s.reaches who (unitBase u + 0x40) = true →
      exec (.residueInject who u) s = .next (((s.stored ⟨unitBase u + 0x40, 8, 1⟩ 1).arm u 0).syncSrc u))
    ∧ (∀ n : Fin 64, s.reaches who (Reg.ANV_FUS_CTL n) = true →
      exec (.injPro who n) s = .next (((s.stored (Reg.ANV_FUS_CTL.INJ_PRO n) 1).arm n 2).syncSrc n)
      ∧ exec (.injEpi who n) s = .next (((s.stored (Reg.ANV_FUS_CTL.INJ_EPI n) 1).arm n 1).syncSrc n))
    ∧ (∀ p : Fin 4, s.reaches who (Reg.DRW_DUP_CTL p) = true →
      exec (.injRope who p) s = .next (((s.stored (Reg.DRW_DUP_CTL.INJ_ROPE p) 1).arm (64 + p) 2).syncSrc (64 + p))
      ∧ exec (.injOut who p) s = .next (((s.stored (Reg.DRW_DUP_CTL.INJ_OUT p) 1).arm (64 + p) 1).syncSrc (64 + p)))
    ∧ (∀ u : Fin 10, s.reaches who (unitBase (68 + u) + 0xA0) = true →
      exec (.injA who u) s = .next (((s.stored ⟨unitBase (68 + u) + 0xA0, 0, 1⟩ 1).arm (68 + u) 1).syncSrc (68 + u)))
    ∧ (∀ u : Fin 2, s.reaches who (Reg.PPU_DUP u) = true →
      exec (.injB who u) s = .next (((s.stored (Reg.PPU_DUP.INJ_B u) 1).arm (76 + u) 2).syncSrc (76 + u)))
    ∧ (∀ n : Fin 64, s.reaches who (Reg.ANV_BS_ECC n) = true →
      exec (.bsEccInject who n) s
        = .next (({ s.stored (Reg.ANV_BS_ECC.INJECT n) 1 with arms := { s.arms with bsEcc := setInsert s.arms.bsEcc n } } : State).syncSrc n))

/-- R267, R268, R249, R252, R398: the injections of the Crucible and of the DRAM are armed by a write; a patrol pass reads what is enabled; a failed
channel's STATE becomes FAILED and the fault is class F. -/
def Obligations.MemoryMaintenanceCommandsComplete : Prop :=
  ∀ (s : State) (who : Party) (ch : Fin 8),
    (s.reaches who Reg.CRU_CTL = true →
      exec (.cruInject who) s = .next { s.stored Reg.CRU_CTL.INJECT 1 with arms := { s.arms with cru := true } })
    ∧ (s.reaches who (Reg.MEM_CH_INJECT ch) = true →
      exec (.memCeInject who ch) s
        = .next { s.stored (Reg.MEM_CH_INJECT.CE ch) 1 with arms := { s.arms with memCe := setInsert s.arms.memCe ch } }
      ∧ exec (.memUeInject who ch) s
        = .next { s.stored (Reg.MEM_CH_INJECT.UE ch) 1 with arms := { s.arms with memUe := setInsert s.arms.memUe ch } })
    ∧ (s.inParked = false → s.flag Reg.CRU_CTL.PATROL_EN = true →
      exec .cruciblePatrol s
        = .next ((s.every 7 (1000000 * s.fld Reg.CRU_PATROL.PERIOD_MS)).patrol (fun u => s.target (32 * u) == .crucible)))
    ∧ (s.flag Reg.MEM_CTL.PATROL_EN = true → s.fld (Reg.MEM_CH_STATUS.STATE ch) ≠ 3 → s.fld (Reg.MEM_CH_STATUS.STATE ch) ≠ 1 →
      exec (.dramPatrol ch) s
        = .next ((s.every (8 + ch) (3600000000000 * s.fld Reg.MEM_PATROL.HOURS)).patrol
            (fun u => s.target (32 * u) == .dram && dramChannel (32 * u) == ch.val)))
    ∧ (s.fld (Reg.MEM_CH_STATUS.STATE ch) ≠ 3 →
      exec (.dramChannelFailed ch) s = .next ((s.setFld (Reg.MEM_CH_STATUS.STATE ch) 3).fault 0x3B ch false none none))

/-- R319 to R322, R318, R442, R453: interrupts. A claim answers with the source and makes it IN_SERVICE; a completion frees it; HIC_SET makes an event
of it; MSIX_SEND claims a source routed to the host and sends its vector's message; the gate claims a tenant's completion source, takes the records
between head and tail and completes the source. -/
def Obligations.InterruptCommandsComplete : Prop :=
  ∀ (s : State) (who : Party) (core : Fin 8) (src : BitVec 9),
    (s.gives who (Reg.HIC_CLAIM core) = true →
      exec (.hicClaim who core) s = .next ((s.claimRead core).1.send (.readData (Reg.HIC_CLAIM core) (s.claimRead core).2)))
    ∧ (s.reaches who (Reg.HIC_COMPLETE core) = true →
      exec (.hicComplete who core src) s = .next ((s.stored ⟨Reg.HIC_COMPLETE core, 0, 9⟩ src.toNat).hicCompleteBy core src.toNat))
    ∧ (s.reaches who Reg.HIC_XCOMPLETE = true →
      exec (.hicXcomplete who src) s = .next ((s.stored ⟨Reg.HIC_XCOMPLETE, 0, 9⟩ src.toNat).hicXComplete src.toNat))
    ∧ (s.reaches who Reg.HIC_SET = true →
      exec (.hicSet who src) s = .next ((s.stored ⟨Reg.HIC_SET, 0, 9⟩ src.toNat).hicEvent src.toNat))
    ∧ (s.flag Reg.HIC_CTL.ENABLE = true → s.fld (Reg.HIC_SRC_CFG.KIND src.toNat) = 1 → s.deliverable src.toNat = true →
      s.msixReady (s.fld (Reg.HIC_SRC_CFG.TARGET src.toNat)) = true →
      let v := s.fld (Reg.HIC_SRC_CFG.TARGET src.toNat)
      let e := SMap.getD s.msix.entries v (0, 0)
      exec (.msixSend src) s = .next (((s.claim src.toNat 8).setFld Reg.PCI_STATUS.LINK 1).send (.msix v e.1 e.2)))
    ∧ (s.flag Reg.HIC_CTL.ENABLE = true → s.fld (Reg.HIC_SRC_CFG.KIND src.toNat) = 1 → s.deliverable src.toNat = true →
      s.msixReady (s.fld (Reg.HIC_SRC_CFG.TARGET src.toNat)) = false → exec (.msixSend src) s = .next s.pciePme)
    ∧ (∀ (t : Fin 16) (r : Fin 8), let src := 144 + 8 * t.val + r.val
      s.tenantOn t = true → s.flag Reg.HIC_CTL.ENABLE = true → s.fld (Reg.HIC_SRC_CFG.KIND src) = 2 → s.deliverable src = true →
      (s.tenant t).outbox.length < 256 →
      let c := s.claim src 9
      let (u, head) := State.gateRecords (2 ^ c.fld (Reg.HRT_CQ_CFG.LOG2 t r)) t r (c.fld (Reg.HRT_CQ_IDX.HEAD t r)) (c.fld (Reg.HRT_CQ_IDX.TAIL t r)) c
      exec (.gateCompletionClaim t r) s = .next ((u.cqDoorbell t r head).hicXComplete src))

/-- R296, R323, R324: the life of a context. -/
def Obligations.ContextCommandsComplete : Prop :=
  ∀ (s : State) (who : Party) (c : Fin 16),
    (s.reaches who (Reg.HRT_CTX_CTL c) = true → c.val ≠ 0 → s.ctxState c = 0 → s.inDepot = true → s.flag (Reg.HRT_CTX_CTL.ENABLE c) = false →
      exec (.ctxEnable who c true) s = .next (((s.stored (Reg.HRT_CTX_CTL.ENABLE c) 1).ctxEnabled c).syncSrc 79))
    ∧ (s.reaches who (Reg.HRT_CTX_CTL c) = true → c.val ≠ 0 → s.ctxState c = 1 → s.flag (Reg.HRT_CTX_CTL.TEARDOWN c) = false →
      exec (.teardown who c) s = .next (((s.stored (Reg.HRT_CTX_CTL.TEARDOWN c) 1).teardown c).syncSrc 79))
    ∧ (s.ctxState c = 2 → s.inflight c = 0 → exec (.teardownQuiesced c) s = .next (s.enterScrubbing c))
    ∧ (s.ctxState c = 2 →
      let t := ((s.expire (SMap.getD s.draining c s.nowNs + 2000000)).dropTraffic c).dropLinks c
      exec (.quiesceTimeout c) s
        = .next (((t.enterScrubbing c).event Reg.HRT_EVT_STATUS.QUIESCE_TIMEOUT 79).fault 0x3F c false (some c) none))
    ∧ (s.reaches who (Reg.HRT_CTX_CTL c) = true → s.ctxState c = 3 →
      exec (.scrubDone who c) s
        = .next ((((s.stored (Reg.HRT_CTX_CTL.SCRUB_DONE c) 1).setCtxState c 0).setFld (Reg.HRT_CTX_CTL.TEARDOWN c) 0).syncSrc 79))

/-- R363, R361, R366, R410, R409, R398, R403, R405, R412: the comparator, arming, the fault collector's commands and the fence list. The operand of
COMPARATOR_SELFTEST_DONE says whether every case of the test had its outcome. -/
def Obligations.ComparisonCommandsComplete : Prop :=
  ∀ (s : State) (who : Party),
    (∀ (slot : Fin 39) (checker : Bool),
      exec (.signatureClose slot checker) s = .next (s.deliverClose (memberOf slot checker)))
    ∧ (s.reaches who Reg.SFI_CMP_CTL = true →
      exec (.comparatorSelftest who) s = .next ((((s.stored Reg.SFI_CMP_CTL.ST_RUN 1).startSelftest).syncRange 320 8).latePark)
      ∧ exec (.comparatorInject who) s = .next ((((s.stored Reg.SFI_CMP_CTL.INJ 1).cmpInject).syncRange 320 8).latePark))
    ∧ (s.cmp.testing = true → s.cmp.skipped = false →
      let t := (s.setFld Reg.SFI_CMP_STATUS.ST_DONE 1).modCmp (fun m => { m with testing := false, skipped := false })
      let u := t.setFlag Reg.SFI_STATUS.CMP_ST_OK (!t.flag Reg.SFI_CMP_STATUS.ST_FAIL)
      exec (.comparatorSelftestDone true) s = .next u ∧ exec (.comparatorSelftestDone false) s = .next (u.selftestFailed 0xFF))
    ∧ (s.reaches who Reg.SFI_CTL = true → s.armBlock = 0 → s.safeInit = true → SMap.wf s.regs = true →
      let t := ((s.setFld Reg.SFI_CTL.ARM 1).armWritten 0 true).handoverDone
      exec (.arm who) s = .next (((t.setFlag Reg.SFI_CTL.ARM t.armed).syncRange 320 8).latePark))

/-- R398 to R416: the collector's reports and clears, the fence list, the hang monitors and the resets. -/
def Obligations.FaultCommandsComplete : Prop :=
  ∀ (s : State) (who : Party),
    (s.reaches who Reg.FCL_CLEAR = true → s.safeInit = true →
      exec (.fclClearFirst who) s = .next ((s.stored Reg.FCL_CLEAR.FIRST 1).clearFirst.syncRange 336 7))
    ∧ (∀ (cls : Fin 4) (ctx : Fin 16) (inst : Byte), s.reaches who Reg.FCL_INJECT = true → s.safeInit = true → s.rd Reg.FCL_INJECT = 0 →
      exec (.fclInject who cls ctx inst) s = .next (
        let k := if cls.val = 2 ∧ s.fld Reg.PRC_MODE.MODE = 2 then 0 else cls.val
        ((s.wr Reg.FCL_INJECT 0).report ⟨0x5F, inst.toNat, k, if k = 1 then some ctx.val else none, none, 0, 0⟩).syncRange 336 7))
    ∧ (∀ c : Fin 16, s.reaches who (Reg.FCL_CTX_N c) = true → s.flag (Reg.FCL_CTX_N.VALID c) = true →
      exec (.fclCtxNClear who c) s = .next ((((s.setFld (Reg.FCL_CTX_N.VALID c) 0).setFld (Reg.FCL_CTX_N.OVERFLOW c) 0).setFld
        (Reg.FCL_CTX_N.SOURCE c) 0).syncRange 336 7))
    ∧ (∀ cores : Byte, s.reaches who Reg.FCL_HANG_KICK = true →
      exec (.hangKick who cores) s = .next (({ s.stored Reg.FCL_HANG_KICK.CORE cores.toNat with
        hearth := { s.hearth with
          kicked := (List.range 8).foldl (fun l k => if bitAt cores.toNat k then setInsert l k else l) s.hearth.kicked } } : State).syncRange 336 7))
    ∧ (∀ (w : FenceUnit) (f : FRef), fenceBit (fenceUnitCode w) = some f → s.reaches who f.addr = true →
      exec (.fenceListAdd who w) s = .next ((s.setFld f 1).syncRange 336 7))
    ∧ (∀ (w : FenceUnit) (f : FRef), fenceBit (fenceUnitCode w) = some f → s.reaches who (f.addr + 0x40) = true → s.locked = false →
      s.rd (f.addr + 0x40) = 0 →
      exec (.fenceListClear who w) s = .next (((s.stored ⟨f.addr + 0x40, f.lsb, 1⟩ 1).setFld f 0).syncRange 336 7))
    ∧ (∀ (src : BitVec 16) (ctx : Option (Fin 16)) (safety : Bool) (op : Byte) (d0 d1 : DWord),
      let g := src.toNat / 256
      let i := src.toNat % 256
      knownGroup g = true → g ≠ 0x22 → g ≠ 0x48 →
      exec (.faultReport src ctx safety op d0 d1) s
        = .next (((s.detector g i).harmSource g i safety).fault g i safety (ctx.map (·.val)) (sourceUnit g i) d0.toNat d1.toNat))
    ∧ (∀ (src : BitVec 16) (ctx : Option (Fin 16)) (safety : Bool) (op : Byte) (d0 d1 : DWord),
      let i := src.toNat % 256
      (knownGroup (src.toNat / 256) = false → exec (.faultReport src ctx safety op d0 d1) s = .next s)
      ∧ (src.toNat / 256 = 0x22 → exec (.faultReport src ctx safety op d0 d1) s = .next (s.hearthFailed (i % 4) false))
      ∧ (src.toNat / 256 = 0x48 → exec (.faultReport src ctx safety op d0 d1) s = .next (s.proofFailed i op.toNat d0.toNat d1.toNat)))
    ∧ (∀ core : Fin 8, s.kicksDue core = true → s.fld Reg.FCL_HANG_CFG.STRIKES ≤ s.hearth.missed.getD core 0 →
      s.hearth.hung.contains core.val = false →
      let t := (s.setFld ⟨Reg.FCL_HANG_STATUS, core, 1⟩ 1).fclEvent 4
      exec (.hearthHang core) s
        = .next (({ t with recover := { t.recover with hangReset := true }, hearth := { t.hearth with hung := setInsert t.hearth.hung core } } : State).fault 0x24 core false none (some (0x58 + core))))
    ∧ (∀ u : Fin 78, s.flag (unitBusy u) = true → (s.unit u).window = none → s.time.live = true →
      2 ≤ serialDiff 32 s.strikeNo (s.unit u).startStrike →
      exec (.unitHangStop u) s
        = .next ((s.report ⟨refuseGroup u, refuseInst u, 1, some (s.unit u).ctx, some (unitCode u), 0, 0⟩).stopWith u 9 true))
    ∧ (∀ ch : Fin 36, s.fld (chanState ch) = 1 →
      let t := (s.reach ((s.chan ch).lastWrite + 10000000)).chanAbortNow ch
      exec (.channelHang ch) s = .next (t.report ⟨0x3D, ch % 32, 1, some (t.fld (chanCtx ch)), some (chanUnit ch), 0, 0⟩))
    ∧ (s.reaches who Reg.PRC_RESET = true → s.rd Reg.PRC_RESET = 0 →
      exec (.prcResetCompute who 0xC3) s = .next ((s.wr Reg.PRC_RESET 0).computeReset 0 4)
      ∧ exec (.prcResetSys who 0xC3) s = .next ((s.wr Reg.PRC_RESET 0).sysReset 4 2)
      ∧ ∀ key : Byte, key ≠ 0xC3 →
        exec (.prcResetCompute who key) s = .next (s.wr Reg.PRC_RESET 0) ∧ exec (.prcResetSys who key) s = .next (s.wr Reg.PRC_RESET 0))
    ∧ (s.flag Reg.FCL_RECOVER.AUTO = true → s.recover.hangReset = true → exec .autoComputeReset s = .next (s.computeReset 1 3))
    ∧ (s.flag Reg.FCL_RECOVER.AUTO = true → s.recover.hangReset = false → s.quenched = true → s.quench.cls = 2 →
      0 ≤ serialDiff 32 s.strikeNo (s.quench.strike + s.fld Reg.FCL_RECOVER.DELAY) → exec .autoComputeReset s = .next (s.computeReset 1 1))
    ∧ (s.flag Reg.PCI_STATUS.COMPUTE_RESET = true → s.outOfService = false →
      exec .computeResetRelease s = .next s.computeRelease.latePark)

/-- R418, R421, R424, R425: the windows of the log, the event recorder and the snapshot answer a read with their next word; a commit, a clear, a
trigger and a dump have their effect. -/
def Obligations.RecorderCommandsComplete : Prop :=
  ∀ (s : State) (who : Party),
    (s.gives who Reg.FCL_LOG_WINDOW = true →
      exec (.fclLogWindowRead who) s = .next (s.logWindow.1.send (.readData Reg.FCL_LOG_WINDOW s.logWindow.2)))
    ∧ (s.gives who Reg.EVR_WINDOW = true →
      exec (.evrWindowRead who) s = .next (s.evrWindow.1.send (.readData Reg.EVR_WINDOW s.evrWindow.2)))
    ∧ (s.gives who Reg.SNP_WINDOW = true →
      exec (.snpWindowRead who) s = .next (s.snpWindow.1.send (.readData Reg.SNP_WINDOW s.snpWindow.2)))
    ∧ (s.reaches who Reg.SNP_DUMP = true → exec (.snpDumpStart who) s = .next ((s.stored Reg.SNP_DUMP.START 1).dumpStart))
    ∧ (s.reaches who Reg.SNP_CTL = true → exec (.snpTrigger who) s = .next ((s.stored Reg.SNP_CTL.TRIGGER 1).snapTrigger 0))
    ∧ (s.reaches who Reg.EVR_CTL = true → exec (.evrCommit who) s = .next ((s.stored Reg.EVR_CTL.COMMIT 1).evrCommit))
    ∧ (s.reaches who Reg.EVR_CTL = true → s.locked = false → exec (.evrClear who) s = .next ((s.stored Reg.EVR_CTL.CLEAR 1).evrClear))
    ∧ (s.inParked = false → s.operates = true →
      let t := (s.every 1 225000000000).count Reg.EVR_HOURS.SIXTEENTHS 1
      exec .evrCommitTimer s = .next (t.evrAdd 8 (match t.mode with | 0 => 3 | 2 => 4 | _ => 6) 1).evrCommit)
    ∧ (∀ x : Sensors, s.inParked = false → s.operates = true →
      let t := ((((s.every 0 1000000000).takeSensors x).evrHist 1 x.dieTemp (-320) 24).evrHist 2 x.vin 3100 50).evrHist 3 x.inW 0 60
      let t := ((t.evrExtreme 0 false x.dieTemp).evrExtreme 1 true x.dieTemp).evrExtreme 2 false x.vin
      let t := ((t.evrExtreme 3 true x.vin).evrExtreme 4 true x.inW).evrExtreme 5 false x.inlet
      exec (.evrSample x) s = .next (((t.evrExtreme 6 true x.inlet).evrExtreme 7 false x.vcore).evrExtreme 8 true x.vcore))

/-- R481, R467, R471, R474, R477, R478: the lock, the key slots, boot slots and mode requests of the processor control block. -/
def Obligations.ControlCommandsComplete : Prop :=
  ∀ (s : State) (who : Party),
    (s.reaches who Reg.TOP_LOCK = true → exec (.topLockSet who) s = .next (s.stored Reg.TOP_LOCK.LOCK 1))
    ∧ (∀ slots : BitVec 4, s.reaches who Reg.TOP_SEC = true → s.locked = false → slots ≠ 0 →
      exec (.keySlotRevoke who slots) s = .next (s.stored Reg.TOP_SEC.REVOKED (s.fld Reg.TOP_SEC.REVOKED ||| slots.toNat)))
    ∧ (s.reaches who Reg.PRC_BOOT = true → s.boot.service = false → s.boot.waiting = false →
      let t := s.setFld Reg.PRC_BOOT.CONFIRM 1
      let u := t.setFld (if t.fld Reg.TOP_BOOT.SLOT = 0 then Reg.PRC_BOOT.STATE_A else Reg.PRC_BOOT.STATE_B) 1
      exec (.bootConfirm who) s
        = .next (u.setFld Reg.TOP_SEC.MIN_SECVER (max (u.fld Reg.TOP_SEC.MIN_SECVER) (u.fld Reg.TOP_BOOT.SECVER))))
    ∧ (∀ slotB : Bool, s.reaches who Reg.PRC_BOOT = true →
      let t := (s.setFld (if slotB then Reg.PRC_BOOT.PENDING_B else Reg.PRC_BOOT.PENDING_A) 1).setFld
        (if slotB then Reg.PRC_BOOT.STATE_B else Reg.PRC_BOOT.STATE_A) 2
      exec (.bootPending who slotB) s = .next { t with boot := { t.boot with tries := t.boot.tries.set (ofBool slotB) 0 } })
    ∧ (s.reaches who Reg.PRC_MODE = true → SMap.wf s.regs = true → s.inDrive = true → s.flag Reg.PRC_MODE.HANDOVER = false →
      exec (.parkRequest who) s = .next (((s.setFld Reg.PRC_MODE.REQ 1).setFld Reg.PRC_MODE.REQ 0).park))
    ∧ (s.reaches who Reg.PRC_MODE = true → exec (.depotRequest who) s = .next ((s.setFld Reg.PRC_MODE.REQ 2).modeRequest 2))
    ∧ (s.reaches who Reg.PRC_MODE = true → SMap.wf s.regs = true → s.inDepot = true →
      exec (.leaveDepotRequest who) s = .next (((s.setFld Reg.PRC_MODE.REQ 3).setFld Reg.PRC_MODE.REQ 0).handOver 5))
    ∧ (s.reaches who Reg.PRC_MODE = true → s.inDrive = true → s.tenantsFree = true → s.fld Reg.PRC_MODE.REQ = 0 →
      exec (.poolScrub who) s = .next (s.setFld Reg.PRC_MODE.POOL_SCRUB 1))
    ∧ (s.flag Reg.PRC_MODE.POOL_SCRUB = true →
      exec .poolScrubComplete s
        = .next (((s.zeroRange s.poolBase (s.usableTop - s.poolBase)).setFld Reg.PRC_MODE.POOL_DIRTY 0).setFld Reg.PRC_MODE.POOL_SCRUB 0))

/-! ### Instructions every list may hold -/

/-- R127 to R132, R350, R99: WAIT, SIG, GOLD, FENCE and SYNC at the head of a list that may run them, with their fields legal. An Anvil that runs a
Marmer list meets the first three under their M2 opcodes (`sharedOp`, `shared`, `sigForm`). A WAIT that is met takes its counter, one that is not notes
when it began to wait; SIG opens a window with signature 0 and closes it once its passes have drained; GOLD compares; FENCE holds the next instruction
back until every effect is complete; SYNC, once the unit's effects are complete, sends its increment (a paired checker sends none). -/
def Obligations.SharedInstructionsComplete : Prop :=
  ∀ (u : Fin 78) (s t : State) (d : Ins),
    (s.Heads u (s.sharedOp u 8 4) d t → t.waitReasons (t.shared u d (m2Ins 8)) = [] →
      exec (.wait u) s = .next (if t.waitMet u (t.shared u d (m2Ins 8)) then (t.waitTake u (t.shared u d (m2Ins 8))).advance u
        else t.modUnit u (fun x => { x with waitFrom := some (x.waitFrom.getD t.nowNs) })))
    ∧ (∀ start : Nat, s.Heads u (s.sharedOp u 8 4) d t → (s.unit u).waitFrom = some start → waitTimeout (t.shared u d (m2Ins 8)) ≠ 0 →
      t.waitMet u (t.shared u d (m2Ins 8)) = false →
      exec (.waitTimeout u) s
        = .next ((t.reach (t.waitDue start (waitTimeout (t.shared u d (m2Ins 8))))).refuseAt u 0x1B (t.pc u)))
    ∧ (∀ e : Ins, s.Heads u (s.sharedOp u 9 7) d t → t.sigForm u d 9 = (e, false) → sigGrowth e = false →
      (insFlag e 2 0 = false → (t.unit u).sig = none →
        exec (.sigOpen u) s = .next ((t.modUnit u (fun x => { x with sig := some (sigWindow e, 0) })).advance u))
      ∧ (insFlag e 2 0 = true → t.openNumber u = some (sigWindow e) → t.windowDrained u = true →
        exec (.sigClose u) s = .next ((t.sigClose u).advance u)))
    ∧ (∀ e : Ins, s.Heads u (s.sharedOp u 10 8) d t → t.sigForm u d 10 = (e, false) → goldGrowth e = false →
      t.openNumber u = some (sigWindow e) → t.windowDrained u = true →
      exec (.gold u) s = .next ((t.goldCompare u (insQ e 8)).advance u))
    ∧ (s.Heads u 11 d t → t.marmer u = false → zeroAt d 2 30 = true →
      exec (.fence u) s = .next ((t.modUnit u (fun x => { x with fenceAt := some (t.pc u + 1) })).advance u))
    ∧ (s.Heads u 12 d t → t.marmer u = false → syncReasons d = [] → t.quiet u = true →
      let v := t.effectRecord u 0x0C 0 (insB d 5) (insBits d 4 0 4)
      exec (.sync u) s
        = .next ((if v.isChecker u then v else if syncKind d = 4 then v.syncPeer u d else v.syncLocal u d).advance u))

/-- R105, R108, R110, R197, R127: a list is over when every effect is complete and it has either stopped (its part of the job ends with the status
of the stop) or issued its last instruction; a golden run that is over gives way to the launch's list, and has passed unless something in it failed;
an increment on its way arrives, the oldest of its source and unit first. -/
def Obligations.ListEndsComplete : Prop :=
  (∀ (u : Fin 78) (s : State), s.flag (unitBusy u) = true → s.quiet u = true →
    (∀ st, (s.unit u).goldRun = false → (s.unit u).stopping = some st → exec (.tileListEnd u) s = .next (s.partOver u st))
    ∧ (∀ t, (s.unit u).goldRun = false → (s.unit u).stopping = none → s.issuedAll u = (t, true) →
      exec (.tileListEnd u) s = .next (t.runOut u))
    ∧ ((s.unit u).goldRun = true → ((s.unit u).stopping ≠ none ∨ s.pc u = s.listCount u) → (s.unit u).goldTried = false →
      exec (.goldenRunEnd u) s
        = .next (((s.setFld (unitCheckOk u) 1).modUnit u (fun x => { x with goldOk := true })).afterGolden u))
    ∧ ((s.unit u).goldRun = true → ((s.unit u).stopping ≠ none ∨ s.pc u = s.listCount u) → (s.unit u).goldTried = true →
      exec (.goldenRunEnd u) s = .next (s.afterGolden u)))
  ∧ ∀ (s : State) (index : Nat) (i : Inc), s.incs[index]? = some i →
    let k := s.incs.findIdx (fun o => o.src == i.src && o.code == i.code)
    exec (.syncCounterIncrement index) s = .next (({ s with incs := s.incs.eraseIdx k } : State).applyInc (s.incs.getD k i))

/-- R99: the instructions of a Marmer list: M2_LDW, M2_MAC and, at the head with no pass under way, M2_OUT, whose drain BLOCK_DRAIN begins. -/
def Obligations.MarmerInstructionsComplete : Prop :=
  ∀ (n : Fin 64) (s t : State) (d : Ins),
    (s.Heads n 1 d t → t.marmer n = true →
      let e := m2Load d
      m2Format (insBits e 8 0 4) = true → loadsReasons e = [] → insFlag e 2 7 = false → t.mustWait n (loadsRegion e).ranges [] = false →
      exec (.loads n) s = .next ((t.loadsFill n e).advance n))
    ∧ (s.Heads n 2 d t → t.marmer n = true → insB d 0 = 2 → t.m2Reasons n d = [] →
      t.mustWait n ((readRegions (m2Mac d) none none).flatMap Region.ranges) [] = false →
      exec (.mma n) s = .next ((t.m2Run n d).advance n))
    ∧ (s.marmer n = true → (s.anvil n).passes = [] → exec (.blockDrain n) s = .next (s.m2Drain n))

/-! ### Instructions of Draw pipes, Swages and post-processing units -/

/-- R168 to R195: ATTN, KVAPPEND and ROLLBACK at the head of a list that may run them. Each reads its block, its position and mask arrays where the
block has them, its page-map entries and its data, with none of the reads ending in an error and no refusal reason, and then consumes the poison it
met, writes its outputs, waits its cycles (free values: timing) and lets PC advance. -/
def Obligations.DrawInstructionsComplete : Prop :=
  ∀ (n : Fin 4) (s t : State) (d : Ins) (q : Pull) (b : List Byte), t.blockFetch (64 + n) d = (q, b) → b ≠ [] →
    (∀ (p1 p2 p3 p4 p5 p6 : Pull) (pos masks sq sk) (es) (x), s.Heads (64 + n) 0x20 d t →
      (if atPos b = 0 then (q, []) else q.read (64 + n) (atPos b) (4 * atTokens b)) = (p1, pos) →
      (if atTree b then p1.read (64 + n) (atTreeAddr b) (8 * atTokens b) else (p1, [])) = (p2, masks) →
      blockWord (64 + n) d 0x80 ++ blockHead b 1 ++ attnReasons t (64 + n) b pos masks = [] → p2.stop = false →
      p2.entries (64 + n) (atPmap b) 0 (ceilDiv (atL b + atC b) (2 ^ atPage b)) = (p3, es) →
      (∀ e ∈ es.zipIdx, let need := min (2 ^ atPage b) (atL b + atC b - e.2 * 2 ^ atPage b)
        entryReasons (64 + n) e.1 (e.1.fill < need) need (cacheRow (atFmtK b) (atDim b)) (cacheRow (atFmtV b) (atDim b)) = []) →
      p3.stop = false →
      (if atSegment b then p3.read (64 + n) (atSegQ b) (2 * atTokens b) else (p3, [])) = (p4, sq) →
      (if atSegment b then p4.read (64 + n) (atSegK b) (2 * atL b) else (p4, [])) = (p5, sk) →
      p5.attnRead (64 + n) b pos es (insFlag d 2 7) = (p6, x) → p6.stop = false →
      exec (.attn n) s = .next ((((p6.s.eatIf (64 + n) (blockAddr d) p6.poison).attnRun (64 + n) b pos masks sq sk x (insFlag d 2 7)
        p6.poison).drwCycles (64 + n)).advance (64 + n)))
    ∧ (∀ (p1 p2 p3 p4 p5 : Pull) (pos es kr vr kx) (v : State) (badK), s.Heads (64 + n) 0x21 d t →
      (if atPos b = 0 || !kvRope b then (q, []) else q.read (64 + n) (atPos b) (4 * atTokens b)) = (p1, pos) →
      blockWord (64 + n) d 0 ++ blockHead b 2 ++ kvReasons b pos = [] → p1.stop = false →
      p1.entries (64 + n) (atPmap b) (kvS0 b / 2 ^ atPage b)
        ((kvS0 b + atTokens b - 1) / 2 ^ atPage b + 1 - kvS0 b / 2 ^ atPage b) = (p2, es) →
      (∀ e ∈ es.zipIdx, entryReasons (64 + n) e.1 (e.1.fill != (if e.2 = 0 then kvS0 b % 2 ^ atPage b else 0))
        (min (2 ^ atPage b) (kvS0 b + atTokens b - (kvS0 b / 2 ^ atPage b + e.2) * 2 ^ atPage b))
        (cacheRow (kvFmtK b) (atDim b)) (cacheRow (kvFmtV b) (atDim b)) = []) →
      p2.stop = false → t.kvConfig (64 + n) b = false →
      p2.rows (64 + n) (rowBytes (kvFmtKs b) (atDim b)) ((List.range (atTokens b)).map (fun i => kvKSrc b + i * kvKStride b)) = (p3, kr) →
      p3.rows (64 + n) (rowBytes (kvFmtVs b) (atDim b)) ((List.range (atTokens b)).map (fun i => kvVSrc b + i * kvVStride b)) = (p4, vr) →
      kr.zipIdx.foldl (fun (acc : Pull × List (List Machine.Num)) e =>
        let (p, x) := acc.1.kvRow (64 + n) b (kvRope b) (kvPos b pos e.2) (valuesOf (kvFmtKs b) (atDim b) e.1)
        (p, acc.2 ++ [x])) (p4, []) = (p5, kx) →
      p5.stop = false → (p5.s.eatIf (64 + n) (blockAddr d) p5.poison).spendDup (64 + n) 2 1 (kvRope b) = (v, badK) →
      let kc := kx.map (fun r => r.map (encode (kvFmtK b) (atRmode b) (atSat b)))
      let vc := vr.map (fun r => (valuesOf (kvFmtVs b) (atDim b) r).map (encode (kvFmtV b) (atRmode b) (atSat b)))
      exec (.kvappend n) s = .next (((es.zipIdx.foldl (fun s e => s.kvPage (64 + n) b (kvS0 b / 2 ^ atPage b + e.2) e.1 kc vc p5.poison badK)
        v).spendStall (64 + n)).advance (64 + n)))
    ∧ (∀ (p1 p2 : Pull) (r) (es), s.Heads (64 + n) 0x22 d t →
      blockWord (64 + n) d 0 ++ blockHead b 3 ++ rbReasons b = [] → q.stop = false → q.read (64 + n) (rbAccept b) 96 = (p1, r) →
      recReasons r (atC b) = [] → p1.stop = false → t.safetyWork (64 + n) = false →
      p1.entries (64 + n) (rbPmap b) (rbFirst b) (rbPages b) = (p2, es) → p2.stop = false →
      (∀ m ∈ (rbMoves b r).flatMap (fun m => [m.1, m.2]),
        cachePlace (64 + n) (slotRows b es m).1 (cacheRow (rbFmtK b) (atDim b)) = true
        ∧ cachePlace (64 + n) (slotRows b es m).2 (cacheRow (rbFmtV b) (atDim b)) = true) →
      exec (.rollback n) s = .next ((((p2.s.eatIf (64 + n) (blockAddr d) p2.poison).rollback (64 + n) b r es p2.poison).spendStall
        (64 + n)).advance (64 + n)))

/-- R203 to R218: ELT, NORM, RED, WIN and ACCEPT at the head of a list that may run them, with the block read and no refusal reason: the tensors are
read, the output (for ACCEPT, the acceptance record) is written with the poison that was consumed, and PC advances. The cycles waited are a free
value (timing). -/
def Obligations.SwageInstructionsComplete : Prop :=
  ∀ (v : Fin 8) (s t : State) (d : Ins) (q : Pull) (b : List Byte), t.blockFetch (68 + v) d = (q, b) → b ≠ [] → blockWord (68 + v) d 0 = [] →
    (s.Heads (68 + v) 0x40 d t → eltReasons b = [] → ∃ w, eltGo (68 + v) q b = .done w ∧ exec (.elt v) s = .next (w.advance (68 + v)))
    ∧ (s.Heads (68 + v) 0x41 d t → normReasons b = [] → ∃ w, normGo (68 + v) q b = .done w ∧ exec (.norm v) s = .next (w.advance (68 + v)))
    ∧ (s.Heads (68 + v) 0x42 d t → redReasons b = [] → ∃ w, redGo (68 + v) q b = .done w ∧ exec (.red v) s = .next (w.advance (68 + v)))
    ∧ (s.Heads (68 + v) 0x43 d t → winReasons b = [] → ∃ w, winGo (68 + v) q b = .done w ∧ exec (.win v) s = .next (w.advance (68 + v)))
    ∧ (∀ (p1 p2 p3 : Pull) (tok par path bonus) (w : State) (dup), s.Heads (68 + v) 0x44 d t → acReasons b = [] → t.safetyWork (68 + v) = false →
      q.read (68 + v) (acTok b) (4 * acC b) = (p1, tok) → p1.read (68 + v) (acPar b) (acC b) = (p2, par) →
      (∀ i < acC b, fieldAt par i 1 = 0xFF ∨ fieldAt par i 1 < i) →
      acWalk (68 + v) b tok par (acC b + 1) p2 (acPrior b) 0xFF [] = (p3, path, bonus) →
      (p3.s.eatIf (68 + v) (acTok b) p3.poison).spendDup (68 + v) 1 0 true = (w, dup) →
      exec (.accept v) s = .next (((w.unitWrite (68 + v) (acRec b)
        (padTo 96 (leBytes 1 1 ++ leBytes 1 path.length ++ leBytes 2 0 ++ leBytes 4 bonus ++ path.map (BitVec.ofNat 8)))
        (p3.poison || dup)).spendStall (68 + v)).advance (68 + v)))

/-- R220 to R226: DETECT at the head of a list that may run it: boxes, scores and anchors are read, the selected boxes written. -/
def Obligations.DetectCompletes : Prop :=
  ∀ (n : Fin 2) (s t : State) (d : Ins) (q p1 p2 p3 : Pull) (b box score anchor : List Byte),
    s.Heads (76 + n) 0x50 d t → t.blockFetch (76 + n) d = (q, b) → b ≠ [] → blockWord (76 + n) d 0 ++ dtReasons b = [] →
    q.read (76 + n) (dtBoxAddr b) (dtBoxLen b) = (p1, box) → p1.read (76 + n) (dtScoreAddr b) (dtScoreLen b) = (p2, score) →
    (if dtBox b = 0 then p2.read (76 + n) (dtAnchorAddr b) (dtAnchorLen b) else (p2, [])) = (p3, anchor) →
    exec (.detect n) s
      = .next ((((p3.s.eatIf (76 + n) (dtBoxAddr b) p3.poison).dtRun (76 + n) b box score anchor p3.poison).spendStall (76 + n)).advance (76 + n))

/-! ### Movers -/

/-- R255 to R263, R306, R411: Tongs and the record engine's channels. Each of the five kinds of descriptor, taken by its channel and not refused, moves
the units that the command names and goes on at the next one; a refused one waits with its reason and status 3. The completion writes the status
record and reports; a tail write announces descriptors up to a full ring; an abort ends a running descriptor or disables an idle channel. -/
def Obligations.TongsCommandsComplete : Prop :=
  ∀ (s : State) (who : Party) (ch : Fin 32),
    (∀ (t : State) (d : List Byte) (o units : Nat) (c : TongsRun → Instr),
      (o, c) ∈ [(1, Instr.tongsCopy), (2, Instr.tongsTranspose), (3, Instr.tongsGather), (4, Instr.tongsFill), (5, Instr.tongsScrub)] →
      s.chanTake ch = (t, some (d, false)) → fieldAt d 1 1 = o →
      ((t.chan ch).started = true → (t.chan ch).moved = false → exec (c ⟨ch, units⟩) s = .next (t.moveOn ch units))
      ∧ ((t.chan ch).started = false →
        let b := TDesc.ofBytes d
        let (u, idx) := if o == 3 && spanIn (mapRanges t.rawTop) b.aux (4 * b.len1) then t.gatherIndices (t.chanReq ch) b else (t, [])
        let x := { u.chan ch with desc := d, gen := u.fld (chanGen ch), lastWrite := u.nowNs, started := true, idx := idx }
        let w := u.chanRunning ch true
        (∀ reason, tongsRefusal (mapRanges w.rawTop) d idx false = some reason →
          exec (c ⟨ch, units⟩) s = .next (let v := w.setChan ch { x with reason := reason, status := 3, moved := true, idx := [] }
            if (v.chan ch).moved then v else v.moveOn ch units))
        ∧ (tongsRefusal (mapRanges w.rawTop) d idx false = none →
          exec (c ⟨ch, units⟩) s = .next (let v := w.setChan ch { x with zeroed := (idx.filter (fun i => !i.2.1 && !i.2.2 && b.word ≤ i.1)).length }
            if (v.chan ch).moved then v else v.moveOn ch units))))
    ∧ ((s.chan ch).desc ≠ [] → ((s.chan ch).moved || (s.chan ch).aborted) = true →
      let x := s.chan ch
      let status := if x.status = 3 then 3 else if x.aborted then 4 else x.status
      exec (.tongsDescriptorComplete ch) s
        = .next (s.chanFinish ch status (s.tongsRecord x status) (status == 0) (if status = 0 ∨ status = 4 then none else some (0x3D, ch.val)) (80 + ch)))
    ∧ (∀ tail : BitVec 16, s.reaches who (Reg.TNG_CH_TAIL ch) = true →
      (tail.toNat + 65536 - s.fld (Reg.TNG_CH_HEAD.HEAD ch)) % 65536 ≤ 2 ^ s.fld (Reg.TNG_CH_RING_SIZE.LOG2 ch) - 1 →
      exec (.tongsTailWrite who ch tail) s = .next (s.setFld (Reg.TNG_CH_TAIL.TAIL ch) tail.toNat))
    ∧ (s.reaches who (Reg.TNG_CH_CTL ch) = true → s.flag (Reg.TNG_CH_CTL.ABORT ch) = false →
      exec (.tongsAbort who ch) s = .next (((s.setFld (Reg.TNG_CH_CTL.ABORT ch) 1).chanSwitched ch).chanAbortNow ch))

/-- R286 to R291: the record engine's commands. A descriptor that is not refused is decoded record by record into its tensors; its completion writes
the status record. -/
def Obligations.RecordCommandsComplete : Prop :=
  ∀ (s : State) (who : Party) (r : Fin 4),
    (∀ (t : State) (d : List Byte), s.chanTake (32 + r.val) = (t, some (d, false)) →
      let n := 32 + r.val
      let v := t.chanRunning n true
      let rq := v.chanReq n
      let b := RDesc.ofBytes d
      let ranges := mapRanges v.rawTop
      let v := v.setChan n { v.chan n with desc := d, started := true, moved := true, gen := v.fld (chanGen n), lastWrite := v.nowNs }
      (∀ reason, recordRefusal ranges d [] [] false = some reason → reason ≠ 0x30 →
        exec (.recordDecode r) s = .next (v.setChan n { v.chan n with reason := reason, status := 4 }))
      ∧ (∀ (u w : State) (sc tab : Rd), recordRefusal ranges d [] [] false = none ∨ recordRefusal ranges d [] [] false = some 0x30 →
        (v.chargeOnce rq b.schema 128 false).read rq b.schema 128 false = (u, sc) →
        (u.chargeOnce rq b.outTab 256 false).read rq b.outTab 256 false = (w, tab) →
        (∀ reason, recordRefusal ranges d sc.bytes tab.bytes (sc.bad || tab.bad) = some reason →
          exec (.recordDecode r) s = .next (w.setChan n { w.chan n with reason := reason, status := 4 }))
        ∧ (recordRefusal ranges d sc.bytes tab.bytes (sc.bad || tab.bad) = none →
          let (e, y) := w.recordRun rq d sc.bytes tab.bytes
          let x := e.chan n
          let eats := y.ate && !x.faulted
          let e := if eats then e.consumed (chanUnit n) (e.fld (chanCtx n)) b.src else e
          let used := (List.range y.pack.rows.length).countP (fun i => y.pack.samples i != 0)
          exec (.recordDecode r) s = .next (e.setChan n { x with
            status := y.status, faulted := x.faulted || eats, counts := [y.records, y.refused, y.consumed, used, y.firstBad] }))))
    ∧ ((s.chan (32 + r.val)).desc ≠ [] → ((s.chan (32 + r.val)).moved || (s.chan (32 + r.val)).aborted) = true →
      let n := 32 + r.val
      let x := s.chan n
      let status := if x.status = 4 then 4 else if x.aborted then 5 else x.status
      let fault := if status = 4 then some (0x3D, r.val) else if status = 2 ∨ status = 3 then some (0x33, chanUnit n) else none
      exec (.recordDescriptorComplete r) s = .next (s.chanFinish n status (s.recordStatus x status) (status ≤ 1) fault (136 + r.val)))
    ∧ (∀ tail : BitVec 16, s.reaches who (Reg.BLW_REC_TAIL r) = true →
      (tail.toNat + 65536 - s.fld (Reg.BLW_REC_HEAD.HEAD r)) % 65536 ≤ 2 ^ s.fld (Reg.BLW_REC_RING_SIZE.LOG2 r) - 1 →
      exec (.recordTailWrite who r tail) s
        = .next (((s.setFld (Reg.BLW_REC_TAIL.TAIL r) tail.toNat).syncRange 112 24).syncSrc 141))
    ∧ (s.reaches who (Reg.BLW_REC_CTL r) = true → s.flag (Reg.BLW_REC_CTL.ABORT r) = false →
      exec (.recordAbort who r) s
        = .next (((((s.setFld (Reg.BLW_REC_CTL.ABORT r) 1).chanSwitched (32 + r)).chanAbortNow (32 + r)).syncRange 112 24).syncSrc 141))

/-- R270 to R285, R292: what the camera and point receivers do with a packet or datagram that reaches them, when a frame or sweep is complete, at the
frame table's publication and at a golden frame. -/
def Obligations.IntakeCommandsComplete : Prop :=
  ∀ (s : State),
    (∀ (cam : Fin 16) (pkt : CamPacket) (t : State), s.Receives cam pkt 0 t →
      exec (.frameStart cam pkt) s = .next ((if (t.stream cam).frame.isSome then (t.camGeom cam).dropFaulty cam else t).openFrame cam pkt.number.toNat))
    ∧ (∀ (cam : Fin 16) (pkt : CamPacket) (t : State) (f), s.Receives cam pkt (s.camGeo cam).dt t → (t.stream cam).frame = some f →
      let g := s.camGeo cam
      let u := t.modStream cam (fun x => { x with frame := some { f with lines := f.lines ++ [pkt.payload] } })
      let v := if pkt.payload.length = g.lineBytes then State.writeRows (prmOh f.params + 1) cam g u else (u.camGeom cam).spoilFrame cam
      exec (.linePacket cam pkt) s
        = .next (if pkt.crcOk then v else (v.count (Reg.BLW_CAM_ERR.CRC_CNT cam) 1).spoilFrame cam))
    ∧ (∀ (cam : Fin 16) (pkt : CamPacket) (t : State) (f), s.Receives cam pkt 1 t → (t.stream cam).frame = some f →
      (f.lines.length ≠ t.fld (Reg.BLW_CAM_SIZE.HEIGHT cam) → exec (.frameEnd cam pkt) s = .next ((t.camGeom cam).dropFaulty cam))
      ∧ (f.lines.length = t.fld (Reg.BLW_CAM_SIZE.HEIGHT cam) → f.faulty = true → exec (.frameEnd cam pkt) s = .next (t.dropFaulty cam))
      ∧ (f.lines.length = t.fld (Reg.BLW_CAM_SIZE.HEIGHT cam) → f.faulty = false →
        exec (.frameEnd cam pkt) s = .next ((t.frameOver cam).modStream cam (fun x => { x with
          ended := x.ended ++ [⟨f.slot, f.no, f.capture, 0, false, false⟩] }))))
    ∧ (∀ (cam : Fin 16) (f rest), (s.stream cam).ended = f :: rest →
      let t := (s.complete cam f).setFld (Reg.BLW_CAM_STATUS.NEWEST cam) f.slot
      exec (.frameComplete cam) s
        = .next ((if t.fld (Reg.BLW_CAM_STATUS.WRITING cam) = f.slot && (t.stream cam).frame.isNone then
            t.setFld (Reg.BLW_CAM_STATUS.WRITING cam) 0xF else t).streamEvent cam 0))
    ∧ (∀ (j : Fin 8) (e : PointDatagram), s.streamOn (16 + j) = true → (s.stream (16 + j)).tmpl ≠ [] → tmplPort (s.stream (16 + j)).tmpl = e.port →
      let d := { e with stamp := min e.stamp (s.nowNs + 4) }
      let takes (w : State) : State :=
        if d.payload.length < tmplNeeds (w.stream (16 + j)).tmpl d.payload (w.flag (Reg.BLW_PT_CTL.MODE j)) then w.badDatagram j
        else (if (s.stream (16 + j)).sweep = none then w.openSweep j d.stamp else w).sweepDatagram j d
      let late := s.flag (Reg.BLW_PT_CTL.MODE j) = false ∧ s.time.live = true ∧ d.stamp ≤ s.strikeTime
      ((s.stream (16 + j)).sweep ≠ none → exec (.pointDatagram j e) s = .next (takes s))
      ∧ (∀ t, (s.stream (16 + j)).sweep = none → ¬ late → s.readTemplate j = (t, true) → tmplPort (t.stream (16 + j)).tmpl = d.port →
        exec (.pointDatagram j e) s = .next (takes t))
      ∧ (∀ t, (s.stream (16 + j)).sweep = none → late → (s.stream (16 + j)).closed = none → s.readTemplate j = (t, true) →
        tmplPort (t.stream (16 + j)).tmpl = d.port → exec (.pointDatagram j e) s = .next ((takes t).closeAtStrike j))
      ∧ (∀ w, (s.stream (16 + j)).sweep = none → late → (s.stream (16 + j)).closed = some w →
        let u := s.reopenSweep j w
        SMap.wf s.intake = true →
        exec (.pointDatagram j e) s = .next ((if d.payload.length < tmplNeeds (u.stream (16 + j)).tmpl d.payload (u.flag (Reg.BLW_PT_CTL.MODE j)) then
            u.badDatagram j else u.sweepDatagram j d).closeAtStrike j)))
    ∧ (∀ (j : Fin 8) (f rest), (s.stream (16 + j.val)).ended = f :: rest →
      exec (.sweepComplete j) s = .next ((s.complete (16 + j.val) f).streamEvent (16 + j.val) 0))
    ∧ (∀ n at_, s.ftab = some (n, at_) → s.bellowsOn = true →
      let base := s.ftabBase n
      let t := (List.range 24).foldl (fun (s : State) k =>
        (s.write (s.streamReq k) (base + 32 + 32 * k) (s.stream k).entry.bytes).1) s
      let u := (t.write (t.streamReq 0) base (leBytes 1 1 ++ leBytes 3 0 ++ leBytes 4 n ++ leBytes 8 at_ ++ leBytes 16 0)).1
      let v := (List.range 24).foldl (fun (s : State) k => s.modStream k (fun x => { x with held := x.pick })) u
      exec .frameTablePublish s = .next (({ v with ftab := none } : State).event Reg.BLW_EVT_STATUS.FTAB 141))
    ∧ (∀ cam : Fin 16, s.streamOn cam = true → s.goldWaits cam = true →
      let t := if (s.stream cam).frameEnd then s else s.reach (s.strikeTime + s.periodNs / 2)
      let a := t.rd64 Reg.BLW_GOLD_LO
      let (u, r) := t.streamRead cam a 3776
      let u := if r.poison && r.err.isNone then u.consumed (streamUnit cam) 0 a else u
      let ok := !r.poison && goldSig (u.camGeo cam) r.bytes == some (fieldAt r.bytes 8 8)
      let v := u.modStream cam (fun x => { x with goldRan := true, goldOk := ok })
      let v := if v.fld (Reg.BLW_CAM_STATUS.STATE cam) = 2 then v.setFld (Reg.BLW_CAM_STATUS.STATE cam) 0 else v
      exec (.goldenFrameRun cam) s = .next (if ok then v else v.goldFrameFailed cam))

/-! ### Rings and jobs -/

/-- R301, R302, R387, R308, R312, R313, R317: a doorbell rung by a party that may ring it, by one that may not, and one that cannot arrive; a completion record written; moderation's time over; a job's deadline expired. -/
def Obligations.RingCommandsComplete : Prop :=
  ∀ (s : State) (who : Party) (c : Fin 16) (r : Fin 8) (value : Word),
    (s.partyOn who = true → s.mayRing who c = true → exec (.sqTailDoorbell who c r value) s = .next (s.sqDoorbell c r value.toNat)
      ∧ exec (.cqHeadDoorbell who c r value) s = .next (s.cqDoorbell c r value.toNat))
    ∧ (s.partyOn who = true → s.mayRing who c = false → s.inParked = false →
      exec (.sqTailDoorbell who c r value) s = .next (s.refuseReg who (0x3000180000 + c.val * 0x1000 + 8 * r.val) true)
      ∧ exec (.cqHeadDoorbell who c r value) s = .next (s.refuseReg who (0x3000180000 + c.val * 0x1000 + 8 * (8 + r.val)) true))
    ∧ (s.partyOn who = false ∨ (s.mayRing who c = false ∧ s.inParked = true) →
      exec (.sqTailDoorbell who c r value) s = .next s ∧ exec (.cqHeadDoorbell who c r value) s = .next s)
    ∧ (∀ (x : CqRec) (rest : List CqRec), s.waitingOf c r = x :: rest → s.cqReady c r = true →
      exec (.completionRecordWrite c r) s
        = .next (({ s with waiting := SMap.put s.waiting (8 * c + r) [] rest } : State).cqPut c r 0x60 x.gen x))
    ∧ (s.fld (Reg.HRT_CQ_MOD.TIME_US c r) ≠ 0 → (s.moderOf c r).u ≠ 0 →
      exec (.moderationTimer c r) s
        = .next (((s.expire ((s.moderOf c r).oldest + 1000 * s.fld (Reg.HRT_CQ_MOD.TIME_US c r))).setModer c r ⟨0, 0⟩).hicEvent (144 + 8 * c + r)))
    ∧ (∀ (job : Nat) (j : Job), s.jobById job = some j → s.deadlineDue j = true →
      let t := s.expire (if j.dlUs then j.launchTime + 1000 * j.deadline else s.time.strikeAt >>> 32)
      let idle (u : Nat) : Bool := !(t.flag (unitBusy u) && (t.unit u).job == some job)
      exec (.deadlineExpire job) s
        = .next ((t.modJob job (fun j => { j.worsen 9 with expired := true, ended := (j.units.filter idle).foldl setInsert j.ended })).checkJob job))

/-- R303 to R307, R349, R392: what the queue manager does with each kind of descriptor it takes at a ring's head, and with one it cannot read. -/
def Obligations.DescriptorsComplete : Prop :=
  ∀ (s : State) (c : Fin 16) (r : Fin 8) (d : List Byte) (t : State),
    (s.Takes c r 0 d t → let j := t.jobOf c r d .fence
      exec (.nop c r) s = .next (t.enqueueRec c j.cq (t.recordOf j 0 0)))
    ∧ (s.Takes c r 1 d t →
      let h := fieldAt d 8 8
      let image := ((t.models.find? (·.handle == h)).map (·.image))
      let stages := (image.map graphStages).getD []
      let j := t.jobOf c r d (.runGraph h)
      let j := { j with units := if j.immediate then stages.headD [] else stages.flatten.foldl setInsert [],
                        slices := if j.immediate then stages.tail else [], results := (image.map (·.results)).getD [],
                        ageBase := (image.map (·.ageBase)).getD 0 }
      exec (.runGraph c r) s = .next (if j.isSafety && (t.quenched || t.fatal) then t.enqueueRec c j.cq (t.recordOf j 2 8) else (t.accept j).schedule))
    ∧ (∀ (image : GraphImage) (u : State) (x : Rd), s.Takes c r 2 d t →
      let input := fieldAt d 16 5
      t.read (t.req 0x60 c) input image.bytes = (u, x) →
      let j := t.jobOf c r d .loadModel
      (x.bad = true → let v := if x.poison && x.err.isNone then u.consumed 0x60 c input else u
        exec (.loadModel c r image) s = .next (v.enqueueRec c j.cq (v.recordOf j 2 8)))
      ∧ (∀ (v : State) (k un l i reason : Nat), x.bad = false → u.loadRefused image x.bytes = (v, some (k, un, l, i, reason)) →
        let w := (v.write (v.req 0x60 c) j.output (loadReport 0 (some (k, un, l, i, reason)))).1
        exec (.loadModel c r image) s
          = .next (w.enqueueRec c j.cq (w.recordOf { j with detail := reason, unitKind := k, index := i, unit := un } 2 2)))
      ∧ (∀ v : State, x.bad = false → u.loadRefused image x.bytes = (v, none) →
        let pins (base : Nat) : List (Nat × Nat × List Byte) := if bitAt (fieldAt d 2 2) 4 then graphPins image base x.bytes else []
        (v.modelBase c input image = none ∨ (∃ base, v.modelBase c input image = some base ∧ v.noRoom c image (pins base) = true) →
          let w := (v.write (v.req 0x60 c) j.output (loadReport 0 none)).1
          exec (.loadModel c r image) s
            = .next (w.enqueueRec c j.cq (w.recordOf { j with detail := 0, unitKind := 0, index := 0, unit := 0 } 2 11)))
        ∧ (∀ (base : Nat) (w y : State) (e : Option AccErr), v.modelBase c input image = some base → v.noRoom c image (pins base) = false →
          v.placeImage c base x.bytes = (w, none) →
          let handle := v.gen c * 2 ^ 48 + c.val * 2 ^ 44 + (SMap.getD v.serials c 0 + 1)
          w.write (w.req 0x60 c) j.output (loadReport handle none) = (y, e) →
          exec (.loadModel c r image) s = .next (if e = none then
              let z := y.addModel c base handle image x.bytes (pins base)
              z.enqueueRec c j.cq (z.recordOf j 0 0)
            else y.enqueueRec c j.cq (y.recordOf j 2 8)))
        ∧ (∀ (base : Nat) (w : State) (e : AccErr), v.modelBase c input image = some base → v.noRoom c image (pins base) = false →
          v.placeImage c base x.bytes = (w, some e) → exec (.loadModel c r image) s = .next (w.enqueueRec c j.cq (w.recordOf j 2 8)))))
    ∧ (s.Takes c r 3 d t →
      let h := fieldAt d 8 8
      let u : State := { t with models := t.models.map (fun (m : Model) => if m.handle == h then { m with unloading := true } else m) }
      exec (.unloadModel c r) s = .next ((u.accept (u.jobOf c r d (.unloadModel h))).schedule))
    ∧ (∀ (ch : Fin 32) (u : State) (x : Rd), s.fld (chanCtx ch) = c.val → (s.chan ch).desc = [] → s.engineOn ch = true → s.Takes c r 4 d t →
      let v := t.setFld (chanGen ch) (t.gen c)
      v.read (v.chanReq ch) (fieldAt d 16 5) 64 false = (u, x) →
      let j := t.jobOf c r d (.copy ch)
      let w := u.accept j
      let st : ChanSt := { ChanSt.idle with
        desc := if x.bad then (padTo 64 x.bytes).set 0 1 |>.set 1 6 else x.bytes, job := some (j.id, j.output), gen := w.gen c, lastWrite := w.nowNs }
      exec (.copy c r ch) s = .next ((w.setChan ch
        (if x.bad then { st with started := true, moved := true, status := 3, reason := 3 } else st)).chanRunning ch true))
    ∧ (s.Takes c r 5 d t → exec (.descriptorFence c r) s = .next ((t.accept (t.jobOf c r d .fence)).schedule))
    ∧ ((∀ j ∈ s.jobs, ∀ id mask, j.kind ≠ .barrier id mask) → s.Takes c r 6 d t →
      let id := fieldAt d 8 4
      let mask := bits (fieldAt d 12 1) 0 4 ||| 2 ^ t.module
      let u := (t.accept { t.jobOf c r d (.barrier id mask) with launchStrike := some t.strikeNo, launchTime := t.nowNs }).modTime
        (fun x => { x with release := none })
      exec (.barrier c r) s = .next (match u.barRole with
        | 0 => if mask = 2 ^ u.module then u.takeRelease id none else u
        | 1 => u.takeArrive u.module id mask
        | _ => u.linkSend (u.fld Reg.TIM_BAR_CTL.PORT) (u.mkCtl (u.fld Reg.TIM_BAR_CTL.PORT) 0x11 id mask)))
    ∧ (∀ (u : State) (x : Rd), s.fetches c r = true → s.readDesc c r = (u, x) → x.bad = true →
      let v := if x.err.isNone then u.consumed 0x60 c (s.rd64 (Reg.HRT_SQ_BASE_LO c r)) else u
      let w := (v.advanceHead c r).count (Reg.HRT_CTX_ERR.REFUSED_CNT c) 1
      let j := w.jobOf c r [] .fence
      exec (.descriptorReadError c r) s = .next (w.enqueueRec c j.cq (w.recordOf j 2 8)))

/-! ### Time and strikes -/

/-- R333 to R338: the gPTP commands. The stamps of a Sync lie within 4 ns of its time, and the relay's egress within 10 µs: free values. -/
def Obligations.TimeProtocolCommandsComplete : Prop :=
  ∀ (s : State) (p : Fin 2), s.gptpOn = true →
    (∀ (m : SyncMsg) (t : State) (ingress : Nat), s.portRole p = 1 → m.domain = 0 → s.stampNs = (t, ingress) →
      let (u, egress) : State × Nat := match t.relayPort p with
        | some q => ((t.free.1).send (.gptp q 0 m.seq (ingress + t.free.2 % 10001) 0 0 0), ingress + t.free.2 % 10001)
        | none => (t, ingress)
      exec (.syncReceived p m) s = .next (if m.twoStep then u.modTime (fun t => { t with twoStep := SMap.insert t.twoStep p ⟨m, ingress, egress⟩ })
        else (u.relayFollowUp p m m.correction ingress egress).gptpMeasure p m.origin m.correction ingress))
    ∧ (∀ (m : SyncMsg) (y : SyncWait), s.portRole p = 1 → m.domain = 0 → SMap.find? s.time.twoStep p = some y → y.msg.seq = m.seq →
      let t := s.modTime (fun t => { t with twoStep := SMap.erase t.twoStep p })
      let total := y.msg.correction + m.correction
      exec (.followUpReceived p m) s = .next ((t.relayFollowUp p m total y.ingress y.egress).gptpMeasure p m.origin total y.ingress))
    ∧ (∀ m : SyncMsg, s.portRole p ≠ 1 ∨ m.domain ≠ 0 →
      exec (.syncReceived p m) s = .next s ∧ exec (.followUpReceived p m) s = .next s)
    ∧ (∀ m : LinkMeasure, s.portRole p ≠ 0 →
      let t := s.reach (s.time.pdelayDue.getD p 0)
      let u := (t.setFld (if p = 0 then Reg.TIM_PDELAY.PORT0 else Reg.TIM_PDELAY.PORT1) (min 0xFFFE m.delay)).modTime (fun x => { x with
        pdelays := x.pdelays.set p (x.pdelays.getD p 0 + 1), rates := SMap.insert x.rates p m.rate, pdelayDue := x.pdelayDue.set p (t.nowNs + 1000000000) })
      exec (.pdelayExchange p m) s = .next (u.stampNs.1.send (.gptp p 2 0 u.stampNs.2 0 0 0)))
    ∧ (s.flag Reg.TIM_GPTP_CTL.GM = true →
      let t := (List.range 2).foldl (fun s p => if s.portRole p == 2 then s.gmSync p else s) (s.reach s.time.gmDue)
      exec .gmSyncTransmit s = .next (t.modTime (fun x => { x with gmSeq := (x.gmSeq + 1) % 2 ^ 16, gmDue := t.nowNs + t.syncInterval })))
    ∧ ((s.fld Reg.TIM_GPTP_STATUS.STATE = 1 ∨ s.fld Reg.TIM_GPTP_STATUS.STATE = 2) →
      let t := s.expire (s.time.lastSync + s.fld Reg.TIM_GPTP_CTL.SYNC_TIMEOUT * s.syncInterval)
      exec .syncTimeout s = .next (((t.setFld Reg.TIM_GPTP_STATUS.STATE 3).count Reg.TIM_GPTP_STATUS.LOST_CNT 1).timEvent 4))

/-- R339 to R344, R374: strikes, table entries and stage windows. -/
def Obligations.StrikeCommandsComplete : Prop :=
  ∀ (s : State) (who : Party),
    (s.reaches who Reg.TIM_STRIKE_CTL = true → s.flag Reg.TIM_STRIKE_CTL.RUN = false →
      exec (.strikeRunStart who) s = .next (((s.setFld Reg.TIM_STRIKE_CTL.RUN 1).runStart.syncRange 272 10).enterNow))
    ∧ (s.reaches who Reg.TIM_STRIKE_CTL = true → s.flag Reg.TIM_STRIKE_CTL.RUN = true →
      exec (.strikeRunStop who) s = .next (((s.setFld Reg.TIM_STRIKE_CTL.RUN 0).runStop.sweepJobs.syncRange 272 10).enterNow))
    ∧ (∀ due, s.strikeDue = some due → exec .strike s = .next (s.strikeAt due))
    ∧ (∀ e : Fin 128, s.entryReady e = true → s.inParked = false →
      let b := s.fld Reg.TIM_STRIKE_CTL.BANK
      let off := s.fld (Reg.TIM_ST_OFFSET.NS b e)
      let es := (List.range 128).filter (fun i => s.entryReady i && s.fld (Reg.TIM_ST_OFFSET.NS b i) == off)
      exec (.strikeTableEntryFire e) s = .next ((s.reachFrac (s.time.strikeAt + ofNs off)).fireEntries es))
    ∧ (∀ w : Fin 32, s.openStages.contains w.val = true → s.winFld (Reg.SFI_WIN_CLOSE.NS w) < s.periodNs →
      exec (.windowClose w) s = .next ((s.reachFrac (s.time.strikeAt + ofNs (s.winFld (Reg.SFI_WIN_CLOSE.NS w)))).closeStage w))
    ∧ (∀ n, s.ageDue = some n →
      exec .ageFrameTableRead s = .next ((({ s with ageDue := none } : State).reachFrac (s.time.strikeAt + ofNs 4000)).ageRead n))

/-- R345 to R349: strike marks and barriers between modules. -/
def Obligations.MarkCommandsComplete : Prop :=
  ∀ (s : State),
    (∀ k due : Nat, k = (s.now - s.time.strikeAt) / ofNs 1000000 + 1 → due = s.time.strikeAt + k * ofNs 1000000 →
      s.barRole = 1 → s.time.live = true → due < s.time.next.getD 0 →
      exec .strikeMarkTimer s = .next ((s.reachFrac due).sendMarks (1000000 * k)))
    ∧ (∀ (q : Fin 4) (m : MarkMsg), s.barRole = 2 → s.fld Reg.TIM_BAR_CTL.PORT = q.val → s.flag Reg.TIM_STRIKE_CTL.RUN = true → s.inParked = false →
      exec (.strikeMark q m) s = .next (if m.retried then s.count Reg.TIM_ERR.MISSED_MARK_CNT 1 else s.useMark m))
    ∧ (s.fld Reg.TIM_BAR_STATUS.STATE = 2 →
      exec .markCoastTimeout s
        = .next (((s.expire (s.time.lastMark + 4000000)).setFld Reg.TIM_BAR_STATUS.STATE 3).modTime (fun t => { t with goodMarks := 0 })))
    ∧ ((s.fld Reg.TIM_BAR_STATUS.STATE = 2 ∨ s.fld Reg.TIM_BAR_STATUS.STATE = 3) →
      let t := ((s.expire (s.time.lastMark + 32000000)).setFld Reg.TIM_BAR_STATUS.STATE 4).modTime (fun t => { t with goodMarks := 0 })
      exec .markLostTimeout s = .next (t.timEvent 7).barFault)
    ∧ (∀ (module : Fin 4) (id : Word) (mask : BitVec 4), s.barRole = 1 →
      exec (.arrive module id mask) s = .next (s.takeArrive module id.toNat mask.toNat))
    ∧ (∀ id strike : Word, exec (.release id strike) s = .next (s.takeRelease id.toNat (some strike.toNat)))

/-! ### The island and Hearth -/

/-- R378 to R380: Ember's run and the safe-state frame. What the golden vector and the network gave is the command's operand. -/
def Obligations.IslandCommandsComplete : Prop :=
  ∀ (s : State),
    (∀ goldenOk : Bool, s.embOn = true → s.emb.running = false → s.emb.started = false →
      ∀ (start : Nat) (u : State) (old : Option Nat) (noInput bad : Bool), start = s.time.strikeAt + ofNs (1000 * s.embFld Reg.EMB_OFFSET.US) →
      (s.reachFrac start).embInputs = (u, old, noInput, bad) →
      let v := (u.setFlag Reg.SFI_STATUS.EMBER_OK goldenOk).setFld Reg.EMB_STATUS.RUNNING 1
      exec (.emberRunStart goldenOk) s = .next { v with emb := { v.emb with
        running := true, started := true, runStrike := v.strikeNo, goldOk := goldenOk, oldest := old, noInput := noInput, faulted := bad } })
    ∧ (∀ run : EmberRun, s.emb.running = true →
      let st := if !s.emb.goldOk || s.emb.faulted then 3 else if s.emb.noInput then 2 else run.status.val
      exec (.emberRunComplete run) s = .next (s.emberEnds st run.result (run.summary.take 36)).publishEmber)
    ∧ (∀ due : Nat, due = s.time.strikeAt + ofNs (1000 * s.embFld Reg.EMB_DEADLINE.US) → s.emb.running = true ∨ (s.embOn = true ∧ s.emb.completed = false) →
      (s.time.next = none → exec .emberDeadline s = .next (s.reachFrac due).emberLate)
      ∧ (∀ next, s.time.next = some next → exec .emberDeadline s = .next (s.reachFrac (min next due)).emberLate))
    ∧ (∀ (k : Fin 2) (f : Nat × List Byte), let t := s.publishEmber
      t.quench.frames.find? (fun f => f.1 == k.val) = some f → t.fld (Reg.ETH_CAN_STATUS.STATE k) ≠ 2 →
      let u : State := { t with quench := { t.quench with frames := t.quench.frames.erase f } }
      exec (.safeStateFrameSent k) s = .next (((u.send (.can k (u.flag Reg.SFI_CAN_CFG.IDE) u.frameId f.2)).count
        Reg.SFI_CAN_STATUS.SENT_CNT 1).evrCounter 20))

/-- R367, R368, R382: a pair of Hearth cores joins or misses its join; a debugger halts, writes and resumes a main core, with its checker in lockstep, and
the island's cores; it does not attach to the odd cores. -/
def Obligations.HearthCommandsComplete : Prop :=
  ∀ (s : State),
    (∀ (j : Fin 4) (at_ : Nat), SMap.find? s.hearth.joins j = some at_ →
      (
        let t := s.modHearth (fun h => { h with
          joins := SMap.erase h.joins j
          regs := (s.hearth.regs.filter (fun e => e.1 / 65536 == 2 * j.val)).foldl (fun m e => SMap.insert m (e.1 + 65536) e.2)
            (h.regs.filter (fun e => e.1 / 65536 != 2 * j.val + 1)) })
        exec (.hearthJoinCsr j) s = .next (t.setFld Reg.SFI_HRT_PAIR.STATE (t.fld Reg.SFI_HRT_PAIR.STATE ||| 2 ^ j.val)))
      ∧ exec (.hearthJoinTimeout j) s = .next (((s.reach (at_ + 50000)).modHearth (fun h => { h with joins := SMap.erase h.joins j })).fault
          0x23 j true (some 0) (some (0x58 + 2 * j.val))))
    ∧ (∀ core : Fin 8, core.val % 2 = 0 →
      let t := s.modHearth (fun h => { h with halted := setInsert h.halted core })
      let u := if t.hearthPaired (core / 2) then t.modHearth (fun h => { h with halted := setInsert h.halted (core + 1) }) else t
      exec (.debugHalt (.hearth core)) s = .next (if u.armed then u.fault 0x22 (core / 2) true (some 0) (some (0x58 + core)) else u))
    ∧ (∀ (core : Fin 8) (reg : BitVec 16) (value : DWord) (step : Bool), core.val % 2 = 1 →
      exec (.debugHalt (.hearth core)) s = .next s ∧ exec (.debugRegWrite core reg value) s = .next s
      ∧ exec (.debugResume (.hearth core) step) s = .next s)
    ∧ (let t := s.modHearth (fun h => { h with island := true })
      exec (.debugHalt .island) s = .next (if t.flag Reg.SFI_CTL.ISLAND_DBG then t else t.fault 0x52 0 false none none))
    ∧ (exec (.debugResume .island true) s = .next s
      ∧ exec (.debugResume .island false) s = .next (s.modHearth (fun h => { h with island := false })))
    ∧ (∀ (core : Fin 8) (reg : BitVec 16) (value : DWord), core.val % 2 = 0 → s.hearth.halted.contains core.val = true →
      let t := s.modHearth (fun h => h.put core reg.toNat value.toNat)
      let l := SMap.getD t.hearth.replay (core / 2) []
      exec (.debugRegWrite core reg value) s = .next (if !t.hearthPaired (core / 2) then t
        else if l.length < 64 then t.modHearth (fun h => { h with replay := SMap.insert h.replay (core / 2) (l ++ [(reg.toNat, value.toNat)]) })
        else t.hearthFailed (core / 2) true))
    ∧ (∀ (core : Fin 8) (step : Bool), core.val % 2 = 0 → s.hearth.halted.contains core.val = true →
      let l := SMap.getD s.hearth.replay (core / 2) []
      let t := if s.hearthPaired (core / 2) then
          s.modHearth (fun h => { l.foldl (fun h e => h.put (core + 1) e.1 e.2) h with replay := SMap.erase h.replay (core / 2) })
        else s
      let u := t.modHearth (fun h => { h with halted := setErase h.halted core })
      exec (.debugResume (.hearth core) step) s = .next (if step then t
        else if u.hearthPaired (core / 2) then u.modHearth (fun h => { h with halted := setErase h.halted (core + 1) }) else u))

/-! ### Narultil links -/

/-- R42, R430, R431, R435, R457: training, the loss of a port, acknowledgement and replay. A message is sent again at most three times; its fourth
failure takes the route down. -/
def Obligations.LinkControlCommandsComplete : Prop :=
  ∀ (s : State) (who : Party) (q : Fin 4) (seq : Nat),
    (s.reaches who (Reg.NLK_PORT_CTL q) = true → s.flag (Reg.NLK_PORT_CTL.ENABLE q) = false →
      exec (.linkTrain who q false) s = .next (((s.setFld (Reg.NLK_PORT_CTL.ENABLE q) 1).startTraining q).syncRange 288 9))
    ∧ (s.reaches who (Reg.NLK_PORT_CTL q) = true → s.flag (Reg.NLK_PORT_CTL.ENABLE q) = true → s.flag (Reg.NLK_PORT_CTL.RETRAIN q) = false →
      exec (.linkTrain who q true) s = .next (((s.setFld (Reg.NLK_PORT_CTL.RETRAIN q) 1).startTraining q).syncRange 288 9))
    ∧ (∀ r : TrainResult, s.fld (Reg.NLK_PORT_STATUS.STATE q) = 1 →
      let t := s.setFld (Reg.NLK_PORT_CTL.RETRAIN q) 0
      let width := if r.lanes = 8 then 2 else if r.lanes = 4 && t.flag (Reg.NLK_PORT_CTL.WIDTH4_OK q) then 3 else 4
      let u := (t.setFld (Reg.NLK_PORT_STATUS.STATE q) width).setFld (Reg.NLK_PORT_STATUS.VERSION q) (min 1 r.version)
      let v := u.setFld (Reg.NLK_PORT_STATUS.LINK_DELAY q) r.delay.toNat
      exec (.linkTrainingComplete q r) s = .next (if width = 4 || r.peer.val != t.fld (Reg.NLK_PORT_CTL.PEER q) then
          t.setFld (Reg.NLK_PORT_STATUS.STATE q) 4
        else
          let w := (v.setLink q { LinkSt.fresh with gens := (List.range 16).map (fun c => (r.gens.getD c 0).toNat) }).portEvent q Reg.NLK_PORT_EVT.UP
          if w.flag Reg.NLK_CFG.FM then (List.range 16).foldl (fun (s : State) c => s.announceGen c) w else w))
    ∧ (s.linkUp q = true →
      exec (.narultilPortDown q) s = .next ((s.portLeaves q 0).fault 0x40 q false none none)
      ∧ exec (.linkAck q seq) s = .next (s.modLink q (fun l => { l with inflight := l.inflight.filter (fun f => !seqUpTo f.seq seq) }))
      ∧ exec (.uncorrectableCodeword q seq) s = .next (s.linkCtl q 0x21 (seq % 4096) 0)
      ∧ ((s.link q).owed ≠ 0 →
        let t := s.reach (SMap.getD s.timers (32 + q) 0 + 100)
        exec (.ackCoalesceTimer q) s = .next ((t.modLink q (fun l => { l with owed := 0 })).linkCtl q 0x20 (s.link q).rxSeq 0))
      ∧ (let again := (s.link q).inflight.filter (fun f => seqUpTo seq f.seq)
        let t := s.count (Reg.NLK_PORT_ERR.RETRY_CNT q) 1
        let u := t.modLink q (fun l => { l with
          inflight := l.inflight.map (fun f => if seqUpTo seq f.seq then { f with retries := f.retries + 1 } else f) })
        again ≠ [] → exec (.nak q seq) s = .next (if again.any (fun f => 3 ≤ f.retries) then t.routeDown q
          else again.foldl (fun (s : State) f => s.send (.link q f.msg)) u)))
    ∧ (∀ m : LinkMsg, s.hears q m 0x22 = true →
      let t := s.modLink q (fun l => { l with credits := l.credits.set (m.arg1 % 4) (min 256 (l.credits.getD (m.arg1 % 4) 0 + m.arg0)) })
      exec (.linkCredit q m) s = .next (State.linkDrain ((t.link q).queue.length) q t))

/-- R435 to R438, R420, R161, R301: messages of a peer that arrive on a port that is up. Each is acknowledged (`linkGot`); a sender of an old generation
is answered with code 3 or ignored, one outside its context with code 2. -/
def Obligations.LinkMessagesComplete : Prop :=
  ∀ (s : State) (q : Fin 4) (m : LinkMsg), let t := s.linkGot q m
    (s.hears q m 0x01 = true →
      let (n, c) := t.recvOf q m
      let (u, code) := if c = 0 then t.linkWrite q m (storeAt (linkAnvil m) (32 * bits m.arg0 0 16)) else (t, c)
      exec (.sendData q m) s = .next (if !t.peerCurrent q m then t.answerSend q m 3 else if !t.linkAllows q m then t.answerSend q m 2
        else u.setRecv q m (some (n + 1, code))))
    ∧ (s.hears q m 0x02 = true →
      let (n, c) := t.recvOf q m
      let u := t.setRecv q m none
      let v := if c = 0 && bits m.arg0 8 8 != 0 then
          u.applyInc ⟨254, some (linkAnvil m), linkAnvil m, bits m.arg0 0 4, bits m.arg0 8 8, m.ctx, none⟩ else u
      exec (.sendInc q m) s = .next (if !t.peerCurrent q m then t.answerSend q m 3 else if !t.linkAllows q m then u.answerSend q m 2
        else if n != m.arg1 then u else v.answerSend q m c))
    ∧ (s.hears q m 0x03 = true → t.peerCurrent q m = true →
      exec (.sendDone q m) s = .next (t.peerAnswer q m.tag (bits m.arg0 0 8)))
    ∧ (s.hears q m 0x04 = true → t.peerCurrent q m = true → t.linkAllows q m = true →
      exec (.linkSync q m) s
        = .next (t.applyInc ⟨254, some (linkAnvil m), linkAnvil m, bits m.arg0 0 4, bits m.arg0 8 8, m.ctx, none⟩))
    ∧ (s.hears q m 0x05 = true → t.peerCurrent q m = true →
      let (u, bad) := (linkUnits m).foldl (fun (acc : State × Bool) d =>
        let (s, e) := acc.1.write (acc.1.linkReq q m) (m.arg0 + 32 * d.2) (padTo 32 d.1.bytes) (unitPoison m d)
        (s, acc.2 || e.isSome)) (t, false)
      exec (.memWr q m) s = .next (if m.ctx != 0 || !t.inWindow q m.arg0 (32 * m.data.length) then t.linkDrop q
        else if bad then u.linkDrop q else u))
    ∧ (s.hears q m 0x06 = true → t.peerCurrent q m = true → m.ctx = 0 → m.arg1 ≠ 0 → m.arg1 ≤ 10 → t.inWindow q m.arg0 (32 * m.arg1) = true →
      let (u, us, bad) := (List.range m.arg1).foldl (fun (acc : State × List DataUnit × Bool) i =>
        let (s, r) := acc.1.read (acc.1.linkReq q m) (m.arg0 + 32 * i) 32
        (s, acc.2.1 ++ [⟨r.bytes, r.poison⟩], acc.2.2 || r.err.isSome)) (t, [], false)
      exec (.memRd q m) s = .next (if bad then (u.poisonUnits m.arg1).1.answerRead q m 1 (u.poisonUnits m.arg1).2 else u.answerRead q m 0 us))
    ∧ (s.hears q m 0x07 = true → t.peerCurrent q m = true → (t.link q).reads.contains m.tag = true →
      exec (.memRdResp q m) s
        = .next ((t.modLink q (fun l => { l with reads := l.reads.filter (· != m.tag) })).send (.memData m.tag m.data)))
    ∧ (s.hears q m 0x08 = true → t.peerCurrent q m = true → m.ctx = 0 → t.mayRing (.narultil q) 0 = true →
      exec (.linkDoorbell q m) s = .next (t.doorbellWrite 0 (bits m.arg0 0 12) m.arg1))
    ∧ (s.hears q m 0x18 = true →
      exec (.genAnnounce q m) s
        = .next ((t.modLink q (fun l => { l with gens := l.gens.set (bits m.arg0 0 4) (bits m.arg0 16 16) })).fmRelay m))
    ∧ (s.hears q m 0x19 = true →
      exec (.resetNotice q m) s
        = .next ((t.modLink q (fun l => { l with gens := l.gens.set 0 (bits m.arg0 16 16), resetting := true })).fmRelay m))
    ∧ (s.hears q m 0x1A = true → t.peerCurrent q m = true →
      exec (.ready q m) s = .next ((t.modLink q (fun l => { l with resetting := false })).fmRelay m))
    ∧ (s.hears q m 0x1B = true →
      exec (.fmBarCfg q m) s = .next (t.fmMessage q m (fun s => (s.regWrite Reg.TIM_BAR_CTL (m.arg0 % 2 ^ 32) 2 none).1)))
    ∧ (s.hears q m 0x1C = true → exec (.fmRelay q m) s = .next (t.fmMessage q m (fun s => s)))

/-! ### The depot gate -/

/-- R447, R448, R450: what reaches the gate from outside its messages: a datagram with a bad crossing, one that the reassembly refuses, one that is a
part and one that completes a message; a timeout of the reassembly; address resolution; time hints, credits, keys and the isolated domain's link. -/
def Obligations.GateIntakeCommandsComplete : Prop :=
  ∀ (s : State) (who : Party),
    (∀ f : DepotFragment, s.forGate f = true →
      let p := f.payload
      let old := s.reasm.find? (fun r => r.owns f)
      let r := old.getD ⟨f.ipv6, f.source, f.sourcePort, fragTenant p, fragId p, s.nowNs, fragTotal p, []⟩
      let rest := s.reasm.filter (fun r => !r.owns f)
      let t : State := { s with reasm := rest }
      let frags := SMap.insert r.frags (fragIndex p) (p.drop 32)
      let m := frags.flatMap (·.2)
      exec (.depotDatagram f) s = .next (
        if !f.crossingOk then (t.event Reg.DGT_EVT_STATUS.CROSSING 301).gateDrop 0 11
        else if !fragOk p || r.total != fragTotal p || (SMap.find? r.frags (fragIndex p)).isSome || (old.isNone && 64 ≤ s.reasm.length) then
          t.gateDrop 0 10
        else if frags.length < fragCount p then { s with reasm := rest ++ [{ r with frags := frags }] }
        else if fieldAt m 2 1 != fragTenant p then t.gateDrop 0 10
        else t.gateMessage (fragTenant p) (f.ipv6, f.source, f.sourcePort) m))
    ∧ (∀ (key : Nat) (r : Reasm), s.reasm[key]? = some r →
      exec (.reassemblyTimeout key) s
        = .next (({ s.reach (r.first + 100000000) with reasm := s.reasm.eraseIdx key } : State).gateDrop 0 10))
    ∧ (∀ (mac : List Byte) (ip target : Word), s.gateOn = true → s.fld Reg.DGT_IP4.ADDR ≠ 0 → target.toNat = s.fld Reg.DGT_IP4.ADDR →
      exec (.arpRequest mac ip target) s
        = .next (s.send (.resolve (padTo 6 mac ++ s.gateMac ++ beBytes 2 0x0806 ++ beBytes 2 1 ++ beBytes 2 0x0800 ++ beBytes 1 6
          ++ beBytes 1 4 ++ beBytes 2 2 ++ s.gateMac ++ beBytes 4 target.toNat ++ padTo 6 mac ++ beBytes 4 ip.toNat))))
    ∧ (∀ mac ip : List Byte, s.gateOn = true →
      let own := beBytes 16 s.gateLinkLocal
      let icmp (sum : Nat) : List Byte :=
        beBytes 1 136 ++ beBytes 1 0 ++ beBytes 2 sum ++ beBytes 4 0x60000000 ++ own ++ beBytes 1 2 ++ beBytes 1 1 ++ s.gateMac
      let sum := inetSum (own ++ padTo 16 ip ++ beBytes 4 32 ++ beBytes 4 58 ++ icmp 0)
      exec (.neighborSolicitation mac ip own) s
        = .next (s.send (.resolve (padTo 6 mac ++ s.gateMac ++ beBytes 2 0x86DD ++ beBytes 4 0x60000000 ++ beBytes 2 32 ++ beBytes 1 58
          ++ beBytes 1 255 ++ own ++ padTo 16 ip ++ icmp sum))))
    ∧ (s.inDepot = true → exec .timeHint s = .next ((List.range 15).foldl (fun (s : State) i =>
        if s.tenantOn (i + 1) then
          s.sendDepot (i + 1) 7 0 (leBytes 8 s.nowNs ++ leBytes 4 s.strikeNo ++ leBytes 4 (s.periodNs / 1000) ++ leBytes 16 0)
        else s) (s.every 2 1000000000)))
    ∧ (∀ t : Fin 16, s.tenantOn t = true → exec (.gateCreditTimer t) s = .next ((s.every (16 + t) 10000000).sendCredit t))
    ∧ (∀ (t : Fin 16) (k : Fin 8) (word : Word), t.val ≠ 0 → s.reaches who (Reg.DGT_TEN_KEY0 (t.val - 1) + 4 * k) = true →
      exec (.tenantKeyWrite who t k word) s
        = .next (((s.stored ⟨Reg.DGT_TEN_KEY0 (t.val - 1) + 4 * k, 0, 32⟩ word.toNat).keyWord t k word.toNat).syncRange 301 16))
    ∧ (∀ up : Bool, s.inDepot = true → s.depotUp ≠ up →
      exec (.depotLinkChange up) s = .next (({ s with depotUp := up } : State).event Reg.DGT_EVT_STATUS.LINK 301))

/-- R452 to R454: the messages of a tenant, taken from the front of its buffer, and the gate's own sending. -/
def Obligations.GateMessagesComplete : Prop :=
  ∀ (s : State) (t : Fin 16) (b : List Byte) (u : State),
    (s.Holds t 1 b u → s.ringReady t 1 = true →
      let base := u.shareBase t
      let v := u.modTenant t (fun x => { x with
        results := x.results ++ [(fieldAt b 4 1, fieldAt b 0 4, base + fieldAt b 36 8, fieldAt b 44 4)] })
      exec (.jobSubmit t) s = .next (v.gateSubmit t (fieldAt b 4 1)
        (leBytes 1 1 ++ leBytes 1 1 ++ leBytes 2 2 ++ leBytes 4 (fieldAt b 0 4) ++ leBytes 8 (fieldAt b 8 8) ++ leBytes 8 (base + fieldAt b 16 8)
          ++ leBytes 8 (base + fieldAt b 24 8) ++ leBytes 4 (fieldAt b 32 4) ++ leBytes 1 2 ++ leBytes 1 (fieldAt b 5 1))))
    ∧ (s.Holds t 3 b u →
      let v := (u.write (u.req 0xD8 t) (u.shareBase t + fieldAt b 0 8) (b.drop 48)).1
      exec (.modelPut t) s
        = .next (if bitAt (fieldAt b 12 1) 0 then v.modTenant t (fun x => { x with loads := x.loads ++ [b.take 48] }) else v))
    ∧ (s.Holds t 4 b u → s.ringReady t 4 = true →
      exec (.modelDrop t) s = .next (u.gateSubmit t (fieldAt b 4 1)
        (leBytes 1 1 ++ leBytes 1 3 ++ leBytes 2 0 ++ leBytes 4 (fieldAt b 0 4) ++ leBytes 8 (fieldAt b 8 8))))
    ∧ (s.Holds t 5 b u →
      exec (.statusQuery t) s = .next (if fieldAt b 0 1 = 0 then u.queueOut t [⟨0, 6, u.statusBody t, 0, 0, none⟩]
        else u.queueOut t (resultPages (leBytes 4 0 ++ leBytes 4 (fieldAt b 4 4) ++ leBytes 24 0) (u.shareBase t + fieldAt b 8 8) (fieldAt b 16 4))))
    ∧ (s.Holds t 8 b u → 0 ≤ serialDiff 64 (fieldAt b 0 8) (u.tenant t).peerAck →
      let ack := fieldAt b 0 8
      let old := (u.tenant t).peerAck
      let v := (u.modTenant t (fun x => { x with
        peerAck := ack, window := min 64 (fieldAt b 8 4), outbox := x.outbox.filter (fun e => ack < e.seq)
        ackTime := if ack = old then x.ackTime else u.nowNs, resends := if ack = old then x.resends else 0 })).syncOut t
      exec (.credit t) s = .next (if v.flag (Reg.DGT_TEN_STATUS.STALLED (t.val - 1)) then
          ((v.setFld (Reg.DGT_TEN_STATUS.STALLED (t.val - 1)) 0).modTenant t (fun x => { x with resends := 0, ackTime := v.nowNs })).resendAll t
        else v))
    ∧ (∀ (w : List Byte) (rest : List (List Byte)), (s.tenant t).loads = w :: rest → s.tenantOn t = true → s.ringFree t (fieldAt w 13 1) ≠ 0 →
      let base := s.shareBase t
      let v := s.modTenant t (fun x => { x with
        loads := rest, results := x.results ++ [(fieldAt w 13 1, fieldAt w 8 4, base + fieldAt w 24 8, 32)] })
      exec (.modelPutWriteComplete t) s = .next (v.gateSubmit t (fieldAt w 13 1)
        (leBytes 1 1 ++ leBytes 1 2 ++ leBytes 2 (16 * ofBool (bitAt (fieldAt w 12 1) 1)) ++ leBytes 4 (fieldAt w 8 4) ++ leBytes 8 0
          ++ leBytes 8 (base + fieldAt w 16 8) ++ leBytes 8 (base + fieldAt w 24 8))))
    ∧ (∀ e : DepotOut, (s.tenant t).outbox.find? (·.sent.isNone) = some e → s.tenantOn t = true → (s.tenant t).peer ≠ none →
      e.seq ≤ (s.tenant t).peerAck + (s.tenant t).window → exec (.gateOutboundSend t) s = .next (s.sendOut t e))
    ∧ (∀ e : DepotOut, (s.tenant t).outbox.find? (·.sent.isSome) = some e → s.tenantOn t = true →
      s.flag (Reg.DGT_TEN_STATUS.STALLED (t.val - 1)) = false →
      let at_ := e.sent.getD 0 + 1000000 * s.fld Reg.DGT_TIMER.RTO_MS * rtoFactor (s.tenant t).resends
      exec (.rtoResend t) s = .next (((s.reach at_).resendAll t).modTenant t (fun x => { x with resends := x.resends + 1 })))
    ∧ ((s.tenant t).outbox.any (·.sent.isSome) = true → s.tenantOn t = true → s.flag (Reg.DGT_TEN_STATUS.STALLED (t.val - 1)) = false →
      let v := s.reach ((s.tenant t).ackTime + 1000000 * s.fld Reg.DGT_TIMER.STALL_MS)
      exec (.stallTimeout t) s
        = .next ((v.setFld (Reg.DGT_TEN_STATUS.STALLED (t.val - 1)) 1).event (Reg.DGT_TEN_STATUS.STALL (t.val - 1)) (tenantSource t)))

/-! ### PCIe, Ethernet and CAN -/

/-- R440, R442, R318, R480: inbound accesses and the events of the PCIe link. -/
def Obligations.PcieCommandsComplete : Prop :=
  ∀ (s : State), s.operates = true → s.inParked = false →
    (∀ (bar : Bar) (off len a : Nat), s.barAddress bar off len = some a → inRegs a = true →
      let (t, v) := s.busRead .pcie a len
      exec (.pcieMemRead bar off len) s
        = .next (if s.windowAllows .pcie a false then t.send (.readData a v) else t.inboundRefused.send (.pcieError off)))
    ∧ (∀ (bar : Bar) (off len a : Nat) (t : State) (r : Rd), s.barAddress bar off len = some a → inRegs a = false →
      s.read (s.req 0xC0 0) a len = (t, r) →
      exec (.pcieMemRead bar off len) s = .next (if r.err.isSome then t.inboundRefused.send (.pcieError off)
        else t.send (.memData a (dataUnits a r.bytes (fun x => t.isPoisoned x || (SMap.getD t.damage (x / 32) 0 == 2))))))
    ∧ (∀ (bar : Bar) (off a : Nat) (data : List Byte), s.barAddress bar off data.length = some a → inRegs a = true →
      let t := s.busWrite .pcie a data.length (leNat data)
      exec (.pcieMemWrite bar off data) s = .next (if s.windowAllows .pcie a true then t else t.advisory))
    ∧ (∀ (bar : Bar) (off a : Nat) (data : List Byte) (t : State) (e), s.barAddress bar off data.length = some a → inRegs a = false →
      s.write (s.req 0xC0 0) a data = (t, e) →
      exec (.pcieMemWrite bar off data) s = .next (if e.isSome then t.advisory else t))
    ∧ (∀ off len : Nat, off + len ≤ 0x2000 → exec (.pcieMemRead .bar2 off len) s
        = .next (s.send (.memData off (dataUnits off ((List.range len).map (fun i => s.bar2Byte (off + i))) (fun _ => false)))))
    ∧ (∀ (off : Nat) (data : List Byte), off + data.length ≤ 0x2000 →
      exec (.pcieMemWrite .bar2 off data) s = .next (s.bar2Write off data))
    ∧ (s.modes.perst = true →
      let t := s.modModes (fun m => { m with perst := false })
      let u := ((t.linkTakes 0 0 0).setFld Reg.PCI_STATUS.DSTATE 0).pciEvent 3
      exec (.pciePerst false) s
        = .next { u with msix := .fresh, modes := { u.modes with barLog2 := u.fld Reg.PCI_WIN_SIZE.LOG2 } })
    ∧ (∀ d3 : Bool, s.fld Reg.PCI_STATUS.DSTATE ≠ (if d3 then 3 else 0) →
      exec (.pcieDstateChange d3) s = .next ((s.setFld Reg.PCI_STATUS.DSTATE (if d3 then 3 else 0)).pciEvent 2).pciePme)
    ∧ (∀ (link speed : Fin 6) (width : Fin 16), s.modes.perst = true ∨ link.val = 0 →
      let t := s.linkTakes link speed width
      exec (.pcieLinkStateChange link speed width) s = .next (if link.val = 1 then t.releasePcieWake else t.pciePme))
    ∧ (∀ w : CfgWrite, s.modes.perst = true →
      let m := s.msix
      exec (.pcieConfigWrite w) s = .next (({ s with msix := match w with
        | .msixEnable on => { m with enabled := on }
        | .functionMask on => { m with masked := on }
        | .vectorMask v on => { m with unmasked := if on then setErase m.unmasked v.toNat else setInsert m.unmasked v.toNat }
        | .vectorEntry v a d => { m with entries := SMap.insert m.entries v.toNat (a.toNat, d.toNat) }
        | .pmeEnable on => { m with pmeEn := on } } : State).pciePme))

/-- R443 to R446, R459, R476: Ethernet frames and links, CAN frames, the PARKED confirmation and bus-off. -/
def Obligations.NetworkCommandsComplete : Prop :=
  ∀ (s : State) (p k : Fin 2) (f : CanFrame),
    (∀ e : EthFrame, s.operates = true → s.inParked = false → s.flag (Reg.ETH_PORT_CTL.ENABLE p) = true →
      (e.fcsOk = false → exec (.ethFrameReceived p e) s = .next (s.count (Reg.ETH_PORT_STATUS.CRC_CNT p) 1))
      ∧ (e.fcsOk = true → e.bytes.length + 4 ≤ 1522 →
        let l := parseEth e.bytes
        let r : State := { s with ethRx := s.ethRx.set p (s.ethRx.getD p 0 + 1) }
        (l.type = 0x88F7 → l.dest = 0x0180C200000E → exec (.ethFrameReceived p e) s = .next r)
        ∧ (¬(l.type = 0x88F7 ∧ l.dest = 0x0180C200000E) →
          (∀ m, s.forwardPorts l = some m →
            let t := if bitAt m (1 - p.val) then r.ethTransmit (1 - p.val) e.bytes else r
            exec (.ethFrameReceived p e) s = .next (if bitAt m 2 || l.dest == t.ethMac then t.toE2 l else t))
          ∧ (s.forwardPorts l = none →
            exec (.ethFrameReceived p e) s = .next (if l.dest = s.ethMac then r.toE2 l
              else (r.count Reg.ETH_DROP.NOFWD_CNT 1).event Reg.ETH_EVT_STATUS.NOFWD 298)))))
    ∧ (∀ up : Bool, s.operates = true → s.inParked = false → up = false ∨ s.flag (Reg.ETH_PORT_CTL.ENABLE p) = true →
      exec (.ethPortLinkChange p up) s = .next ((s.setFlag (Reg.ETH_PORT_STATUS.LINK p) up).syncSrc (318 + p.val)))
    ∧ (s.canOn k = true →
      exec (.canFrameReceived k f) s = .next (s.canReceive k f)
      ∧ exec (.parkedConfirmation k f) s
        = .next (if (s.canReceive k f).isParkFrame k f then (s.canReceive k f).parkFrame k f else s.canReceive k f)
      ∧ exec (.canBusOff k) s = .next ((s.setFld (Reg.ETH_CAN_STATUS.STATE k) 2).event (Reg.ETH_CAN_STATUS.BUS_OFF k) (299 + k)))
    ∧ (s.fld (Reg.ETH_CAN_STATUS.STATE k) = 2 → exec (.busOffRecovery k) s = .next (s.setFld (Reg.ETH_CAN_STATUS.STATE k) 0))
    ∧ (s.parkValid = true → s.inParked = false →
      let k := s.fld Reg.ETH_CAN_PARK.CH
      let t := s.expire (s.modes.confAt + 1000000 * s.fld Reg.ETH_CAN_PARK_TMO.TIMEOUT_MS)
      exec .parkConfirmationTimeout s
        = .next (((t.setFld (Reg.ETH_CAN_STATUS.PARK_VALID k) 0).event (Reg.ETH_CAN_STATUS.PARK_LOST k) (299 + k)).trigger 3))

/-! ### Power, modes and boot -/

/-- R29, R30, R331, R472 to R480, R499: the sentinel's wakes and timers, the depot pins and the vehicle's wake lines. -/
def Obligations.WakeCommandsComplete : Prop :=
  ∀ (s : State),
    (s.modes.wakeAt = none → s.flag Reg.SNT_CTL.PIN_EN = true → exec .wakeN s = .next (s.vehicleWake 0))
    ∧ (s.flag Reg.SNT_CTL.CANW_EN = true → exec .canWake s = .next (s.vehicleWake 1))
    ∧ (s.operates = true → s.inParked = true →
      (∀ difference : Nat, s.flag Reg.SNT_CTL.CAM_EN = true → s.fld Reg.SNT_CAM_CFG.THRESH < difference → s.supplyOk = true →
        exec (.cameraSample difference) s = .next ((s.sntEvery 5 (1000000000 * s.fld Reg.SNT_CAM_CFG.PERIOD_S)).wakeVehicle 5))
      ∧ (∀ mg : Nat, s.flag Reg.SNT_CTL.ACC_EN = true →
        let u := s.sntEvery 6 (1000000000 / s.fld Reg.SNT_ACC_CFG.RATE_HZ)
        let t := u.modModes (fun m => { m with accHits := m.accHits + 1 })
        exec (.accelSample mg) s = .next (if mg ≤ s.fld Reg.SNT_ACC_CFG.THRESH_MG then u.modModes (fun m => { m with accHits := 0 })
          else if 2 ≤ t.modes.accHits && t.supplyOk then t.wakeVehicle 6 else t))
      ∧ (∀ (x : Sensors) (parkOk shorePwr : Bool),
        let t := ((s.sntEvery 4 10000000).takeSensors x).modModes (fun m => { m with parkOk := parkOk, shorePwr := shorePwr })
        let depot := parkOk && shorePwr && t.flag Reg.SNT_CTL.DEPOT_WAKE && t.flag Reg.PRC_MODE.DEPOT_EN
        let proof := t.modes.proofDue && t.flag Reg.SNT_CTL.PROOF_EN
        exec (.supplySample x parkOk shorePwr) s = .next (if !t.supplyOk then t
          else if depot then t.wakeUp (16 + 8 * ofBool proof) 3
          else if proof then (t.modModes (fun m => { m with proofDue := false })).wakeUp 8 2
          else t))
      ∧ (s.flag Reg.SNT_CTL.PROOF_EN = true → s.supplyOk = true → exec .proofTimer s = .next (s.wakeUp 8 2))
      ∧ (s.modes.coolReq = true → exec .coolReqTimer s = .next ((s.sntReach (s.parkedNs + 30000000000)).coolReq false))
      ∧ (s.modes.perst = false →
        exec (.pciePerst true) s = .next ((s.modModes (fun m => { m with perst := true })).releasePcieWake.vehicleWake 2)))
    ∧ (∀ at_ : Nat, s.modes.pcieWakeAt = some at_ → exec .pcieWakeTimeout s = .next (s.sntReach (at_ + 100000000)).releasePcieWake)
    ∧ (∀ at_ : Nat, s.modes.wakeAt = some at_ →
      exec .wakePulseEnd s = .next (s.sntReach (at_ + 50000000)).releaseWakeN)
    ∧ (exec (.parkOkChange true) s = .next (s.modModes (fun m => { m with parkOk := true }))
      ∧ exec (.shorePwrChange true) s = .next (s.modModes (fun m => { m with shorePwr := true })))
    ∧ (s.operates = true →
      exec (.parkOkChange false) s = .next ((s.modModes (fun m => { m with parkOk := false })).trigger 2)
      ∧ exec (.shorePwrChange false) s = .next ((s.modModes (fun m => { m with shorePwr := false })).trigger 4))

/-- R461 to R470, R494 to R497: input power, PORST_n, the supply monitors, power samples, a service image and the device without an image. -/
def Obligations.PowerCommandsComplete : Prop :=
  ∀ (s : State),
    (s.modes.powered = false → exec .vinStart s = .next { s with modes := { s.modes with powered := true, inReset := true } })
    ∧ (s.modes.powered = true →
      (
        let t := s.pinsFall.blank (fun _ => false)
        exec .vinLoss s = .next { t with modes := { t.modes with powered := false, inReset := false, coolReq := false } })
      ∧ ∀ o : BootOutcome, exec (.porst o) s = .next (s.porst o.vin))
    ∧ (∀ x : Sensors, s.operates = true → s.inParked = false →
      let v := (s.every 3 100000).takeSensors x
      let t := v.setFld Reg.PRC_THERMAL.CAP_W v.capNow
      let above := decide (10 * v.capNow < x.inW)
      let n := if above then t.modes.overs + 1 else 0
      exec (.powerSample x) s = .next (if t.inDrive then
          (if n < 10 then t.modModes (fun m => { m with overs := n })
          else ((t.modModes (fun m => { m with overs := 0 })).count Reg.PRC_OVER.DRIVE_OVER_CNT 1).evrExtreme 4 true x.inW)
        else if t.inDepot && above then t.count Reg.PRC_OVER.THROTTLE_CNT 1 else t))
    ∧ (∀ monitor : Byte, s.operates = true → s.inParked = false → monitor.toNat < 7 ∨ (monitor.toNat = 7 ∧ s.inDepot = true) →
      exec (.supplyMonitorTrip monitor) s = .next (s.fault 0x53 monitor.toNat false none none))
    ∧ (∀ (image : List Byte) (img : Image), s.locked = false → s.operates = true → s.inParked = false →
      s.acceptImage 2 (image.take 256) (image.drop 256) = some img → sha384 img.body = img.digest →
      (s.boot.waiting = true → exec (.serviceImageBoot image) s = .next ((s.setFld Reg.PRC_MODE.MODE 0).runImage img none 0))
      ∧ (s.boot.waiting = false →
        let t := (s.evrCommit.logWrite 3 0xFF 0xFF 0 0xFF 0 (2 + 256 * 4) 0).evrCounter 2
        exec (.serviceImageBoot image) s = .next ((((t.sysState).setFld Reg.TOP_BOOT.CAUSE 2).dramState 0).runImage img none 0)))
    ∧ (s.boot.waiting = true → s.operates = true →
      let t := (s.reach s.boot.frameAt).queueFrame templateFrame
      exec .oosSafeStateFrameTimer s = .next { t with boot := { t.boot with frameAt := t.boot.frameAt + 1000000000 } })

/-! ### Register accesses, field by field -/

/-- R13: an access that is not of four bytes at a multiple of four does nothing to the register, whichever register it is and whoever makes it, and a
read of that kind returns 0x0000_0000. The hypothesis is that the firewall lets the access through (R387); a refused one is recorded instead. -/
def Obligations.WrongAccessesHaveNoEffect : Prop :=
  ∀ (s : State) (who : Party) (a size value : Nat), inRegs a = true → size ≠ 4 ∨ a % 4 ≠ 0 →
    (s.windowAllows who a true = true → exec (.registerWrite who a size value) s = .next s)
    ∧ (s.windowAllows who a false = true → exec (.pairLoRead who a size) s = .next (s.send (.readData a 0)))

/-- R16: whatever happened since the read of `_LO`, the next read of `_HI` returns the word that it captured and uses it up; without one, `_HI` is read
as it is. -/
def Obligations.HighWordsAreReadAsCaptured : Prop :=
  ∀ (s : State) (who : Party) (a : Nat) (h : RegHit), a % 4 = 0 → inRegs a = true → doorbellAt a = none → s.liveReg a = some h → h.hi = true →
    h.blk ∉ [.hic, .fcl, .evr, .snp, .hrt] → s.gives who a = true →
    (∀ v : Word, SMap.find? s.capHi a = some v →
      exec (.pairLoRead who a 4) s = .next (({ s with capHi := SMap.erase s.capHi a } : State).send (.readData a v)))
    ∧ (SMap.find? s.capHi a = none → exec (.pairLoRead who a 4) s = .next ((s.clearRc h a).send (.readData a (s.derived h a))))

/-- R14, R15, R17, R18: what one field of a write does to the value that the register gets (`acc.value` before the field, `w` the written bits, `old`
the bits in force). Every other field keeps its bits. A read-only field keeps its value; a reserved one does too, with a record of reason 2 unless 0 is
written; a field that the write would not change makes no record; a locked field, and one that another rule shuts, keeps its value, with a record of
reason 1 that names the value in force; W1C clears what was written as 1; a field outside its legal set takes the legal value, also where the value
written is the one in force, and makes a record of reason 0 where the write would change it. (That last reading is DEDUCED: log 11.) -/
def Obligations.FieldsFollowTheirAccess : Prop :=
  ∀ (s : State) (h : RegHit) (total : Nat) (acc : WrAcc) (f : FieldDesc),
    let w := bits total f.lsb f.width
    let old := bits acc.value f.lsb f.width
    let r := s.writeField h total acc f
    let plain := f.access = .rw ∨ f.access = .rwl
    let barred := s.shut h f = true ∨ f.access = .rwl ∧ s.locked = true
    (∀ g : FieldDesc, f.lsb + f.width ≤ g.lsb ∨ g.lsb + g.width ≤ f.lsb → bits r.value g.lsb g.width = bits acc.value g.lsb g.width)
    ∧ (f.access = .ro ∨ f.access = .rc → r = acc)
    ∧ (f.access = .rsvd → w = 0 → r = acc)
    ∧ (f.access = .rsvd → w ≠ 0 → r = { acc with notes := acc.notes ++ [⟨f.lsb, f.width, 2, w, 0⟩] })
    ∧ (f.access = .w1s ∨ f.access = .w1c ∨ f.access = .wo → w = 0 → r = acc)
    ∧ (plain → w = old → r.notes = acc.notes)
    ∧ (plain → barred → r = if w = old then acc else { acc with notes := acc.notes ++ [⟨f.lsb, f.width, 1, w, old⟩] })
    ∧ (f.access = .w1s ∨ f.access = .w1c ∨ f.access = .wo → s.shut h f = true → w ≠ 0 →
        r = { acc with notes := acc.notes ++ [⟨f.lsb, f.width, 1, w, old⟩] })
    ∧ (f.access = .w1c → s.shut h f = false →
        r.notes = acc.notes ∧ ∀ i, (bits r.value f.lsb f.width).testBit i = (old.testBit i && !w.testBit i))
    ∧ (f.access = .w1s → s.shut h f = false → f.legal = .any → r.notes = acc.notes ∧ bits r.value f.lsb f.width = old ||| w)
    ∧ (plain → ¬barred →
        let legal := s.legalValue h f old w total
        bits r.value f.lsb f.width = legal % 2 ^ f.width
        ∧ r.notes = if legal = w ∨ w = old then acc.notes else acc.notes ++ [⟨f.lsb, f.width, 0, w, legal⟩])

/-- R17: the legal value that replaces an illegal one is the nearest one, the lower of two equally near; an address clamped to an alignment has its low
bits cleared. A value of the legal set stays as it is. -/
def Obligations.ClampTakesTheNearest : Prop :=
  ∀ width old v : Nat,
    (∀ lo hi, lo ≤ hi → let x := Legal.fixed width old (.range lo hi) v
      lo ≤ x ∧ x ≤ hi ∧ ∀ y, lo ≤ y → y ≤ hi → y ≠ x → distance x v < distance y v)
    ∧ (∀ vs : List Nat, vs ≠ [] → let x := Legal.fixed width old (.oneOf vs) v
      x ∈ vs ∧ (v ∈ vs → x = v)
      ∧ ∀ y ∈ vs, distance x v < distance y v ∨ (distance x v = distance y v ∧ x ≤ y))
    ∧ (∀ k, let x := Legal.fixed width old (.align k) v
      2 ^ k ∣ x ∧ x ≤ v ∧ v < x + 2 ^ k)

/-! ### Reset -/

/-- R414, R295, R296, R297, R339: the values that the reset by PORST leaves. Device time is 0 and strikes do not run; the device is in DRIVE and its
island in SAFE_INIT; every context has generation 1, context 0 is ACTIVE and every other one FREE; no unit is busy and nothing is locked. -/
def Obligations.ResetValues : Prop :=
  State.reset.now = 0 ∧ State.reset.flag Reg.TIM_STRIKE_CTL.RUN = false ∧ State.reset.inDrive = true ∧ State.reset.safeInit = true
  ∧ State.reset.locked = false
  ∧ (∀ c : Fin 16, State.reset.gen c = 1 ∧ State.reset.ctxState c = if c.val = 0 then 1 else 0)
  ∧ (∀ u : Fin 78, State.reset.flag (unitBusy u) = false ∧ State.reset.flag (unitEnable u) = false)

/-! ### The depot port -/

/-- R3: in DRIVE, in PARKED, and wherever else the device is not in DEPOT, the gate passes no class of message: the commands that take one in or send one
out leave the whole state as it is. -/
def Obligations.GateIsSilentOutsideDepot : Prop :=
  ∀ s : State, s.inDrive = true ∨ s.inParked = true ∨ s.outOfService = true →
    (∀ (t : Fin 16) (r : Fin 8),
      exec (.jobSubmit t) s = .next s ∧ exec (.modelPut t) s = .next s ∧ exec (.modelDrop t) s = .next s ∧ exec (.statusQuery t) s = .next s
      ∧ exec (.credit t) s = .next s ∧ exec (.modelPutWriteComplete t) s = .next s ∧ exec (.gateCompletionClaim t r) s = .next s
      ∧ exec (.gateOutboundSend t) s = .next s ∧ exec (.gateCreditTimer t) s = .next s ∧ exec (.rtoResend t) s = .next s
      ∧ exec (.stallTimeout t) s = .next s)
    ∧ (∀ f, exec (.depotDatagram f) s = .next s)
    ∧ (∀ mac ip target, exec (.arpRequest mac ip target) s = .next s)
    ∧ (∀ mac ip target, exec (.neighborSolicitation mac ip target) s = .next s)
    ∧ exec .timeHint s = .next s
    ∧ (∀ up, exec (.depotLinkChange up) s = .next s)

/-! ### Rules of the arithmetic -/

/-- R122: SWAP exchanges the shadow and the active plane and nothing else: memory, poison, what was sent, every other Anvil and every register but the
program counter of its list are as the fetch left them. It has no operands: any byte of 2 to 31 that is not zero is refused (GROWTH, 0x03), and then no
plane changes. -/
def Obligations.SwapExchangesThePlanes : Prop :=
  ∀ (n : Fin 64) (s t : State) (d : Ins), s.HeadsZ1 n 2 d t → SMap.wf t.anvils = true →
    (zeroAt d 2 30 = true → (t.anvil n).filling = false →
      ∃ u, exec (.swap n) s = .next u
        ∧ u.anvil n = { t.anvil n with active := (t.anvil n).shadow, shadow := (t.anvil n).active }
        ∧ (∀ m, m ≠ n.val → u.anvil m = t.anvil m)
        ∧ u.mem = t.mem ∧ u.poison = t.poison ∧ u.out = t.out
        ∧ ∀ a, a ≠ (unitPc n).addr → u.rd a = t.rd a)
    ∧ (zeroAt d 2 30 = false → exec (.swap n) s = .next (t.refuseAt n 0x03 (t.pc n)))

/-- R87, R188, R226: work that the safety configurations do not permit is refused. A pass with a BF16 problem in a SUPERVISED job is refused, with
BF16_SUPERVISED (0x0F) unless a lower reason applies too. Of the instructions with a block, once it is fetched, ATTN with candidates, KVAPPEND with SPEC
or in a PAIRED job, ROLLBACK and ACCEPT are refused, with CONFIG (0x34) unless a lower reason applies too; what the checks read is consumed. -/
def Obligations.SafetyWorkIsRefused : Prop :=
  (∀ (n : Fin 64) (s t : State) (d e : Ins), s.HeadsZ1 n 3 d t → (t.unit n).config = 1 → e ∈ (t.anvil n).pend ++ [d] →
    pairBf16 (mmaFmtA e) (mmaFmtB e) = true →
    ∃ r, r ≤ 0x0F ∧ exec (.mma n) s = .next (t.refuseAt n r (if (t.anvil n).pend.isEmpty then t.pc n else (t.anvil n).pendAt)))
  ∧ ∀ (s t : State) (d : Ins),
    let refused (u : Nat) (c : Instr) : Prop :=
      ∃ (p : Pull) (r : Nat), r ≤ 0x34 ∧ exec c s = .next ((p.s.eatIf u (blockAddr d) p.poison).refuseAt u r (p.s.pc u))
    (∀ n : Fin 4, t.safetyWork (64 + n) = true → let b := (t.blockFetch (64 + n) d).2
      b ≠ [] →
      (s.Heads (64 + n) 0x20 d t → atC b ≠ 0 → refused (64 + n) (.attn n))
      ∧ (s.Heads (64 + n) 0x21 d t → kvSpec b = true ∨ (t.unit (64 + n)).config = 0 → refused (64 + n) (.kvappend n))
      ∧ (s.Heads (64 + n) 0x22 d t → refused (64 + n) (.rollback n)))
    ∧ ∀ v : Fin 8, t.safetyWork (68 + v) = true → (t.blockFetch (68 + v) d).2 ≠ [] → s.Heads (68 + v) 0x44 d t → refused (68 + v) (.accept v)

/-- R51, R52, R55, R83, R84: the residue plane agrees with the accumulator. Whatever the operands, whatever the pair but BF16 (which is not checked), and
whatever the length of the chain: an element whose initial value passes the check passes it when the chain is over, and with one injected residue
error it fails. -/
def Obligations.ResiduePlaneAgrees : Prop :=
  ∀ (fa fb k : Nat) (anchor : Int) (x y xs ys : Nat → Nat) (init : AccSt), pairOk fa fb = true → pairBf16 fa fb = false → init.fp = none →
    init.checks false = true →
    (chain fa fb k anchor x y xs ys init).checks false = true ∧ (chain fa fb k anchor x y xs ys init).checks true = false

/-- R54: a chain whose exact sum is zero reads out as +0 in every rounding mode and in every output format, FP32 among them; so does a chain of an INT, FP8
or FP16 pair every one of whose products is zero, of either sign. -/
def Obligations.ZeroSumsReadPlusZero : Prop :=
  (∀ (st : AccSt) (w : Int), st.fp = none → st.flags.nan = false → st.flags.range = false → st.flags.pinf = false → st.flags.ninf = false → st.value = 0 →
    st.fp32 w = 0 ∧ ∀ f rm sat, encode f rm sat (st.readOut w) = 0)
  ∧ ∀ (fa fb k : Nat) (anchor w : Int) (x y xs ys : Nat → Nat), pairBf16 fa fb = false → pairZb fa fb = false →
      (∀ i, i < k → ((decode fa (x i)).mul (decode fb (y i))).isZero = true) →
      ∀ f rm sat, encode f rm sat ((chain fa fb k anchor x y xs ys AccSt.zero).readOut w) = 0

/-- R59, R61: the five rounding modes on a magnitude `num / den`: to nearest (a tie to even, a tie away from zero), toward zero, toward minus and toward
plus infinity. A conversion to INT4, INT8 or INT32 rounds so and saturates: the result, read as a signed integer, is the rounded value clamped to the
format's range; an infinity gives the end of its sign and NaN gives 0. -/
def Obligations.ConversionsRoundAndSaturate : Prop :=
  (∀ (neg : Bool) (num den : Nat), 0 < den →
    let r (rm : Nat) := roundMag rm neg num den
    (∀ rm, rm = 0 ∨ rm = 1 → 2 * (r rm * den) ≤ 2 * num + den ∧ 2 * num ≤ 2 * (r rm * den) + den)
    ∧ (2 * num = 2 * (r 0 * den) + den ∨ 2 * num + den = 2 * (r 0 * den) → r 0 % 2 = 0)
    ∧ 2 * num < 2 * (r 1 * den) + den
    ∧ (r 2 * den ≤ num ∧ num < r 2 * den + den)
    ∧ (neg = true → num ≤ r 3 * den ∧ r 3 * den < num + den ∧ r 4 = r 2)
    ∧ (neg = false → num ≤ r 4 * den ∧ r 4 * den < num + den ∧ r 3 = r 2))
  ∧ ∀ f ∈ [fmtInt4, fmtInt8, fmtInt32], ∀ rm : Nat, ∀ sat : Bool,
    let (lo, hi) := intRange f
    let got (v : Machine.Num) : Int := signed (fmtBits f) (encode f rm sat v)
    got .nan = 0 ∧ got (.inf false) = hi ∧ got (.inf true) = lo
    ∧ ∀ neg m e, got (.fin neg m e) = clampInt lo hi (Machine.Num.round rm (.fin neg m e))

/-- R46, R47, R60, R62: a code of a floating-point format, converted to its own format, is itself in every rounding mode; an infinity only with SAT 0, since
SAT turns it into the largest finite value; every NaN becomes the canonical one. -/
def Obligations.FormatsRoundTrip : Prop :=
  ∀ f ∈ [fmtE4M3, fmtE5M2, fmtFp16, fmtBf16, fmtFp32], ∀ v rm : Nat, v < 2 ^ fmtBits f →
    (decode f v = .nan → ∀ sat, encode f rm sat (decode f v) = nanCode f)
    ∧ (∀ neg, decode f v = .inf neg → encode f rm false (decode f v) = v)
    ∧ (∀ neg m e, decode f v = .fin neg m e → ∀ sat, encode f rm sat (decode f v) = v)

/-! ### Interrupts, counters and messages -/

/-- R321: the source that a claim takes is pending, enabled and routed to the core, no such source has a higher priority, and none of the same priority has
a lower number; where there is none, or while HIC_CTL.ENABLE is 0, the claim returns VALID 0 and changes nothing. The claim returns the source's
counter, sets it to 0 and marks the source active. -/
def Obligations.ClaimTakesTheHighestPriority : Prop :=
  ∀ (s : State) (who : Party) (core : Fin 8), s.gives who (Reg.HIC_CLAIM core) = true → SMap.wf s.regs = true →
    let mine (src : Nat) : Prop := src < 343 ∧ s.deliverable src = true ∧ s.fld (Reg.HIC_SRC_CFG.KIND src) = 0
      ∧ s.coreFor (s.fld (Reg.HIC_SRC_CFG.TARGET src)) = core
    let prio (src : Nat) : Nat := s.fld (Reg.HIC_SRC_CFG.PRIORITY src)
    (s.flag Reg.HIC_CTL.ENABLE = false → exec (.hicClaim who core) s = .next (s.send (.readData (Reg.HIC_CLAIM core) 0)))
    ∧ ((∀ src, ¬ mine src) → exec (.hicClaim who core) s = .next (s.send (.readData (Reg.HIC_CLAIM core) 0)))
    ∧ (s.flag Reg.HIC_CTL.ENABLE = true → s.shadowed core = false → ∀ src, mine src →
        (∀ o, mine o → o ≠ src → prio o < prio src ∨ (prio o = prio src ∧ src < o)) →
        ∃ t, exec (.hicClaim who core) s = .next t
          ∧ t.out = s.out ++ [.readData (Reg.HIC_CLAIM core) (BitVec.ofNat 32 (2 ^ 31 + s.fld (Reg.HIC_SRC_STATE.COUNT src) * 2 ^ 16 + src))]
          ∧ t.fld (Reg.HIC_SRC_STATE.COUNT src) = 0 ∧ t.flag (Reg.HIC_SRC_STATE.ACTIVE src) = true
          ∧ SMap.find? t.hicClaimer src = some core.val
          ∧ t.mem = s.mem ∧ ∀ a, a ≠ Reg.HIC_SRC_STATE src → t.rd a = s.rd a)

/-- R127: an increment that reaches a busy unit adds to its counter as far as 0xFFFF, and the unit's other counters keep their values; one that reaches
an idle unit changes no counter: it is discarded, a class N fault of the sending job's context, and one that would pass 0xFFFF is a class N fault of the
receiving job's context. A paired primary's checker takes the increment too, so the first two clauses are about the others. -/
def Obligations.SyncIncrementsSaturate : Prop :=
  ∀ (s : State) (i : Inc) (u : Nat), s.incs = [i] → i.unit = some u → s.present u = true → i.sc < 16 → (s.unit u).sc.length = 16 →
    SMap.wf s.units = true →
    (s.flag (unitBusy u) = true → u % 2 = 1 ∨ s.isPaired u = false → (s.unit u).sc.getD i.sc 0 + i.amount ≤ 0xFFFF →
      ∃ t, exec (.syncCounterIncrement 0) s = .next t ∧ t.incs = []
        ∧ (∀ c, c < 16 → (t.unit u).sc.getD c 0 = if c = i.sc then (s.unit u).sc.getD c 0 + i.amount else (s.unit u).sc.getD c 0)
        ∧ (∀ v, v ≠ u → t.unit v = s.unit v) ∧ t.regs = s.regs ∧ t.mem = s.mem ∧ t.out = s.out)
    ∧ (let r := (({ s with incs := [] } : State).modUnit u (fun x => { x with sc := x.sc.set i.sc 0xFFFF })).report
        ⟨0x09, unitCode u, 1, some (s.unit u).ctx, some (unitCode u), 0, 0⟩
      s.flag (unitBusy u) = true → u % 2 = 1 ∨ r.isPaired u = false → 0xFFFF < (s.unit u).sc.getD i.sc 0 + i.amount →
      exec (.syncCounterIncrement 0) s = .next r)
    ∧ (s.flag (unitBusy u) = false →
      exec (.syncCounterIncrement 0) s = .next (({ s with incs := [] } : State).report ⟨0x09, unitCode u, 1, some i.ctx, some (unitCode u), 0, 0⟩))

/-- R434, R161: a SEND to a module to which no port is up fails at once with code 1: it ends without a message, and when it completes it is counted, with
that reason as the most recent one. -/
def Obligations.UnroutedSendFails : Prop :=
  ∀ (n : Fin 64) (s t : State) (d : Ins), s.HeadsZ1 n 7 d t → t.sendReasons n d = [] → (t.anvil n).sends.length < 32 → insFlag d 2 6 = true →
    t.mustWait n [(32 * insH d 4, 32 * insH d 4 + sendLen d)] [] = false →
    let e := t.effectRecord n 7 (insH d 4) (insH d 8 + 65536 * sendDst d) (insH d 6)
    e.isChecker n = false → e.routeTo (insBits d 3 6 2) = none →
    let x : SendSt := ⟨none, 0, nextSend (e.anvil n).sends, insBits d 10 4 4, insB d 11, 1, true⟩
    exec (.send n) s = .next ((e.pushSend n x).advance n) ∧ (e.pushSend n x).out = e.out
    ∧ ∀ v : State, (v.anvil n).sends.find? (v.sendReady n) = some x →
      let w := v.modAnvil n (fun a => { a with sends := a.sends.erase x })
      let w := w.setFld (Reg.ANV_SEND_STATUS.OUTSTANDING n) (w.anvil n).sends.length
      exec (.sendComplete n) v = .next (((w.count (Reg.ANV_SEND_STATUS.FAIL_CNT n) 1).setFld (Reg.ANV_SEND_STATUS.LAST_REASON n) 1).unitFault n 0x07 n)

/-! ### Memory -/

/-- R240, R11: a write over the fabric of up to 32 bytes within one unit, which the checks let through, to a memory that is no billet store and has no
injection armed and no stored error or failed channel there: the bytes lie at their addresses, every other byte is as it was, and the unit's poison
mark is set by a poisoned write, cleared by a whole clean one and kept by a partial clean one; no other unit's mark changes. -/
def Obligations.FabricWritesStoreTheirBytes : Prop :=
  ∀ (s : State) (rq : Req) (a : Nat) (bs : List Byte) (poison charge : Bool), s.Canonical → s.access rq a true charge = (s, none) →
    (∀ n, s.target a ≠ .billet n) → s.arms.cru = false → s.arms.memUe = [] → s.arms.memCe = [] → SMap.find? s.damage (a / 32) = none → s.channelFailed a = false →
    bs ≠ [] → a % 32 + bs.length ≤ 32 →
    ∃ t, s.writeUnit rq a bs poison charge = (t, none)
      ∧ (∀ b, t.byte b = if a ≤ b ∧ b < a + bs.length then bs.getD (b - a) 0 else s.byte b)
      ∧ t.isPoisoned a = (poison || (bs.length != 32 && s.isPoisoned a))
      ∧ (∀ b, b / 32 ≠ a / 32 → t.isPoisoned b = s.isPoisoned b)

/-- R477, R258: when the scrub of the tenant pool is over, every byte of the pool is zero and no unit of it is poisoned, every byte outside it is as it was,
and POOL_DIRTY and POOL_SCRUB are 0; no other register changes. -/
def Obligations.PoolScrubZeroesThePool : Prop :=
  ∀ s : State, s.Canonical → s.flag Reg.PRC_MODE.POOL_SCRUB = true →
    ∃ t, exec .poolScrubComplete s = .next t
      ∧ (∀ b, t.byte b = if s.poolBase ≤ b ∧ b < s.usableTop then 0 else s.byte b)
      ∧ (∀ b, s.poolBase ≤ b → b < s.usableTop → b % 32 = 0 → t.isPoisoned b = false)
      ∧ t.flag Reg.PRC_MODE.POOL_DIRTY = false ∧ t.flag Reg.PRC_MODE.POOL_SCRUB = false
      ∧ ∀ a, a ≠ Reg.PRC_MODE → t.rd a = s.rd a

/-! ### What register commands leave alone -/

/-- The injection commands (R88, R96, R163, R266 to R268) write their own register and arm the injection, and follow the interrupt source of the unit: no byte
of memory changes, no poison mark, nothing of any unit's or Anvil's work but what is armed, nothing is sent, and every register keeps its value but the command's own and the state
of that source. -/
def Obligations.InjectionsLeaveTheRest : Prop :=
  ∀ (s : State) (who : Party),
    let leaves (c : Instr) (own src : Nat) : Prop := s.reaches who own = true → SMap.wf s.units = true →
      ∃ t, exec c s = .next t ∧ t.mem = s.mem ∧ t.poison = s.poison ∧ t.damage = s.damage ∧ t.anvils = s.anvils
        ∧ (∀ v, { t.unit v with armed := [] } = { s.unit v with armed := [] })
        ∧ t.out = s.out ∧ t.jobs = s.jobs ∧ t.now = s.now ∧ ∀ a, a ≠ own → a ≠ Reg.HIC_SRC_STATE src → t.rd a = s.rd a
    (∀ u : Fin 78, u.val < 76 → leaves (.residueInject who u) (unitBase u + 0x40) u)
    ∧ (∀ n : Fin 64, leaves (.injPro who n) (Reg.ANV_FUS_CTL n) n ∧ leaves (.injEpi who n) (Reg.ANV_FUS_CTL n) n
        ∧ leaves (.bsEccInject who n) (Reg.ANV_BS_ECC n) n)
    ∧ (∀ p : Fin 4, leaves (.injRope who p) (Reg.DRW_DUP_CTL p) (64 + p) ∧ leaves (.injOut who p) (Reg.DRW_DUP_CTL p) (64 + p))
    ∧ (∀ u : Fin 10, leaves (.injA who u) (unitBase (68 + u) + 0xA0) (68 + u))
    ∧ (∀ u : Fin 2, leaves (.injB who u) (Reg.PPU_DUP u) (76 + u))
    ∧ leaves (.cruInject who) Reg.CRU_CTL 512
    ∧ (∀ ch : Fin 8, leaves (.memCeInject who ch) (Reg.MEM_CH_INJECT ch) 512 ∧ leaves (.memUeInject who ch) (Reg.MEM_CH_INJECT ch) 512)
end

