-- ==== Sys2Proof/Laws/Bits.lean ====
section
/-! SUPPORT. Bit fields: what reading a field of a written word gives. -/

namespace Sys2Proof.Machine

/-- A written word in three parts: below the field, the field, above it. -/
theorem putBits_eq (v l w x : Nat) :
    putBits v l w x = v % 2 ^ l + 2 ^ l * (x % 2 ^ w + 2 ^ w * (v / 2 ^ (l + w))) := by
  unfold putBits bits
  rw [Nat.shiftRight_eq_div_pow, Nat.shiftLeft_eq, Nat.shiftLeft_eq]
  have h1 : v = v % 2 ^ l + 2 ^ l * (v / 2 ^ l) := (Nat.mod_add_div v (2 ^ l)).symm
  have h2 : v / 2 ^ l = (v / 2 ^ l) % 2 ^ w + 2 ^ w * (v / 2 ^ l / 2 ^ w) := (Nat.mod_add_div _ _).symm
  have h3 : v / 2 ^ l / 2 ^ w = v / 2 ^ (l + w) := by rw [Nat.div_div_eq_div_mul, Nat.pow_add]
  have h4 : v = v % 2 ^ l + 2 ^ l * ((v / 2 ^ l) % 2 ^ w) + 2 ^ l * (2 ^ w * (v / 2 ^ (l + w))) := by
    rw [← h3, Nat.add_assoc, ← Nat.mul_add, ← h2, ← h1]
  have h5 : v - v / 2 ^ l % 2 ^ w * 2 ^ l = v % 2 ^ l + 2 ^ l * (2 ^ w * (v / 2 ^ (l + w))) := by
    rw [Nat.mul_comm (v / 2 ^ l % 2 ^ w)]; omega
  rw [h5, Nat.mul_add, Nat.mul_comm (x % 2 ^ w)]; omega

theorem bits_lt (v l w : Nat) : bits v l w < 2 ^ w := Nat.mod_lt _ (Nat.two_pow_pos w)

/-- The field itself. -/
theorem bits_putBits (v l w x : Nat) : bits (putBits v l w x) l w = x % 2 ^ w := by
  rw [putBits_eq]; unfold bits
  rw [Nat.shiftRight_eq_div_pow, Nat.add_mul_div_left _ _ (Nat.two_pow_pos l), Nat.div_eq_of_lt (Nat.mod_lt _ (Nat.two_pow_pos l)),
    Nat.zero_add, Nat.add_mul_mod_self_left, Nat.mod_mod]

/-- A field below. -/
theorem bits_putBits_low {l' w' l : Nat} (v w x : Nat) (h : l' + w' ≤ l) : bits (putBits v l w x) l' w' = bits v l' w' := by
  obtain ⟨k, rfl⟩ := Nat.exists_eq_add_of_le h
  have e (u : Nat) : bits u l' w' = u % 2 ^ (l' + w') / 2 ^ l' := by
    rw [Nat.pow_add, Nat.mod_mul_right_div_self]; simp only [bits, Nat.shiftRight_eq_div_pow]
  rw [e, e, putBits_eq, Nat.pow_add 2 (l' + w') k, Nat.mul_assoc, Nat.add_mul_mod_self_left, Nat.mod_mul_right_mod]

/-- A field above. -/
theorem bits_putBits_high {l w l' : Nat} (v x w' : Nat) (h : l + w ≤ l') : bits (putBits v l w x) l' w' = bits v l' w' := by
  obtain ⟨k, rfl⟩ := Nat.exists_eq_add_of_le h
  unfold bits
  congr 1
  rw [Nat.shiftRight_eq_div_pow, Nat.shiftRight_eq_div_pow, putBits_eq, Nat.pow_add 2 (l + w) k, ← Nat.div_div_eq_div_mul,
    ← Nat.div_div_eq_div_mul]
  congr 1
  rw [Nat.pow_add 2 l w, ← Nat.div_div_eq_div_mul, Nat.add_mul_div_left _ _ (Nat.two_pow_pos l),
    Nat.div_eq_of_lt (Nat.mod_lt v (Nat.two_pow_pos l)), Nat.zero_add, Nat.add_mul_div_left _ _ (Nat.two_pow_pos w),
    Nat.div_eq_of_lt (Nat.mod_lt x (Nat.two_pow_pos w)), Nat.zero_add]

/-- Writing what is there changes nothing. -/
theorem putBits_self (v l w : Nat) : putBits v l w (bits v l w) = v := by
  rw [putBits_eq, Nat.mod_eq_of_lt (bits_lt v l w)]
  unfold bits
  rw [Nat.shiftRight_eq_div_pow, Nat.pow_add, ← Nat.div_div_eq_div_mul, Nat.mod_add_div, Nat.mod_add_div]

/-- A written word stays a word. -/
theorem putBits_lt {v l w n : Nat} (x : Nat) (hv : v < 2 ^ n) (h : l + w ≤ n) : putBits v l w x < 2 ^ n := by
  obtain ⟨k, rfl⟩ := Nat.exists_eq_add_of_le h
  rw [putBits_eq]
  have h1 : v % 2 ^ l < 2 ^ l := Nat.mod_lt _ (Nat.two_pow_pos l)
  have h2 : x % 2 ^ w < 2 ^ w := Nat.mod_lt _ (Nat.two_pow_pos w)
  have h3 : v / 2 ^ (l + w) < 2 ^ k := by
    rw [Nat.div_lt_iff_lt_mul (Nat.two_pow_pos _), Nat.mul_comm, ← Nat.pow_add]; exact hv
  generalize v / 2 ^ (l + w) = c at *
  have h4 : x % 2 ^ w + 2 ^ w * c < 2 ^ (w + k) := by
    have : 2 ^ w * (c + 1) ≤ 2 ^ w * 2 ^ k := Nat.mul_le_mul_left _ h3
    rw [Nat.mul_add, Nat.mul_one] at this
    rw [Nat.pow_add 2 w k]; omega
  generalize x % 2 ^ w + 2 ^ w * c = y at *
  have : 2 ^ l * (y + 1) ≤ 2 ^ l * 2 ^ (w + k) := Nat.mul_le_mul_left _ h4
  rw [Nat.mul_add, Nat.mul_one] at this
  rw [Nat.add_assoc, Nat.pow_add 2 l (w + k)]; omega

@[simp] theorem bits_zero (l w : Nat) : bits 0 l w = 0 := by simp [bits]

@[simp] theorem ofBool_eq_one (b : Bool) : (ofBool b == 1) = b := by cases b <;> rfl

end Sys2Proof.Machine
end

