-- ==== Sys2Proof/Laws/SMap.lean ====
section
/-! SUPPORT. Sparse maps: reading after a write, and that every operation keeps the canonical form. -/

namespace Sys2Proof.Machine

variable {α : Type}

/-! ### Reading after a write -/

theorem SMap.find?_of_above {m : SMap α} {lo k : Nat} (hm : SMap.above lo m = true) (hk : k ≤ lo) : SMap.find? m k = none := by
  induction m generalizing lo with
  | nil => rfl
  | cons e t ih =>
    obtain ⟨a, x⟩ := e
    simp only [SMap.above, Bool.and_eq_true, decide_eq_true_eq] at hm
    simp only [SMap.find?]
    rw [if_neg (by omega)]
    exact ih hm.2 (by omega)

theorem SMap.find?_insert (m : SMap α) (k k' : Nat) (v : α) (h : SMap.wf m = true) :
    SMap.find? (SMap.insert m k v) k' = if k = k' then some v else SMap.find? m k' := by
  have main : ∀ (m : SMap α) (lo : Nat), SMap.above lo m = true →
      SMap.find? (SMap.insert m k v) k' = if k = k' then some v else SMap.find? m k' := by
    intro m
    induction m with
    | nil => intro lo _; simp [SMap.insert, SMap.find?]
    | cons e t ih =>
      obtain ⟨a, x⟩ := e
      intro lo hm
      simp only [SMap.above, Bool.and_eq_true, decide_eq_true_eq] at hm
      simp only [SMap.insert]
      by_cases h1 : k < a
      · simp [h1, SMap.find?]
      · by_cases h2 : a = k
        · subst h2
          simp only [Nat.lt_irrefl, if_false, if_true, SMap.find?]
          split <;> rfl
        · simp only [h1, h2, if_false, SMap.find?]
          by_cases h3 : a = k'
          · subst h3; simp [Ne.symm h2]
          · simp only [h3, if_false]; exact ih a hm.2
  cases m with
  | nil => simp [SMap.insert, SMap.find?]
  | cons e t =>
    obtain ⟨a, x⟩ := e
    simp only [SMap.wf] at h
    simp only [SMap.insert]
    by_cases h1 : k < a
    · simp [h1, SMap.find?]
    · by_cases h2 : a = k
      · subst h2
        simp only [Nat.lt_irrefl, if_false, if_true, SMap.find?]
        split <;> rfl
      · simp only [h1, h2, if_false, SMap.find?]
        by_cases h3 : a = k'
        · subst h3; simp [Ne.symm h2]
        · simp only [h3, if_false]; exact main t a h

theorem SMap.find?_erase (m : SMap α) (k k' : Nat) (h : SMap.wf m = true) :
    SMap.find? (SMap.erase m k) k' = if k = k' then none else SMap.find? m k' := by
  induction m with
  | nil => simp [SMap.erase, SMap.find?]
  | cons e t ih =>
    obtain ⟨a, x⟩ := e
    simp only [SMap.wf] at h
    have ht : SMap.wf t = true := by
      cases t with
      | nil => rfl
      | cons e t => obtain ⟨b, y⟩ := e; simp only [SMap.above, Bool.and_eq_true] at h; exact h.2
    simp only [SMap.erase]
    by_cases h1 : a = k
    · subst h1
      simp only [if_true, SMap.find?]
      by_cases h2 : a = k'
      · subst h2; simp [SMap.find?_of_above h (Nat.le_refl a)]
      · simp [h2]
    · simp only [h1, if_false, SMap.find?]
      by_cases h2 : a = k'
      · subst h2; simp [Ne.symm h1]
      · simp only [h2, if_false]; exact ih ht

theorem SMap.getD_put [DecidableEq α] (m : SMap α) (k k' : Nat) (d v d' : α) (h : SMap.wf m = true) (hd : k = k' → d = d') :
    SMap.getD (SMap.put m k d v) k' d' = if k = k' then v else SMap.getD m k' d' := by
  unfold SMap.put SMap.getD
  by_cases hk : k = k'
  · have := hd hk
    subst this; subst hk
    split
    · rename_i e; rw [SMap.find?_erase _ _ _ h]; simp [e]
    · rw [SMap.find?_insert _ _ _ _ h]; simp
  · split
    · rw [SMap.find?_erase _ _ _ h]; simp [hk]
    · rw [SMap.find?_insert _ _ _ _ h]; simp [hk]

/-! ### The canonical form -/

theorem SMap.wf_of_above {m : SMap α} {lo : Nat} (h : SMap.above lo m = true) : SMap.wf m = true := by
  cases m with
  | nil => rfl
  | cons e t => simp only [SMap.above, Bool.and_eq_true] at h; exact h.2

theorem SMap.above_mono {m : SMap α} {lo lo' : Nat} (h : SMap.above lo m = true) (hl : lo' ≤ lo) : SMap.above lo' m = true := by
  cases m with
  | nil => rfl
  | cons e t =>
    simp only [SMap.above, Bool.and_eq_true, decide_eq_true_eq] at h ⊢
    exact ⟨by omega, h.2⟩

theorem SMap.above_insert {m : SMap α} {lo k : Nat} (v : α) (h : SMap.above lo m = true) (hk : lo < k) :
    SMap.above lo (SMap.insert m k v) = true := by
  induction m generalizing lo with
  | nil => simp [SMap.insert, SMap.above, hk]
  | cons e t ih =>
    obtain ⟨a, x⟩ := e
    simp only [SMap.above, Bool.and_eq_true, decide_eq_true_eq] at h
    simp only [SMap.insert]
    split
    · simp only [SMap.above, Bool.and_eq_true, decide_eq_true_eq]; exact ⟨hk, by assumption, h.2⟩
    · split
      · rename_i e; subst e; simp only [SMap.above, Bool.and_eq_true, decide_eq_true_eq]; exact ⟨h.1, h.2⟩
      · simp only [SMap.above, Bool.and_eq_true, decide_eq_true_eq]; exact ⟨h.1, ih h.2 (by omega)⟩

theorem SMap.wf_insert {m : SMap α} (k : Nat) (v : α) (h : SMap.wf m = true) : SMap.wf (SMap.insert m k v) = true := by
  cases m with
  | nil => rfl
  | cons e t =>
    obtain ⟨a, x⟩ := e
    simp only [SMap.wf] at h
    simp only [SMap.insert]
    split
    · simp only [SMap.wf, SMap.above, Bool.and_eq_true, decide_eq_true_eq]; exact ⟨by assumption, h⟩
    · split
      · rename_i e; subst e; exact h
      · simp only [SMap.wf]; exact SMap.above_insert v h (by omega)

theorem SMap.above_filter {m : SMap α} {lo : Nat} (p : Nat × α → Bool) (h : SMap.above lo m = true) :
    SMap.above lo (m.filter p) = true := by
  induction m generalizing lo with
  | nil => rfl
  | cons e t ih =>
    simp only [SMap.above, Bool.and_eq_true, decide_eq_true_eq] at h
    simp only [List.filter]
    split
    · simp only [SMap.above, Bool.and_eq_true, decide_eq_true_eq]; exact ⟨h.1, ih h.2⟩
    · exact SMap.above_mono (ih h.2) (by omega)

theorem SMap.wf_filter {m : SMap α} (p : Nat × α → Bool) (h : SMap.wf m = true) : SMap.wf (m.filter p) = true := by
  cases m with
  | nil => rfl
  | cons e t =>
    simp only [SMap.wf] at h
    simp only [List.filter]
    split
    · exact SMap.above_filter p h
    · exact SMap.wf_of_above (SMap.above_filter p h)

theorem SMap.wf_keep {m : SMap α} (p : Nat → Bool) (h : SMap.wf m = true) : SMap.wf (SMap.keep p m) = true :=
  SMap.wf_filter _ h

theorem SMap.above_erase {m : SMap α} {lo : Nat} (k : Nat) (h : SMap.above lo m = true) : SMap.above lo (SMap.erase m k) = true := by
  induction m generalizing lo with
  | nil => rfl
  | cons e t ih =>
    simp only [SMap.above, Bool.and_eq_true, decide_eq_true_eq] at h
    simp only [SMap.erase]
    split
    · exact SMap.above_mono h.2 (by omega)
    · simp only [SMap.above, Bool.and_eq_true, decide_eq_true_eq]; exact ⟨h.1, ih h.2⟩

theorem SMap.wf_erase {m : SMap α} (k : Nat) (h : SMap.wf m = true) : SMap.wf (SMap.erase m k) = true := by
  cases m with
  | nil => rfl
  | cons e t =>
    simp only [SMap.wf] at h
    simp only [SMap.erase]
    split
    · exact SMap.wf_of_above h
    · exact SMap.above_erase k h

theorem SMap.wf_put [DecidableEq α] {m : SMap α} (k : Nat) (d v : α) (h : SMap.wf m = true) : SMap.wf (SMap.put m k d v) = true := by
  unfold SMap.put; split
  · exact SMap.wf_erase k h
  · exact SMap.wf_insert k v h

theorem SMap.lt_of_above {m : SMap α} {lo : Nat} {b : Nat × α} (h : SMap.above lo m = true) (hb : b ∈ m) : lo < b.1 := by
  induction m generalizing lo with
  | nil => cases hb
  | cons x t ih =>
    simp only [SMap.above, Bool.and_eq_true, decide_eq_true_eq] at h
    cases hb with
    | head => exact h.1
    | tail _ hb => exact Nat.lt_trans h.1 (ih h.2 hb)

theorem SMap.above_map {β : Type} {m : SMap α} {lo lo' : Nat} (f : Nat × α → Nat × β) (h : SMap.above lo m = true)
    (hf : ∀ e ∈ m, lo' < (f e).1) (hm : ∀ a ∈ m, ∀ b ∈ m, a.1 < b.1 → (f a).1 < (f b).1) : SMap.above lo' (m.map f) = true := by
  induction m generalizing lo lo' with
  | nil => rfl
  | cons e t ih =>
    simp only [SMap.above, Bool.and_eq_true, decide_eq_true_eq] at h
    simp only [List.map, SMap.above, Bool.and_eq_true, decide_eq_true_eq]
    refine ⟨hf e (by simp), ih h.2 (fun b hb => hm e (by simp) b (by simp [hb]) (SMap.lt_of_above h.2 hb)) ?_⟩
    intro a ha b hb; exact hm a (by simp [ha]) b (by simp [hb])

/-- Keys below a bound, then keys from the bound up. -/
theorem SMap.above_append {m n : SMap α} {lo b : Nat} (hm : SMap.above lo m = true) (hb : ∀ e ∈ m, e.1 < b)
    (hn : ∀ c, c < b → SMap.above c n = true) (hl : lo < b) : SMap.above lo (m ++ n) = true := by
  induction m generalizing lo with
  | nil => exact hn lo hl
  | cons e t ih =>
    simp only [SMap.above, Bool.and_eq_true, decide_eq_true_eq] at hm
    simp only [List.cons_append, SMap.above, Bool.and_eq_true, decide_eq_true_eq]
    exact ⟨hm.1, ih hm.2 (fun x hx => hb x (by simp [hx])) (hb e (by simp))⟩

theorem SMap.wf_append {m n : SMap α} {b : Nat} (hm : SMap.wf m = true) (hb : ∀ e ∈ m, e.1 < b)
    (hn : ∀ c, c < b → SMap.above c n = true) (hw : SMap.wf n = true) : SMap.wf (m ++ n) = true := by
  cases m with
  | nil => exact hw
  | cons e t =>
    simp only [SMap.wf] at hm
    simp only [List.cons_append, SMap.wf]
    exact SMap.above_append hm (fun x hx => hb x (by simp [hx])) hn (hb e (by simp))

theorem SMap.above_of_mem {m : SMap α} {c : Nat} (h : SMap.wf m = true) (hb : ∀ e ∈ m, c < e.1) : SMap.above c m = true := by
  cases m with
  | nil => rfl
  | cons e t =>
    simp only [SMap.wf] at h
    simp only [SMap.above, Bool.and_eq_true, decide_eq_true_eq]
    exact ⟨hb e (by simp), h⟩

/-! ### Cells: no entry equals what an unlisted key reads as -/

theorem SMap.mem_insert {m : SMap α} {k : Nat} {v : α} {c : Nat × α} (h : c ∈ SMap.insert m k v) : c = (k, v) ∨ c ∈ m := by
  induction m with
  | nil => simpa [SMap.insert] using h
  | cons e t ih =>
    obtain ⟨a, x⟩ := e
    simp only [SMap.insert] at h
    split at h
    · simpa using h
    · split at h
      · rcases List.mem_cons.1 h with h | h
        · exact .inl h
        · exact .inr (by simp [h])
      · rcases List.mem_cons.1 h with h | h
        · exact .inr (by simp [h])
        · rcases ih h with h | h
          · exact .inl h
          · exact .inr (by simp [h])

theorem SMap.mem_erase {m : SMap α} {k : Nat} {c : Nat × α} (h : c ∈ SMap.erase m k) : c ∈ m := by
  induction m with
  | nil => exact h
  | cons e t ih =>
    obtain ⟨a, x⟩ := e
    simp only [SMap.erase] at h
    split at h
    · simp [h]
    · rcases List.mem_cons.1 h with h | h
      · simp [h]
      · simp [ih h]

theorem CellsWf.nil : CellsWf [] := ⟨rfl, by intro c h; cases h⟩

theorem CellsWf.put {m : List Host.Cell} (h : CellsWf m) (k : Nat) (b : Byte) : CellsWf (SMap.put m k 0 b) := by
  refine ⟨SMap.wf_put k 0 b h.1, fun c hc => ?_⟩
  unfold SMap.put at hc
  split at hc
  · exact h.2 c (SMap.mem_erase hc)
  · rcases SMap.mem_insert hc with e | hc
    · subst e; assumption
    · exact h.2 c hc

theorem CellsWf.filter {m : List Host.Cell} (h : CellsWf m) (p : Host.Cell → Bool) : CellsWf (m.filter p) :=
  ⟨SMap.wf_filter p h.1, fun c hc => h.2 c (List.mem_filter.1 hc).1⟩

theorem CellsWf.keep {m : List Host.Cell} (h : CellsWf m) (p : Nat → Bool) : CellsWf (SMap.keep p m) := h.filter _

theorem CellsWf.foldPut {m : List Host.Cell} (h : CellsWf m) (l : List (Byte × Nat)) (a : Nat) :
    CellsWf (l.foldl (fun m p => SMap.put m (a + p.2) 0 p.1) m) := by
  induction l generalizing m with
  | nil => exact h
  | cons p t ih => exact ih (h.put _ _)

/-- A stretch replaced by new cells that lie in it. -/
theorem CellsWf.splice {m new : List Host.Cell} {lo hi : Nat} (h : CellsWf m) (hn : CellsWf new) (hr : ∀ c ∈ new, lo ≤ c.1 ∧ c.1 < hi)
    (hl : lo ≤ hi) : CellsWf (SMap.keep (fun k => decide (k < lo)) m ++ new ++ SMap.keep (fun k => decide (hi ≤ k)) m) := by
  have h1 : ∀ e ∈ SMap.keep (fun k => decide (k < lo)) m, e.1 < lo := by
    intro e he; simpa using (List.mem_filter.1 he).2
  have h3 : ∀ e ∈ SMap.keep (fun k => decide (hi ≤ k)) m, hi ≤ e.1 := by
    intro e he; simpa using (List.mem_filter.1 he).2
  have w3 := SMap.wf_keep (fun k => decide (hi ≤ k)) h.1
  have w12 : SMap.wf (SMap.keep (fun k => decide (k < lo)) m ++ new) = true :=
    SMap.wf_append (SMap.wf_keep _ h.1) h1
      (fun c hc => SMap.above_of_mem hn.1 (fun e he => by have := (hr e he).1; omega)) hn.1
  refine ⟨?_, ?_⟩
  · refine SMap.wf_append (b := hi) w12 ?_ (fun c hc => SMap.above_of_mem w3 (fun e he => by have := h3 e he; omega)) w3
    intro e he
    rcases List.mem_append.1 he with he | he
    · have := h1 e he; omega
    · exact (hr e he).2
  · intro c hc
    rcases List.mem_append.1 hc with hc | hc
    · rcases List.mem_append.1 hc with hc | hc
      · exact h.2 c (List.mem_filter.1 hc).1
      · exact hn.2 c hc
    · exact h.2 c (List.mem_filter.1 hc).1

/-! ### Sorted sets -/

theorem setWf_cons {a : Nat} {l : List Nat} : setWf (a :: l) = true ↔ (∀ b ∈ l, a < b) ∧ setWf l = true := by
  induction l generalizing a with
  | nil => simp [setWf]
  | cons b t ih =>
    simp only [setWf, Bool.and_eq_true, decide_eq_true_eq]
    constructor
    · rintro ⟨h1, h2⟩
      refine ⟨fun c hc => ?_, h2⟩
      rcases List.mem_cons.1 hc with e | hc
      · subst e; exact h1
      · exact Nat.lt_trans h1 ((ih.1 h2).1 c hc)
    · rintro ⟨h1, h2⟩; exact ⟨h1 b (by simp), h2⟩

theorem mem_setInsert {l : List Nat} {k x : Nat} : x ∈ setInsert l k ↔ x = k ∨ x ∈ l := by
  induction l with
  | nil => simp [setInsert]
  | cons a t ih =>
    simp only [setInsert]
    split
    · simp
    · split
      · rename_i h; subst h; simp
      · simp [ih]; constructor
        · rintro (h | h | h) <;> simp [h]
        · rintro (h | h | h) <;> simp [h]

theorem setWf_insert {l : List Nat} (k : Nat) (h : setWf l = true) : setWf (setInsert l k) = true := by
  induction l with
  | nil => rfl
  | cons a t ih =>
    have h' := setWf_cons.1 h
    simp only [setInsert]
    split
    · rename_i hk
      refine setWf_cons.2 ⟨fun b hb => ?_, h⟩
      rcases List.mem_cons.1 hb with e | hb
      · subst e; exact hk
      · exact Nat.lt_trans hk (h'.1 b hb)
    · split
      · exact h
      · refine setWf_cons.2 ⟨fun b hb => ?_, ih h'.2⟩
        rcases mem_setInsert.1 hb with e | hb
        · subst e; omega
        · exact h'.1 b hb

theorem setWf_filter {l : List Nat} (p : Nat → Bool) (h : setWf l = true) : setWf (l.filter p) = true := by
  induction l with
  | nil => rfl
  | cons a t ih =>
    have h' := setWf_cons.1 h
    simp only [List.filter]
    split
    · exact setWf_cons.2 ⟨fun b hb => h'.1 b (List.mem_filter.1 hb).1, ih h'.2⟩
    · exact ih h'.2

theorem setWf_erase {l : List Nat} (k : Nat) (h : setWf l = true) : setWf (setErase l k) = true := setWf_filter _ h

theorem setWf_append {l n : List Nat} (hl : setWf l = true) (hn : setWf n = true) (h : ∀ a ∈ l, ∀ b ∈ n, a < b) : setWf (l ++ n) = true := by
  induction l with
  | nil => exact hn
  | cons a t ih =>
    have h' := setWf_cons.1 hl
    refine setWf_cons.2 ⟨fun b hb => ?_, ih h'.2 (fun x hx b hb => h x (by simp [hx]) b hb)⟩
    rcases List.mem_append.1 hb with hb | hb
    · exact h'.1 b hb
    · exact h a (by simp) b hb

theorem setWf_map {l : List Nat} (f : Nat → Nat) (h : setWf l = true) (hf : ∀ a ∈ l, ∀ b ∈ l, a < b → f a < f b) :
    setWf (l.map f) = true := by
  induction l with
  | nil => rfl
  | cons a t ih =>
    have h' := setWf_cons.1 h
    refine setWf_cons.2 ⟨fun b hb => ?_, ih h'.2 (fun x hx y hy => hf x (by simp [hx]) y (by simp [hy]))⟩
    obtain ⟨c, hc, rfl⟩ := List.mem_map.1 hb
    exact hf a (by simp) c (by simp [hc]) (h'.1 c hc)

end Sys2Proof.Machine
end

