-- ==== Sys2Proof/Laws/Kept.lean ====
section
/-! SUPPORT. What every operation keeps (`Kept`), and how the parts of a definition pass it on. -/

namespace Sys2Proof.Machine

variable {r s t : State} {α β : Type}

theorem Kept.refl : Kept s s := ⟨rfl, List.prefix_refl _, id⟩

theorem Kept.trans (h : Kept r s) (k : Kept s t) : Kept r t :=
  ⟨k.queue.trans h.queue, h.sent.trans k.sent, fun c => k.canon (h.canon c)⟩

/-- An update of what `Kept` does not read, as a record update spells it. -/
theorem Kept.upd
    {x2 x3 x4 x8 x10 x11 x12 x13 x14 x15 x16 x17 x18 x19 x20 x21 x22 x23 x24 x25 x26 x27 x28 x29 x30 x31 x32 x33 x34 x35 x36 x37
    x38 x39 x40 x41 x42 x43 x44 x45 x46 x47 x48 x49 x50 x51 x52 x53 x54 x55 x56 x57 x58 x60 x61 x62 x63 x65}
    {b : BootSt} (e : b.flash = s.boot.flash) (h : Kept r s) :
    Kept r (State.mk
      s.pending s.regs x2 x3 x4 s.mem s.poison s.damage x8 s.mram x10 x11 x12 x13 x14 x15 x16 x17 x18 x19 x20 x21 x22 x23 x24 x25
      x26 x27 x28 x29 x30 x31 x32 x33 x34 x35 x36 x37 x38 x39 x40 x41 x42 x43 x44 x45 x46 x47 x48 x49 x50 x51 x52 x53 x54 x55 x56
      x57 x58 b x60 x61 x62 x63 s.out x65) :=
  ⟨h.queue, h.sent, fun c => ⟨(h.canon c).mem, (h.canon c).mram, e ▸ (h.canon c).flash, (h.canon c).regs, (h.canon c).poison, (h.canon c).damage⟩⟩

/-- An update of the memories, each in its canonical form. -/
theorem Kept.put
    {x2 x3 x4 x8 x10 x11 x12 x13 x14 x15 x16 x17 x18 x19 x20 x21 x22 x23 x24 x25 x26 x27 x28 x29 x30 x31 x32 x33 x34 x35 x36 x37
    x38 x39 x40 x41 x42 x43 x44 x45 x46 x47 x48 x49 x50 x51 x52 x53 x54 x55 x56 x57 x58 x60 x61 x62 x63 x65}
    {b : BootSt} {mem mram regs poison damage} (e : b.flash = s.boot.flash)
    (hc : s.Canonical → CellsWf mem ∧ CellsWf mram ∧ SMap.wf regs = true ∧ setWf poison = true ∧ SMap.wf damage = true) (h : Kept r s) :
    Kept r (State.mk
      s.pending regs x2 x3 x4 mem poison damage x8 mram x10 x11 x12 x13 x14 x15 x16 x17 x18 x19 x20 x21 x22 x23 x24 x25 x26 x27
      x28 x29 x30 x31 x32 x33 x34 x35 x36 x37 x38 x39 x40 x41 x42 x43 x44 x45 x46 x47 x48 x49 x50 x51 x52 x53 x54 x55 x56 x57 x58
      b x60 x61 x62 x63 s.out x65) :=
  ⟨h.queue, h.sent, fun c =>
    have ⟨h1, h2, h3, h4, h5⟩ := hc (h.canon c)
    ⟨h1, h2, e ▸ (h.canon c).flash, h3, h4, h5⟩⟩

/-! ### Branches, pairs and loops -/

theorem Kept.ite {c : Prop} [Decidable c] (hs : Kept r s) (ht : Kept r t) : Kept r (if c then s else t) := by
  split <;> assumption

theorem Kept.iteFst {c : Prop} [Decidable c] {p q : State × α} (hp : Kept r p.1) (hq : Kept r q.1) : Kept r (if c then p else q).1 := by
  split <;> assumption

theorem Kept.pair {x : α} (h : Kept r s) : Kept r (s, x).1 := h

theorem Kept.step {p : Prop} (h : Kept r s) (k : Kept r s → p) : p := k h

theorem Kept.fact {p q : Prop} (h : p) (k : p → q) : q := k h

theorem Kept.fst {x : α} {p : State × α} (e : p = (s, x)) (h : Kept r p.1) : Kept r s := by
  subst e; exact h

theorem Kept.foldl {f : State → α → State} {l : List α} (hf : ∀ s a, Kept r s → Kept r (f s a)) (h : Kept r s) :
    Kept r (l.foldl f s) := by
  induction l generalizing s with
  | nil => exact h
  | cons a t ih => exact ih (hf s a h)

theorem Kept.foldlFst {f : State × β → α → State × β} {l : List α} {p : State × β} (hf : ∀ p a, Kept r p.1 → Kept r (f p a).1)
    (h : Kept r p.1) : Kept r (l.foldl f p).1 := by
  induction l generalizing p with
  | nil => exact h
  | cons a t ih => exact ih (hf p a h)

/-! ### What carries a state: a read in progress, the outcome of an issue -/

theorem Kept.pull {b c} (h : Kept r s) : Kept r (Pull.mk s b c).s := h

theorem Kept.pairPull {p : Pull} {x : α} (h : Kept r p.s) : Kept r (p, x).1.s := h

theorem Kept.fstPull {x : α} {p : Pull} {q : Pull × α} (e : q = (p, x)) (h : Kept r q.1.s) : Kept r p.s := by
  subst e; exact h

theorem Kept.itePull {c : Prop} [Decidable c] {p q : Pull} (hp : Kept r p.s) (hq : Kept r q.s) : Kept r (if c then p else q).s := by
  split <;> assumption

theorem Kept.iteFstPull {c : Prop} [Decidable c] {p q : Pull × α} (hp : Kept r p.1.s) (hq : Kept r q.1.s) :
    Kept r (if c then p else q).1.s := by
  split <;> assumption

theorem Kept.foldlPull {f : Pull → α → Pull} {l : List α} {p : Pull} (hf : ∀ p a, Kept r p.s → Kept r (f p a).s) (h : Kept r p.s) :
    Kept r (l.foldl f p).s := by
  induction l generalizing p with
  | nil => exact h
  | cons a t ih => exact ih (hf p a h)

theorem Kept.foldlFstPull {f : Pull × β → α → Pull × β} {l : List α} {p : Pull × β} (hf : ∀ p a, Kept r p.1.s → Kept r (f p a).1.s)
    (h : Kept r p.1.s) : Kept r (l.foldl f p).1.s := by
  induction l generalizing p with
  | nil => exact h
  | cons a t ih => exact ih (hf p a h)

/-- The state an issue comes to keeps what `Kept` says. -/
def IssueKept (r : State) : Issue → Prop
  | .done t => Kept r t
  | .hold t => Kept r t
  | .refuse t _ _ => Kept r t

theorem IssueKept.done (h : Kept r s) : IssueKept r (.done s) := h

theorem IssueKept.hold (h : Kept r s) : IssueKept r (.hold s) := h

theorem IssueKept.refuse {l i} (h : Kept r s) : IssueKept r (.refuse s l i) := h

theorem IssueKept.ite {c : Prop} [Decidable c] {i j : Issue} (hi : IssueKept r i) (hj : IssueKept r j) : IssueKept r (if c then i else j) := by
  split <;> assumption

theorem IssueKept.check {u l} {i : Issue} (h : Kept r s) (hi : IssueKept r i) : IssueKept r (Issue.check s u l i) :=
  IssueKept.ite hi (IssueKept.refuse h)

theorem IssueKept.ifZ1 {n} {i : Issue} (h : Kept r s) (hi : IssueKept r i) : IssueKept r (Machine.ifZ1 s n i) :=
  IssueKept.ite (IssueKept.hold h) hi

/-! ### Meanings -/

/-- A meaning completes and keeps what `Kept` says. -/
def Completes (s : State) (o : Host.Outcome State Fault Refusal) : Prop := ∃ t, o = .next t ∧ Kept s t

theorem Completes.next (h : Kept s t) : Completes s (.next t) := ⟨t, rfl, h⟩

theorem Completes.ite {c : Prop} [Decidable c] {o p : Host.Outcome State Fault Refusal} (ho : Completes s o) (hp : Completes s p) :
    Completes s (if c then o else p) := by
  split <;> assumption

end Sys2Proof.Machine
end

