-- ==== Sys2Proof/Laws/State.lean ====
section
/-! SUPPORT. Small facts about State: what each update leaves alone, field by field, and what reading a written register gives. -/

namespace Sys2Proof.Machine

variable (s : State)

/-! ### wr -/

@[simp] theorem State.wr_pending (a : Nat) (v : Word) : (s.wr a v).pending = s.pending := rfl
@[simp] theorem State.wr_heldLo (a : Nat) (v : Word) : (s.wr a v).heldLo = s.heldLo := rfl
@[simp] theorem State.wr_capHi (a : Nat) (v : Word) : (s.wr a v).capHi = s.capHi := rfl
@[simp] theorem State.wr_heldWrites (a : Nat) (v : Word) : (s.wr a v).heldWrites = s.heldWrites := rfl
@[simp] theorem State.wr_mem (a : Nat) (v : Word) : (s.wr a v).mem = s.mem := rfl
@[simp] theorem State.wr_poison (a : Nat) (v : Word) : (s.wr a v).poison = s.poison := rfl
@[simp] theorem State.wr_damage (a : Nat) (v : Word) : (s.wr a v).damage = s.damage := rfl
@[simp] theorem State.wr_arms (a : Nat) (v : Word) : (s.wr a v).arms = s.arms := rfl
@[simp] theorem State.wr_mram (a : Nat) (v : Word) : (s.wr a v).mram = s.mram := rfl
@[simp] theorem State.wr_now (a : Nat) (v : Word) : (s.wr a v).now = s.now := rfl
@[simp] theorem State.wr_sensors (a : Nat) (v : Word) : (s.wr a v).sensors = s.sensors := rfl
@[simp] theorem State.wr_hicLevel (a : Nat) (v : Word) : (s.wr a v).hicLevel = s.hicLevel := rfl
@[simp] theorem State.wr_hicClaimer (a : Nat) (v : Word) : (s.wr a v).hicClaimer = s.hicClaimer := rfl
@[simp] theorem State.wr_logTimes (a : Nat) (v : Word) : (s.wr a v).logTimes = s.logTimes := rfl
@[simp] theorem State.wr_firstAt (a : Nat) (v : Word) : (s.wr a v).firstAt = s.firstAt := rfl
@[simp] theorem State.wr_logSeq (a : Nat) (v : Word) : (s.wr a v).logSeq = s.logSeq := rfl
@[simp] theorem State.wr_snap (a : Nat) (v : Word) : (s.wr a v).snap = s.snap := rfl
@[simp] theorem State.wr_evr (a : Nat) (v : Word) : (s.wr a v).evr = s.evr := rfl
@[simp] theorem State.wr_golden (a : Nat) (v : Word) : (s.wr a v).golden = s.golden := rfl
@[simp] theorem State.wr_poolGiB (a : Nat) (v : Word) : (s.wr a v).poolGiB = s.poolGiB := rfl
@[simp] theorem State.wr_fm (a : Nat) (v : Word) : (s.wr a v).fm = s.fm := rfl
@[simp] theorem State.wr_units (a : Nat) (v : Word) : (s.wr a v).units = s.units := rfl
@[simp] theorem State.wr_models (a : Nat) (v : Word) : (s.wr a v).models = s.models := rfl
@[simp] theorem State.wr_serials (a : Nat) (v : Word) : (s.wr a v).serials = s.serials := rfl
@[simp] theorem State.wr_jobs (a : Nat) (v : Word) : (s.wr a v).jobs = s.jobs := rfl
@[simp] theorem State.wr_jobSeq (a : Nat) (v : Word) : (s.wr a v).jobSeq = s.jobSeq := rfl
@[simp] theorem State.wr_rrCtx (a : Nat) (v : Word) : (s.wr a v).rrCtx = s.rrCtx := rfl
@[simp] theorem State.wr_rrRing (a : Nat) (v : Word) : (s.wr a v).rrRing = s.rrRing := rfl
@[simp] theorem State.wr_winForce (a : Nat) (v : Word) : (s.wr a v).winForce = s.winForce := rfl
@[simp] theorem State.wr_pairBar (a : Nat) (v : Word) : (s.wr a v).pairBar = s.pairBar := rfl
@[simp] theorem State.wr_winStarts (a : Nat) (v : Word) : (s.wr a v).winStarts = s.winStarts := rfl
@[simp] theorem State.wr_winClosed (a : Nat) (v : Word) : (s.wr a v).winClosed = s.winClosed := rfl
@[simp] theorem State.wr_assigns (a : Nat) (v : Word) : (s.wr a v).assigns = s.assigns := rfl
@[simp] theorem State.wr_incs (a : Nat) (v : Word) : (s.wr a v).incs = s.incs := rfl
@[simp] theorem State.wr_chans (a : Nat) (v : Word) : (s.wr a v).chans = s.chans := rfl
@[simp] theorem State.wr_intake (a : Nat) (v : Word) : (s.wr a v).intake = s.intake := rfl
@[simp] theorem State.wr_ftab (a : Nat) (v : Word) : (s.wr a v).ftab = s.ftab := rfl
@[simp] theorem State.wr_waiting (a : Nat) (v : Word) : (s.wr a v).waiting = s.waiting := rfl
@[simp] theorem State.wr_moder (a : Nat) (v : Word) : (s.wr a v).moder = s.moder := rfl
@[simp] theorem State.wr_emb (a : Nat) (v : Word) : (s.wr a v).emb = s.emb := rfl
@[simp] theorem State.wr_embForce (a : Nat) (v : Word) : (s.wr a v).embForce = s.embForce := rfl
@[simp] theorem State.wr_quench (a : Nat) (v : Word) : (s.wr a v).quench = s.quench := rfl
@[simp] theorem State.wr_anvils (a : Nat) (v : Word) : (s.wr a v).anvils = s.anvils := rfl
@[simp] theorem State.wr_cmp (a : Nat) (v : Word) : (s.wr a v).cmp = s.cmp := rfl
@[simp] theorem State.wr_captures (a : Nat) (v : Word) : (s.wr a v).captures = s.captures := rfl
@[simp] theorem State.wr_ageDue (a : Nat) (v : Word) : (s.wr a v).ageDue = s.ageDue := rfl
@[simp] theorem State.wr_stageEnd (a : Nat) (v : Word) : (s.wr a v).stageEnd = s.stageEnd := rfl
@[simp] theorem State.wr_lateSeen (a : Nat) (v : Word) : (s.wr a v).lateSeen = s.lateSeen := rfl
@[simp] theorem State.wr_time (a : Nat) (v : Word) : (s.wr a v).time = s.time := rfl
@[simp] theorem State.wr_links (a : Nat) (v : Word) : (s.wr a v).links = s.links := rfl
@[simp] theorem State.wr_reasm (a : Nat) (v : Word) : (s.wr a v).reasm = s.reasm := rfl
@[simp] theorem State.wr_tenants (a : Nat) (v : Word) : (s.wr a v).tenants = s.tenants := rfl
@[simp] theorem State.wr_depotUp (a : Nat) (v : Word) : (s.wr a v).depotUp = s.depotUp := rfl
@[simp] theorem State.wr_msix (a : Nat) (v : Word) : (s.wr a v).msix = s.msix := rfl
@[simp] theorem State.wr_draining (a : Nat) (v : Word) : (s.wr a v).draining = s.draining := rfl
@[simp] theorem State.wr_anchors (a : Nat) (v : Word) : (s.wr a v).anchors = s.anchors := rfl
@[simp] theorem State.wr_hearth (a : Nat) (v : Word) : (s.wr a v).hearth = s.hearth := rfl
@[simp] theorem State.wr_recover (a : Nat) (v : Word) : (s.wr a v).recover = s.recover := rfl
@[simp] theorem State.wr_boot (a : Nat) (v : Word) : (s.wr a v).boot = s.boot := rfl
@[simp] theorem State.wr_modes (a : Nat) (v : Word) : (s.wr a v).modes = s.modes := rfl
@[simp] theorem State.wr_canRx (a : Nat) (v : Word) : (s.wr a v).canRx = s.canRx := rfl
@[simp] theorem State.wr_ethRx (a : Nat) (v : Word) : (s.wr a v).ethRx = s.ethRx := rfl
@[simp] theorem State.wr_timers (a : Nat) (v : Word) : (s.wr a v).timers = s.timers := rfl
@[simp] theorem State.wr_out (a : Nat) (v : Word) : (s.wr a v).out = s.out := rfl
@[simp] theorem State.wr_freeCtr (a : Nat) (v : Word) : (s.wr a v).freeCtr = s.freeCtr := rfl

/-! ### setFld -/

@[simp] theorem State.setFld_pending (f : FRef) (v : Nat) : (s.setFld f v).pending = s.pending := rfl
@[simp] theorem State.setFld_heldLo (f : FRef) (v : Nat) : (s.setFld f v).heldLo = s.heldLo := rfl
@[simp] theorem State.setFld_capHi (f : FRef) (v : Nat) : (s.setFld f v).capHi = s.capHi := rfl
@[simp] theorem State.setFld_heldWrites (f : FRef) (v : Nat) : (s.setFld f v).heldWrites = s.heldWrites := rfl
@[simp] theorem State.setFld_mem (f : FRef) (v : Nat) : (s.setFld f v).mem = s.mem := rfl
@[simp] theorem State.setFld_poison (f : FRef) (v : Nat) : (s.setFld f v).poison = s.poison := rfl
@[simp] theorem State.setFld_damage (f : FRef) (v : Nat) : (s.setFld f v).damage = s.damage := rfl
@[simp] theorem State.setFld_arms (f : FRef) (v : Nat) : (s.setFld f v).arms = s.arms := rfl
@[simp] theorem State.setFld_mram (f : FRef) (v : Nat) : (s.setFld f v).mram = s.mram := rfl
@[simp] theorem State.setFld_now (f : FRef) (v : Nat) : (s.setFld f v).now = s.now := rfl
@[simp] theorem State.setFld_sensors (f : FRef) (v : Nat) : (s.setFld f v).sensors = s.sensors := rfl
@[simp] theorem State.setFld_hicLevel (f : FRef) (v : Nat) : (s.setFld f v).hicLevel = s.hicLevel := rfl
@[simp] theorem State.setFld_hicClaimer (f : FRef) (v : Nat) : (s.setFld f v).hicClaimer = s.hicClaimer := rfl
@[simp] theorem State.setFld_logTimes (f : FRef) (v : Nat) : (s.setFld f v).logTimes = s.logTimes := rfl
@[simp] theorem State.setFld_firstAt (f : FRef) (v : Nat) : (s.setFld f v).firstAt = s.firstAt := rfl
@[simp] theorem State.setFld_logSeq (f : FRef) (v : Nat) : (s.setFld f v).logSeq = s.logSeq := rfl
@[simp] theorem State.setFld_snap (f : FRef) (v : Nat) : (s.setFld f v).snap = s.snap := rfl
@[simp] theorem State.setFld_evr (f : FRef) (v : Nat) : (s.setFld f v).evr = s.evr := rfl
@[simp] theorem State.setFld_golden (f : FRef) (v : Nat) : (s.setFld f v).golden = s.golden := rfl
@[simp] theorem State.setFld_poolGiB (f : FRef) (v : Nat) : (s.setFld f v).poolGiB = s.poolGiB := rfl
@[simp] theorem State.setFld_fm (f : FRef) (v : Nat) : (s.setFld f v).fm = s.fm := rfl
@[simp] theorem State.setFld_units (f : FRef) (v : Nat) : (s.setFld f v).units = s.units := rfl
@[simp] theorem State.setFld_models (f : FRef) (v : Nat) : (s.setFld f v).models = s.models := rfl
@[simp] theorem State.setFld_serials (f : FRef) (v : Nat) : (s.setFld f v).serials = s.serials := rfl
@[simp] theorem State.setFld_jobs (f : FRef) (v : Nat) : (s.setFld f v).jobs = s.jobs := rfl
@[simp] theorem State.setFld_jobSeq (f : FRef) (v : Nat) : (s.setFld f v).jobSeq = s.jobSeq := rfl
@[simp] theorem State.setFld_rrCtx (f : FRef) (v : Nat) : (s.setFld f v).rrCtx = s.rrCtx := rfl
@[simp] theorem State.setFld_rrRing (f : FRef) (v : Nat) : (s.setFld f v).rrRing = s.rrRing := rfl
@[simp] theorem State.setFld_winForce (f : FRef) (v : Nat) : (s.setFld f v).winForce = s.winForce := rfl
@[simp] theorem State.setFld_pairBar (f : FRef) (v : Nat) : (s.setFld f v).pairBar = s.pairBar := rfl
@[simp] theorem State.setFld_winStarts (f : FRef) (v : Nat) : (s.setFld f v).winStarts = s.winStarts := rfl
@[simp] theorem State.setFld_winClosed (f : FRef) (v : Nat) : (s.setFld f v).winClosed = s.winClosed := rfl
@[simp] theorem State.setFld_assigns (f : FRef) (v : Nat) : (s.setFld f v).assigns = s.assigns := rfl
@[simp] theorem State.setFld_incs (f : FRef) (v : Nat) : (s.setFld f v).incs = s.incs := rfl
@[simp] theorem State.setFld_chans (f : FRef) (v : Nat) : (s.setFld f v).chans = s.chans := rfl
@[simp] theorem State.setFld_intake (f : FRef) (v : Nat) : (s.setFld f v).intake = s.intake := rfl
@[simp] theorem State.setFld_ftab (f : FRef) (v : Nat) : (s.setFld f v).ftab = s.ftab := rfl
@[simp] theorem State.setFld_waiting (f : FRef) (v : Nat) : (s.setFld f v).waiting = s.waiting := rfl
@[simp] theorem State.setFld_moder (f : FRef) (v : Nat) : (s.setFld f v).moder = s.moder := rfl
@[simp] theorem State.setFld_emb (f : FRef) (v : Nat) : (s.setFld f v).emb = s.emb := rfl
@[simp] theorem State.setFld_embForce (f : FRef) (v : Nat) : (s.setFld f v).embForce = s.embForce := rfl
@[simp] theorem State.setFld_quench (f : FRef) (v : Nat) : (s.setFld f v).quench = s.quench := rfl
@[simp] theorem State.setFld_anvils (f : FRef) (v : Nat) : (s.setFld f v).anvils = s.anvils := rfl
@[simp] theorem State.setFld_cmp (f : FRef) (v : Nat) : (s.setFld f v).cmp = s.cmp := rfl
@[simp] theorem State.setFld_captures (f : FRef) (v : Nat) : (s.setFld f v).captures = s.captures := rfl
@[simp] theorem State.setFld_ageDue (f : FRef) (v : Nat) : (s.setFld f v).ageDue = s.ageDue := rfl
@[simp] theorem State.setFld_stageEnd (f : FRef) (v : Nat) : (s.setFld f v).stageEnd = s.stageEnd := rfl
@[simp] theorem State.setFld_lateSeen (f : FRef) (v : Nat) : (s.setFld f v).lateSeen = s.lateSeen := rfl
@[simp] theorem State.setFld_time (f : FRef) (v : Nat) : (s.setFld f v).time = s.time := rfl
@[simp] theorem State.setFld_links (f : FRef) (v : Nat) : (s.setFld f v).links = s.links := rfl
@[simp] theorem State.setFld_reasm (f : FRef) (v : Nat) : (s.setFld f v).reasm = s.reasm := rfl
@[simp] theorem State.setFld_tenants (f : FRef) (v : Nat) : (s.setFld f v).tenants = s.tenants := rfl
@[simp] theorem State.setFld_depotUp (f : FRef) (v : Nat) : (s.setFld f v).depotUp = s.depotUp := rfl
@[simp] theorem State.setFld_msix (f : FRef) (v : Nat) : (s.setFld f v).msix = s.msix := rfl
@[simp] theorem State.setFld_draining (f : FRef) (v : Nat) : (s.setFld f v).draining = s.draining := rfl
@[simp] theorem State.setFld_anchors (f : FRef) (v : Nat) : (s.setFld f v).anchors = s.anchors := rfl
@[simp] theorem State.setFld_hearth (f : FRef) (v : Nat) : (s.setFld f v).hearth = s.hearth := rfl
@[simp] theorem State.setFld_recover (f : FRef) (v : Nat) : (s.setFld f v).recover = s.recover := rfl
@[simp] theorem State.setFld_boot (f : FRef) (v : Nat) : (s.setFld f v).boot = s.boot := rfl
@[simp] theorem State.setFld_modes (f : FRef) (v : Nat) : (s.setFld f v).modes = s.modes := rfl
@[simp] theorem State.setFld_canRx (f : FRef) (v : Nat) : (s.setFld f v).canRx = s.canRx := rfl
@[simp] theorem State.setFld_ethRx (f : FRef) (v : Nat) : (s.setFld f v).ethRx = s.ethRx := rfl
@[simp] theorem State.setFld_timers (f : FRef) (v : Nat) : (s.setFld f v).timers = s.timers := rfl
@[simp] theorem State.setFld_out (f : FRef) (v : Nat) : (s.setFld f v).out = s.out := rfl
@[simp] theorem State.setFld_freeCtr (f : FRef) (v : Nat) : (s.setFld f v).freeCtr = s.freeCtr := rfl

/-! ### setFlag -/

@[simp] theorem State.setFlag_pending (f : FRef) (v : Bool) : (s.setFlag f v).pending = s.pending := rfl
@[simp] theorem State.setFlag_heldLo (f : FRef) (v : Bool) : (s.setFlag f v).heldLo = s.heldLo := rfl
@[simp] theorem State.setFlag_capHi (f : FRef) (v : Bool) : (s.setFlag f v).capHi = s.capHi := rfl
@[simp] theorem State.setFlag_heldWrites (f : FRef) (v : Bool) : (s.setFlag f v).heldWrites = s.heldWrites := rfl
@[simp] theorem State.setFlag_mem (f : FRef) (v : Bool) : (s.setFlag f v).mem = s.mem := rfl
@[simp] theorem State.setFlag_poison (f : FRef) (v : Bool) : (s.setFlag f v).poison = s.poison := rfl
@[simp] theorem State.setFlag_damage (f : FRef) (v : Bool) : (s.setFlag f v).damage = s.damage := rfl
@[simp] theorem State.setFlag_arms (f : FRef) (v : Bool) : (s.setFlag f v).arms = s.arms := rfl
@[simp] theorem State.setFlag_mram (f : FRef) (v : Bool) : (s.setFlag f v).mram = s.mram := rfl
@[simp] theorem State.setFlag_now (f : FRef) (v : Bool) : (s.setFlag f v).now = s.now := rfl
@[simp] theorem State.setFlag_sensors (f : FRef) (v : Bool) : (s.setFlag f v).sensors = s.sensors := rfl
@[simp] theorem State.setFlag_hicLevel (f : FRef) (v : Bool) : (s.setFlag f v).hicLevel = s.hicLevel := rfl
@[simp] theorem State.setFlag_hicClaimer (f : FRef) (v : Bool) : (s.setFlag f v).hicClaimer = s.hicClaimer := rfl
@[simp] theorem State.setFlag_logTimes (f : FRef) (v : Bool) : (s.setFlag f v).logTimes = s.logTimes := rfl
@[simp] theorem State.setFlag_firstAt (f : FRef) (v : Bool) : (s.setFlag f v).firstAt = s.firstAt := rfl
@[simp] theorem State.setFlag_logSeq (f : FRef) (v : Bool) : (s.setFlag f v).logSeq = s.logSeq := rfl
@[simp] theorem State.setFlag_snap (f : FRef) (v : Bool) : (s.setFlag f v).snap = s.snap := rfl
@[simp] theorem State.setFlag_evr (f : FRef) (v : Bool) : (s.setFlag f v).evr = s.evr := rfl
@[simp] theorem State.setFlag_golden (f : FRef) (v : Bool) : (s.setFlag f v).golden = s.golden := rfl
@[simp] theorem State.setFlag_poolGiB (f : FRef) (v : Bool) : (s.setFlag f v).poolGiB = s.poolGiB := rfl
@[simp] theorem State.setFlag_fm (f : FRef) (v : Bool) : (s.setFlag f v).fm = s.fm := rfl
@[simp] theorem State.setFlag_units (f : FRef) (v : Bool) : (s.setFlag f v).units = s.units := rfl
@[simp] theorem State.setFlag_models (f : FRef) (v : Bool) : (s.setFlag f v).models = s.models := rfl
@[simp] theorem State.setFlag_serials (f : FRef) (v : Bool) : (s.setFlag f v).serials = s.serials := rfl
@[simp] theorem State.setFlag_jobs (f : FRef) (v : Bool) : (s.setFlag f v).jobs = s.jobs := rfl
@[simp] theorem State.setFlag_jobSeq (f : FRef) (v : Bool) : (s.setFlag f v).jobSeq = s.jobSeq := rfl
@[simp] theorem State.setFlag_rrCtx (f : FRef) (v : Bool) : (s.setFlag f v).rrCtx = s.rrCtx := rfl
@[simp] theorem State.setFlag_rrRing (f : FRef) (v : Bool) : (s.setFlag f v).rrRing = s.rrRing := rfl
@[simp] theorem State.setFlag_winForce (f : FRef) (v : Bool) : (s.setFlag f v).winForce = s.winForce := rfl
@[simp] theorem State.setFlag_pairBar (f : FRef) (v : Bool) : (s.setFlag f v).pairBar = s.pairBar := rfl
@[simp] theorem State.setFlag_winStarts (f : FRef) (v : Bool) : (s.setFlag f v).winStarts = s.winStarts := rfl
@[simp] theorem State.setFlag_winClosed (f : FRef) (v : Bool) : (s.setFlag f v).winClosed = s.winClosed := rfl
@[simp] theorem State.setFlag_assigns (f : FRef) (v : Bool) : (s.setFlag f v).assigns = s.assigns := rfl
@[simp] theorem State.setFlag_incs (f : FRef) (v : Bool) : (s.setFlag f v).incs = s.incs := rfl
@[simp] theorem State.setFlag_chans (f : FRef) (v : Bool) : (s.setFlag f v).chans = s.chans := rfl
@[simp] theorem State.setFlag_intake (f : FRef) (v : Bool) : (s.setFlag f v).intake = s.intake := rfl
@[simp] theorem State.setFlag_ftab (f : FRef) (v : Bool) : (s.setFlag f v).ftab = s.ftab := rfl
@[simp] theorem State.setFlag_waiting (f : FRef) (v : Bool) : (s.setFlag f v).waiting = s.waiting := rfl
@[simp] theorem State.setFlag_moder (f : FRef) (v : Bool) : (s.setFlag f v).moder = s.moder := rfl
@[simp] theorem State.setFlag_emb (f : FRef) (v : Bool) : (s.setFlag f v).emb = s.emb := rfl
@[simp] theorem State.setFlag_embForce (f : FRef) (v : Bool) : (s.setFlag f v).embForce = s.embForce := rfl
@[simp] theorem State.setFlag_quench (f : FRef) (v : Bool) : (s.setFlag f v).quench = s.quench := rfl
@[simp] theorem State.setFlag_anvils (f : FRef) (v : Bool) : (s.setFlag f v).anvils = s.anvils := rfl
@[simp] theorem State.setFlag_cmp (f : FRef) (v : Bool) : (s.setFlag f v).cmp = s.cmp := rfl
@[simp] theorem State.setFlag_captures (f : FRef) (v : Bool) : (s.setFlag f v).captures = s.captures := rfl
@[simp] theorem State.setFlag_ageDue (f : FRef) (v : Bool) : (s.setFlag f v).ageDue = s.ageDue := rfl
@[simp] theorem State.setFlag_stageEnd (f : FRef) (v : Bool) : (s.setFlag f v).stageEnd = s.stageEnd := rfl
@[simp] theorem State.setFlag_lateSeen (f : FRef) (v : Bool) : (s.setFlag f v).lateSeen = s.lateSeen := rfl
@[simp] theorem State.setFlag_time (f : FRef) (v : Bool) : (s.setFlag f v).time = s.time := rfl
@[simp] theorem State.setFlag_links (f : FRef) (v : Bool) : (s.setFlag f v).links = s.links := rfl
@[simp] theorem State.setFlag_reasm (f : FRef) (v : Bool) : (s.setFlag f v).reasm = s.reasm := rfl
@[simp] theorem State.setFlag_tenants (f : FRef) (v : Bool) : (s.setFlag f v).tenants = s.tenants := rfl
@[simp] theorem State.setFlag_depotUp (f : FRef) (v : Bool) : (s.setFlag f v).depotUp = s.depotUp := rfl
@[simp] theorem State.setFlag_msix (f : FRef) (v : Bool) : (s.setFlag f v).msix = s.msix := rfl
@[simp] theorem State.setFlag_draining (f : FRef) (v : Bool) : (s.setFlag f v).draining = s.draining := rfl
@[simp] theorem State.setFlag_anchors (f : FRef) (v : Bool) : (s.setFlag f v).anchors = s.anchors := rfl
@[simp] theorem State.setFlag_hearth (f : FRef) (v : Bool) : (s.setFlag f v).hearth = s.hearth := rfl
@[simp] theorem State.setFlag_recover (f : FRef) (v : Bool) : (s.setFlag f v).recover = s.recover := rfl
@[simp] theorem State.setFlag_boot (f : FRef) (v : Bool) : (s.setFlag f v).boot = s.boot := rfl
@[simp] theorem State.setFlag_modes (f : FRef) (v : Bool) : (s.setFlag f v).modes = s.modes := rfl
@[simp] theorem State.setFlag_canRx (f : FRef) (v : Bool) : (s.setFlag f v).canRx = s.canRx := rfl
@[simp] theorem State.setFlag_ethRx (f : FRef) (v : Bool) : (s.setFlag f v).ethRx = s.ethRx := rfl
@[simp] theorem State.setFlag_timers (f : FRef) (v : Bool) : (s.setFlag f v).timers = s.timers := rfl
@[simp] theorem State.setFlag_out (f : FRef) (v : Bool) : (s.setFlag f v).out = s.out := rfl
@[simp] theorem State.setFlag_freeCtr (f : FRef) (v : Bool) : (s.setFlag f v).freeCtr = s.freeCtr := rfl

/-! ### count -/

@[simp] theorem State.count_pending (f : FRef) (v : Nat) : (s.count f v).pending = s.pending := rfl
@[simp] theorem State.count_heldLo (f : FRef) (v : Nat) : (s.count f v).heldLo = s.heldLo := rfl
@[simp] theorem State.count_capHi (f : FRef) (v : Nat) : (s.count f v).capHi = s.capHi := rfl
@[simp] theorem State.count_heldWrites (f : FRef) (v : Nat) : (s.count f v).heldWrites = s.heldWrites := rfl
@[simp] theorem State.count_mem (f : FRef) (v : Nat) : (s.count f v).mem = s.mem := rfl
@[simp] theorem State.count_poison (f : FRef) (v : Nat) : (s.count f v).poison = s.poison := rfl
@[simp] theorem State.count_damage (f : FRef) (v : Nat) : (s.count f v).damage = s.damage := rfl
@[simp] theorem State.count_arms (f : FRef) (v : Nat) : (s.count f v).arms = s.arms := rfl
@[simp] theorem State.count_mram (f : FRef) (v : Nat) : (s.count f v).mram = s.mram := rfl
@[simp] theorem State.count_now (f : FRef) (v : Nat) : (s.count f v).now = s.now := rfl
@[simp] theorem State.count_sensors (f : FRef) (v : Nat) : (s.count f v).sensors = s.sensors := rfl
@[simp] theorem State.count_hicLevel (f : FRef) (v : Nat) : (s.count f v).hicLevel = s.hicLevel := rfl
@[simp] theorem State.count_hicClaimer (f : FRef) (v : Nat) : (s.count f v).hicClaimer = s.hicClaimer := rfl
@[simp] theorem State.count_logTimes (f : FRef) (v : Nat) : (s.count f v).logTimes = s.logTimes := rfl
@[simp] theorem State.count_firstAt (f : FRef) (v : Nat) : (s.count f v).firstAt = s.firstAt := rfl
@[simp] theorem State.count_logSeq (f : FRef) (v : Nat) : (s.count f v).logSeq = s.logSeq := rfl
@[simp] theorem State.count_snap (f : FRef) (v : Nat) : (s.count f v).snap = s.snap := rfl
@[simp] theorem State.count_evr (f : FRef) (v : Nat) : (s.count f v).evr = s.evr := rfl
@[simp] theorem State.count_golden (f : FRef) (v : Nat) : (s.count f v).golden = s.golden := rfl
@[simp] theorem State.count_poolGiB (f : FRef) (v : Nat) : (s.count f v).poolGiB = s.poolGiB := rfl
@[simp] theorem State.count_fm (f : FRef) (v : Nat) : (s.count f v).fm = s.fm := rfl
@[simp] theorem State.count_units (f : FRef) (v : Nat) : (s.count f v).units = s.units := rfl
@[simp] theorem State.count_models (f : FRef) (v : Nat) : (s.count f v).models = s.models := rfl
@[simp] theorem State.count_serials (f : FRef) (v : Nat) : (s.count f v).serials = s.serials := rfl
@[simp] theorem State.count_jobs (f : FRef) (v : Nat) : (s.count f v).jobs = s.jobs := rfl
@[simp] theorem State.count_jobSeq (f : FRef) (v : Nat) : (s.count f v).jobSeq = s.jobSeq := rfl
@[simp] theorem State.count_rrCtx (f : FRef) (v : Nat) : (s.count f v).rrCtx = s.rrCtx := rfl
@[simp] theorem State.count_rrRing (f : FRef) (v : Nat) : (s.count f v).rrRing = s.rrRing := rfl
@[simp] theorem State.count_winForce (f : FRef) (v : Nat) : (s.count f v).winForce = s.winForce := rfl
@[simp] theorem State.count_pairBar (f : FRef) (v : Nat) : (s.count f v).pairBar = s.pairBar := rfl
@[simp] theorem State.count_winStarts (f : FRef) (v : Nat) : (s.count f v).winStarts = s.winStarts := rfl
@[simp] theorem State.count_winClosed (f : FRef) (v : Nat) : (s.count f v).winClosed = s.winClosed := rfl
@[simp] theorem State.count_assigns (f : FRef) (v : Nat) : (s.count f v).assigns = s.assigns := rfl
@[simp] theorem State.count_incs (f : FRef) (v : Nat) : (s.count f v).incs = s.incs := rfl
@[simp] theorem State.count_chans (f : FRef) (v : Nat) : (s.count f v).chans = s.chans := rfl
@[simp] theorem State.count_intake (f : FRef) (v : Nat) : (s.count f v).intake = s.intake := rfl
@[simp] theorem State.count_ftab (f : FRef) (v : Nat) : (s.count f v).ftab = s.ftab := rfl
@[simp] theorem State.count_waiting (f : FRef) (v : Nat) : (s.count f v).waiting = s.waiting := rfl
@[simp] theorem State.count_moder (f : FRef) (v : Nat) : (s.count f v).moder = s.moder := rfl
@[simp] theorem State.count_emb (f : FRef) (v : Nat) : (s.count f v).emb = s.emb := rfl
@[simp] theorem State.count_embForce (f : FRef) (v : Nat) : (s.count f v).embForce = s.embForce := rfl
@[simp] theorem State.count_quench (f : FRef) (v : Nat) : (s.count f v).quench = s.quench := rfl
@[simp] theorem State.count_anvils (f : FRef) (v : Nat) : (s.count f v).anvils = s.anvils := rfl
@[simp] theorem State.count_cmp (f : FRef) (v : Nat) : (s.count f v).cmp = s.cmp := rfl
@[simp] theorem State.count_captures (f : FRef) (v : Nat) : (s.count f v).captures = s.captures := rfl
@[simp] theorem State.count_ageDue (f : FRef) (v : Nat) : (s.count f v).ageDue = s.ageDue := rfl
@[simp] theorem State.count_stageEnd (f : FRef) (v : Nat) : (s.count f v).stageEnd = s.stageEnd := rfl
@[simp] theorem State.count_lateSeen (f : FRef) (v : Nat) : (s.count f v).lateSeen = s.lateSeen := rfl
@[simp] theorem State.count_time (f : FRef) (v : Nat) : (s.count f v).time = s.time := rfl
@[simp] theorem State.count_links (f : FRef) (v : Nat) : (s.count f v).links = s.links := rfl
@[simp] theorem State.count_reasm (f : FRef) (v : Nat) : (s.count f v).reasm = s.reasm := rfl
@[simp] theorem State.count_tenants (f : FRef) (v : Nat) : (s.count f v).tenants = s.tenants := rfl
@[simp] theorem State.count_depotUp (f : FRef) (v : Nat) : (s.count f v).depotUp = s.depotUp := rfl
@[simp] theorem State.count_msix (f : FRef) (v : Nat) : (s.count f v).msix = s.msix := rfl
@[simp] theorem State.count_draining (f : FRef) (v : Nat) : (s.count f v).draining = s.draining := rfl
@[simp] theorem State.count_anchors (f : FRef) (v : Nat) : (s.count f v).anchors = s.anchors := rfl
@[simp] theorem State.count_hearth (f : FRef) (v : Nat) : (s.count f v).hearth = s.hearth := rfl
@[simp] theorem State.count_recover (f : FRef) (v : Nat) : (s.count f v).recover = s.recover := rfl
@[simp] theorem State.count_boot (f : FRef) (v : Nat) : (s.count f v).boot = s.boot := rfl
@[simp] theorem State.count_modes (f : FRef) (v : Nat) : (s.count f v).modes = s.modes := rfl
@[simp] theorem State.count_canRx (f : FRef) (v : Nat) : (s.count f v).canRx = s.canRx := rfl
@[simp] theorem State.count_ethRx (f : FRef) (v : Nat) : (s.count f v).ethRx = s.ethRx := rfl
@[simp] theorem State.count_timers (f : FRef) (v : Nat) : (s.count f v).timers = s.timers := rfl
@[simp] theorem State.count_out (f : FRef) (v : Nat) : (s.count f v).out = s.out := rfl
@[simp] theorem State.count_freeCtr (f : FRef) (v : Nat) : (s.count f v).freeCtr = s.freeCtr := rfl

/-! ### wr64 -/

@[simp] theorem State.wr64_pending (a v : Nat) : (s.wr64 a v).pending = s.pending := rfl
@[simp] theorem State.wr64_heldLo (a v : Nat) : (s.wr64 a v).heldLo = s.heldLo := rfl
@[simp] theorem State.wr64_capHi (a v : Nat) : (s.wr64 a v).capHi = s.capHi := rfl
@[simp] theorem State.wr64_heldWrites (a v : Nat) : (s.wr64 a v).heldWrites = s.heldWrites := rfl
@[simp] theorem State.wr64_mem (a v : Nat) : (s.wr64 a v).mem = s.mem := rfl
@[simp] theorem State.wr64_poison (a v : Nat) : (s.wr64 a v).poison = s.poison := rfl
@[simp] theorem State.wr64_damage (a v : Nat) : (s.wr64 a v).damage = s.damage := rfl
@[simp] theorem State.wr64_arms (a v : Nat) : (s.wr64 a v).arms = s.arms := rfl
@[simp] theorem State.wr64_mram (a v : Nat) : (s.wr64 a v).mram = s.mram := rfl
@[simp] theorem State.wr64_now (a v : Nat) : (s.wr64 a v).now = s.now := rfl
@[simp] theorem State.wr64_sensors (a v : Nat) : (s.wr64 a v).sensors = s.sensors := rfl
@[simp] theorem State.wr64_hicLevel (a v : Nat) : (s.wr64 a v).hicLevel = s.hicLevel := rfl
@[simp] theorem State.wr64_hicClaimer (a v : Nat) : (s.wr64 a v).hicClaimer = s.hicClaimer := rfl
@[simp] theorem State.wr64_logTimes (a v : Nat) : (s.wr64 a v).logTimes = s.logTimes := rfl
@[simp] theorem State.wr64_firstAt (a v : Nat) : (s.wr64 a v).firstAt = s.firstAt := rfl
@[simp] theorem State.wr64_logSeq (a v : Nat) : (s.wr64 a v).logSeq = s.logSeq := rfl
@[simp] theorem State.wr64_snap (a v : Nat) : (s.wr64 a v).snap = s.snap := rfl
@[simp] theorem State.wr64_evr (a v : Nat) : (s.wr64 a v).evr = s.evr := rfl
@[simp] theorem State.wr64_golden (a v : Nat) : (s.wr64 a v).golden = s.golden := rfl
@[simp] theorem State.wr64_poolGiB (a v : Nat) : (s.wr64 a v).poolGiB = s.poolGiB := rfl
@[simp] theorem State.wr64_fm (a v : Nat) : (s.wr64 a v).fm = s.fm := rfl
@[simp] theorem State.wr64_units (a v : Nat) : (s.wr64 a v).units = s.units := rfl
@[simp] theorem State.wr64_models (a v : Nat) : (s.wr64 a v).models = s.models := rfl
@[simp] theorem State.wr64_serials (a v : Nat) : (s.wr64 a v).serials = s.serials := rfl
@[simp] theorem State.wr64_jobs (a v : Nat) : (s.wr64 a v).jobs = s.jobs := rfl
@[simp] theorem State.wr64_jobSeq (a v : Nat) : (s.wr64 a v).jobSeq = s.jobSeq := rfl
@[simp] theorem State.wr64_rrCtx (a v : Nat) : (s.wr64 a v).rrCtx = s.rrCtx := rfl
@[simp] theorem State.wr64_rrRing (a v : Nat) : (s.wr64 a v).rrRing = s.rrRing := rfl
@[simp] theorem State.wr64_winForce (a v : Nat) : (s.wr64 a v).winForce = s.winForce := rfl
@[simp] theorem State.wr64_pairBar (a v : Nat) : (s.wr64 a v).pairBar = s.pairBar := rfl
@[simp] theorem State.wr64_winStarts (a v : Nat) : (s.wr64 a v).winStarts = s.winStarts := rfl
@[simp] theorem State.wr64_winClosed (a v : Nat) : (s.wr64 a v).winClosed = s.winClosed := rfl
@[simp] theorem State.wr64_assigns (a v : Nat) : (s.wr64 a v).assigns = s.assigns := rfl
@[simp] theorem State.wr64_incs (a v : Nat) : (s.wr64 a v).incs = s.incs := rfl
@[simp] theorem State.wr64_chans (a v : Nat) : (s.wr64 a v).chans = s.chans := rfl
@[simp] theorem State.wr64_intake (a v : Nat) : (s.wr64 a v).intake = s.intake := rfl
@[simp] theorem State.wr64_ftab (a v : Nat) : (s.wr64 a v).ftab = s.ftab := rfl
@[simp] theorem State.wr64_waiting (a v : Nat) : (s.wr64 a v).waiting = s.waiting := rfl
@[simp] theorem State.wr64_moder (a v : Nat) : (s.wr64 a v).moder = s.moder := rfl
@[simp] theorem State.wr64_emb (a v : Nat) : (s.wr64 a v).emb = s.emb := rfl
@[simp] theorem State.wr64_embForce (a v : Nat) : (s.wr64 a v).embForce = s.embForce := rfl
@[simp] theorem State.wr64_quench (a v : Nat) : (s.wr64 a v).quench = s.quench := rfl
@[simp] theorem State.wr64_anvils (a v : Nat) : (s.wr64 a v).anvils = s.anvils := rfl
@[simp] theorem State.wr64_cmp (a v : Nat) : (s.wr64 a v).cmp = s.cmp := rfl
@[simp] theorem State.wr64_captures (a v : Nat) : (s.wr64 a v).captures = s.captures := rfl
@[simp] theorem State.wr64_ageDue (a v : Nat) : (s.wr64 a v).ageDue = s.ageDue := rfl
@[simp] theorem State.wr64_stageEnd (a v : Nat) : (s.wr64 a v).stageEnd = s.stageEnd := rfl
@[simp] theorem State.wr64_lateSeen (a v : Nat) : (s.wr64 a v).lateSeen = s.lateSeen := rfl
@[simp] theorem State.wr64_time (a v : Nat) : (s.wr64 a v).time = s.time := rfl
@[simp] theorem State.wr64_links (a v : Nat) : (s.wr64 a v).links = s.links := rfl
@[simp] theorem State.wr64_reasm (a v : Nat) : (s.wr64 a v).reasm = s.reasm := rfl
@[simp] theorem State.wr64_tenants (a v : Nat) : (s.wr64 a v).tenants = s.tenants := rfl
@[simp] theorem State.wr64_depotUp (a v : Nat) : (s.wr64 a v).depotUp = s.depotUp := rfl
@[simp] theorem State.wr64_msix (a v : Nat) : (s.wr64 a v).msix = s.msix := rfl
@[simp] theorem State.wr64_draining (a v : Nat) : (s.wr64 a v).draining = s.draining := rfl
@[simp] theorem State.wr64_anchors (a v : Nat) : (s.wr64 a v).anchors = s.anchors := rfl
@[simp] theorem State.wr64_hearth (a v : Nat) : (s.wr64 a v).hearth = s.hearth := rfl
@[simp] theorem State.wr64_recover (a v : Nat) : (s.wr64 a v).recover = s.recover := rfl
@[simp] theorem State.wr64_boot (a v : Nat) : (s.wr64 a v).boot = s.boot := rfl
@[simp] theorem State.wr64_modes (a v : Nat) : (s.wr64 a v).modes = s.modes := rfl
@[simp] theorem State.wr64_canRx (a v : Nat) : (s.wr64 a v).canRx = s.canRx := rfl
@[simp] theorem State.wr64_ethRx (a v : Nat) : (s.wr64 a v).ethRx = s.ethRx := rfl
@[simp] theorem State.wr64_timers (a v : Nat) : (s.wr64 a v).timers = s.timers := rfl
@[simp] theorem State.wr64_out (a v : Nat) : (s.wr64 a v).out = s.out := rfl
@[simp] theorem State.wr64_freeCtr (a v : Nat) : (s.wr64 a v).freeCtr = s.freeCtr := rfl

/-! ### send -/

@[simp] theorem State.send_pending (m : OutMsg) : (s.send m).pending = s.pending := rfl
@[simp] theorem State.send_regs (m : OutMsg) : (s.send m).regs = s.regs := rfl
@[simp] theorem State.send_heldLo (m : OutMsg) : (s.send m).heldLo = s.heldLo := rfl
@[simp] theorem State.send_capHi (m : OutMsg) : (s.send m).capHi = s.capHi := rfl
@[simp] theorem State.send_heldWrites (m : OutMsg) : (s.send m).heldWrites = s.heldWrites := rfl
@[simp] theorem State.send_mem (m : OutMsg) : (s.send m).mem = s.mem := rfl
@[simp] theorem State.send_poison (m : OutMsg) : (s.send m).poison = s.poison := rfl
@[simp] theorem State.send_damage (m : OutMsg) : (s.send m).damage = s.damage := rfl
@[simp] theorem State.send_arms (m : OutMsg) : (s.send m).arms = s.arms := rfl
@[simp] theorem State.send_mram (m : OutMsg) : (s.send m).mram = s.mram := rfl
@[simp] theorem State.send_now (m : OutMsg) : (s.send m).now = s.now := rfl
@[simp] theorem State.send_sensors (m : OutMsg) : (s.send m).sensors = s.sensors := rfl
@[simp] theorem State.send_hicLevel (m : OutMsg) : (s.send m).hicLevel = s.hicLevel := rfl
@[simp] theorem State.send_hicClaimer (m : OutMsg) : (s.send m).hicClaimer = s.hicClaimer := rfl
@[simp] theorem State.send_logTimes (m : OutMsg) : (s.send m).logTimes = s.logTimes := rfl
@[simp] theorem State.send_firstAt (m : OutMsg) : (s.send m).firstAt = s.firstAt := rfl
@[simp] theorem State.send_logSeq (m : OutMsg) : (s.send m).logSeq = s.logSeq := rfl
@[simp] theorem State.send_snap (m : OutMsg) : (s.send m).snap = s.snap := rfl
@[simp] theorem State.send_evr (m : OutMsg) : (s.send m).evr = s.evr := rfl
@[simp] theorem State.send_golden (m : OutMsg) : (s.send m).golden = s.golden := rfl
@[simp] theorem State.send_poolGiB (m : OutMsg) : (s.send m).poolGiB = s.poolGiB := rfl
@[simp] theorem State.send_fm (m : OutMsg) : (s.send m).fm = s.fm := rfl
@[simp] theorem State.send_units (m : OutMsg) : (s.send m).units = s.units := rfl
@[simp] theorem State.send_models (m : OutMsg) : (s.send m).models = s.models := rfl
@[simp] theorem State.send_serials (m : OutMsg) : (s.send m).serials = s.serials := rfl
@[simp] theorem State.send_jobs (m : OutMsg) : (s.send m).jobs = s.jobs := rfl
@[simp] theorem State.send_jobSeq (m : OutMsg) : (s.send m).jobSeq = s.jobSeq := rfl
@[simp] theorem State.send_rrCtx (m : OutMsg) : (s.send m).rrCtx = s.rrCtx := rfl
@[simp] theorem State.send_rrRing (m : OutMsg) : (s.send m).rrRing = s.rrRing := rfl
@[simp] theorem State.send_winForce (m : OutMsg) : (s.send m).winForce = s.winForce := rfl
@[simp] theorem State.send_pairBar (m : OutMsg) : (s.send m).pairBar = s.pairBar := rfl
@[simp] theorem State.send_winStarts (m : OutMsg) : (s.send m).winStarts = s.winStarts := rfl
@[simp] theorem State.send_winClosed (m : OutMsg) : (s.send m).winClosed = s.winClosed := rfl
@[simp] theorem State.send_assigns (m : OutMsg) : (s.send m).assigns = s.assigns := rfl
@[simp] theorem State.send_incs (m : OutMsg) : (s.send m).incs = s.incs := rfl
@[simp] theorem State.send_chans (m : OutMsg) : (s.send m).chans = s.chans := rfl
@[simp] theorem State.send_intake (m : OutMsg) : (s.send m).intake = s.intake := rfl
@[simp] theorem State.send_ftab (m : OutMsg) : (s.send m).ftab = s.ftab := rfl
@[simp] theorem State.send_waiting (m : OutMsg) : (s.send m).waiting = s.waiting := rfl
@[simp] theorem State.send_moder (m : OutMsg) : (s.send m).moder = s.moder := rfl
@[simp] theorem State.send_emb (m : OutMsg) : (s.send m).emb = s.emb := rfl
@[simp] theorem State.send_embForce (m : OutMsg) : (s.send m).embForce = s.embForce := rfl
@[simp] theorem State.send_quench (m : OutMsg) : (s.send m).quench = s.quench := rfl
@[simp] theorem State.send_anvils (m : OutMsg) : (s.send m).anvils = s.anvils := rfl
@[simp] theorem State.send_cmp (m : OutMsg) : (s.send m).cmp = s.cmp := rfl
@[simp] theorem State.send_captures (m : OutMsg) : (s.send m).captures = s.captures := rfl
@[simp] theorem State.send_ageDue (m : OutMsg) : (s.send m).ageDue = s.ageDue := rfl
@[simp] theorem State.send_stageEnd (m : OutMsg) : (s.send m).stageEnd = s.stageEnd := rfl
@[simp] theorem State.send_lateSeen (m : OutMsg) : (s.send m).lateSeen = s.lateSeen := rfl
@[simp] theorem State.send_time (m : OutMsg) : (s.send m).time = s.time := rfl
@[simp] theorem State.send_links (m : OutMsg) : (s.send m).links = s.links := rfl
@[simp] theorem State.send_reasm (m : OutMsg) : (s.send m).reasm = s.reasm := rfl
@[simp] theorem State.send_tenants (m : OutMsg) : (s.send m).tenants = s.tenants := rfl
@[simp] theorem State.send_depotUp (m : OutMsg) : (s.send m).depotUp = s.depotUp := rfl
@[simp] theorem State.send_msix (m : OutMsg) : (s.send m).msix = s.msix := rfl
@[simp] theorem State.send_draining (m : OutMsg) : (s.send m).draining = s.draining := rfl
@[simp] theorem State.send_anchors (m : OutMsg) : (s.send m).anchors = s.anchors := rfl
@[simp] theorem State.send_hearth (m : OutMsg) : (s.send m).hearth = s.hearth := rfl
@[simp] theorem State.send_recover (m : OutMsg) : (s.send m).recover = s.recover := rfl
@[simp] theorem State.send_boot (m : OutMsg) : (s.send m).boot = s.boot := rfl
@[simp] theorem State.send_modes (m : OutMsg) : (s.send m).modes = s.modes := rfl
@[simp] theorem State.send_canRx (m : OutMsg) : (s.send m).canRx = s.canRx := rfl
@[simp] theorem State.send_ethRx (m : OutMsg) : (s.send m).ethRx = s.ethRx := rfl
@[simp] theorem State.send_timers (m : OutMsg) : (s.send m).timers = s.timers := rfl
@[simp] theorem State.send_freeCtr (m : OutMsg) : (s.send m).freeCtr = s.freeCtr := rfl

/-! ### setUnit -/

@[simp] theorem State.setUnit_pending (u : Nat) (x : UnitSt) : (s.setUnit u x).pending = s.pending := rfl
@[simp] theorem State.setUnit_regs (u : Nat) (x : UnitSt) : (s.setUnit u x).regs = s.regs := rfl
@[simp] theorem State.setUnit_heldLo (u : Nat) (x : UnitSt) : (s.setUnit u x).heldLo = s.heldLo := rfl
@[simp] theorem State.setUnit_capHi (u : Nat) (x : UnitSt) : (s.setUnit u x).capHi = s.capHi := rfl
@[simp] theorem State.setUnit_heldWrites (u : Nat) (x : UnitSt) : (s.setUnit u x).heldWrites = s.heldWrites := rfl
@[simp] theorem State.setUnit_mem (u : Nat) (x : UnitSt) : (s.setUnit u x).mem = s.mem := rfl
@[simp] theorem State.setUnit_poison (u : Nat) (x : UnitSt) : (s.setUnit u x).poison = s.poison := rfl
@[simp] theorem State.setUnit_damage (u : Nat) (x : UnitSt) : (s.setUnit u x).damage = s.damage := rfl
@[simp] theorem State.setUnit_arms (u : Nat) (x : UnitSt) : (s.setUnit u x).arms = s.arms := rfl
@[simp] theorem State.setUnit_mram (u : Nat) (x : UnitSt) : (s.setUnit u x).mram = s.mram := rfl
@[simp] theorem State.setUnit_now (u : Nat) (x : UnitSt) : (s.setUnit u x).now = s.now := rfl
@[simp] theorem State.setUnit_sensors (u : Nat) (x : UnitSt) : (s.setUnit u x).sensors = s.sensors := rfl
@[simp] theorem State.setUnit_hicLevel (u : Nat) (x : UnitSt) : (s.setUnit u x).hicLevel = s.hicLevel := rfl
@[simp] theorem State.setUnit_hicClaimer (u : Nat) (x : UnitSt) : (s.setUnit u x).hicClaimer = s.hicClaimer := rfl
@[simp] theorem State.setUnit_logTimes (u : Nat) (x : UnitSt) : (s.setUnit u x).logTimes = s.logTimes := rfl
@[simp] theorem State.setUnit_firstAt (u : Nat) (x : UnitSt) : (s.setUnit u x).firstAt = s.firstAt := rfl
@[simp] theorem State.setUnit_logSeq (u : Nat) (x : UnitSt) : (s.setUnit u x).logSeq = s.logSeq := rfl
@[simp] theorem State.setUnit_snap (u : Nat) (x : UnitSt) : (s.setUnit u x).snap = s.snap := rfl
@[simp] theorem State.setUnit_evr (u : Nat) (x : UnitSt) : (s.setUnit u x).evr = s.evr := rfl
@[simp] theorem State.setUnit_golden (u : Nat) (x : UnitSt) : (s.setUnit u x).golden = s.golden := rfl
@[simp] theorem State.setUnit_poolGiB (u : Nat) (x : UnitSt) : (s.setUnit u x).poolGiB = s.poolGiB := rfl
@[simp] theorem State.setUnit_fm (u : Nat) (x : UnitSt) : (s.setUnit u x).fm = s.fm := rfl
@[simp] theorem State.setUnit_models (u : Nat) (x : UnitSt) : (s.setUnit u x).models = s.models := rfl
@[simp] theorem State.setUnit_serials (u : Nat) (x : UnitSt) : (s.setUnit u x).serials = s.serials := rfl
@[simp] theorem State.setUnit_jobs (u : Nat) (x : UnitSt) : (s.setUnit u x).jobs = s.jobs := rfl
@[simp] theorem State.setUnit_jobSeq (u : Nat) (x : UnitSt) : (s.setUnit u x).jobSeq = s.jobSeq := rfl
@[simp] theorem State.setUnit_rrCtx (u : Nat) (x : UnitSt) : (s.setUnit u x).rrCtx = s.rrCtx := rfl
@[simp] theorem State.setUnit_rrRing (u : Nat) (x : UnitSt) : (s.setUnit u x).rrRing = s.rrRing := rfl
@[simp] theorem State.setUnit_winForce (u : Nat) (x : UnitSt) : (s.setUnit u x).winForce = s.winForce := rfl
@[simp] theorem State.setUnit_pairBar (u : Nat) (x : UnitSt) : (s.setUnit u x).pairBar = s.pairBar := rfl
@[simp] theorem State.setUnit_winStarts (u : Nat) (x : UnitSt) : (s.setUnit u x).winStarts = s.winStarts := rfl
@[simp] theorem State.setUnit_winClosed (u : Nat) (x : UnitSt) : (s.setUnit u x).winClosed = s.winClosed := rfl
@[simp] theorem State.setUnit_assigns (u : Nat) (x : UnitSt) : (s.setUnit u x).assigns = s.assigns := rfl
@[simp] theorem State.setUnit_incs (u : Nat) (x : UnitSt) : (s.setUnit u x).incs = s.incs := rfl
@[simp] theorem State.setUnit_chans (u : Nat) (x : UnitSt) : (s.setUnit u x).chans = s.chans := rfl
@[simp] theorem State.setUnit_intake (u : Nat) (x : UnitSt) : (s.setUnit u x).intake = s.intake := rfl
@[simp] theorem State.setUnit_ftab (u : Nat) (x : UnitSt) : (s.setUnit u x).ftab = s.ftab := rfl
@[simp] theorem State.setUnit_waiting (u : Nat) (x : UnitSt) : (s.setUnit u x).waiting = s.waiting := rfl
@[simp] theorem State.setUnit_moder (u : Nat) (x : UnitSt) : (s.setUnit u x).moder = s.moder := rfl
@[simp] theorem State.setUnit_emb (u : Nat) (x : UnitSt) : (s.setUnit u x).emb = s.emb := rfl
@[simp] theorem State.setUnit_embForce (u : Nat) (x : UnitSt) : (s.setUnit u x).embForce = s.embForce := rfl
@[simp] theorem State.setUnit_quench (u : Nat) (x : UnitSt) : (s.setUnit u x).quench = s.quench := rfl
@[simp] theorem State.setUnit_anvils (u : Nat) (x : UnitSt) : (s.setUnit u x).anvils = s.anvils := rfl
@[simp] theorem State.setUnit_cmp (u : Nat) (x : UnitSt) : (s.setUnit u x).cmp = s.cmp := rfl
@[simp] theorem State.setUnit_captures (u : Nat) (x : UnitSt) : (s.setUnit u x).captures = s.captures := rfl
@[simp] theorem State.setUnit_ageDue (u : Nat) (x : UnitSt) : (s.setUnit u x).ageDue = s.ageDue := rfl
@[simp] theorem State.setUnit_stageEnd (u : Nat) (x : UnitSt) : (s.setUnit u x).stageEnd = s.stageEnd := rfl
@[simp] theorem State.setUnit_lateSeen (u : Nat) (x : UnitSt) : (s.setUnit u x).lateSeen = s.lateSeen := rfl
@[simp] theorem State.setUnit_time (u : Nat) (x : UnitSt) : (s.setUnit u x).time = s.time := rfl
@[simp] theorem State.setUnit_links (u : Nat) (x : UnitSt) : (s.setUnit u x).links = s.links := rfl
@[simp] theorem State.setUnit_reasm (u : Nat) (x : UnitSt) : (s.setUnit u x).reasm = s.reasm := rfl
@[simp] theorem State.setUnit_tenants (u : Nat) (x : UnitSt) : (s.setUnit u x).tenants = s.tenants := rfl
@[simp] theorem State.setUnit_depotUp (u : Nat) (x : UnitSt) : (s.setUnit u x).depotUp = s.depotUp := rfl
@[simp] theorem State.setUnit_msix (u : Nat) (x : UnitSt) : (s.setUnit u x).msix = s.msix := rfl
@[simp] theorem State.setUnit_draining (u : Nat) (x : UnitSt) : (s.setUnit u x).draining = s.draining := rfl
@[simp] theorem State.setUnit_anchors (u : Nat) (x : UnitSt) : (s.setUnit u x).anchors = s.anchors := rfl
@[simp] theorem State.setUnit_hearth (u : Nat) (x : UnitSt) : (s.setUnit u x).hearth = s.hearth := rfl
@[simp] theorem State.setUnit_recover (u : Nat) (x : UnitSt) : (s.setUnit u x).recover = s.recover := rfl
@[simp] theorem State.setUnit_boot (u : Nat) (x : UnitSt) : (s.setUnit u x).boot = s.boot := rfl
@[simp] theorem State.setUnit_modes (u : Nat) (x : UnitSt) : (s.setUnit u x).modes = s.modes := rfl
@[simp] theorem State.setUnit_canRx (u : Nat) (x : UnitSt) : (s.setUnit u x).canRx = s.canRx := rfl
@[simp] theorem State.setUnit_ethRx (u : Nat) (x : UnitSt) : (s.setUnit u x).ethRx = s.ethRx := rfl
@[simp] theorem State.setUnit_timers (u : Nat) (x : UnitSt) : (s.setUnit u x).timers = s.timers := rfl
@[simp] theorem State.setUnit_out (u : Nat) (x : UnitSt) : (s.setUnit u x).out = s.out := rfl
@[simp] theorem State.setUnit_freeCtr (u : Nat) (x : UnitSt) : (s.setUnit u x).freeCtr = s.freeCtr := rfl

/-! ### modUnit -/

@[simp] theorem State.modUnit_pending (u : Nat) (x : UnitSt → UnitSt) : (s.modUnit u x).pending = s.pending := rfl
@[simp] theorem State.modUnit_regs (u : Nat) (x : UnitSt → UnitSt) : (s.modUnit u x).regs = s.regs := rfl
@[simp] theorem State.modUnit_heldLo (u : Nat) (x : UnitSt → UnitSt) : (s.modUnit u x).heldLo = s.heldLo := rfl
@[simp] theorem State.modUnit_capHi (u : Nat) (x : UnitSt → UnitSt) : (s.modUnit u x).capHi = s.capHi := rfl
@[simp] theorem State.modUnit_heldWrites (u : Nat) (x : UnitSt → UnitSt) : (s.modUnit u x).heldWrites = s.heldWrites := rfl
@[simp] theorem State.modUnit_mem (u : Nat) (x : UnitSt → UnitSt) : (s.modUnit u x).mem = s.mem := rfl
@[simp] theorem State.modUnit_poison (u : Nat) (x : UnitSt → UnitSt) : (s.modUnit u x).poison = s.poison := rfl
@[simp] theorem State.modUnit_damage (u : Nat) (x : UnitSt → UnitSt) : (s.modUnit u x).damage = s.damage := rfl
@[simp] theorem State.modUnit_arms (u : Nat) (x : UnitSt → UnitSt) : (s.modUnit u x).arms = s.arms := rfl
@[simp] theorem State.modUnit_mram (u : Nat) (x : UnitSt → UnitSt) : (s.modUnit u x).mram = s.mram := rfl
@[simp] theorem State.modUnit_now (u : Nat) (x : UnitSt → UnitSt) : (s.modUnit u x).now = s.now := rfl
@[simp] theorem State.modUnit_sensors (u : Nat) (x : UnitSt → UnitSt) : (s.modUnit u x).sensors = s.sensors := rfl
@[simp] theorem State.modUnit_hicLevel (u : Nat) (x : UnitSt → UnitSt) : (s.modUnit u x).hicLevel = s.hicLevel := rfl
@[simp] theorem State.modUnit_hicClaimer (u : Nat) (x : UnitSt → UnitSt) : (s.modUnit u x).hicClaimer = s.hicClaimer := rfl
@[simp] theorem State.modUnit_logTimes (u : Nat) (x : UnitSt → UnitSt) : (s.modUnit u x).logTimes = s.logTimes := rfl
@[simp] theorem State.modUnit_firstAt (u : Nat) (x : UnitSt → UnitSt) : (s.modUnit u x).firstAt = s.firstAt := rfl
@[simp] theorem State.modUnit_logSeq (u : Nat) (x : UnitSt → UnitSt) : (s.modUnit u x).logSeq = s.logSeq := rfl
@[simp] theorem State.modUnit_snap (u : Nat) (x : UnitSt → UnitSt) : (s.modUnit u x).snap = s.snap := rfl
@[simp] theorem State.modUnit_evr (u : Nat) (x : UnitSt → UnitSt) : (s.modUnit u x).evr = s.evr := rfl
@[simp] theorem State.modUnit_golden (u : Nat) (x : UnitSt → UnitSt) : (s.modUnit u x).golden = s.golden := rfl
@[simp] theorem State.modUnit_poolGiB (u : Nat) (x : UnitSt → UnitSt) : (s.modUnit u x).poolGiB = s.poolGiB := rfl
@[simp] theorem State.modUnit_fm (u : Nat) (x : UnitSt → UnitSt) : (s.modUnit u x).fm = s.fm := rfl
@[simp] theorem State.modUnit_models (u : Nat) (x : UnitSt → UnitSt) : (s.modUnit u x).models = s.models := rfl
@[simp] theorem State.modUnit_serials (u : Nat) (x : UnitSt → UnitSt) : (s.modUnit u x).serials = s.serials := rfl
@[simp] theorem State.modUnit_jobs (u : Nat) (x : UnitSt → UnitSt) : (s.modUnit u x).jobs = s.jobs := rfl
@[simp] theorem State.modUnit_jobSeq (u : Nat) (x : UnitSt → UnitSt) : (s.modUnit u x).jobSeq = s.jobSeq := rfl
@[simp] theorem State.modUnit_rrCtx (u : Nat) (x : UnitSt → UnitSt) : (s.modUnit u x).rrCtx = s.rrCtx := rfl
@[simp] theorem State.modUnit_rrRing (u : Nat) (x : UnitSt → UnitSt) : (s.modUnit u x).rrRing = s.rrRing := rfl
@[simp] theorem State.modUnit_winForce (u : Nat) (x : UnitSt → UnitSt) : (s.modUnit u x).winForce = s.winForce := rfl
@[simp] theorem State.modUnit_pairBar (u : Nat) (x : UnitSt → UnitSt) : (s.modUnit u x).pairBar = s.pairBar := rfl
@[simp] theorem State.modUnit_winStarts (u : Nat) (x : UnitSt → UnitSt) : (s.modUnit u x).winStarts = s.winStarts := rfl
@[simp] theorem State.modUnit_winClosed (u : Nat) (x : UnitSt → UnitSt) : (s.modUnit u x).winClosed = s.winClosed := rfl
@[simp] theorem State.modUnit_assigns (u : Nat) (x : UnitSt → UnitSt) : (s.modUnit u x).assigns = s.assigns := rfl
@[simp] theorem State.modUnit_incs (u : Nat) (x : UnitSt → UnitSt) : (s.modUnit u x).incs = s.incs := rfl
@[simp] theorem State.modUnit_chans (u : Nat) (x : UnitSt → UnitSt) : (s.modUnit u x).chans = s.chans := rfl
@[simp] theorem State.modUnit_intake (u : Nat) (x : UnitSt → UnitSt) : (s.modUnit u x).intake = s.intake := rfl
@[simp] theorem State.modUnit_ftab (u : Nat) (x : UnitSt → UnitSt) : (s.modUnit u x).ftab = s.ftab := rfl
@[simp] theorem State.modUnit_waiting (u : Nat) (x : UnitSt → UnitSt) : (s.modUnit u x).waiting = s.waiting := rfl
@[simp] theorem State.modUnit_moder (u : Nat) (x : UnitSt → UnitSt) : (s.modUnit u x).moder = s.moder := rfl
@[simp] theorem State.modUnit_emb (u : Nat) (x : UnitSt → UnitSt) : (s.modUnit u x).emb = s.emb := rfl
@[simp] theorem State.modUnit_embForce (u : Nat) (x : UnitSt → UnitSt) : (s.modUnit u x).embForce = s.embForce := rfl
@[simp] theorem State.modUnit_quench (u : Nat) (x : UnitSt → UnitSt) : (s.modUnit u x).quench = s.quench := rfl
@[simp] theorem State.modUnit_anvils (u : Nat) (x : UnitSt → UnitSt) : (s.modUnit u x).anvils = s.anvils := rfl
@[simp] theorem State.modUnit_cmp (u : Nat) (x : UnitSt → UnitSt) : (s.modUnit u x).cmp = s.cmp := rfl
@[simp] theorem State.modUnit_captures (u : Nat) (x : UnitSt → UnitSt) : (s.modUnit u x).captures = s.captures := rfl
@[simp] theorem State.modUnit_ageDue (u : Nat) (x : UnitSt → UnitSt) : (s.modUnit u x).ageDue = s.ageDue := rfl
@[simp] theorem State.modUnit_stageEnd (u : Nat) (x : UnitSt → UnitSt) : (s.modUnit u x).stageEnd = s.stageEnd := rfl
@[simp] theorem State.modUnit_lateSeen (u : Nat) (x : UnitSt → UnitSt) : (s.modUnit u x).lateSeen = s.lateSeen := rfl
@[simp] theorem State.modUnit_time (u : Nat) (x : UnitSt → UnitSt) : (s.modUnit u x).time = s.time := rfl
@[simp] theorem State.modUnit_links (u : Nat) (x : UnitSt → UnitSt) : (s.modUnit u x).links = s.links := rfl
@[simp] theorem State.modUnit_reasm (u : Nat) (x : UnitSt → UnitSt) : (s.modUnit u x).reasm = s.reasm := rfl
@[simp] theorem State.modUnit_tenants (u : Nat) (x : UnitSt → UnitSt) : (s.modUnit u x).tenants = s.tenants := rfl
@[simp] theorem State.modUnit_depotUp (u : Nat) (x : UnitSt → UnitSt) : (s.modUnit u x).depotUp = s.depotUp := rfl
@[simp] theorem State.modUnit_msix (u : Nat) (x : UnitSt → UnitSt) : (s.modUnit u x).msix = s.msix := rfl
@[simp] theorem State.modUnit_draining (u : Nat) (x : UnitSt → UnitSt) : (s.modUnit u x).draining = s.draining := rfl
@[simp] theorem State.modUnit_anchors (u : Nat) (x : UnitSt → UnitSt) : (s.modUnit u x).anchors = s.anchors := rfl
@[simp] theorem State.modUnit_hearth (u : Nat) (x : UnitSt → UnitSt) : (s.modUnit u x).hearth = s.hearth := rfl
@[simp] theorem State.modUnit_recover (u : Nat) (x : UnitSt → UnitSt) : (s.modUnit u x).recover = s.recover := rfl
@[simp] theorem State.modUnit_boot (u : Nat) (x : UnitSt → UnitSt) : (s.modUnit u x).boot = s.boot := rfl
@[simp] theorem State.modUnit_modes (u : Nat) (x : UnitSt → UnitSt) : (s.modUnit u x).modes = s.modes := rfl
@[simp] theorem State.modUnit_canRx (u : Nat) (x : UnitSt → UnitSt) : (s.modUnit u x).canRx = s.canRx := rfl
@[simp] theorem State.modUnit_ethRx (u : Nat) (x : UnitSt → UnitSt) : (s.modUnit u x).ethRx = s.ethRx := rfl
@[simp] theorem State.modUnit_timers (u : Nat) (x : UnitSt → UnitSt) : (s.modUnit u x).timers = s.timers := rfl
@[simp] theorem State.modUnit_out (u : Nat) (x : UnitSt → UnitSt) : (s.modUnit u x).out = s.out := rfl
@[simp] theorem State.modUnit_freeCtr (u : Nat) (x : UnitSt → UnitSt) : (s.modUnit u x).freeCtr = s.freeCtr := rfl

/-! ### modAnvil -/

@[simp] theorem State.modAnvil_pending (u : Nat) (x : AnvSt → AnvSt) : (s.modAnvil u x).pending = s.pending := rfl
@[simp] theorem State.modAnvil_regs (u : Nat) (x : AnvSt → AnvSt) : (s.modAnvil u x).regs = s.regs := rfl
@[simp] theorem State.modAnvil_heldLo (u : Nat) (x : AnvSt → AnvSt) : (s.modAnvil u x).heldLo = s.heldLo := rfl
@[simp] theorem State.modAnvil_capHi (u : Nat) (x : AnvSt → AnvSt) : (s.modAnvil u x).capHi = s.capHi := rfl
@[simp] theorem State.modAnvil_heldWrites (u : Nat) (x : AnvSt → AnvSt) : (s.modAnvil u x).heldWrites = s.heldWrites := rfl
@[simp] theorem State.modAnvil_mem (u : Nat) (x : AnvSt → AnvSt) : (s.modAnvil u x).mem = s.mem := rfl
@[simp] theorem State.modAnvil_poison (u : Nat) (x : AnvSt → AnvSt) : (s.modAnvil u x).poison = s.poison := rfl
@[simp] theorem State.modAnvil_damage (u : Nat) (x : AnvSt → AnvSt) : (s.modAnvil u x).damage = s.damage := rfl
@[simp] theorem State.modAnvil_arms (u : Nat) (x : AnvSt → AnvSt) : (s.modAnvil u x).arms = s.arms := rfl
@[simp] theorem State.modAnvil_mram (u : Nat) (x : AnvSt → AnvSt) : (s.modAnvil u x).mram = s.mram := rfl
@[simp] theorem State.modAnvil_now (u : Nat) (x : AnvSt → AnvSt) : (s.modAnvil u x).now = s.now := rfl
@[simp] theorem State.modAnvil_sensors (u : Nat) (x : AnvSt → AnvSt) : (s.modAnvil u x).sensors = s.sensors := rfl
@[simp] theorem State.modAnvil_hicLevel (u : Nat) (x : AnvSt → AnvSt) : (s.modAnvil u x).hicLevel = s.hicLevel := rfl
@[simp] theorem State.modAnvil_hicClaimer (u : Nat) (x : AnvSt → AnvSt) : (s.modAnvil u x).hicClaimer = s.hicClaimer := rfl
@[simp] theorem State.modAnvil_logTimes (u : Nat) (x : AnvSt → AnvSt) : (s.modAnvil u x).logTimes = s.logTimes := rfl
@[simp] theorem State.modAnvil_firstAt (u : Nat) (x : AnvSt → AnvSt) : (s.modAnvil u x).firstAt = s.firstAt := rfl
@[simp] theorem State.modAnvil_logSeq (u : Nat) (x : AnvSt → AnvSt) : (s.modAnvil u x).logSeq = s.logSeq := rfl
@[simp] theorem State.modAnvil_snap (u : Nat) (x : AnvSt → AnvSt) : (s.modAnvil u x).snap = s.snap := rfl
@[simp] theorem State.modAnvil_evr (u : Nat) (x : AnvSt → AnvSt) : (s.modAnvil u x).evr = s.evr := rfl
@[simp] theorem State.modAnvil_golden (u : Nat) (x : AnvSt → AnvSt) : (s.modAnvil u x).golden = s.golden := rfl
@[simp] theorem State.modAnvil_poolGiB (u : Nat) (x : AnvSt → AnvSt) : (s.modAnvil u x).poolGiB = s.poolGiB := rfl
@[simp] theorem State.modAnvil_fm (u : Nat) (x : AnvSt → AnvSt) : (s.modAnvil u x).fm = s.fm := rfl
@[simp] theorem State.modAnvil_units (u : Nat) (x : AnvSt → AnvSt) : (s.modAnvil u x).units = s.units := rfl
@[simp] theorem State.modAnvil_models (u : Nat) (x : AnvSt → AnvSt) : (s.modAnvil u x).models = s.models := rfl
@[simp] theorem State.modAnvil_serials (u : Nat) (x : AnvSt → AnvSt) : (s.modAnvil u x).serials = s.serials := rfl
@[simp] theorem State.modAnvil_jobs (u : Nat) (x : AnvSt → AnvSt) : (s.modAnvil u x).jobs = s.jobs := rfl
@[simp] theorem State.modAnvil_jobSeq (u : Nat) (x : AnvSt → AnvSt) : (s.modAnvil u x).jobSeq = s.jobSeq := rfl
@[simp] theorem State.modAnvil_rrCtx (u : Nat) (x : AnvSt → AnvSt) : (s.modAnvil u x).rrCtx = s.rrCtx := rfl
@[simp] theorem State.modAnvil_rrRing (u : Nat) (x : AnvSt → AnvSt) : (s.modAnvil u x).rrRing = s.rrRing := rfl
@[simp] theorem State.modAnvil_winForce (u : Nat) (x : AnvSt → AnvSt) : (s.modAnvil u x).winForce = s.winForce := rfl
@[simp] theorem State.modAnvil_pairBar (u : Nat) (x : AnvSt → AnvSt) : (s.modAnvil u x).pairBar = s.pairBar := rfl
@[simp] theorem State.modAnvil_winStarts (u : Nat) (x : AnvSt → AnvSt) : (s.modAnvil u x).winStarts = s.winStarts := rfl
@[simp] theorem State.modAnvil_winClosed (u : Nat) (x : AnvSt → AnvSt) : (s.modAnvil u x).winClosed = s.winClosed := rfl
@[simp] theorem State.modAnvil_assigns (u : Nat) (x : AnvSt → AnvSt) : (s.modAnvil u x).assigns = s.assigns := rfl
@[simp] theorem State.modAnvil_incs (u : Nat) (x : AnvSt → AnvSt) : (s.modAnvil u x).incs = s.incs := rfl
@[simp] theorem State.modAnvil_chans (u : Nat) (x : AnvSt → AnvSt) : (s.modAnvil u x).chans = s.chans := rfl
@[simp] theorem State.modAnvil_intake (u : Nat) (x : AnvSt → AnvSt) : (s.modAnvil u x).intake = s.intake := rfl
@[simp] theorem State.modAnvil_ftab (u : Nat) (x : AnvSt → AnvSt) : (s.modAnvil u x).ftab = s.ftab := rfl
@[simp] theorem State.modAnvil_waiting (u : Nat) (x : AnvSt → AnvSt) : (s.modAnvil u x).waiting = s.waiting := rfl
@[simp] theorem State.modAnvil_moder (u : Nat) (x : AnvSt → AnvSt) : (s.modAnvil u x).moder = s.moder := rfl
@[simp] theorem State.modAnvil_emb (u : Nat) (x : AnvSt → AnvSt) : (s.modAnvil u x).emb = s.emb := rfl
@[simp] theorem State.modAnvil_embForce (u : Nat) (x : AnvSt → AnvSt) : (s.modAnvil u x).embForce = s.embForce := rfl
@[simp] theorem State.modAnvil_quench (u : Nat) (x : AnvSt → AnvSt) : (s.modAnvil u x).quench = s.quench := rfl
@[simp] theorem State.modAnvil_cmp (u : Nat) (x : AnvSt → AnvSt) : (s.modAnvil u x).cmp = s.cmp := rfl
@[simp] theorem State.modAnvil_captures (u : Nat) (x : AnvSt → AnvSt) : (s.modAnvil u x).captures = s.captures := rfl
@[simp] theorem State.modAnvil_ageDue (u : Nat) (x : AnvSt → AnvSt) : (s.modAnvil u x).ageDue = s.ageDue := rfl
@[simp] theorem State.modAnvil_stageEnd (u : Nat) (x : AnvSt → AnvSt) : (s.modAnvil u x).stageEnd = s.stageEnd := rfl
@[simp] theorem State.modAnvil_lateSeen (u : Nat) (x : AnvSt → AnvSt) : (s.modAnvil u x).lateSeen = s.lateSeen := rfl
@[simp] theorem State.modAnvil_time (u : Nat) (x : AnvSt → AnvSt) : (s.modAnvil u x).time = s.time := rfl
@[simp] theorem State.modAnvil_links (u : Nat) (x : AnvSt → AnvSt) : (s.modAnvil u x).links = s.links := rfl
@[simp] theorem State.modAnvil_reasm (u : Nat) (x : AnvSt → AnvSt) : (s.modAnvil u x).reasm = s.reasm := rfl
@[simp] theorem State.modAnvil_tenants (u : Nat) (x : AnvSt → AnvSt) : (s.modAnvil u x).tenants = s.tenants := rfl
@[simp] theorem State.modAnvil_depotUp (u : Nat) (x : AnvSt → AnvSt) : (s.modAnvil u x).depotUp = s.depotUp := rfl
@[simp] theorem State.modAnvil_msix (u : Nat) (x : AnvSt → AnvSt) : (s.modAnvil u x).msix = s.msix := rfl
@[simp] theorem State.modAnvil_draining (u : Nat) (x : AnvSt → AnvSt) : (s.modAnvil u x).draining = s.draining := rfl
@[simp] theorem State.modAnvil_anchors (u : Nat) (x : AnvSt → AnvSt) : (s.modAnvil u x).anchors = s.anchors := rfl
@[simp] theorem State.modAnvil_hearth (u : Nat) (x : AnvSt → AnvSt) : (s.modAnvil u x).hearth = s.hearth := rfl
@[simp] theorem State.modAnvil_recover (u : Nat) (x : AnvSt → AnvSt) : (s.modAnvil u x).recover = s.recover := rfl
@[simp] theorem State.modAnvil_boot (u : Nat) (x : AnvSt → AnvSt) : (s.modAnvil u x).boot = s.boot := rfl
@[simp] theorem State.modAnvil_modes (u : Nat) (x : AnvSt → AnvSt) : (s.modAnvil u x).modes = s.modes := rfl
@[simp] theorem State.modAnvil_canRx (u : Nat) (x : AnvSt → AnvSt) : (s.modAnvil u x).canRx = s.canRx := rfl
@[simp] theorem State.modAnvil_ethRx (u : Nat) (x : AnvSt → AnvSt) : (s.modAnvil u x).ethRx = s.ethRx := rfl
@[simp] theorem State.modAnvil_timers (u : Nat) (x : AnvSt → AnvSt) : (s.modAnvil u x).timers = s.timers := rfl
@[simp] theorem State.modAnvil_out (u : Nat) (x : AnvSt → AnvSt) : (s.modAnvil u x).out = s.out := rfl
@[simp] theorem State.modAnvil_freeCtr (u : Nat) (x : AnvSt → AnvSt) : (s.modAnvil u x).freeCtr = s.freeCtr := rfl

/-! ### setChan -/

@[simp] theorem State.setChan_pending (n : Nat) (x : ChanSt) : (s.setChan n x).pending = s.pending := rfl
@[simp] theorem State.setChan_regs (n : Nat) (x : ChanSt) : (s.setChan n x).regs = s.regs := rfl
@[simp] theorem State.setChan_heldLo (n : Nat) (x : ChanSt) : (s.setChan n x).heldLo = s.heldLo := rfl
@[simp] theorem State.setChan_capHi (n : Nat) (x : ChanSt) : (s.setChan n x).capHi = s.capHi := rfl
@[simp] theorem State.setChan_heldWrites (n : Nat) (x : ChanSt) : (s.setChan n x).heldWrites = s.heldWrites := rfl
@[simp] theorem State.setChan_mem (n : Nat) (x : ChanSt) : (s.setChan n x).mem = s.mem := rfl
@[simp] theorem State.setChan_poison (n : Nat) (x : ChanSt) : (s.setChan n x).poison = s.poison := rfl
@[simp] theorem State.setChan_damage (n : Nat) (x : ChanSt) : (s.setChan n x).damage = s.damage := rfl
@[simp] theorem State.setChan_arms (n : Nat) (x : ChanSt) : (s.setChan n x).arms = s.arms := rfl
@[simp] theorem State.setChan_mram (n : Nat) (x : ChanSt) : (s.setChan n x).mram = s.mram := rfl
@[simp] theorem State.setChan_now (n : Nat) (x : ChanSt) : (s.setChan n x).now = s.now := rfl
@[simp] theorem State.setChan_sensors (n : Nat) (x : ChanSt) : (s.setChan n x).sensors = s.sensors := rfl
@[simp] theorem State.setChan_hicLevel (n : Nat) (x : ChanSt) : (s.setChan n x).hicLevel = s.hicLevel := rfl
@[simp] theorem State.setChan_hicClaimer (n : Nat) (x : ChanSt) : (s.setChan n x).hicClaimer = s.hicClaimer := rfl
@[simp] theorem State.setChan_logTimes (n : Nat) (x : ChanSt) : (s.setChan n x).logTimes = s.logTimes := rfl
@[simp] theorem State.setChan_firstAt (n : Nat) (x : ChanSt) : (s.setChan n x).firstAt = s.firstAt := rfl
@[simp] theorem State.setChan_logSeq (n : Nat) (x : ChanSt) : (s.setChan n x).logSeq = s.logSeq := rfl
@[simp] theorem State.setChan_snap (n : Nat) (x : ChanSt) : (s.setChan n x).snap = s.snap := rfl
@[simp] theorem State.setChan_evr (n : Nat) (x : ChanSt) : (s.setChan n x).evr = s.evr := rfl
@[simp] theorem State.setChan_golden (n : Nat) (x : ChanSt) : (s.setChan n x).golden = s.golden := rfl
@[simp] theorem State.setChan_poolGiB (n : Nat) (x : ChanSt) : (s.setChan n x).poolGiB = s.poolGiB := rfl
@[simp] theorem State.setChan_fm (n : Nat) (x : ChanSt) : (s.setChan n x).fm = s.fm := rfl
@[simp] theorem State.setChan_units (n : Nat) (x : ChanSt) : (s.setChan n x).units = s.units := rfl
@[simp] theorem State.setChan_models (n : Nat) (x : ChanSt) : (s.setChan n x).models = s.models := rfl
@[simp] theorem State.setChan_serials (n : Nat) (x : ChanSt) : (s.setChan n x).serials = s.serials := rfl
@[simp] theorem State.setChan_jobs (n : Nat) (x : ChanSt) : (s.setChan n x).jobs = s.jobs := rfl
@[simp] theorem State.setChan_jobSeq (n : Nat) (x : ChanSt) : (s.setChan n x).jobSeq = s.jobSeq := rfl
@[simp] theorem State.setChan_rrCtx (n : Nat) (x : ChanSt) : (s.setChan n x).rrCtx = s.rrCtx := rfl
@[simp] theorem State.setChan_rrRing (n : Nat) (x : ChanSt) : (s.setChan n x).rrRing = s.rrRing := rfl
@[simp] theorem State.setChan_winForce (n : Nat) (x : ChanSt) : (s.setChan n x).winForce = s.winForce := rfl
@[simp] theorem State.setChan_pairBar (n : Nat) (x : ChanSt) : (s.setChan n x).pairBar = s.pairBar := rfl
@[simp] theorem State.setChan_winStarts (n : Nat) (x : ChanSt) : (s.setChan n x).winStarts = s.winStarts := rfl
@[simp] theorem State.setChan_winClosed (n : Nat) (x : ChanSt) : (s.setChan n x).winClosed = s.winClosed := rfl
@[simp] theorem State.setChan_assigns (n : Nat) (x : ChanSt) : (s.setChan n x).assigns = s.assigns := rfl
@[simp] theorem State.setChan_incs (n : Nat) (x : ChanSt) : (s.setChan n x).incs = s.incs := rfl
@[simp] theorem State.setChan_intake (n : Nat) (x : ChanSt) : (s.setChan n x).intake = s.intake := rfl
@[simp] theorem State.setChan_ftab (n : Nat) (x : ChanSt) : (s.setChan n x).ftab = s.ftab := rfl
@[simp] theorem State.setChan_waiting (n : Nat) (x : ChanSt) : (s.setChan n x).waiting = s.waiting := rfl
@[simp] theorem State.setChan_moder (n : Nat) (x : ChanSt) : (s.setChan n x).moder = s.moder := rfl
@[simp] theorem State.setChan_emb (n : Nat) (x : ChanSt) : (s.setChan n x).emb = s.emb := rfl
@[simp] theorem State.setChan_embForce (n : Nat) (x : ChanSt) : (s.setChan n x).embForce = s.embForce := rfl
@[simp] theorem State.setChan_quench (n : Nat) (x : ChanSt) : (s.setChan n x).quench = s.quench := rfl
@[simp] theorem State.setChan_anvils (n : Nat) (x : ChanSt) : (s.setChan n x).anvils = s.anvils := rfl
@[simp] theorem State.setChan_cmp (n : Nat) (x : ChanSt) : (s.setChan n x).cmp = s.cmp := rfl
@[simp] theorem State.setChan_captures (n : Nat) (x : ChanSt) : (s.setChan n x).captures = s.captures := rfl
@[simp] theorem State.setChan_ageDue (n : Nat) (x : ChanSt) : (s.setChan n x).ageDue = s.ageDue := rfl
@[simp] theorem State.setChan_stageEnd (n : Nat) (x : ChanSt) : (s.setChan n x).stageEnd = s.stageEnd := rfl
@[simp] theorem State.setChan_lateSeen (n : Nat) (x : ChanSt) : (s.setChan n x).lateSeen = s.lateSeen := rfl
@[simp] theorem State.setChan_time (n : Nat) (x : ChanSt) : (s.setChan n x).time = s.time := rfl
@[simp] theorem State.setChan_links (n : Nat) (x : ChanSt) : (s.setChan n x).links = s.links := rfl
@[simp] theorem State.setChan_reasm (n : Nat) (x : ChanSt) : (s.setChan n x).reasm = s.reasm := rfl
@[simp] theorem State.setChan_tenants (n : Nat) (x : ChanSt) : (s.setChan n x).tenants = s.tenants := rfl
@[simp] theorem State.setChan_depotUp (n : Nat) (x : ChanSt) : (s.setChan n x).depotUp = s.depotUp := rfl
@[simp] theorem State.setChan_msix (n : Nat) (x : ChanSt) : (s.setChan n x).msix = s.msix := rfl
@[simp] theorem State.setChan_draining (n : Nat) (x : ChanSt) : (s.setChan n x).draining = s.draining := rfl
@[simp] theorem State.setChan_anchors (n : Nat) (x : ChanSt) : (s.setChan n x).anchors = s.anchors := rfl
@[simp] theorem State.setChan_hearth (n : Nat) (x : ChanSt) : (s.setChan n x).hearth = s.hearth := rfl
@[simp] theorem State.setChan_recover (n : Nat) (x : ChanSt) : (s.setChan n x).recover = s.recover := rfl
@[simp] theorem State.setChan_boot (n : Nat) (x : ChanSt) : (s.setChan n x).boot = s.boot := rfl
@[simp] theorem State.setChan_modes (n : Nat) (x : ChanSt) : (s.setChan n x).modes = s.modes := rfl
@[simp] theorem State.setChan_canRx (n : Nat) (x : ChanSt) : (s.setChan n x).canRx = s.canRx := rfl
@[simp] theorem State.setChan_ethRx (n : Nat) (x : ChanSt) : (s.setChan n x).ethRx = s.ethRx := rfl
@[simp] theorem State.setChan_timers (n : Nat) (x : ChanSt) : (s.setChan n x).timers = s.timers := rfl
@[simp] theorem State.setChan_out (n : Nat) (x : ChanSt) : (s.setChan n x).out = s.out := rfl
@[simp] theorem State.setChan_freeCtr (n : Nat) (x : ChanSt) : (s.setChan n x).freeCtr = s.freeCtr := rfl

/-! ### modStream -/

@[simp] theorem State.modStream_pending (n : Nat) (x : IntakeSt → IntakeSt) : (s.modStream n x).pending = s.pending := rfl
@[simp] theorem State.modStream_regs (n : Nat) (x : IntakeSt → IntakeSt) : (s.modStream n x).regs = s.regs := rfl
@[simp] theorem State.modStream_heldLo (n : Nat) (x : IntakeSt → IntakeSt) : (s.modStream n x).heldLo = s.heldLo := rfl
@[simp] theorem State.modStream_capHi (n : Nat) (x : IntakeSt → IntakeSt) : (s.modStream n x).capHi = s.capHi := rfl
@[simp] theorem State.modStream_heldWrites (n : Nat) (x : IntakeSt → IntakeSt) : (s.modStream n x).heldWrites = s.heldWrites := rfl
@[simp] theorem State.modStream_mem (n : Nat) (x : IntakeSt → IntakeSt) : (s.modStream n x).mem = s.mem := rfl
@[simp] theorem State.modStream_poison (n : Nat) (x : IntakeSt → IntakeSt) : (s.modStream n x).poison = s.poison := rfl
@[simp] theorem State.modStream_damage (n : Nat) (x : IntakeSt → IntakeSt) : (s.modStream n x).damage = s.damage := rfl
@[simp] theorem State.modStream_arms (n : Nat) (x : IntakeSt → IntakeSt) : (s.modStream n x).arms = s.arms := rfl
@[simp] theorem State.modStream_mram (n : Nat) (x : IntakeSt → IntakeSt) : (s.modStream n x).mram = s.mram := rfl
@[simp] theorem State.modStream_now (n : Nat) (x : IntakeSt → IntakeSt) : (s.modStream n x).now = s.now := rfl
@[simp] theorem State.modStream_sensors (n : Nat) (x : IntakeSt → IntakeSt) : (s.modStream n x).sensors = s.sensors := rfl
@[simp] theorem State.modStream_hicLevel (n : Nat) (x : IntakeSt → IntakeSt) : (s.modStream n x).hicLevel = s.hicLevel := rfl
@[simp] theorem State.modStream_hicClaimer (n : Nat) (x : IntakeSt → IntakeSt) : (s.modStream n x).hicClaimer = s.hicClaimer := rfl
@[simp] theorem State.modStream_logTimes (n : Nat) (x : IntakeSt → IntakeSt) : (s.modStream n x).logTimes = s.logTimes := rfl
@[simp] theorem State.modStream_firstAt (n : Nat) (x : IntakeSt → IntakeSt) : (s.modStream n x).firstAt = s.firstAt := rfl
@[simp] theorem State.modStream_logSeq (n : Nat) (x : IntakeSt → IntakeSt) : (s.modStream n x).logSeq = s.logSeq := rfl
@[simp] theorem State.modStream_snap (n : Nat) (x : IntakeSt → IntakeSt) : (s.modStream n x).snap = s.snap := rfl
@[simp] theorem State.modStream_evr (n : Nat) (x : IntakeSt → IntakeSt) : (s.modStream n x).evr = s.evr := rfl
@[simp] theorem State.modStream_golden (n : Nat) (x : IntakeSt → IntakeSt) : (s.modStream n x).golden = s.golden := rfl
@[simp] theorem State.modStream_poolGiB (n : Nat) (x : IntakeSt → IntakeSt) : (s.modStream n x).poolGiB = s.poolGiB := rfl
@[simp] theorem State.modStream_fm (n : Nat) (x : IntakeSt → IntakeSt) : (s.modStream n x).fm = s.fm := rfl
@[simp] theorem State.modStream_units (n : Nat) (x : IntakeSt → IntakeSt) : (s.modStream n x).units = s.units := rfl
@[simp] theorem State.modStream_models (n : Nat) (x : IntakeSt → IntakeSt) : (s.modStream n x).models = s.models := rfl
@[simp] theorem State.modStream_serials (n : Nat) (x : IntakeSt → IntakeSt) : (s.modStream n x).serials = s.serials := rfl
@[simp] theorem State.modStream_jobs (n : Nat) (x : IntakeSt → IntakeSt) : (s.modStream n x).jobs = s.jobs := rfl
@[simp] theorem State.modStream_jobSeq (n : Nat) (x : IntakeSt → IntakeSt) : (s.modStream n x).jobSeq = s.jobSeq := rfl
@[simp] theorem State.modStream_rrCtx (n : Nat) (x : IntakeSt → IntakeSt) : (s.modStream n x).rrCtx = s.rrCtx := rfl
@[simp] theorem State.modStream_rrRing (n : Nat) (x : IntakeSt → IntakeSt) : (s.modStream n x).rrRing = s.rrRing := rfl
@[simp] theorem State.modStream_winForce (n : Nat) (x : IntakeSt → IntakeSt) : (s.modStream n x).winForce = s.winForce := rfl
@[simp] theorem State.modStream_pairBar (n : Nat) (x : IntakeSt → IntakeSt) : (s.modStream n x).pairBar = s.pairBar := rfl
@[simp] theorem State.modStream_winStarts (n : Nat) (x : IntakeSt → IntakeSt) : (s.modStream n x).winStarts = s.winStarts := rfl
@[simp] theorem State.modStream_winClosed (n : Nat) (x : IntakeSt → IntakeSt) : (s.modStream n x).winClosed = s.winClosed := rfl
@[simp] theorem State.modStream_assigns (n : Nat) (x : IntakeSt → IntakeSt) : (s.modStream n x).assigns = s.assigns := rfl
@[simp] theorem State.modStream_incs (n : Nat) (x : IntakeSt → IntakeSt) : (s.modStream n x).incs = s.incs := rfl
@[simp] theorem State.modStream_chans (n : Nat) (x : IntakeSt → IntakeSt) : (s.modStream n x).chans = s.chans := rfl
@[simp] theorem State.modStream_ftab (n : Nat) (x : IntakeSt → IntakeSt) : (s.modStream n x).ftab = s.ftab := rfl
@[simp] theorem State.modStream_waiting (n : Nat) (x : IntakeSt → IntakeSt) : (s.modStream n x).waiting = s.waiting := rfl
@[simp] theorem State.modStream_moder (n : Nat) (x : IntakeSt → IntakeSt) : (s.modStream n x).moder = s.moder := rfl
@[simp] theorem State.modStream_emb (n : Nat) (x : IntakeSt → IntakeSt) : (s.modStream n x).emb = s.emb := rfl
@[simp] theorem State.modStream_embForce (n : Nat) (x : IntakeSt → IntakeSt) : (s.modStream n x).embForce = s.embForce := rfl
@[simp] theorem State.modStream_quench (n : Nat) (x : IntakeSt → IntakeSt) : (s.modStream n x).quench = s.quench := rfl
@[simp] theorem State.modStream_anvils (n : Nat) (x : IntakeSt → IntakeSt) : (s.modStream n x).anvils = s.anvils := rfl
@[simp] theorem State.modStream_cmp (n : Nat) (x : IntakeSt → IntakeSt) : (s.modStream n x).cmp = s.cmp := rfl
@[simp] theorem State.modStream_captures (n : Nat) (x : IntakeSt → IntakeSt) : (s.modStream n x).captures = s.captures := rfl
@[simp] theorem State.modStream_ageDue (n : Nat) (x : IntakeSt → IntakeSt) : (s.modStream n x).ageDue = s.ageDue := rfl
@[simp] theorem State.modStream_stageEnd (n : Nat) (x : IntakeSt → IntakeSt) : (s.modStream n x).stageEnd = s.stageEnd := rfl
@[simp] theorem State.modStream_lateSeen (n : Nat) (x : IntakeSt → IntakeSt) : (s.modStream n x).lateSeen = s.lateSeen := rfl
@[simp] theorem State.modStream_time (n : Nat) (x : IntakeSt → IntakeSt) : (s.modStream n x).time = s.time := rfl
@[simp] theorem State.modStream_links (n : Nat) (x : IntakeSt → IntakeSt) : (s.modStream n x).links = s.links := rfl
@[simp] theorem State.modStream_reasm (n : Nat) (x : IntakeSt → IntakeSt) : (s.modStream n x).reasm = s.reasm := rfl
@[simp] theorem State.modStream_tenants (n : Nat) (x : IntakeSt → IntakeSt) : (s.modStream n x).tenants = s.tenants := rfl
@[simp] theorem State.modStream_depotUp (n : Nat) (x : IntakeSt → IntakeSt) : (s.modStream n x).depotUp = s.depotUp := rfl
@[simp] theorem State.modStream_msix (n : Nat) (x : IntakeSt → IntakeSt) : (s.modStream n x).msix = s.msix := rfl
@[simp] theorem State.modStream_draining (n : Nat) (x : IntakeSt → IntakeSt) : (s.modStream n x).draining = s.draining := rfl
@[simp] theorem State.modStream_anchors (n : Nat) (x : IntakeSt → IntakeSt) : (s.modStream n x).anchors = s.anchors := rfl
@[simp] theorem State.modStream_hearth (n : Nat) (x : IntakeSt → IntakeSt) : (s.modStream n x).hearth = s.hearth := rfl
@[simp] theorem State.modStream_recover (n : Nat) (x : IntakeSt → IntakeSt) : (s.modStream n x).recover = s.recover := rfl
@[simp] theorem State.modStream_boot (n : Nat) (x : IntakeSt → IntakeSt) : (s.modStream n x).boot = s.boot := rfl
@[simp] theorem State.modStream_modes (n : Nat) (x : IntakeSt → IntakeSt) : (s.modStream n x).modes = s.modes := rfl
@[simp] theorem State.modStream_canRx (n : Nat) (x : IntakeSt → IntakeSt) : (s.modStream n x).canRx = s.canRx := rfl
@[simp] theorem State.modStream_ethRx (n : Nat) (x : IntakeSt → IntakeSt) : (s.modStream n x).ethRx = s.ethRx := rfl
@[simp] theorem State.modStream_timers (n : Nat) (x : IntakeSt → IntakeSt) : (s.modStream n x).timers = s.timers := rfl
@[simp] theorem State.modStream_out (n : Nat) (x : IntakeSt → IntakeSt) : (s.modStream n x).out = s.out := rfl
@[simp] theorem State.modStream_freeCtr (n : Nat) (x : IntakeSt → IntakeSt) : (s.modStream n x).freeCtr = s.freeCtr := rfl

/-! ### modTime -/

@[simp] theorem State.modTime_pending (x : TimeSt → TimeSt) : (s.modTime x).pending = s.pending := rfl
@[simp] theorem State.modTime_regs (x : TimeSt → TimeSt) : (s.modTime x).regs = s.regs := rfl
@[simp] theorem State.modTime_heldLo (x : TimeSt → TimeSt) : (s.modTime x).heldLo = s.heldLo := rfl
@[simp] theorem State.modTime_capHi (x : TimeSt → TimeSt) : (s.modTime x).capHi = s.capHi := rfl
@[simp] theorem State.modTime_heldWrites (x : TimeSt → TimeSt) : (s.modTime x).heldWrites = s.heldWrites := rfl
@[simp] theorem State.modTime_mem (x : TimeSt → TimeSt) : (s.modTime x).mem = s.mem := rfl
@[simp] theorem State.modTime_poison (x : TimeSt → TimeSt) : (s.modTime x).poison = s.poison := rfl
@[simp] theorem State.modTime_damage (x : TimeSt → TimeSt) : (s.modTime x).damage = s.damage := rfl
@[simp] theorem State.modTime_arms (x : TimeSt → TimeSt) : (s.modTime x).arms = s.arms := rfl
@[simp] theorem State.modTime_mram (x : TimeSt → TimeSt) : (s.modTime x).mram = s.mram := rfl
@[simp] theorem State.modTime_now (x : TimeSt → TimeSt) : (s.modTime x).now = s.now := rfl
@[simp] theorem State.modTime_sensors (x : TimeSt → TimeSt) : (s.modTime x).sensors = s.sensors := rfl
@[simp] theorem State.modTime_hicLevel (x : TimeSt → TimeSt) : (s.modTime x).hicLevel = s.hicLevel := rfl
@[simp] theorem State.modTime_hicClaimer (x : TimeSt → TimeSt) : (s.modTime x).hicClaimer = s.hicClaimer := rfl
@[simp] theorem State.modTime_logTimes (x : TimeSt → TimeSt) : (s.modTime x).logTimes = s.logTimes := rfl
@[simp] theorem State.modTime_firstAt (x : TimeSt → TimeSt) : (s.modTime x).firstAt = s.firstAt := rfl
@[simp] theorem State.modTime_logSeq (x : TimeSt → TimeSt) : (s.modTime x).logSeq = s.logSeq := rfl
@[simp] theorem State.modTime_snap (x : TimeSt → TimeSt) : (s.modTime x).snap = s.snap := rfl
@[simp] theorem State.modTime_evr (x : TimeSt → TimeSt) : (s.modTime x).evr = s.evr := rfl
@[simp] theorem State.modTime_golden (x : TimeSt → TimeSt) : (s.modTime x).golden = s.golden := rfl
@[simp] theorem State.modTime_poolGiB (x : TimeSt → TimeSt) : (s.modTime x).poolGiB = s.poolGiB := rfl
@[simp] theorem State.modTime_fm (x : TimeSt → TimeSt) : (s.modTime x).fm = s.fm := rfl
@[simp] theorem State.modTime_units (x : TimeSt → TimeSt) : (s.modTime x).units = s.units := rfl
@[simp] theorem State.modTime_models (x : TimeSt → TimeSt) : (s.modTime x).models = s.models := rfl
@[simp] theorem State.modTime_serials (x : TimeSt → TimeSt) : (s.modTime x).serials = s.serials := rfl
@[simp] theorem State.modTime_jobs (x : TimeSt → TimeSt) : (s.modTime x).jobs = s.jobs := rfl
@[simp] theorem State.modTime_jobSeq (x : TimeSt → TimeSt) : (s.modTime x).jobSeq = s.jobSeq := rfl
@[simp] theorem State.modTime_rrCtx (x : TimeSt → TimeSt) : (s.modTime x).rrCtx = s.rrCtx := rfl
@[simp] theorem State.modTime_rrRing (x : TimeSt → TimeSt) : (s.modTime x).rrRing = s.rrRing := rfl
@[simp] theorem State.modTime_winForce (x : TimeSt → TimeSt) : (s.modTime x).winForce = s.winForce := rfl
@[simp] theorem State.modTime_pairBar (x : TimeSt → TimeSt) : (s.modTime x).pairBar = s.pairBar := rfl
@[simp] theorem State.modTime_winStarts (x : TimeSt → TimeSt) : (s.modTime x).winStarts = s.winStarts := rfl
@[simp] theorem State.modTime_winClosed (x : TimeSt → TimeSt) : (s.modTime x).winClosed = s.winClosed := rfl
@[simp] theorem State.modTime_assigns (x : TimeSt → TimeSt) : (s.modTime x).assigns = s.assigns := rfl
@[simp] theorem State.modTime_incs (x : TimeSt → TimeSt) : (s.modTime x).incs = s.incs := rfl
@[simp] theorem State.modTime_chans (x : TimeSt → TimeSt) : (s.modTime x).chans = s.chans := rfl
@[simp] theorem State.modTime_intake (x : TimeSt → TimeSt) : (s.modTime x).intake = s.intake := rfl
@[simp] theorem State.modTime_ftab (x : TimeSt → TimeSt) : (s.modTime x).ftab = s.ftab := rfl
@[simp] theorem State.modTime_waiting (x : TimeSt → TimeSt) : (s.modTime x).waiting = s.waiting := rfl
@[simp] theorem State.modTime_moder (x : TimeSt → TimeSt) : (s.modTime x).moder = s.moder := rfl
@[simp] theorem State.modTime_emb (x : TimeSt → TimeSt) : (s.modTime x).emb = s.emb := rfl
@[simp] theorem State.modTime_embForce (x : TimeSt → TimeSt) : (s.modTime x).embForce = s.embForce := rfl
@[simp] theorem State.modTime_quench (x : TimeSt → TimeSt) : (s.modTime x).quench = s.quench := rfl
@[simp] theorem State.modTime_anvils (x : TimeSt → TimeSt) : (s.modTime x).anvils = s.anvils := rfl
@[simp] theorem State.modTime_cmp (x : TimeSt → TimeSt) : (s.modTime x).cmp = s.cmp := rfl
@[simp] theorem State.modTime_captures (x : TimeSt → TimeSt) : (s.modTime x).captures = s.captures := rfl
@[simp] theorem State.modTime_ageDue (x : TimeSt → TimeSt) : (s.modTime x).ageDue = s.ageDue := rfl
@[simp] theorem State.modTime_stageEnd (x : TimeSt → TimeSt) : (s.modTime x).stageEnd = s.stageEnd := rfl
@[simp] theorem State.modTime_lateSeen (x : TimeSt → TimeSt) : (s.modTime x).lateSeen = s.lateSeen := rfl
@[simp] theorem State.modTime_links (x : TimeSt → TimeSt) : (s.modTime x).links = s.links := rfl
@[simp] theorem State.modTime_reasm (x : TimeSt → TimeSt) : (s.modTime x).reasm = s.reasm := rfl
@[simp] theorem State.modTime_tenants (x : TimeSt → TimeSt) : (s.modTime x).tenants = s.tenants := rfl
@[simp] theorem State.modTime_depotUp (x : TimeSt → TimeSt) : (s.modTime x).depotUp = s.depotUp := rfl
@[simp] theorem State.modTime_msix (x : TimeSt → TimeSt) : (s.modTime x).msix = s.msix := rfl
@[simp] theorem State.modTime_draining (x : TimeSt → TimeSt) : (s.modTime x).draining = s.draining := rfl
@[simp] theorem State.modTime_anchors (x : TimeSt → TimeSt) : (s.modTime x).anchors = s.anchors := rfl
@[simp] theorem State.modTime_hearth (x : TimeSt → TimeSt) : (s.modTime x).hearth = s.hearth := rfl
@[simp] theorem State.modTime_recover (x : TimeSt → TimeSt) : (s.modTime x).recover = s.recover := rfl
@[simp] theorem State.modTime_boot (x : TimeSt → TimeSt) : (s.modTime x).boot = s.boot := rfl
@[simp] theorem State.modTime_modes (x : TimeSt → TimeSt) : (s.modTime x).modes = s.modes := rfl
@[simp] theorem State.modTime_canRx (x : TimeSt → TimeSt) : (s.modTime x).canRx = s.canRx := rfl
@[simp] theorem State.modTime_ethRx (x : TimeSt → TimeSt) : (s.modTime x).ethRx = s.ethRx := rfl
@[simp] theorem State.modTime_timers (x : TimeSt → TimeSt) : (s.modTime x).timers = s.timers := rfl
@[simp] theorem State.modTime_out (x : TimeSt → TimeSt) : (s.modTime x).out = s.out := rfl
@[simp] theorem State.modTime_freeCtr (x : TimeSt → TimeSt) : (s.modTime x).freeCtr = s.freeCtr := rfl

/-! ### setLink -/

@[simp] theorem State.setLink_pending (n : Nat) (x : LinkSt) : (s.setLink n x).pending = s.pending := rfl
@[simp] theorem State.setLink_regs (n : Nat) (x : LinkSt) : (s.setLink n x).regs = s.regs := rfl
@[simp] theorem State.setLink_heldLo (n : Nat) (x : LinkSt) : (s.setLink n x).heldLo = s.heldLo := rfl
@[simp] theorem State.setLink_capHi (n : Nat) (x : LinkSt) : (s.setLink n x).capHi = s.capHi := rfl
@[simp] theorem State.setLink_heldWrites (n : Nat) (x : LinkSt) : (s.setLink n x).heldWrites = s.heldWrites := rfl
@[simp] theorem State.setLink_mem (n : Nat) (x : LinkSt) : (s.setLink n x).mem = s.mem := rfl
@[simp] theorem State.setLink_poison (n : Nat) (x : LinkSt) : (s.setLink n x).poison = s.poison := rfl
@[simp] theorem State.setLink_damage (n : Nat) (x : LinkSt) : (s.setLink n x).damage = s.damage := rfl
@[simp] theorem State.setLink_arms (n : Nat) (x : LinkSt) : (s.setLink n x).arms = s.arms := rfl
@[simp] theorem State.setLink_mram (n : Nat) (x : LinkSt) : (s.setLink n x).mram = s.mram := rfl
@[simp] theorem State.setLink_now (n : Nat) (x : LinkSt) : (s.setLink n x).now = s.now := rfl
@[simp] theorem State.setLink_sensors (n : Nat) (x : LinkSt) : (s.setLink n x).sensors = s.sensors := rfl
@[simp] theorem State.setLink_hicLevel (n : Nat) (x : LinkSt) : (s.setLink n x).hicLevel = s.hicLevel := rfl
@[simp] theorem State.setLink_hicClaimer (n : Nat) (x : LinkSt) : (s.setLink n x).hicClaimer = s.hicClaimer := rfl
@[simp] theorem State.setLink_logTimes (n : Nat) (x : LinkSt) : (s.setLink n x).logTimes = s.logTimes := rfl
@[simp] theorem State.setLink_firstAt (n : Nat) (x : LinkSt) : (s.setLink n x).firstAt = s.firstAt := rfl
@[simp] theorem State.setLink_logSeq (n : Nat) (x : LinkSt) : (s.setLink n x).logSeq = s.logSeq := rfl
@[simp] theorem State.setLink_snap (n : Nat) (x : LinkSt) : (s.setLink n x).snap = s.snap := rfl
@[simp] theorem State.setLink_evr (n : Nat) (x : LinkSt) : (s.setLink n x).evr = s.evr := rfl
@[simp] theorem State.setLink_golden (n : Nat) (x : LinkSt) : (s.setLink n x).golden = s.golden := rfl
@[simp] theorem State.setLink_poolGiB (n : Nat) (x : LinkSt) : (s.setLink n x).poolGiB = s.poolGiB := rfl
@[simp] theorem State.setLink_fm (n : Nat) (x : LinkSt) : (s.setLink n x).fm = s.fm := rfl
@[simp] theorem State.setLink_units (n : Nat) (x : LinkSt) : (s.setLink n x).units = s.units := rfl
@[simp] theorem State.setLink_models (n : Nat) (x : LinkSt) : (s.setLink n x).models = s.models := rfl
@[simp] theorem State.setLink_serials (n : Nat) (x : LinkSt) : (s.setLink n x).serials = s.serials := rfl
@[simp] theorem State.setLink_jobs (n : Nat) (x : LinkSt) : (s.setLink n x).jobs = s.jobs := rfl
@[simp] theorem State.setLink_jobSeq (n : Nat) (x : LinkSt) : (s.setLink n x).jobSeq = s.jobSeq := rfl
@[simp] theorem State.setLink_rrCtx (n : Nat) (x : LinkSt) : (s.setLink n x).rrCtx = s.rrCtx := rfl
@[simp] theorem State.setLink_rrRing (n : Nat) (x : LinkSt) : (s.setLink n x).rrRing = s.rrRing := rfl
@[simp] theorem State.setLink_winForce (n : Nat) (x : LinkSt) : (s.setLink n x).winForce = s.winForce := rfl
@[simp] theorem State.setLink_pairBar (n : Nat) (x : LinkSt) : (s.setLink n x).pairBar = s.pairBar := rfl
@[simp] theorem State.setLink_winStarts (n : Nat) (x : LinkSt) : (s.setLink n x).winStarts = s.winStarts := rfl
@[simp] theorem State.setLink_winClosed (n : Nat) (x : LinkSt) : (s.setLink n x).winClosed = s.winClosed := rfl
@[simp] theorem State.setLink_assigns (n : Nat) (x : LinkSt) : (s.setLink n x).assigns = s.assigns := rfl
@[simp] theorem State.setLink_incs (n : Nat) (x : LinkSt) : (s.setLink n x).incs = s.incs := rfl
@[simp] theorem State.setLink_chans (n : Nat) (x : LinkSt) : (s.setLink n x).chans = s.chans := rfl
@[simp] theorem State.setLink_intake (n : Nat) (x : LinkSt) : (s.setLink n x).intake = s.intake := rfl
@[simp] theorem State.setLink_ftab (n : Nat) (x : LinkSt) : (s.setLink n x).ftab = s.ftab := rfl
@[simp] theorem State.setLink_waiting (n : Nat) (x : LinkSt) : (s.setLink n x).waiting = s.waiting := rfl
@[simp] theorem State.setLink_moder (n : Nat) (x : LinkSt) : (s.setLink n x).moder = s.moder := rfl
@[simp] theorem State.setLink_emb (n : Nat) (x : LinkSt) : (s.setLink n x).emb = s.emb := rfl
@[simp] theorem State.setLink_embForce (n : Nat) (x : LinkSt) : (s.setLink n x).embForce = s.embForce := rfl
@[simp] theorem State.setLink_quench (n : Nat) (x : LinkSt) : (s.setLink n x).quench = s.quench := rfl
@[simp] theorem State.setLink_anvils (n : Nat) (x : LinkSt) : (s.setLink n x).anvils = s.anvils := rfl
@[simp] theorem State.setLink_cmp (n : Nat) (x : LinkSt) : (s.setLink n x).cmp = s.cmp := rfl
@[simp] theorem State.setLink_captures (n : Nat) (x : LinkSt) : (s.setLink n x).captures = s.captures := rfl
@[simp] theorem State.setLink_ageDue (n : Nat) (x : LinkSt) : (s.setLink n x).ageDue = s.ageDue := rfl
@[simp] theorem State.setLink_stageEnd (n : Nat) (x : LinkSt) : (s.setLink n x).stageEnd = s.stageEnd := rfl
@[simp] theorem State.setLink_lateSeen (n : Nat) (x : LinkSt) : (s.setLink n x).lateSeen = s.lateSeen := rfl
@[simp] theorem State.setLink_time (n : Nat) (x : LinkSt) : (s.setLink n x).time = s.time := rfl
@[simp] theorem State.setLink_reasm (n : Nat) (x : LinkSt) : (s.setLink n x).reasm = s.reasm := rfl
@[simp] theorem State.setLink_tenants (n : Nat) (x : LinkSt) : (s.setLink n x).tenants = s.tenants := rfl
@[simp] theorem State.setLink_depotUp (n : Nat) (x : LinkSt) : (s.setLink n x).depotUp = s.depotUp := rfl
@[simp] theorem State.setLink_msix (n : Nat) (x : LinkSt) : (s.setLink n x).msix = s.msix := rfl
@[simp] theorem State.setLink_draining (n : Nat) (x : LinkSt) : (s.setLink n x).draining = s.draining := rfl
@[simp] theorem State.setLink_anchors (n : Nat) (x : LinkSt) : (s.setLink n x).anchors = s.anchors := rfl
@[simp] theorem State.setLink_hearth (n : Nat) (x : LinkSt) : (s.setLink n x).hearth = s.hearth := rfl
@[simp] theorem State.setLink_recover (n : Nat) (x : LinkSt) : (s.setLink n x).recover = s.recover := rfl
@[simp] theorem State.setLink_boot (n : Nat) (x : LinkSt) : (s.setLink n x).boot = s.boot := rfl
@[simp] theorem State.setLink_modes (n : Nat) (x : LinkSt) : (s.setLink n x).modes = s.modes := rfl
@[simp] theorem State.setLink_canRx (n : Nat) (x : LinkSt) : (s.setLink n x).canRx = s.canRx := rfl
@[simp] theorem State.setLink_ethRx (n : Nat) (x : LinkSt) : (s.setLink n x).ethRx = s.ethRx := rfl
@[simp] theorem State.setLink_timers (n : Nat) (x : LinkSt) : (s.setLink n x).timers = s.timers := rfl
@[simp] theorem State.setLink_out (n : Nat) (x : LinkSt) : (s.setLink n x).out = s.out := rfl
@[simp] theorem State.setLink_freeCtr (n : Nat) (x : LinkSt) : (s.setLink n x).freeCtr = s.freeCtr := rfl

/-! ### modLink -/

@[simp] theorem State.modLink_pending (n : Nat) (x : LinkSt → LinkSt) : (s.modLink n x).pending = s.pending := rfl
@[simp] theorem State.modLink_regs (n : Nat) (x : LinkSt → LinkSt) : (s.modLink n x).regs = s.regs := rfl
@[simp] theorem State.modLink_heldLo (n : Nat) (x : LinkSt → LinkSt) : (s.modLink n x).heldLo = s.heldLo := rfl
@[simp] theorem State.modLink_capHi (n : Nat) (x : LinkSt → LinkSt) : (s.modLink n x).capHi = s.capHi := rfl
@[simp] theorem State.modLink_heldWrites (n : Nat) (x : LinkSt → LinkSt) : (s.modLink n x).heldWrites = s.heldWrites := rfl
@[simp] theorem State.modLink_mem (n : Nat) (x : LinkSt → LinkSt) : (s.modLink n x).mem = s.mem := rfl
@[simp] theorem State.modLink_poison (n : Nat) (x : LinkSt → LinkSt) : (s.modLink n x).poison = s.poison := rfl
@[simp] theorem State.modLink_damage (n : Nat) (x : LinkSt → LinkSt) : (s.modLink n x).damage = s.damage := rfl
@[simp] theorem State.modLink_arms (n : Nat) (x : LinkSt → LinkSt) : (s.modLink n x).arms = s.arms := rfl
@[simp] theorem State.modLink_mram (n : Nat) (x : LinkSt → LinkSt) : (s.modLink n x).mram = s.mram := rfl
@[simp] theorem State.modLink_now (n : Nat) (x : LinkSt → LinkSt) : (s.modLink n x).now = s.now := rfl
@[simp] theorem State.modLink_sensors (n : Nat) (x : LinkSt → LinkSt) : (s.modLink n x).sensors = s.sensors := rfl
@[simp] theorem State.modLink_hicLevel (n : Nat) (x : LinkSt → LinkSt) : (s.modLink n x).hicLevel = s.hicLevel := rfl
@[simp] theorem State.modLink_hicClaimer (n : Nat) (x : LinkSt → LinkSt) : (s.modLink n x).hicClaimer = s.hicClaimer := rfl
@[simp] theorem State.modLink_logTimes (n : Nat) (x : LinkSt → LinkSt) : (s.modLink n x).logTimes = s.logTimes := rfl
@[simp] theorem State.modLink_firstAt (n : Nat) (x : LinkSt → LinkSt) : (s.modLink n x).firstAt = s.firstAt := rfl
@[simp] theorem State.modLink_logSeq (n : Nat) (x : LinkSt → LinkSt) : (s.modLink n x).logSeq = s.logSeq := rfl
@[simp] theorem State.modLink_snap (n : Nat) (x : LinkSt → LinkSt) : (s.modLink n x).snap = s.snap := rfl
@[simp] theorem State.modLink_evr (n : Nat) (x : LinkSt → LinkSt) : (s.modLink n x).evr = s.evr := rfl
@[simp] theorem State.modLink_golden (n : Nat) (x : LinkSt → LinkSt) : (s.modLink n x).golden = s.golden := rfl
@[simp] theorem State.modLink_poolGiB (n : Nat) (x : LinkSt → LinkSt) : (s.modLink n x).poolGiB = s.poolGiB := rfl
@[simp] theorem State.modLink_fm (n : Nat) (x : LinkSt → LinkSt) : (s.modLink n x).fm = s.fm := rfl
@[simp] theorem State.modLink_units (n : Nat) (x : LinkSt → LinkSt) : (s.modLink n x).units = s.units := rfl
@[simp] theorem State.modLink_models (n : Nat) (x : LinkSt → LinkSt) : (s.modLink n x).models = s.models := rfl
@[simp] theorem State.modLink_serials (n : Nat) (x : LinkSt → LinkSt) : (s.modLink n x).serials = s.serials := rfl
@[simp] theorem State.modLink_jobs (n : Nat) (x : LinkSt → LinkSt) : (s.modLink n x).jobs = s.jobs := rfl
@[simp] theorem State.modLink_jobSeq (n : Nat) (x : LinkSt → LinkSt) : (s.modLink n x).jobSeq = s.jobSeq := rfl
@[simp] theorem State.modLink_rrCtx (n : Nat) (x : LinkSt → LinkSt) : (s.modLink n x).rrCtx = s.rrCtx := rfl
@[simp] theorem State.modLink_rrRing (n : Nat) (x : LinkSt → LinkSt) : (s.modLink n x).rrRing = s.rrRing := rfl
@[simp] theorem State.modLink_winForce (n : Nat) (x : LinkSt → LinkSt) : (s.modLink n x).winForce = s.winForce := rfl
@[simp] theorem State.modLink_pairBar (n : Nat) (x : LinkSt → LinkSt) : (s.modLink n x).pairBar = s.pairBar := rfl
@[simp] theorem State.modLink_winStarts (n : Nat) (x : LinkSt → LinkSt) : (s.modLink n x).winStarts = s.winStarts := rfl
@[simp] theorem State.modLink_winClosed (n : Nat) (x : LinkSt → LinkSt) : (s.modLink n x).winClosed = s.winClosed := rfl
@[simp] theorem State.modLink_assigns (n : Nat) (x : LinkSt → LinkSt) : (s.modLink n x).assigns = s.assigns := rfl
@[simp] theorem State.modLink_incs (n : Nat) (x : LinkSt → LinkSt) : (s.modLink n x).incs = s.incs := rfl
@[simp] theorem State.modLink_chans (n : Nat) (x : LinkSt → LinkSt) : (s.modLink n x).chans = s.chans := rfl
@[simp] theorem State.modLink_intake (n : Nat) (x : LinkSt → LinkSt) : (s.modLink n x).intake = s.intake := rfl
@[simp] theorem State.modLink_ftab (n : Nat) (x : LinkSt → LinkSt) : (s.modLink n x).ftab = s.ftab := rfl
@[simp] theorem State.modLink_waiting (n : Nat) (x : LinkSt → LinkSt) : (s.modLink n x).waiting = s.waiting := rfl
@[simp] theorem State.modLink_moder (n : Nat) (x : LinkSt → LinkSt) : (s.modLink n x).moder = s.moder := rfl
@[simp] theorem State.modLink_emb (n : Nat) (x : LinkSt → LinkSt) : (s.modLink n x).emb = s.emb := rfl
@[simp] theorem State.modLink_embForce (n : Nat) (x : LinkSt → LinkSt) : (s.modLink n x).embForce = s.embForce := rfl
@[simp] theorem State.modLink_quench (n : Nat) (x : LinkSt → LinkSt) : (s.modLink n x).quench = s.quench := rfl
@[simp] theorem State.modLink_anvils (n : Nat) (x : LinkSt → LinkSt) : (s.modLink n x).anvils = s.anvils := rfl
@[simp] theorem State.modLink_cmp (n : Nat) (x : LinkSt → LinkSt) : (s.modLink n x).cmp = s.cmp := rfl
@[simp] theorem State.modLink_captures (n : Nat) (x : LinkSt → LinkSt) : (s.modLink n x).captures = s.captures := rfl
@[simp] theorem State.modLink_ageDue (n : Nat) (x : LinkSt → LinkSt) : (s.modLink n x).ageDue = s.ageDue := rfl
@[simp] theorem State.modLink_stageEnd (n : Nat) (x : LinkSt → LinkSt) : (s.modLink n x).stageEnd = s.stageEnd := rfl
@[simp] theorem State.modLink_lateSeen (n : Nat) (x : LinkSt → LinkSt) : (s.modLink n x).lateSeen = s.lateSeen := rfl
@[simp] theorem State.modLink_time (n : Nat) (x : LinkSt → LinkSt) : (s.modLink n x).time = s.time := rfl
@[simp] theorem State.modLink_reasm (n : Nat) (x : LinkSt → LinkSt) : (s.modLink n x).reasm = s.reasm := rfl
@[simp] theorem State.modLink_tenants (n : Nat) (x : LinkSt → LinkSt) : (s.modLink n x).tenants = s.tenants := rfl
@[simp] theorem State.modLink_depotUp (n : Nat) (x : LinkSt → LinkSt) : (s.modLink n x).depotUp = s.depotUp := rfl
@[simp] theorem State.modLink_msix (n : Nat) (x : LinkSt → LinkSt) : (s.modLink n x).msix = s.msix := rfl
@[simp] theorem State.modLink_draining (n : Nat) (x : LinkSt → LinkSt) : (s.modLink n x).draining = s.draining := rfl
@[simp] theorem State.modLink_anchors (n : Nat) (x : LinkSt → LinkSt) : (s.modLink n x).anchors = s.anchors := rfl
@[simp] theorem State.modLink_hearth (n : Nat) (x : LinkSt → LinkSt) : (s.modLink n x).hearth = s.hearth := rfl
@[simp] theorem State.modLink_recover (n : Nat) (x : LinkSt → LinkSt) : (s.modLink n x).recover = s.recover := rfl
@[simp] theorem State.modLink_boot (n : Nat) (x : LinkSt → LinkSt) : (s.modLink n x).boot = s.boot := rfl
@[simp] theorem State.modLink_modes (n : Nat) (x : LinkSt → LinkSt) : (s.modLink n x).modes = s.modes := rfl
@[simp] theorem State.modLink_canRx (n : Nat) (x : LinkSt → LinkSt) : (s.modLink n x).canRx = s.canRx := rfl
@[simp] theorem State.modLink_ethRx (n : Nat) (x : LinkSt → LinkSt) : (s.modLink n x).ethRx = s.ethRx := rfl
@[simp] theorem State.modLink_timers (n : Nat) (x : LinkSt → LinkSt) : (s.modLink n x).timers = s.timers := rfl
@[simp] theorem State.modLink_out (n : Nat) (x : LinkSt → LinkSt) : (s.modLink n x).out = s.out := rfl
@[simp] theorem State.modLink_freeCtr (n : Nat) (x : LinkSt → LinkSt) : (s.modLink n x).freeCtr = s.freeCtr := rfl

/-! ### modTenant -/

@[simp] theorem State.modTenant_pending (n : Nat) (x : TenSt → TenSt) : (s.modTenant n x).pending = s.pending := rfl
@[simp] theorem State.modTenant_regs (n : Nat) (x : TenSt → TenSt) : (s.modTenant n x).regs = s.regs := rfl
@[simp] theorem State.modTenant_heldLo (n : Nat) (x : TenSt → TenSt) : (s.modTenant n x).heldLo = s.heldLo := rfl
@[simp] theorem State.modTenant_capHi (n : Nat) (x : TenSt → TenSt) : (s.modTenant n x).capHi = s.capHi := rfl
@[simp] theorem State.modTenant_heldWrites (n : Nat) (x : TenSt → TenSt) : (s.modTenant n x).heldWrites = s.heldWrites := rfl
@[simp] theorem State.modTenant_mem (n : Nat) (x : TenSt → TenSt) : (s.modTenant n x).mem = s.mem := rfl
@[simp] theorem State.modTenant_poison (n : Nat) (x : TenSt → TenSt) : (s.modTenant n x).poison = s.poison := rfl
@[simp] theorem State.modTenant_damage (n : Nat) (x : TenSt → TenSt) : (s.modTenant n x).damage = s.damage := rfl
@[simp] theorem State.modTenant_arms (n : Nat) (x : TenSt → TenSt) : (s.modTenant n x).arms = s.arms := rfl
@[simp] theorem State.modTenant_mram (n : Nat) (x : TenSt → TenSt) : (s.modTenant n x).mram = s.mram := rfl
@[simp] theorem State.modTenant_now (n : Nat) (x : TenSt → TenSt) : (s.modTenant n x).now = s.now := rfl
@[simp] theorem State.modTenant_sensors (n : Nat) (x : TenSt → TenSt) : (s.modTenant n x).sensors = s.sensors := rfl
@[simp] theorem State.modTenant_hicLevel (n : Nat) (x : TenSt → TenSt) : (s.modTenant n x).hicLevel = s.hicLevel := rfl
@[simp] theorem State.modTenant_hicClaimer (n : Nat) (x : TenSt → TenSt) : (s.modTenant n x).hicClaimer = s.hicClaimer := rfl
@[simp] theorem State.modTenant_logTimes (n : Nat) (x : TenSt → TenSt) : (s.modTenant n x).logTimes = s.logTimes := rfl
@[simp] theorem State.modTenant_firstAt (n : Nat) (x : TenSt → TenSt) : (s.modTenant n x).firstAt = s.firstAt := rfl
@[simp] theorem State.modTenant_logSeq (n : Nat) (x : TenSt → TenSt) : (s.modTenant n x).logSeq = s.logSeq := rfl
@[simp] theorem State.modTenant_snap (n : Nat) (x : TenSt → TenSt) : (s.modTenant n x).snap = s.snap := rfl
@[simp] theorem State.modTenant_evr (n : Nat) (x : TenSt → TenSt) : (s.modTenant n x).evr = s.evr := rfl
@[simp] theorem State.modTenant_golden (n : Nat) (x : TenSt → TenSt) : (s.modTenant n x).golden = s.golden := rfl
@[simp] theorem State.modTenant_poolGiB (n : Nat) (x : TenSt → TenSt) : (s.modTenant n x).poolGiB = s.poolGiB := rfl
@[simp] theorem State.modTenant_fm (n : Nat) (x : TenSt → TenSt) : (s.modTenant n x).fm = s.fm := rfl
@[simp] theorem State.modTenant_units (n : Nat) (x : TenSt → TenSt) : (s.modTenant n x).units = s.units := rfl
@[simp] theorem State.modTenant_models (n : Nat) (x : TenSt → TenSt) : (s.modTenant n x).models = s.models := rfl
@[simp] theorem State.modTenant_serials (n : Nat) (x : TenSt → TenSt) : (s.modTenant n x).serials = s.serials := rfl
@[simp] theorem State.modTenant_jobs (n : Nat) (x : TenSt → TenSt) : (s.modTenant n x).jobs = s.jobs := rfl
@[simp] theorem State.modTenant_jobSeq (n : Nat) (x : TenSt → TenSt) : (s.modTenant n x).jobSeq = s.jobSeq := rfl
@[simp] theorem State.modTenant_rrCtx (n : Nat) (x : TenSt → TenSt) : (s.modTenant n x).rrCtx = s.rrCtx := rfl
@[simp] theorem State.modTenant_rrRing (n : Nat) (x : TenSt → TenSt) : (s.modTenant n x).rrRing = s.rrRing := rfl
@[simp] theorem State.modTenant_winForce (n : Nat) (x : TenSt → TenSt) : (s.modTenant n x).winForce = s.winForce := rfl
@[simp] theorem State.modTenant_pairBar (n : Nat) (x : TenSt → TenSt) : (s.modTenant n x).pairBar = s.pairBar := rfl
@[simp] theorem State.modTenant_winStarts (n : Nat) (x : TenSt → TenSt) : (s.modTenant n x).winStarts = s.winStarts := rfl
@[simp] theorem State.modTenant_winClosed (n : Nat) (x : TenSt → TenSt) : (s.modTenant n x).winClosed = s.winClosed := rfl
@[simp] theorem State.modTenant_assigns (n : Nat) (x : TenSt → TenSt) : (s.modTenant n x).assigns = s.assigns := rfl
@[simp] theorem State.modTenant_incs (n : Nat) (x : TenSt → TenSt) : (s.modTenant n x).incs = s.incs := rfl
@[simp] theorem State.modTenant_chans (n : Nat) (x : TenSt → TenSt) : (s.modTenant n x).chans = s.chans := rfl
@[simp] theorem State.modTenant_intake (n : Nat) (x : TenSt → TenSt) : (s.modTenant n x).intake = s.intake := rfl
@[simp] theorem State.modTenant_ftab (n : Nat) (x : TenSt → TenSt) : (s.modTenant n x).ftab = s.ftab := rfl
@[simp] theorem State.modTenant_waiting (n : Nat) (x : TenSt → TenSt) : (s.modTenant n x).waiting = s.waiting := rfl
@[simp] theorem State.modTenant_moder (n : Nat) (x : TenSt → TenSt) : (s.modTenant n x).moder = s.moder := rfl
@[simp] theorem State.modTenant_emb (n : Nat) (x : TenSt → TenSt) : (s.modTenant n x).emb = s.emb := rfl
@[simp] theorem State.modTenant_embForce (n : Nat) (x : TenSt → TenSt) : (s.modTenant n x).embForce = s.embForce := rfl
@[simp] theorem State.modTenant_quench (n : Nat) (x : TenSt → TenSt) : (s.modTenant n x).quench = s.quench := rfl
@[simp] theorem State.modTenant_anvils (n : Nat) (x : TenSt → TenSt) : (s.modTenant n x).anvils = s.anvils := rfl
@[simp] theorem State.modTenant_cmp (n : Nat) (x : TenSt → TenSt) : (s.modTenant n x).cmp = s.cmp := rfl
@[simp] theorem State.modTenant_captures (n : Nat) (x : TenSt → TenSt) : (s.modTenant n x).captures = s.captures := rfl
@[simp] theorem State.modTenant_ageDue (n : Nat) (x : TenSt → TenSt) : (s.modTenant n x).ageDue = s.ageDue := rfl
@[simp] theorem State.modTenant_stageEnd (n : Nat) (x : TenSt → TenSt) : (s.modTenant n x).stageEnd = s.stageEnd := rfl
@[simp] theorem State.modTenant_lateSeen (n : Nat) (x : TenSt → TenSt) : (s.modTenant n x).lateSeen = s.lateSeen := rfl
@[simp] theorem State.modTenant_time (n : Nat) (x : TenSt → TenSt) : (s.modTenant n x).time = s.time := rfl
@[simp] theorem State.modTenant_links (n : Nat) (x : TenSt → TenSt) : (s.modTenant n x).links = s.links := rfl
@[simp] theorem State.modTenant_reasm (n : Nat) (x : TenSt → TenSt) : (s.modTenant n x).reasm = s.reasm := rfl
@[simp] theorem State.modTenant_depotUp (n : Nat) (x : TenSt → TenSt) : (s.modTenant n x).depotUp = s.depotUp := rfl
@[simp] theorem State.modTenant_msix (n : Nat) (x : TenSt → TenSt) : (s.modTenant n x).msix = s.msix := rfl
@[simp] theorem State.modTenant_draining (n : Nat) (x : TenSt → TenSt) : (s.modTenant n x).draining = s.draining := rfl
@[simp] theorem State.modTenant_anchors (n : Nat) (x : TenSt → TenSt) : (s.modTenant n x).anchors = s.anchors := rfl
@[simp] theorem State.modTenant_hearth (n : Nat) (x : TenSt → TenSt) : (s.modTenant n x).hearth = s.hearth := rfl
@[simp] theorem State.modTenant_recover (n : Nat) (x : TenSt → TenSt) : (s.modTenant n x).recover = s.recover := rfl
@[simp] theorem State.modTenant_boot (n : Nat) (x : TenSt → TenSt) : (s.modTenant n x).boot = s.boot := rfl
@[simp] theorem State.modTenant_modes (n : Nat) (x : TenSt → TenSt) : (s.modTenant n x).modes = s.modes := rfl
@[simp] theorem State.modTenant_canRx (n : Nat) (x : TenSt → TenSt) : (s.modTenant n x).canRx = s.canRx := rfl
@[simp] theorem State.modTenant_ethRx (n : Nat) (x : TenSt → TenSt) : (s.modTenant n x).ethRx = s.ethRx := rfl
@[simp] theorem State.modTenant_timers (n : Nat) (x : TenSt → TenSt) : (s.modTenant n x).timers = s.timers := rfl
@[simp] theorem State.modTenant_out (n : Nat) (x : TenSt → TenSt) : (s.modTenant n x).out = s.out := rfl
@[simp] theorem State.modTenant_freeCtr (n : Nat) (x : TenSt → TenSt) : (s.modTenant n x).freeCtr = s.freeCtr := rfl

/-! ### modModes -/

@[simp] theorem State.modModes_pending (x : ModeSt → ModeSt) : (s.modModes x).pending = s.pending := rfl
@[simp] theorem State.modModes_regs (x : ModeSt → ModeSt) : (s.modModes x).regs = s.regs := rfl
@[simp] theorem State.modModes_heldLo (x : ModeSt → ModeSt) : (s.modModes x).heldLo = s.heldLo := rfl
@[simp] theorem State.modModes_capHi (x : ModeSt → ModeSt) : (s.modModes x).capHi = s.capHi := rfl
@[simp] theorem State.modModes_heldWrites (x : ModeSt → ModeSt) : (s.modModes x).heldWrites = s.heldWrites := rfl
@[simp] theorem State.modModes_mem (x : ModeSt → ModeSt) : (s.modModes x).mem = s.mem := rfl
@[simp] theorem State.modModes_poison (x : ModeSt → ModeSt) : (s.modModes x).poison = s.poison := rfl
@[simp] theorem State.modModes_damage (x : ModeSt → ModeSt) : (s.modModes x).damage = s.damage := rfl
@[simp] theorem State.modModes_arms (x : ModeSt → ModeSt) : (s.modModes x).arms = s.arms := rfl
@[simp] theorem State.modModes_mram (x : ModeSt → ModeSt) : (s.modModes x).mram = s.mram := rfl
@[simp] theorem State.modModes_now (x : ModeSt → ModeSt) : (s.modModes x).now = s.now := rfl
@[simp] theorem State.modModes_sensors (x : ModeSt → ModeSt) : (s.modModes x).sensors = s.sensors := rfl
@[simp] theorem State.modModes_hicLevel (x : ModeSt → ModeSt) : (s.modModes x).hicLevel = s.hicLevel := rfl
@[simp] theorem State.modModes_hicClaimer (x : ModeSt → ModeSt) : (s.modModes x).hicClaimer = s.hicClaimer := rfl
@[simp] theorem State.modModes_logTimes (x : ModeSt → ModeSt) : (s.modModes x).logTimes = s.logTimes := rfl
@[simp] theorem State.modModes_firstAt (x : ModeSt → ModeSt) : (s.modModes x).firstAt = s.firstAt := rfl
@[simp] theorem State.modModes_logSeq (x : ModeSt → ModeSt) : (s.modModes x).logSeq = s.logSeq := rfl
@[simp] theorem State.modModes_snap (x : ModeSt → ModeSt) : (s.modModes x).snap = s.snap := rfl
@[simp] theorem State.modModes_evr (x : ModeSt → ModeSt) : (s.modModes x).evr = s.evr := rfl
@[simp] theorem State.modModes_golden (x : ModeSt → ModeSt) : (s.modModes x).golden = s.golden := rfl
@[simp] theorem State.modModes_poolGiB (x : ModeSt → ModeSt) : (s.modModes x).poolGiB = s.poolGiB := rfl
@[simp] theorem State.modModes_fm (x : ModeSt → ModeSt) : (s.modModes x).fm = s.fm := rfl
@[simp] theorem State.modModes_units (x : ModeSt → ModeSt) : (s.modModes x).units = s.units := rfl
@[simp] theorem State.modModes_models (x : ModeSt → ModeSt) : (s.modModes x).models = s.models := rfl
@[simp] theorem State.modModes_serials (x : ModeSt → ModeSt) : (s.modModes x).serials = s.serials := rfl
@[simp] theorem State.modModes_jobs (x : ModeSt → ModeSt) : (s.modModes x).jobs = s.jobs := rfl
@[simp] theorem State.modModes_jobSeq (x : ModeSt → ModeSt) : (s.modModes x).jobSeq = s.jobSeq := rfl
@[simp] theorem State.modModes_rrCtx (x : ModeSt → ModeSt) : (s.modModes x).rrCtx = s.rrCtx := rfl
@[simp] theorem State.modModes_rrRing (x : ModeSt → ModeSt) : (s.modModes x).rrRing = s.rrRing := rfl
@[simp] theorem State.modModes_winForce (x : ModeSt → ModeSt) : (s.modModes x).winForce = s.winForce := rfl
@[simp] theorem State.modModes_pairBar (x : ModeSt → ModeSt) : (s.modModes x).pairBar = s.pairBar := rfl
@[simp] theorem State.modModes_winStarts (x : ModeSt → ModeSt) : (s.modModes x).winStarts = s.winStarts := rfl
@[simp] theorem State.modModes_winClosed (x : ModeSt → ModeSt) : (s.modModes x).winClosed = s.winClosed := rfl
@[simp] theorem State.modModes_assigns (x : ModeSt → ModeSt) : (s.modModes x).assigns = s.assigns := rfl
@[simp] theorem State.modModes_incs (x : ModeSt → ModeSt) : (s.modModes x).incs = s.incs := rfl
@[simp] theorem State.modModes_chans (x : ModeSt → ModeSt) : (s.modModes x).chans = s.chans := rfl
@[simp] theorem State.modModes_intake (x : ModeSt → ModeSt) : (s.modModes x).intake = s.intake := rfl
@[simp] theorem State.modModes_ftab (x : ModeSt → ModeSt) : (s.modModes x).ftab = s.ftab := rfl
@[simp] theorem State.modModes_waiting (x : ModeSt → ModeSt) : (s.modModes x).waiting = s.waiting := rfl
@[simp] theorem State.modModes_moder (x : ModeSt → ModeSt) : (s.modModes x).moder = s.moder := rfl
@[simp] theorem State.modModes_emb (x : ModeSt → ModeSt) : (s.modModes x).emb = s.emb := rfl
@[simp] theorem State.modModes_embForce (x : ModeSt → ModeSt) : (s.modModes x).embForce = s.embForce := rfl
@[simp] theorem State.modModes_quench (x : ModeSt → ModeSt) : (s.modModes x).quench = s.quench := rfl
@[simp] theorem State.modModes_anvils (x : ModeSt → ModeSt) : (s.modModes x).anvils = s.anvils := rfl
@[simp] theorem State.modModes_cmp (x : ModeSt → ModeSt) : (s.modModes x).cmp = s.cmp := rfl
@[simp] theorem State.modModes_captures (x : ModeSt → ModeSt) : (s.modModes x).captures = s.captures := rfl
@[simp] theorem State.modModes_ageDue (x : ModeSt → ModeSt) : (s.modModes x).ageDue = s.ageDue := rfl
@[simp] theorem State.modModes_stageEnd (x : ModeSt → ModeSt) : (s.modModes x).stageEnd = s.stageEnd := rfl
@[simp] theorem State.modModes_lateSeen (x : ModeSt → ModeSt) : (s.modModes x).lateSeen = s.lateSeen := rfl
@[simp] theorem State.modModes_time (x : ModeSt → ModeSt) : (s.modModes x).time = s.time := rfl
@[simp] theorem State.modModes_links (x : ModeSt → ModeSt) : (s.modModes x).links = s.links := rfl
@[simp] theorem State.modModes_reasm (x : ModeSt → ModeSt) : (s.modModes x).reasm = s.reasm := rfl
@[simp] theorem State.modModes_tenants (x : ModeSt → ModeSt) : (s.modModes x).tenants = s.tenants := rfl
@[simp] theorem State.modModes_depotUp (x : ModeSt → ModeSt) : (s.modModes x).depotUp = s.depotUp := rfl
@[simp] theorem State.modModes_msix (x : ModeSt → ModeSt) : (s.modModes x).msix = s.msix := rfl
@[simp] theorem State.modModes_draining (x : ModeSt → ModeSt) : (s.modModes x).draining = s.draining := rfl
@[simp] theorem State.modModes_anchors (x : ModeSt → ModeSt) : (s.modModes x).anchors = s.anchors := rfl
@[simp] theorem State.modModes_hearth (x : ModeSt → ModeSt) : (s.modModes x).hearth = s.hearth := rfl
@[simp] theorem State.modModes_recover (x : ModeSt → ModeSt) : (s.modModes x).recover = s.recover := rfl
@[simp] theorem State.modModes_boot (x : ModeSt → ModeSt) : (s.modModes x).boot = s.boot := rfl
@[simp] theorem State.modModes_canRx (x : ModeSt → ModeSt) : (s.modModes x).canRx = s.canRx := rfl
@[simp] theorem State.modModes_ethRx (x : ModeSt → ModeSt) : (s.modModes x).ethRx = s.ethRx := rfl
@[simp] theorem State.modModes_timers (x : ModeSt → ModeSt) : (s.modModes x).timers = s.timers := rfl
@[simp] theorem State.modModes_out (x : ModeSt → ModeSt) : (s.modModes x).out = s.out := rfl
@[simp] theorem State.modModes_freeCtr (x : ModeSt → ModeSt) : (s.modModes x).freeCtr = s.freeCtr := rfl

/-! ### modCmp -/

@[simp] theorem State.modCmp_pending (x : CmpSt → CmpSt) : (s.modCmp x).pending = s.pending := rfl
@[simp] theorem State.modCmp_regs (x : CmpSt → CmpSt) : (s.modCmp x).regs = s.regs := rfl
@[simp] theorem State.modCmp_heldLo (x : CmpSt → CmpSt) : (s.modCmp x).heldLo = s.heldLo := rfl
@[simp] theorem State.modCmp_capHi (x : CmpSt → CmpSt) : (s.modCmp x).capHi = s.capHi := rfl
@[simp] theorem State.modCmp_heldWrites (x : CmpSt → CmpSt) : (s.modCmp x).heldWrites = s.heldWrites := rfl
@[simp] theorem State.modCmp_mem (x : CmpSt → CmpSt) : (s.modCmp x).mem = s.mem := rfl
@[simp] theorem State.modCmp_poison (x : CmpSt → CmpSt) : (s.modCmp x).poison = s.poison := rfl
@[simp] theorem State.modCmp_damage (x : CmpSt → CmpSt) : (s.modCmp x).damage = s.damage := rfl
@[simp] theorem State.modCmp_arms (x : CmpSt → CmpSt) : (s.modCmp x).arms = s.arms := rfl
@[simp] theorem State.modCmp_mram (x : CmpSt → CmpSt) : (s.modCmp x).mram = s.mram := rfl
@[simp] theorem State.modCmp_now (x : CmpSt → CmpSt) : (s.modCmp x).now = s.now := rfl
@[simp] theorem State.modCmp_sensors (x : CmpSt → CmpSt) : (s.modCmp x).sensors = s.sensors := rfl
@[simp] theorem State.modCmp_hicLevel (x : CmpSt → CmpSt) : (s.modCmp x).hicLevel = s.hicLevel := rfl
@[simp] theorem State.modCmp_hicClaimer (x : CmpSt → CmpSt) : (s.modCmp x).hicClaimer = s.hicClaimer := rfl
@[simp] theorem State.modCmp_logTimes (x : CmpSt → CmpSt) : (s.modCmp x).logTimes = s.logTimes := rfl
@[simp] theorem State.modCmp_firstAt (x : CmpSt → CmpSt) : (s.modCmp x).firstAt = s.firstAt := rfl
@[simp] theorem State.modCmp_logSeq (x : CmpSt → CmpSt) : (s.modCmp x).logSeq = s.logSeq := rfl
@[simp] theorem State.modCmp_snap (x : CmpSt → CmpSt) : (s.modCmp x).snap = s.snap := rfl
@[simp] theorem State.modCmp_evr (x : CmpSt → CmpSt) : (s.modCmp x).evr = s.evr := rfl
@[simp] theorem State.modCmp_golden (x : CmpSt → CmpSt) : (s.modCmp x).golden = s.golden := rfl
@[simp] theorem State.modCmp_poolGiB (x : CmpSt → CmpSt) : (s.modCmp x).poolGiB = s.poolGiB := rfl
@[simp] theorem State.modCmp_fm (x : CmpSt → CmpSt) : (s.modCmp x).fm = s.fm := rfl
@[simp] theorem State.modCmp_units (x : CmpSt → CmpSt) : (s.modCmp x).units = s.units := rfl
@[simp] theorem State.modCmp_models (x : CmpSt → CmpSt) : (s.modCmp x).models = s.models := rfl
@[simp] theorem State.modCmp_serials (x : CmpSt → CmpSt) : (s.modCmp x).serials = s.serials := rfl
@[simp] theorem State.modCmp_jobs (x : CmpSt → CmpSt) : (s.modCmp x).jobs = s.jobs := rfl
@[simp] theorem State.modCmp_jobSeq (x : CmpSt → CmpSt) : (s.modCmp x).jobSeq = s.jobSeq := rfl
@[simp] theorem State.modCmp_rrCtx (x : CmpSt → CmpSt) : (s.modCmp x).rrCtx = s.rrCtx := rfl
@[simp] theorem State.modCmp_rrRing (x : CmpSt → CmpSt) : (s.modCmp x).rrRing = s.rrRing := rfl
@[simp] theorem State.modCmp_winForce (x : CmpSt → CmpSt) : (s.modCmp x).winForce = s.winForce := rfl
@[simp] theorem State.modCmp_pairBar (x : CmpSt → CmpSt) : (s.modCmp x).pairBar = s.pairBar := rfl
@[simp] theorem State.modCmp_winStarts (x : CmpSt → CmpSt) : (s.modCmp x).winStarts = s.winStarts := rfl
@[simp] theorem State.modCmp_winClosed (x : CmpSt → CmpSt) : (s.modCmp x).winClosed = s.winClosed := rfl
@[simp] theorem State.modCmp_assigns (x : CmpSt → CmpSt) : (s.modCmp x).assigns = s.assigns := rfl
@[simp] theorem State.modCmp_incs (x : CmpSt → CmpSt) : (s.modCmp x).incs = s.incs := rfl
@[simp] theorem State.modCmp_chans (x : CmpSt → CmpSt) : (s.modCmp x).chans = s.chans := rfl
@[simp] theorem State.modCmp_intake (x : CmpSt → CmpSt) : (s.modCmp x).intake = s.intake := rfl
@[simp] theorem State.modCmp_ftab (x : CmpSt → CmpSt) : (s.modCmp x).ftab = s.ftab := rfl
@[simp] theorem State.modCmp_waiting (x : CmpSt → CmpSt) : (s.modCmp x).waiting = s.waiting := rfl
@[simp] theorem State.modCmp_moder (x : CmpSt → CmpSt) : (s.modCmp x).moder = s.moder := rfl
@[simp] theorem State.modCmp_emb (x : CmpSt → CmpSt) : (s.modCmp x).emb = s.emb := rfl
@[simp] theorem State.modCmp_embForce (x : CmpSt → CmpSt) : (s.modCmp x).embForce = s.embForce := rfl
@[simp] theorem State.modCmp_quench (x : CmpSt → CmpSt) : (s.modCmp x).quench = s.quench := rfl
@[simp] theorem State.modCmp_anvils (x : CmpSt → CmpSt) : (s.modCmp x).anvils = s.anvils := rfl
@[simp] theorem State.modCmp_captures (x : CmpSt → CmpSt) : (s.modCmp x).captures = s.captures := rfl
@[simp] theorem State.modCmp_ageDue (x : CmpSt → CmpSt) : (s.modCmp x).ageDue = s.ageDue := rfl
@[simp] theorem State.modCmp_stageEnd (x : CmpSt → CmpSt) : (s.modCmp x).stageEnd = s.stageEnd := rfl
@[simp] theorem State.modCmp_lateSeen (x : CmpSt → CmpSt) : (s.modCmp x).lateSeen = s.lateSeen := rfl
@[simp] theorem State.modCmp_time (x : CmpSt → CmpSt) : (s.modCmp x).time = s.time := rfl
@[simp] theorem State.modCmp_links (x : CmpSt → CmpSt) : (s.modCmp x).links = s.links := rfl
@[simp] theorem State.modCmp_reasm (x : CmpSt → CmpSt) : (s.modCmp x).reasm = s.reasm := rfl
@[simp] theorem State.modCmp_tenants (x : CmpSt → CmpSt) : (s.modCmp x).tenants = s.tenants := rfl
@[simp] theorem State.modCmp_depotUp (x : CmpSt → CmpSt) : (s.modCmp x).depotUp = s.depotUp := rfl
@[simp] theorem State.modCmp_msix (x : CmpSt → CmpSt) : (s.modCmp x).msix = s.msix := rfl
@[simp] theorem State.modCmp_draining (x : CmpSt → CmpSt) : (s.modCmp x).draining = s.draining := rfl
@[simp] theorem State.modCmp_anchors (x : CmpSt → CmpSt) : (s.modCmp x).anchors = s.anchors := rfl
@[simp] theorem State.modCmp_hearth (x : CmpSt → CmpSt) : (s.modCmp x).hearth = s.hearth := rfl
@[simp] theorem State.modCmp_recover (x : CmpSt → CmpSt) : (s.modCmp x).recover = s.recover := rfl
@[simp] theorem State.modCmp_boot (x : CmpSt → CmpSt) : (s.modCmp x).boot = s.boot := rfl
@[simp] theorem State.modCmp_modes (x : CmpSt → CmpSt) : (s.modCmp x).modes = s.modes := rfl
@[simp] theorem State.modCmp_canRx (x : CmpSt → CmpSt) : (s.modCmp x).canRx = s.canRx := rfl
@[simp] theorem State.modCmp_ethRx (x : CmpSt → CmpSt) : (s.modCmp x).ethRx = s.ethRx := rfl
@[simp] theorem State.modCmp_timers (x : CmpSt → CmpSt) : (s.modCmp x).timers = s.timers := rfl
@[simp] theorem State.modCmp_out (x : CmpSt → CmpSt) : (s.modCmp x).out = s.out := rfl
@[simp] theorem State.modCmp_freeCtr (x : CmpSt → CmpSt) : (s.modCmp x).freeCtr = s.freeCtr := rfl

/-! ### modHearth -/

@[simp] theorem State.modHearth_pending (x : HearthSt → HearthSt) : (s.modHearth x).pending = s.pending := rfl
@[simp] theorem State.modHearth_regs (x : HearthSt → HearthSt) : (s.modHearth x).regs = s.regs := rfl
@[simp] theorem State.modHearth_heldLo (x : HearthSt → HearthSt) : (s.modHearth x).heldLo = s.heldLo := rfl
@[simp] theorem State.modHearth_capHi (x : HearthSt → HearthSt) : (s.modHearth x).capHi = s.capHi := rfl
@[simp] theorem State.modHearth_heldWrites (x : HearthSt → HearthSt) : (s.modHearth x).heldWrites = s.heldWrites := rfl
@[simp] theorem State.modHearth_mem (x : HearthSt → HearthSt) : (s.modHearth x).mem = s.mem := rfl
@[simp] theorem State.modHearth_poison (x : HearthSt → HearthSt) : (s.modHearth x).poison = s.poison := rfl
@[simp] theorem State.modHearth_damage (x : HearthSt → HearthSt) : (s.modHearth x).damage = s.damage := rfl
@[simp] theorem State.modHearth_arms (x : HearthSt → HearthSt) : (s.modHearth x).arms = s.arms := rfl
@[simp] theorem State.modHearth_mram (x : HearthSt → HearthSt) : (s.modHearth x).mram = s.mram := rfl
@[simp] theorem State.modHearth_now (x : HearthSt → HearthSt) : (s.modHearth x).now = s.now := rfl
@[simp] theorem State.modHearth_sensors (x : HearthSt → HearthSt) : (s.modHearth x).sensors = s.sensors := rfl
@[simp] theorem State.modHearth_hicLevel (x : HearthSt → HearthSt) : (s.modHearth x).hicLevel = s.hicLevel := rfl
@[simp] theorem State.modHearth_hicClaimer (x : HearthSt → HearthSt) : (s.modHearth x).hicClaimer = s.hicClaimer := rfl
@[simp] theorem State.modHearth_logTimes (x : HearthSt → HearthSt) : (s.modHearth x).logTimes = s.logTimes := rfl
@[simp] theorem State.modHearth_firstAt (x : HearthSt → HearthSt) : (s.modHearth x).firstAt = s.firstAt := rfl
@[simp] theorem State.modHearth_logSeq (x : HearthSt → HearthSt) : (s.modHearth x).logSeq = s.logSeq := rfl
@[simp] theorem State.modHearth_snap (x : HearthSt → HearthSt) : (s.modHearth x).snap = s.snap := rfl
@[simp] theorem State.modHearth_evr (x : HearthSt → HearthSt) : (s.modHearth x).evr = s.evr := rfl
@[simp] theorem State.modHearth_golden (x : HearthSt → HearthSt) : (s.modHearth x).golden = s.golden := rfl
@[simp] theorem State.modHearth_poolGiB (x : HearthSt → HearthSt) : (s.modHearth x).poolGiB = s.poolGiB := rfl
@[simp] theorem State.modHearth_fm (x : HearthSt → HearthSt) : (s.modHearth x).fm = s.fm := rfl
@[simp] theorem State.modHearth_units (x : HearthSt → HearthSt) : (s.modHearth x).units = s.units := rfl
@[simp] theorem State.modHearth_models (x : HearthSt → HearthSt) : (s.modHearth x).models = s.models := rfl
@[simp] theorem State.modHearth_serials (x : HearthSt → HearthSt) : (s.modHearth x).serials = s.serials := rfl
@[simp] theorem State.modHearth_jobs (x : HearthSt → HearthSt) : (s.modHearth x).jobs = s.jobs := rfl
@[simp] theorem State.modHearth_jobSeq (x : HearthSt → HearthSt) : (s.modHearth x).jobSeq = s.jobSeq := rfl
@[simp] theorem State.modHearth_rrCtx (x : HearthSt → HearthSt) : (s.modHearth x).rrCtx = s.rrCtx := rfl
@[simp] theorem State.modHearth_rrRing (x : HearthSt → HearthSt) : (s.modHearth x).rrRing = s.rrRing := rfl
@[simp] theorem State.modHearth_winForce (x : HearthSt → HearthSt) : (s.modHearth x).winForce = s.winForce := rfl
@[simp] theorem State.modHearth_pairBar (x : HearthSt → HearthSt) : (s.modHearth x).pairBar = s.pairBar := rfl
@[simp] theorem State.modHearth_winStarts (x : HearthSt → HearthSt) : (s.modHearth x).winStarts = s.winStarts := rfl
@[simp] theorem State.modHearth_winClosed (x : HearthSt → HearthSt) : (s.modHearth x).winClosed = s.winClosed := rfl
@[simp] theorem State.modHearth_assigns (x : HearthSt → HearthSt) : (s.modHearth x).assigns = s.assigns := rfl
@[simp] theorem State.modHearth_incs (x : HearthSt → HearthSt) : (s.modHearth x).incs = s.incs := rfl
@[simp] theorem State.modHearth_chans (x : HearthSt → HearthSt) : (s.modHearth x).chans = s.chans := rfl
@[simp] theorem State.modHearth_intake (x : HearthSt → HearthSt) : (s.modHearth x).intake = s.intake := rfl
@[simp] theorem State.modHearth_ftab (x : HearthSt → HearthSt) : (s.modHearth x).ftab = s.ftab := rfl
@[simp] theorem State.modHearth_waiting (x : HearthSt → HearthSt) : (s.modHearth x).waiting = s.waiting := rfl
@[simp] theorem State.modHearth_moder (x : HearthSt → HearthSt) : (s.modHearth x).moder = s.moder := rfl
@[simp] theorem State.modHearth_emb (x : HearthSt → HearthSt) : (s.modHearth x).emb = s.emb := rfl
@[simp] theorem State.modHearth_embForce (x : HearthSt → HearthSt) : (s.modHearth x).embForce = s.embForce := rfl
@[simp] theorem State.modHearth_quench (x : HearthSt → HearthSt) : (s.modHearth x).quench = s.quench := rfl
@[simp] theorem State.modHearth_anvils (x : HearthSt → HearthSt) : (s.modHearth x).anvils = s.anvils := rfl
@[simp] theorem State.modHearth_cmp (x : HearthSt → HearthSt) : (s.modHearth x).cmp = s.cmp := rfl
@[simp] theorem State.modHearth_captures (x : HearthSt → HearthSt) : (s.modHearth x).captures = s.captures := rfl
@[simp] theorem State.modHearth_ageDue (x : HearthSt → HearthSt) : (s.modHearth x).ageDue = s.ageDue := rfl
@[simp] theorem State.modHearth_stageEnd (x : HearthSt → HearthSt) : (s.modHearth x).stageEnd = s.stageEnd := rfl
@[simp] theorem State.modHearth_lateSeen (x : HearthSt → HearthSt) : (s.modHearth x).lateSeen = s.lateSeen := rfl
@[simp] theorem State.modHearth_time (x : HearthSt → HearthSt) : (s.modHearth x).time = s.time := rfl
@[simp] theorem State.modHearth_links (x : HearthSt → HearthSt) : (s.modHearth x).links = s.links := rfl
@[simp] theorem State.modHearth_reasm (x : HearthSt → HearthSt) : (s.modHearth x).reasm = s.reasm := rfl
@[simp] theorem State.modHearth_tenants (x : HearthSt → HearthSt) : (s.modHearth x).tenants = s.tenants := rfl
@[simp] theorem State.modHearth_depotUp (x : HearthSt → HearthSt) : (s.modHearth x).depotUp = s.depotUp := rfl
@[simp] theorem State.modHearth_msix (x : HearthSt → HearthSt) : (s.modHearth x).msix = s.msix := rfl
@[simp] theorem State.modHearth_draining (x : HearthSt → HearthSt) : (s.modHearth x).draining = s.draining := rfl
@[simp] theorem State.modHearth_anchors (x : HearthSt → HearthSt) : (s.modHearth x).anchors = s.anchors := rfl
@[simp] theorem State.modHearth_recover (x : HearthSt → HearthSt) : (s.modHearth x).recover = s.recover := rfl
@[simp] theorem State.modHearth_boot (x : HearthSt → HearthSt) : (s.modHearth x).boot = s.boot := rfl
@[simp] theorem State.modHearth_modes (x : HearthSt → HearthSt) : (s.modHearth x).modes = s.modes := rfl
@[simp] theorem State.modHearth_canRx (x : HearthSt → HearthSt) : (s.modHearth x).canRx = s.canRx := rfl
@[simp] theorem State.modHearth_ethRx (x : HearthSt → HearthSt) : (s.modHearth x).ethRx = s.ethRx := rfl
@[simp] theorem State.modHearth_timers (x : HearthSt → HearthSt) : (s.modHearth x).timers = s.timers := rfl
@[simp] theorem State.modHearth_out (x : HearthSt → HearthSt) : (s.modHearth x).out = s.out := rfl
@[simp] theorem State.modHearth_freeCtr (x : HearthSt → HearthSt) : (s.modHearth x).freeCtr = s.freeCtr := rfl

/-! ### hicEvent -/

@[simp] theorem State.hicEvent_pending (n : Nat) : (s.hicEvent n).pending = s.pending := by simp only [State.hicEvent, State.setFlag_pending, State.count_pending]
@[simp] theorem State.hicEvent_heldLo (n : Nat) : (s.hicEvent n).heldLo = s.heldLo := by simp only [State.hicEvent, State.setFlag_heldLo, State.count_heldLo]
@[simp] theorem State.hicEvent_capHi (n : Nat) : (s.hicEvent n).capHi = s.capHi := by simp only [State.hicEvent, State.setFlag_capHi, State.count_capHi]
@[simp] theorem State.hicEvent_heldWrites (n : Nat) : (s.hicEvent n).heldWrites = s.heldWrites := by simp only [State.hicEvent, State.setFlag_heldWrites, State.count_heldWrites]
@[simp] theorem State.hicEvent_mem (n : Nat) : (s.hicEvent n).mem = s.mem := by simp only [State.hicEvent, State.setFlag_mem, State.count_mem]
@[simp] theorem State.hicEvent_poison (n : Nat) : (s.hicEvent n).poison = s.poison := by simp only [State.hicEvent, State.setFlag_poison, State.count_poison]
@[simp] theorem State.hicEvent_damage (n : Nat) : (s.hicEvent n).damage = s.damage := by simp only [State.hicEvent, State.setFlag_damage, State.count_damage]
@[simp] theorem State.hicEvent_arms (n : Nat) : (s.hicEvent n).arms = s.arms := by simp only [State.hicEvent, State.setFlag_arms, State.count_arms]
@[simp] theorem State.hicEvent_mram (n : Nat) : (s.hicEvent n).mram = s.mram := by simp only [State.hicEvent, State.setFlag_mram, State.count_mram]
@[simp] theorem State.hicEvent_now (n : Nat) : (s.hicEvent n).now = s.now := by simp only [State.hicEvent, State.setFlag_now, State.count_now]
@[simp] theorem State.hicEvent_sensors (n : Nat) : (s.hicEvent n).sensors = s.sensors := by simp only [State.hicEvent, State.setFlag_sensors, State.count_sensors]
@[simp] theorem State.hicEvent_hicLevel (n : Nat) : (s.hicEvent n).hicLevel = s.hicLevel := by simp only [State.hicEvent, State.setFlag_hicLevel, State.count_hicLevel]
@[simp] theorem State.hicEvent_hicClaimer (n : Nat) : (s.hicEvent n).hicClaimer = s.hicClaimer := by simp only [State.hicEvent, State.setFlag_hicClaimer, State.count_hicClaimer]
@[simp] theorem State.hicEvent_logTimes (n : Nat) : (s.hicEvent n).logTimes = s.logTimes := by simp only [State.hicEvent, State.setFlag_logTimes, State.count_logTimes]
@[simp] theorem State.hicEvent_firstAt (n : Nat) : (s.hicEvent n).firstAt = s.firstAt := by simp only [State.hicEvent, State.setFlag_firstAt, State.count_firstAt]
@[simp] theorem State.hicEvent_logSeq (n : Nat) : (s.hicEvent n).logSeq = s.logSeq := by simp only [State.hicEvent, State.setFlag_logSeq, State.count_logSeq]
@[simp] theorem State.hicEvent_snap (n : Nat) : (s.hicEvent n).snap = s.snap := by simp only [State.hicEvent, State.setFlag_snap, State.count_snap]
@[simp] theorem State.hicEvent_evr (n : Nat) : (s.hicEvent n).evr = s.evr := by simp only [State.hicEvent, State.setFlag_evr, State.count_evr]
@[simp] theorem State.hicEvent_golden (n : Nat) : (s.hicEvent n).golden = s.golden := by simp only [State.hicEvent, State.setFlag_golden, State.count_golden]
@[simp] theorem State.hicEvent_poolGiB (n : Nat) : (s.hicEvent n).poolGiB = s.poolGiB := by simp only [State.hicEvent, State.setFlag_poolGiB, State.count_poolGiB]
@[simp] theorem State.hicEvent_fm (n : Nat) : (s.hicEvent n).fm = s.fm := by simp only [State.hicEvent, State.setFlag_fm, State.count_fm]
@[simp] theorem State.hicEvent_units (n : Nat) : (s.hicEvent n).units = s.units := by simp only [State.hicEvent, State.setFlag_units, State.count_units]
@[simp] theorem State.hicEvent_models (n : Nat) : (s.hicEvent n).models = s.models := by simp only [State.hicEvent, State.setFlag_models, State.count_models]
@[simp] theorem State.hicEvent_serials (n : Nat) : (s.hicEvent n).serials = s.serials := by simp only [State.hicEvent, State.setFlag_serials, State.count_serials]
@[simp] theorem State.hicEvent_jobs (n : Nat) : (s.hicEvent n).jobs = s.jobs := by simp only [State.hicEvent, State.setFlag_jobs, State.count_jobs]
@[simp] theorem State.hicEvent_jobSeq (n : Nat) : (s.hicEvent n).jobSeq = s.jobSeq := by simp only [State.hicEvent, State.setFlag_jobSeq, State.count_jobSeq]
@[simp] theorem State.hicEvent_rrCtx (n : Nat) : (s.hicEvent n).rrCtx = s.rrCtx := by simp only [State.hicEvent, State.setFlag_rrCtx, State.count_rrCtx]
@[simp] theorem State.hicEvent_rrRing (n : Nat) : (s.hicEvent n).rrRing = s.rrRing := by simp only [State.hicEvent, State.setFlag_rrRing, State.count_rrRing]
@[simp] theorem State.hicEvent_winForce (n : Nat) : (s.hicEvent n).winForce = s.winForce := by simp only [State.hicEvent, State.setFlag_winForce, State.count_winForce]
@[simp] theorem State.hicEvent_pairBar (n : Nat) : (s.hicEvent n).pairBar = s.pairBar := by simp only [State.hicEvent, State.setFlag_pairBar, State.count_pairBar]
@[simp] theorem State.hicEvent_winStarts (n : Nat) : (s.hicEvent n).winStarts = s.winStarts := by simp only [State.hicEvent, State.setFlag_winStarts, State.count_winStarts]
@[simp] theorem State.hicEvent_winClosed (n : Nat) : (s.hicEvent n).winClosed = s.winClosed := by simp only [State.hicEvent, State.setFlag_winClosed, State.count_winClosed]
@[simp] theorem State.hicEvent_assigns (n : Nat) : (s.hicEvent n).assigns = s.assigns := by simp only [State.hicEvent, State.setFlag_assigns, State.count_assigns]
@[simp] theorem State.hicEvent_incs (n : Nat) : (s.hicEvent n).incs = s.incs := by simp only [State.hicEvent, State.setFlag_incs, State.count_incs]
@[simp] theorem State.hicEvent_chans (n : Nat) : (s.hicEvent n).chans = s.chans := by simp only [State.hicEvent, State.setFlag_chans, State.count_chans]
@[simp] theorem State.hicEvent_intake (n : Nat) : (s.hicEvent n).intake = s.intake := by simp only [State.hicEvent, State.setFlag_intake, State.count_intake]
@[simp] theorem State.hicEvent_ftab (n : Nat) : (s.hicEvent n).ftab = s.ftab := by simp only [State.hicEvent, State.setFlag_ftab, State.count_ftab]
@[simp] theorem State.hicEvent_waiting (n : Nat) : (s.hicEvent n).waiting = s.waiting := by simp only [State.hicEvent, State.setFlag_waiting, State.count_waiting]
@[simp] theorem State.hicEvent_moder (n : Nat) : (s.hicEvent n).moder = s.moder := by simp only [State.hicEvent, State.setFlag_moder, State.count_moder]
@[simp] theorem State.hicEvent_emb (n : Nat) : (s.hicEvent n).emb = s.emb := by simp only [State.hicEvent, State.setFlag_emb, State.count_emb]
@[simp] theorem State.hicEvent_embForce (n : Nat) : (s.hicEvent n).embForce = s.embForce := by simp only [State.hicEvent, State.setFlag_embForce, State.count_embForce]
@[simp] theorem State.hicEvent_quench (n : Nat) : (s.hicEvent n).quench = s.quench := by simp only [State.hicEvent, State.setFlag_quench, State.count_quench]
@[simp] theorem State.hicEvent_anvils (n : Nat) : (s.hicEvent n).anvils = s.anvils := by simp only [State.hicEvent, State.setFlag_anvils, State.count_anvils]
@[simp] theorem State.hicEvent_cmp (n : Nat) : (s.hicEvent n).cmp = s.cmp := by simp only [State.hicEvent, State.setFlag_cmp, State.count_cmp]
@[simp] theorem State.hicEvent_captures (n : Nat) : (s.hicEvent n).captures = s.captures := by simp only [State.hicEvent, State.setFlag_captures, State.count_captures]
@[simp] theorem State.hicEvent_ageDue (n : Nat) : (s.hicEvent n).ageDue = s.ageDue := by simp only [State.hicEvent, State.setFlag_ageDue, State.count_ageDue]
@[simp] theorem State.hicEvent_stageEnd (n : Nat) : (s.hicEvent n).stageEnd = s.stageEnd := by simp only [State.hicEvent, State.setFlag_stageEnd, State.count_stageEnd]
@[simp] theorem State.hicEvent_lateSeen (n : Nat) : (s.hicEvent n).lateSeen = s.lateSeen := by simp only [State.hicEvent, State.setFlag_lateSeen, State.count_lateSeen]
@[simp] theorem State.hicEvent_time (n : Nat) : (s.hicEvent n).time = s.time := by simp only [State.hicEvent, State.setFlag_time, State.count_time]
@[simp] theorem State.hicEvent_links (n : Nat) : (s.hicEvent n).links = s.links := by simp only [State.hicEvent, State.setFlag_links, State.count_links]
@[simp] theorem State.hicEvent_reasm (n : Nat) : (s.hicEvent n).reasm = s.reasm := by simp only [State.hicEvent, State.setFlag_reasm, State.count_reasm]
@[simp] theorem State.hicEvent_tenants (n : Nat) : (s.hicEvent n).tenants = s.tenants := by simp only [State.hicEvent, State.setFlag_tenants, State.count_tenants]
@[simp] theorem State.hicEvent_depotUp (n : Nat) : (s.hicEvent n).depotUp = s.depotUp := by simp only [State.hicEvent, State.setFlag_depotUp, State.count_depotUp]
@[simp] theorem State.hicEvent_msix (n : Nat) : (s.hicEvent n).msix = s.msix := by simp only [State.hicEvent, State.setFlag_msix, State.count_msix]
@[simp] theorem State.hicEvent_draining (n : Nat) : (s.hicEvent n).draining = s.draining := by simp only [State.hicEvent, State.setFlag_draining, State.count_draining]
@[simp] theorem State.hicEvent_anchors (n : Nat) : (s.hicEvent n).anchors = s.anchors := by simp only [State.hicEvent, State.setFlag_anchors, State.count_anchors]
@[simp] theorem State.hicEvent_hearth (n : Nat) : (s.hicEvent n).hearth = s.hearth := by simp only [State.hicEvent, State.setFlag_hearth, State.count_hearth]
@[simp] theorem State.hicEvent_recover (n : Nat) : (s.hicEvent n).recover = s.recover := by simp only [State.hicEvent, State.setFlag_recover, State.count_recover]
@[simp] theorem State.hicEvent_boot (n : Nat) : (s.hicEvent n).boot = s.boot := by simp only [State.hicEvent, State.setFlag_boot, State.count_boot]
@[simp] theorem State.hicEvent_modes (n : Nat) : (s.hicEvent n).modes = s.modes := by simp only [State.hicEvent, State.setFlag_modes, State.count_modes]
@[simp] theorem State.hicEvent_canRx (n : Nat) : (s.hicEvent n).canRx = s.canRx := by simp only [State.hicEvent, State.setFlag_canRx, State.count_canRx]
@[simp] theorem State.hicEvent_ethRx (n : Nat) : (s.hicEvent n).ethRx = s.ethRx := by simp only [State.hicEvent, State.setFlag_ethRx, State.count_ethRx]
@[simp] theorem State.hicEvent_timers (n : Nat) : (s.hicEvent n).timers = s.timers := by simp only [State.hicEvent, State.setFlag_timers, State.count_timers]
@[simp] theorem State.hicEvent_out (n : Nat) : (s.hicEvent n).out = s.out := by simp only [State.hicEvent, State.setFlag_out, State.count_out]
@[simp] theorem State.hicEvent_freeCtr (n : Nat) : (s.hicEvent n).freeCtr = s.freeCtr := by simp only [State.hicEvent, State.setFlag_freeCtr, State.count_freeCtr]

/-! ### syncSrc -/

@[simp] theorem State.syncSrc_pending (n : Nat) : (s.syncSrc n).pending = s.pending := by
  simp only [State.syncSrc]; split
  · simp only [State.hicEvent_pending]
  · split <;> rfl
@[simp] theorem State.syncSrc_heldLo (n : Nat) : (s.syncSrc n).heldLo = s.heldLo := by
  simp only [State.syncSrc]; split
  · simp only [State.hicEvent_heldLo]
  · split <;> rfl
@[simp] theorem State.syncSrc_capHi (n : Nat) : (s.syncSrc n).capHi = s.capHi := by
  simp only [State.syncSrc]; split
  · simp only [State.hicEvent_capHi]
  · split <;> rfl
@[simp] theorem State.syncSrc_heldWrites (n : Nat) : (s.syncSrc n).heldWrites = s.heldWrites := by
  simp only [State.syncSrc]; split
  · simp only [State.hicEvent_heldWrites]
  · split <;> rfl
@[simp] theorem State.syncSrc_mem (n : Nat) : (s.syncSrc n).mem = s.mem := by
  simp only [State.syncSrc]; split
  · simp only [State.hicEvent_mem]
  · split <;> rfl
@[simp] theorem State.syncSrc_poison (n : Nat) : (s.syncSrc n).poison = s.poison := by
  simp only [State.syncSrc]; split
  · simp only [State.hicEvent_poison]
  · split <;> rfl
@[simp] theorem State.syncSrc_damage (n : Nat) : (s.syncSrc n).damage = s.damage := by
  simp only [State.syncSrc]; split
  · simp only [State.hicEvent_damage]
  · split <;> rfl
@[simp] theorem State.syncSrc_arms (n : Nat) : (s.syncSrc n).arms = s.arms := by
  simp only [State.syncSrc]; split
  · simp only [State.hicEvent_arms]
  · split <;> rfl
@[simp] theorem State.syncSrc_mram (n : Nat) : (s.syncSrc n).mram = s.mram := by
  simp only [State.syncSrc]; split
  · simp only [State.hicEvent_mram]
  · split <;> rfl
@[simp] theorem State.syncSrc_now (n : Nat) : (s.syncSrc n).now = s.now := by
  simp only [State.syncSrc]; split
  · simp only [State.hicEvent_now]
  · split <;> rfl
@[simp] theorem State.syncSrc_sensors (n : Nat) : (s.syncSrc n).sensors = s.sensors := by
  simp only [State.syncSrc]; split
  · simp only [State.hicEvent_sensors]
  · split <;> rfl
@[simp] theorem State.syncSrc_hicClaimer (n : Nat) : (s.syncSrc n).hicClaimer = s.hicClaimer := by
  simp only [State.syncSrc]; split
  · simp only [State.hicEvent_hicClaimer]
  · split <;> rfl
@[simp] theorem State.syncSrc_logTimes (n : Nat) : (s.syncSrc n).logTimes = s.logTimes := by
  simp only [State.syncSrc]; split
  · simp only [State.hicEvent_logTimes]
  · split <;> rfl
@[simp] theorem State.syncSrc_firstAt (n : Nat) : (s.syncSrc n).firstAt = s.firstAt := by
  simp only [State.syncSrc]; split
  · simp only [State.hicEvent_firstAt]
  · split <;> rfl
@[simp] theorem State.syncSrc_logSeq (n : Nat) : (s.syncSrc n).logSeq = s.logSeq := by
  simp only [State.syncSrc]; split
  · simp only [State.hicEvent_logSeq]
  · split <;> rfl
@[simp] theorem State.syncSrc_snap (n : Nat) : (s.syncSrc n).snap = s.snap := by
  simp only [State.syncSrc]; split
  · simp only [State.hicEvent_snap]
  · split <;> rfl
@[simp] theorem State.syncSrc_evr (n : Nat) : (s.syncSrc n).evr = s.evr := by
  simp only [State.syncSrc]; split
  · simp only [State.hicEvent_evr]
  · split <;> rfl
@[simp] theorem State.syncSrc_golden (n : Nat) : (s.syncSrc n).golden = s.golden := by
  simp only [State.syncSrc]; split
  · simp only [State.hicEvent_golden]
  · split <;> rfl
@[simp] theorem State.syncSrc_poolGiB (n : Nat) : (s.syncSrc n).poolGiB = s.poolGiB := by
  simp only [State.syncSrc]; split
  · simp only [State.hicEvent_poolGiB]
  · split <;> rfl
@[simp] theorem State.syncSrc_fm (n : Nat) : (s.syncSrc n).fm = s.fm := by
  simp only [State.syncSrc]; split
  · simp only [State.hicEvent_fm]
  · split <;> rfl
@[simp] theorem State.syncSrc_units (n : Nat) : (s.syncSrc n).units = s.units := by
  simp only [State.syncSrc]; split
  · simp only [State.hicEvent_units]
  · split <;> rfl
@[simp] theorem State.syncSrc_models (n : Nat) : (s.syncSrc n).models = s.models := by
  simp only [State.syncSrc]; split
  · simp only [State.hicEvent_models]
  · split <;> rfl
@[simp] theorem State.syncSrc_serials (n : Nat) : (s.syncSrc n).serials = s.serials := by
  simp only [State.syncSrc]; split
  · simp only [State.hicEvent_serials]
  · split <;> rfl
@[simp] theorem State.syncSrc_jobs (n : Nat) : (s.syncSrc n).jobs = s.jobs := by
  simp only [State.syncSrc]; split
  · simp only [State.hicEvent_jobs]
  · split <;> rfl
@[simp] theorem State.syncSrc_jobSeq (n : Nat) : (s.syncSrc n).jobSeq = s.jobSeq := by
  simp only [State.syncSrc]; split
  · simp only [State.hicEvent_jobSeq]
  · split <;> rfl
@[simp] theorem State.syncSrc_rrCtx (n : Nat) : (s.syncSrc n).rrCtx = s.rrCtx := by
  simp only [State.syncSrc]; split
  · simp only [State.hicEvent_rrCtx]
  · split <;> rfl
@[simp] theorem State.syncSrc_rrRing (n : Nat) : (s.syncSrc n).rrRing = s.rrRing := by
  simp only [State.syncSrc]; split
  · simp only [State.hicEvent_rrRing]
  · split <;> rfl
@[simp] theorem State.syncSrc_winForce (n : Nat) : (s.syncSrc n).winForce = s.winForce := by
  simp only [State.syncSrc]; split
  · simp only [State.hicEvent_winForce]
  · split <;> rfl
@[simp] theorem State.syncSrc_pairBar (n : Nat) : (s.syncSrc n).pairBar = s.pairBar := by
  simp only [State.syncSrc]; split
  · simp only [State.hicEvent_pairBar]
  · split <;> rfl
@[simp] theorem State.syncSrc_winStarts (n : Nat) : (s.syncSrc n).winStarts = s.winStarts := by
  simp only [State.syncSrc]; split
  · simp only [State.hicEvent_winStarts]
  · split <;> rfl
@[simp] theorem State.syncSrc_winClosed (n : Nat) : (s.syncSrc n).winClosed = s.winClosed := by
  simp only [State.syncSrc]; split
  · simp only [State.hicEvent_winClosed]
  · split <;> rfl
@[simp] theorem State.syncSrc_assigns (n : Nat) : (s.syncSrc n).assigns = s.assigns := by
  simp only [State.syncSrc]; split
  · simp only [State.hicEvent_assigns]
  · split <;> rfl
@[simp] theorem State.syncSrc_incs (n : Nat) : (s.syncSrc n).incs = s.incs := by
  simp only [State.syncSrc]; split
  · simp only [State.hicEvent_incs]
  · split <;> rfl
@[simp] theorem State.syncSrc_chans (n : Nat) : (s.syncSrc n).chans = s.chans := by
  simp only [State.syncSrc]; split
  · simp only [State.hicEvent_chans]
  · split <;> rfl
@[simp] theorem State.syncSrc_intake (n : Nat) : (s.syncSrc n).intake = s.intake := by
  simp only [State.syncSrc]; split
  · simp only [State.hicEvent_intake]
  · split <;> rfl
@[simp] theorem State.syncSrc_ftab (n : Nat) : (s.syncSrc n).ftab = s.ftab := by
  simp only [State.syncSrc]; split
  · simp only [State.hicEvent_ftab]
  · split <;> rfl
@[simp] theorem State.syncSrc_waiting (n : Nat) : (s.syncSrc n).waiting = s.waiting := by
  simp only [State.syncSrc]; split
  · simp only [State.hicEvent_waiting]
  · split <;> rfl
@[simp] theorem State.syncSrc_moder (n : Nat) : (s.syncSrc n).moder = s.moder := by
  simp only [State.syncSrc]; split
  · simp only [State.hicEvent_moder]
  · split <;> rfl
@[simp] theorem State.syncSrc_emb (n : Nat) : (s.syncSrc n).emb = s.emb := by
  simp only [State.syncSrc]; split
  · simp only [State.hicEvent_emb]
  · split <;> rfl
@[simp] theorem State.syncSrc_embForce (n : Nat) : (s.syncSrc n).embForce = s.embForce := by
  simp only [State.syncSrc]; split
  · simp only [State.hicEvent_embForce]
  · split <;> rfl
@[simp] theorem State.syncSrc_quench (n : Nat) : (s.syncSrc n).quench = s.quench := by
  simp only [State.syncSrc]; split
  · simp only [State.hicEvent_quench]
  · split <;> rfl
@[simp] theorem State.syncSrc_anvils (n : Nat) : (s.syncSrc n).anvils = s.anvils := by
  simp only [State.syncSrc]; split
  · simp only [State.hicEvent_anvils]
  · split <;> rfl
@[simp] theorem State.syncSrc_cmp (n : Nat) : (s.syncSrc n).cmp = s.cmp := by
  simp only [State.syncSrc]; split
  · simp only [State.hicEvent_cmp]
  · split <;> rfl
@[simp] theorem State.syncSrc_captures (n : Nat) : (s.syncSrc n).captures = s.captures := by
  simp only [State.syncSrc]; split
  · simp only [State.hicEvent_captures]
  · split <;> rfl
@[simp] theorem State.syncSrc_ageDue (n : Nat) : (s.syncSrc n).ageDue = s.ageDue := by
  simp only [State.syncSrc]; split
  · simp only [State.hicEvent_ageDue]
  · split <;> rfl
@[simp] theorem State.syncSrc_stageEnd (n : Nat) : (s.syncSrc n).stageEnd = s.stageEnd := by
  simp only [State.syncSrc]; split
  · simp only [State.hicEvent_stageEnd]
  · split <;> rfl
@[simp] theorem State.syncSrc_lateSeen (n : Nat) : (s.syncSrc n).lateSeen = s.lateSeen := by
  simp only [State.syncSrc]; split
  · simp only [State.hicEvent_lateSeen]
  · split <;> rfl
@[simp] theorem State.syncSrc_time (n : Nat) : (s.syncSrc n).time = s.time := by
  simp only [State.syncSrc]; split
  · simp only [State.hicEvent_time]
  · split <;> rfl
@[simp] theorem State.syncSrc_links (n : Nat) : (s.syncSrc n).links = s.links := by
  simp only [State.syncSrc]; split
  · simp only [State.hicEvent_links]
  · split <;> rfl
@[simp] theorem State.syncSrc_reasm (n : Nat) : (s.syncSrc n).reasm = s.reasm := by
  simp only [State.syncSrc]; split
  · simp only [State.hicEvent_reasm]
  · split <;> rfl
@[simp] theorem State.syncSrc_tenants (n : Nat) : (s.syncSrc n).tenants = s.tenants := by
  simp only [State.syncSrc]; split
  · simp only [State.hicEvent_tenants]
  · split <;> rfl
@[simp] theorem State.syncSrc_depotUp (n : Nat) : (s.syncSrc n).depotUp = s.depotUp := by
  simp only [State.syncSrc]; split
  · simp only [State.hicEvent_depotUp]
  · split <;> rfl
@[simp] theorem State.syncSrc_msix (n : Nat) : (s.syncSrc n).msix = s.msix := by
  simp only [State.syncSrc]; split
  · simp only [State.hicEvent_msix]
  · split <;> rfl
@[simp] theorem State.syncSrc_draining (n : Nat) : (s.syncSrc n).draining = s.draining := by
  simp only [State.syncSrc]; split
  · simp only [State.hicEvent_draining]
  · split <;> rfl
@[simp] theorem State.syncSrc_anchors (n : Nat) : (s.syncSrc n).anchors = s.anchors := by
  simp only [State.syncSrc]; split
  · simp only [State.hicEvent_anchors]
  · split <;> rfl
@[simp] theorem State.syncSrc_hearth (n : Nat) : (s.syncSrc n).hearth = s.hearth := by
  simp only [State.syncSrc]; split
  · simp only [State.hicEvent_hearth]
  · split <;> rfl
@[simp] theorem State.syncSrc_recover (n : Nat) : (s.syncSrc n).recover = s.recover := by
  simp only [State.syncSrc]; split
  · simp only [State.hicEvent_recover]
  · split <;> rfl
@[simp] theorem State.syncSrc_boot (n : Nat) : (s.syncSrc n).boot = s.boot := by
  simp only [State.syncSrc]; split
  · simp only [State.hicEvent_boot]
  · split <;> rfl
@[simp] theorem State.syncSrc_modes (n : Nat) : (s.syncSrc n).modes = s.modes := by
  simp only [State.syncSrc]; split
  · simp only [State.hicEvent_modes]
  · split <;> rfl
@[simp] theorem State.syncSrc_canRx (n : Nat) : (s.syncSrc n).canRx = s.canRx := by
  simp only [State.syncSrc]; split
  · simp only [State.hicEvent_canRx]
  · split <;> rfl
@[simp] theorem State.syncSrc_ethRx (n : Nat) : (s.syncSrc n).ethRx = s.ethRx := by
  simp only [State.syncSrc]; split
  · simp only [State.hicEvent_ethRx]
  · split <;> rfl
@[simp] theorem State.syncSrc_timers (n : Nat) : (s.syncSrc n).timers = s.timers := by
  simp only [State.syncSrc]; split
  · simp only [State.hicEvent_timers]
  · split <;> rfl
@[simp] theorem State.syncSrc_out (n : Nat) : (s.syncSrc n).out = s.out := by
  simp only [State.syncSrc]; split
  · simp only [State.hicEvent_out]
  · split <;> rfl
@[simp] theorem State.syncSrc_freeCtr (n : Nat) : (s.syncSrc n).freeCtr = s.freeCtr := by
  simp only [State.syncSrc]; split
  · simp only [State.hicEvent_freeCtr]
  · split <;> rfl

/-! ### event -/

@[simp] theorem State.event_pending (f : FRef) (n : Nat) : (s.event f n).pending = s.pending := by simp only [State.event, State.syncSrc_pending, State.setFld_pending]
@[simp] theorem State.event_heldLo (f : FRef) (n : Nat) : (s.event f n).heldLo = s.heldLo := by simp only [State.event, State.syncSrc_heldLo, State.setFld_heldLo]
@[simp] theorem State.event_capHi (f : FRef) (n : Nat) : (s.event f n).capHi = s.capHi := by simp only [State.event, State.syncSrc_capHi, State.setFld_capHi]
@[simp] theorem State.event_heldWrites (f : FRef) (n : Nat) : (s.event f n).heldWrites = s.heldWrites := by simp only [State.event, State.syncSrc_heldWrites, State.setFld_heldWrites]
@[simp] theorem State.event_mem (f : FRef) (n : Nat) : (s.event f n).mem = s.mem := by simp only [State.event, State.syncSrc_mem, State.setFld_mem]
@[simp] theorem State.event_poison (f : FRef) (n : Nat) : (s.event f n).poison = s.poison := by simp only [State.event, State.syncSrc_poison, State.setFld_poison]
@[simp] theorem State.event_damage (f : FRef) (n : Nat) : (s.event f n).damage = s.damage := by simp only [State.event, State.syncSrc_damage, State.setFld_damage]
@[simp] theorem State.event_arms (f : FRef) (n : Nat) : (s.event f n).arms = s.arms := by simp only [State.event, State.syncSrc_arms, State.setFld_arms]
@[simp] theorem State.event_mram (f : FRef) (n : Nat) : (s.event f n).mram = s.mram := by simp only [State.event, State.syncSrc_mram, State.setFld_mram]
@[simp] theorem State.event_now (f : FRef) (n : Nat) : (s.event f n).now = s.now := by simp only [State.event, State.syncSrc_now, State.setFld_now]
@[simp] theorem State.event_sensors (f : FRef) (n : Nat) : (s.event f n).sensors = s.sensors := by simp only [State.event, State.syncSrc_sensors, State.setFld_sensors]
@[simp] theorem State.event_hicClaimer (f : FRef) (n : Nat) : (s.event f n).hicClaimer = s.hicClaimer := by simp only [State.event, State.syncSrc_hicClaimer, State.setFld_hicClaimer]
@[simp] theorem State.event_logTimes (f : FRef) (n : Nat) : (s.event f n).logTimes = s.logTimes := by simp only [State.event, State.syncSrc_logTimes, State.setFld_logTimes]
@[simp] theorem State.event_firstAt (f : FRef) (n : Nat) : (s.event f n).firstAt = s.firstAt := by simp only [State.event, State.syncSrc_firstAt, State.setFld_firstAt]
@[simp] theorem State.event_logSeq (f : FRef) (n : Nat) : (s.event f n).logSeq = s.logSeq := by simp only [State.event, State.syncSrc_logSeq, State.setFld_logSeq]
@[simp] theorem State.event_snap (f : FRef) (n : Nat) : (s.event f n).snap = s.snap := by simp only [State.event, State.syncSrc_snap, State.setFld_snap]
@[simp] theorem State.event_evr (f : FRef) (n : Nat) : (s.event f n).evr = s.evr := by simp only [State.event, State.syncSrc_evr, State.setFld_evr]
@[simp] theorem State.event_golden (f : FRef) (n : Nat) : (s.event f n).golden = s.golden := by simp only [State.event, State.syncSrc_golden, State.setFld_golden]
@[simp] theorem State.event_poolGiB (f : FRef) (n : Nat) : (s.event f n).poolGiB = s.poolGiB := by simp only [State.event, State.syncSrc_poolGiB, State.setFld_poolGiB]
@[simp] theorem State.event_fm (f : FRef) (n : Nat) : (s.event f n).fm = s.fm := by simp only [State.event, State.syncSrc_fm, State.setFld_fm]
@[simp] theorem State.event_units (f : FRef) (n : Nat) : (s.event f n).units = s.units := by simp only [State.event, State.syncSrc_units, State.setFld_units]
@[simp] theorem State.event_models (f : FRef) (n : Nat) : (s.event f n).models = s.models := by simp only [State.event, State.syncSrc_models, State.setFld_models]
@[simp] theorem State.event_serials (f : FRef) (n : Nat) : (s.event f n).serials = s.serials := by simp only [State.event, State.syncSrc_serials, State.setFld_serials]
@[simp] theorem State.event_jobs (f : FRef) (n : Nat) : (s.event f n).jobs = s.jobs := by simp only [State.event, State.syncSrc_jobs, State.setFld_jobs]
@[simp] theorem State.event_jobSeq (f : FRef) (n : Nat) : (s.event f n).jobSeq = s.jobSeq := by simp only [State.event, State.syncSrc_jobSeq, State.setFld_jobSeq]
@[simp] theorem State.event_rrCtx (f : FRef) (n : Nat) : (s.event f n).rrCtx = s.rrCtx := by simp only [State.event, State.syncSrc_rrCtx, State.setFld_rrCtx]
@[simp] theorem State.event_rrRing (f : FRef) (n : Nat) : (s.event f n).rrRing = s.rrRing := by simp only [State.event, State.syncSrc_rrRing, State.setFld_rrRing]
@[simp] theorem State.event_winForce (f : FRef) (n : Nat) : (s.event f n).winForce = s.winForce := by simp only [State.event, State.syncSrc_winForce, State.setFld_winForce]
@[simp] theorem State.event_pairBar (f : FRef) (n : Nat) : (s.event f n).pairBar = s.pairBar := by simp only [State.event, State.syncSrc_pairBar, State.setFld_pairBar]
@[simp] theorem State.event_winStarts (f : FRef) (n : Nat) : (s.event f n).winStarts = s.winStarts := by simp only [State.event, State.syncSrc_winStarts, State.setFld_winStarts]
@[simp] theorem State.event_winClosed (f : FRef) (n : Nat) : (s.event f n).winClosed = s.winClosed := by simp only [State.event, State.syncSrc_winClosed, State.setFld_winClosed]
@[simp] theorem State.event_assigns (f : FRef) (n : Nat) : (s.event f n).assigns = s.assigns := by simp only [State.event, State.syncSrc_assigns, State.setFld_assigns]
@[simp] theorem State.event_incs (f : FRef) (n : Nat) : (s.event f n).incs = s.incs := by simp only [State.event, State.syncSrc_incs, State.setFld_incs]
@[simp] theorem State.event_chans (f : FRef) (n : Nat) : (s.event f n).chans = s.chans := by simp only [State.event, State.syncSrc_chans, State.setFld_chans]
@[simp] theorem State.event_intake (f : FRef) (n : Nat) : (s.event f n).intake = s.intake := by simp only [State.event, State.syncSrc_intake, State.setFld_intake]
@[simp] theorem State.event_ftab (f : FRef) (n : Nat) : (s.event f n).ftab = s.ftab := by simp only [State.event, State.syncSrc_ftab, State.setFld_ftab]
@[simp] theorem State.event_waiting (f : FRef) (n : Nat) : (s.event f n).waiting = s.waiting := by simp only [State.event, State.syncSrc_waiting, State.setFld_waiting]
@[simp] theorem State.event_moder (f : FRef) (n : Nat) : (s.event f n).moder = s.moder := by simp only [State.event, State.syncSrc_moder, State.setFld_moder]
@[simp] theorem State.event_emb (f : FRef) (n : Nat) : (s.event f n).emb = s.emb := by simp only [State.event, State.syncSrc_emb, State.setFld_emb]
@[simp] theorem State.event_embForce (f : FRef) (n : Nat) : (s.event f n).embForce = s.embForce := by simp only [State.event, State.syncSrc_embForce, State.setFld_embForce]
@[simp] theorem State.event_quench (f : FRef) (n : Nat) : (s.event f n).quench = s.quench := by simp only [State.event, State.syncSrc_quench, State.setFld_quench]
@[simp] theorem State.event_anvils (f : FRef) (n : Nat) : (s.event f n).anvils = s.anvils := by simp only [State.event, State.syncSrc_anvils, State.setFld_anvils]
@[simp] theorem State.event_cmp (f : FRef) (n : Nat) : (s.event f n).cmp = s.cmp := by simp only [State.event, State.syncSrc_cmp, State.setFld_cmp]
@[simp] theorem State.event_captures (f : FRef) (n : Nat) : (s.event f n).captures = s.captures := by simp only [State.event, State.syncSrc_captures, State.setFld_captures]
@[simp] theorem State.event_ageDue (f : FRef) (n : Nat) : (s.event f n).ageDue = s.ageDue := by simp only [State.event, State.syncSrc_ageDue, State.setFld_ageDue]
@[simp] theorem State.event_stageEnd (f : FRef) (n : Nat) : (s.event f n).stageEnd = s.stageEnd := by simp only [State.event, State.syncSrc_stageEnd, State.setFld_stageEnd]
@[simp] theorem State.event_lateSeen (f : FRef) (n : Nat) : (s.event f n).lateSeen = s.lateSeen := by simp only [State.event, State.syncSrc_lateSeen, State.setFld_lateSeen]
@[simp] theorem State.event_time (f : FRef) (n : Nat) : (s.event f n).time = s.time := by simp only [State.event, State.syncSrc_time, State.setFld_time]
@[simp] theorem State.event_links (f : FRef) (n : Nat) : (s.event f n).links = s.links := by simp only [State.event, State.syncSrc_links, State.setFld_links]
@[simp] theorem State.event_reasm (f : FRef) (n : Nat) : (s.event f n).reasm = s.reasm := by simp only [State.event, State.syncSrc_reasm, State.setFld_reasm]
@[simp] theorem State.event_tenants (f : FRef) (n : Nat) : (s.event f n).tenants = s.tenants := by simp only [State.event, State.syncSrc_tenants, State.setFld_tenants]
@[simp] theorem State.event_depotUp (f : FRef) (n : Nat) : (s.event f n).depotUp = s.depotUp := by simp only [State.event, State.syncSrc_depotUp, State.setFld_depotUp]
@[simp] theorem State.event_msix (f : FRef) (n : Nat) : (s.event f n).msix = s.msix := by simp only [State.event, State.syncSrc_msix, State.setFld_msix]
@[simp] theorem State.event_draining (f : FRef) (n : Nat) : (s.event f n).draining = s.draining := by simp only [State.event, State.syncSrc_draining, State.setFld_draining]
@[simp] theorem State.event_anchors (f : FRef) (n : Nat) : (s.event f n).anchors = s.anchors := by simp only [State.event, State.syncSrc_anchors, State.setFld_anchors]
@[simp] theorem State.event_hearth (f : FRef) (n : Nat) : (s.event f n).hearth = s.hearth := by simp only [State.event, State.syncSrc_hearth, State.setFld_hearth]
@[simp] theorem State.event_recover (f : FRef) (n : Nat) : (s.event f n).recover = s.recover := by simp only [State.event, State.syncSrc_recover, State.setFld_recover]
@[simp] theorem State.event_boot (f : FRef) (n : Nat) : (s.event f n).boot = s.boot := by simp only [State.event, State.syncSrc_boot, State.setFld_boot]
@[simp] theorem State.event_modes (f : FRef) (n : Nat) : (s.event f n).modes = s.modes := by simp only [State.event, State.syncSrc_modes, State.setFld_modes]
@[simp] theorem State.event_canRx (f : FRef) (n : Nat) : (s.event f n).canRx = s.canRx := by simp only [State.event, State.syncSrc_canRx, State.setFld_canRx]
@[simp] theorem State.event_ethRx (f : FRef) (n : Nat) : (s.event f n).ethRx = s.ethRx := by simp only [State.event, State.syncSrc_ethRx, State.setFld_ethRx]
@[simp] theorem State.event_timers (f : FRef) (n : Nat) : (s.event f n).timers = s.timers := by simp only [State.event, State.syncSrc_timers, State.setFld_timers]
@[simp] theorem State.event_out (f : FRef) (n : Nat) : (s.event f n).out = s.out := by simp only [State.event, State.syncSrc_out, State.setFld_out]
@[simp] theorem State.event_freeCtr (f : FRef) (n : Nat) : (s.event f n).freeCtr = s.freeCtr := by simp only [State.event, State.syncSrc_freeCtr, State.setFld_freeCtr]

/-! ### Registers -/

variable {s : State}

theorem SMap.find?_insert_same {α : Type} (m : SMap α) (k : Nat) (v : α) : SMap.find? (SMap.insert m k v) k = some v := by
  induction m with
  | nil => simp [SMap.insert, SMap.find?]
  | cons c t ih =>
    obtain ⟨k', v'⟩ := c
    simp only [SMap.insert]
    split
    · simp [SMap.find?]
    · split
      · simp [SMap.find?]
      · next h => simp [SMap.find?, h, ih]

theorem SMap.find?_insert_ne {α : Type} (m : SMap α) {k j : Nat} (v : α) (h : k ≠ j) : SMap.find? (SMap.insert m k v) j = SMap.find? m j := by
  induction m with
  | nil => simp [SMap.insert, SMap.find?, h]
  | cons c t ih =>
    obtain ⟨k', v'⟩ := c
    simp only [SMap.insert]
    split
    · simp [SMap.find?, h]
    · split
      · next e => subst e; simp [SMap.find?, h]
      · simp [SMap.find?, ih]

theorem SMap.find?_erase_ne {α : Type} (m : SMap α) {k j : Nat} (h : k ≠ j) : SMap.find? (SMap.erase m k) j = SMap.find? m j := by
  induction m with
  | nil => rfl
  | cons c t ih =>
    obtain ⟨k', v'⟩ := c
    simp only [SMap.erase]
    split
    · next e => subst e; simp [SMap.find?, h]
    · simp [SMap.find?, ih]

theorem SMap.getD_put_ne {α : Type} [DecidableEq α] (m : SMap α) {k j : Nat} (d v e : α) (h : k ≠ j) :
    SMap.getD (SMap.put m k d v) j e = SMap.getD m j e := by
  unfold SMap.getD SMap.put
  split
  · rw [SMap.find?_erase_ne m h]
  · rw [SMap.find?_insert_ne m v h]

theorem SMap.getD_put_same {α : Type} [DecidableEq α] (m : SMap α) (k : Nat) (d v : α) (h : SMap.wf m = true) :
    SMap.getD (SMap.put m k d v) k d = v := by
  rw [SMap.getD_put m k k d v d h (fun _ => rfl)]; simp

/-- Another register. -/
theorem State.rd_wr_ne {a b : Nat} (v : Word) (h : a ≠ b) : (s.wr a v).rd b = s.rd b := SMap.getD_put_ne _ _ _ _ h

/-- The register written. -/
theorem State.rd_wr_same (a : Nat) (v : Word) (h : SMap.wf s.regs = true) : (s.wr a v).rd a = v := SMap.getD_put_same _ _ _ _ h

@[simp] theorem State.wf_wr (a : Nat) (v : Word) (h : SMap.wf s.regs = true) : SMap.wf (s.wr a v).regs = true := SMap.wf_put _ _ _ h

@[simp] theorem State.wf_setFld (f : FRef) (v : Nat) (h : SMap.wf s.regs = true) : SMap.wf (s.setFld f v).regs = true := SMap.wf_put _ _ _ h

theorem State.rd_setFld_ne {f : FRef} {b : Nat} (v : Nat) (h : f.addr ≠ b) : (s.setFld f v).rd b = s.rd b := State.rd_wr_ne _ h

/-- A field of another register. -/
theorem State.fld_setFld_ne {f g : FRef} (v : Nat) (h : f.addr ≠ g.addr) : (s.setFld f v).fld g = s.fld g := by
  simp only [State.fld, State.rd_setFld_ne v h]

theorem State.rd_setFld_same (f : FRef) (v : Nat) (h : SMap.wf s.regs = true) (hw : f.lsb + f.width ≤ 32) :
    ((s.setFld f v).rd f.addr).toNat = putBits (s.rd f.addr).toNat f.lsb f.width v := by
  unfold State.setFld
  rw [State.rd_wr_same _ _ h, BitVec.toNat_ofNat, Nat.mod_eq_of_lt]
  exact putBits_lt _ (s.rd f.addr).isLt hw

/-- The field written. -/
theorem State.fld_setFld_same (f : FRef) (v : Nat) (h : SMap.wf s.regs = true) (hw : f.lsb + f.width ≤ 32) :
    (s.setFld f v).fld f = v % 2 ^ f.width := by
  unfold State.fld
  rw [State.rd_setFld_same f v h hw, bits_putBits]

/-- Another field of the register written. -/
theorem State.fld_setFld_apart {f g : FRef} (v : Nat) (h : SMap.wf s.regs = true) (hw : f.lsb + f.width ≤ 32) (ha : f.addr = g.addr)
    (hd : f.lsb + f.width ≤ g.lsb ∨ g.lsb + g.width ≤ f.lsb) : (s.setFld f v).fld g = s.fld g := by
  unfold State.fld
  rw [← ha, State.rd_setFld_same f v h hw]
  rcases hd with hd | hd
  · exact bits_putBits_high _ _ _ hd
  · exact bits_putBits_low _ _ _ hd

theorem State.flag_setFld_same (f : FRef) (v : Nat) (h : SMap.wf s.regs = true) (hw : f.lsb + f.width ≤ 32) :
    (s.setFld f v).flag f = (v % 2 ^ f.width == 1) := by
  unfold State.flag; rw [State.fld_setFld_same f v h hw]

theorem State.flag_setFld_ne {f g : FRef} (v : Nat) (h : f.addr ≠ g.addr) : (s.setFld f v).flag g = s.flag g := by
  unfold State.flag; rw [State.fld_setFld_ne v h]

theorem State.rd_setFlag_ne {f : FRef} {b : Nat} (v : Bool) (h : f.addr ≠ b) : (s.setFlag f v).rd b = s.rd b := State.rd_wr_ne _ h

theorem State.rd_count_ne {f : FRef} {b : Nat} (n : Nat) (h : f.addr ≠ b) : (s.count f n).rd b = s.rd b := State.rd_wr_ne _ h

theorem State.rd_wr64_ne {a b : Nat} (v : Nat) (h : a ≠ b) (h' : a + 4 ≠ b) : (s.wr64 a v).rd b = s.rd b := by
  unfold State.wr64; rw [State.rd_wr_ne _ h', State.rd_wr_ne _ h]

@[simp] theorem State.rd_send (m : OutMsg) (a : Nat) : (s.send m).rd a = s.rd a := rfl

/-! ### Interrupt sources (R320) -/

/-- Nothing but the source's own register changes. -/
theorem State.rd_hicEvent_ne (n : Nat) {b : Nat} (h : Reg.HIC_SRC_STATE n ≠ b) : (s.hicEvent n).rd b = s.rd b := by
  unfold State.hicEvent
  rw [State.rd_setFlag_ne _ h, State.rd_count_ne _ h]

theorem State.rd_syncSrc_ne (n : Nat) {b : Nat} (h : Reg.HIC_SRC_STATE n ≠ b) : (s.syncSrc n).rd b = s.rd b := by
  unfold State.syncSrc
  simp only
  split
  · rw [State.rd_hicEvent_ne n h]; rfl
  · split <;> rfl

/-- A source's own register lies in the interrupt controller's state array. -/
theorem srcState_in (n b : Nat) (h : b < 0x3000202000 ∨ 0x3000203000 ≤ b) (hn : n < 1024) : Reg.HIC_SRC_STATE n ≠ b := by
  unfold Reg.HIC_SRC_STATE; omega

end Sys2Proof.Machine
end

