-- ==== Sys2Proof/Laws/Write.lean ====
section
/-! SUPPORT. One field of a register is written and its other fields keep their values: what such a write does (R14 to R19). -/

namespace Sys2Proof.Machine

variable {s : State}

/-- Two fields share no bit. -/
def FieldDesc.apart (f g : FieldDesc) : Bool := f.lsb + f.width ≤ g.lsb || g.lsb + g.width ≤ f.lsb

theorem FieldDesc.apart_symm {f g : FieldDesc} (h : f.apart g = true) : g.apart f = true := by
  simp only [FieldDesc.apart, Bool.or_eq_true, decide_eq_true_eq] at *; omega

theorem bits_putBits_apart {f g : FieldDesc} (v x : Nat) (h : f.apart g = true) :
    bits (putBits v f.lsb f.width x) g.lsb g.width = bits v g.lsb g.width := by
  simp only [FieldDesc.apart, Bool.or_eq_true, decide_eq_true_eq] at h
  rcases h with h | h
  · exact bits_putBits_high _ _ _ h
  · exact bits_putBits_low _ _ _ h

/-- Fields of a list are written one after the other. -/
def putFold (p : FieldDesc → Bool) (g : FieldDesc → Nat) (l : List FieldDesc) (v : Nat) : Nat :=
  l.foldl (fun v f => if p f then putBits v f.lsb f.width (g f) else v) v

theorem putFold_cons (p : FieldDesc → Bool) (g : FieldDesc → Nat) (f : FieldDesc) (l : List FieldDesc) (v : Nat) :
    putFold p g (f :: l) v = putFold p g l (if p f then putBits v f.lsb f.width (g f) else v) := rfl

theorem putFold_apart {p : FieldDesc → Bool} {g : FieldDesc → Nat} {l : List FieldDesc} {v : Nat} {x : FieldDesc}
    (h : ∀ f ∈ l, f.apart x = true) : bits (putFold p g l v) x.lsb x.width = bits v x.lsb x.width := by
  induction l generalizing v with
  | nil => rfl
  | cons f t ih =>
    rw [putFold_cons, ih (fun y hy => h y (List.mem_cons_of_mem _ hy))]
    split
    · exact bits_putBits_apart _ _ (h f (List.mem_cons_self ..))
    · rfl

theorem putFold_bits {p : FieldDesc → Bool} {g : FieldDesc → Nat} {l : List FieldDesc} {v : Nat}
    (hp : l.Pairwise (fun f g => f.apart g = true)) {x : FieldDesc} (hx : x ∈ l) :
    bits (putFold p g l v) x.lsb x.width = if p x then g x % 2 ^ x.width else bits v x.lsb x.width := by
  induction l generalizing v with
  | nil => cases hx
  | cons f t ih =>
    rw [List.pairwise_cons] at hp
    rw [putFold_cons]
    rcases List.mem_cons.mp hx with rfl | hx
    · rw [putFold_apart (fun f hf => FieldDesc.apart_symm (hp.1 f hf))]
      split
      · rw [bits_putBits]
      · rfl
    · rw [ih hp.2 hx]
      split
      · rfl
      · split
        · exact bits_putBits_apart _ _ (hp.1 x hx)
        · rfl

theorem putFold_lt {p : FieldDesc → Bool} {g : FieldDesc → Nat} {l : List FieldDesc} {v : Nat} (hl : ∀ f ∈ l, f.lsb + f.width ≤ 32)
    (hv : v < 2 ^ 32) : putFold p g l v < 2 ^ 32 := by
  induction l generalizing v with
  | nil => exact hv
  | cons f t ih =>
    rw [putFold_cons]
    apply ih (fun x hx => hl x (List.mem_cons_of_mem _ hx))
    split
    · exact putBits_lt _ hv (hl f (List.mem_cons_self ..))
    · exact hv

theorem RegDesc.hideWo_eq (d : RegDesc) (v : Nat) : d.hideWo v = putFold (fun f => f.access == .wo) (fun _ => 0) d.fields v := rfl

/-! ### A write of one field from outside -/

/-- A register whose fields are apart, not empty and inside the word; decided for a register at hand. -/
def RegDesc.sound (d : RegDesc) : Bool :=
  !d.pair && d.fields.all (fun f => 0 < f.width && f.lsb + f.width ≤ 32)
    && (d.fields.zipIdx.all (fun f => d.fields.zipIdx.all (fun g => f.2 == g.2 || f.1.apart g.1)))

theorem RegDesc.sound_pairwise {d : RegDesc} (h : d.sound = true) : d.fields.Pairwise (fun f g => f.apart g = true) := by
  simp only [RegDesc.sound, Bool.and_eq_true, List.all_eq_true] at h
  rw [List.pairwise_iff_getElem]
  intro i j hi hj hij
  have h1 := h.2 (d.fields[i], i) (by simp [List.mem_zipIdx_iff_getElem?]) (d.fields[j], j) (by simp [List.mem_zipIdx_iff_getElem?])
  simp only [Bool.or_eq_true, beq_iff_eq] at h1
  rcases h1 with h1 | h1
  · omega
  · exact h1

theorem RegDesc.sound_pos {d : RegDesc} (h : d.sound = true) : ∀ f ∈ d.fields, 0 < f.width := by
  simp only [RegDesc.sound, Bool.and_eq_true, List.all_eq_true] at h
  intro f hf; have := (h.1.2 f hf).1; simpa using this

theorem RegDesc.sound_le {d : RegDesc} (h : d.sound = true) : ∀ f ∈ d.fields, f.lsb + f.width ≤ 32 := by
  simp only [RegDesc.sound, Bool.and_eq_true, List.all_eq_true] at h
  intro f hf; have := (h.1.2 f hf).2; simpa using this

theorem RegDesc.sound_pair {d : RegDesc} (h : d.sound = true) : d.pair = false := by
  simp only [RegDesc.sound, Bool.and_eq_true, Bool.not_eq_true'] at h; exact h.1.1

/-- Everything about a register that a write by address asks for, decided for the address at hand. -/
def regIs (a : Nat) (h : RegHit) : Bool := regAt a == some h && a % 4 == 0 && ((doorbellAt a).isNone && inRegs a) && h.desc.sound

theorem State.reaches_parts {who : Party} {a : Nat} (h : s.reaches who a = true) :
    s.partyOn who = true ∧ s.inParked = false ∧ s.windowAllows who a true = true ∧ (s.liveReg a).isSome = true := by
  simp only [State.reaches, Bool.and_eq_true, Bool.not_eq_true'] at h
  exact ⟨h.1.1.1, h.1.1.2, h.1.2, h.2⟩

theorem State.liveReg_of {a : Nat} {h : RegHit} (hs : (s.liveReg a).isSome = true) (hr : regAt a = some h) : s.liveReg a = some h := by
  unfold State.liveReg at hs ⊢
  rw [hr] at hs ⊢
  simp only at hs ⊢
  split
  · next e => rw [if_pos e] at hs; simp at hs
  · rfl

/-- The value a register has before a write, its write-only fields 0. -/
def State.plain (s : State) (h : RegHit) (a : Nat) : Nat := h.desc.hideWo (s.rd a).toNat

/-- A whole-word write that gets through and whose fields make no note. -/
theorem State.busWrite_acc {who : Party} {a word x : Nat} {h : RegHit} (hr : s.reaches who a = true) (hi : regIs a h = true)
    (hw : word < 2 ^ 32) (hn : ∀ f ∈ h.desc.fields, s.holdsBack h f = false)
    (hacc : h.desc.fields.foldl (s.writeField h word) ⟨s.plain h a, []⟩ = ⟨x, []⟩) :
    s.busWrite who a 4 word = (s.wr a (BitVec.ofNat 32 (h.desc.hideWo x))).hook s ⟨h, (s.rd a).toNat, x, word⟩ := by
  simp only [regIs, Bool.and_eq_true, beq_iff_eq, Option.isNone_iff_eq_none] at hi
  obtain ⟨⟨⟨h1, h2⟩, h3, hin⟩, h4⟩ := hi
  obtain ⟨r1, r2, r3, r4⟩ := State.reaches_parts hr
  have hl := State.liveReg_of r4 h1
  have hp := RegDesc.sound_pair h4
  have hk : h.desc.fields.filter (fun f => !s.holdsBack h f) = h.desc.fields :=
    List.filter_eq_self.mpr (fun f hf => by rw [hn f hf]; rfl)
  have hl2 : ∀ p : FieldDesc → Bool, h.desc.fields.filter (fun f => s.holdsBack h f && p f) = [] := fun p =>
    List.filter_eq_nil_iff.mpr (fun f hf => by rw [hn f hf]; simp)
  unfold State.busWrite
  simp only [r1, r2, r3, h2, h3, hin, Bool.not_true, Bool.false_eq_true, if_false, ne_eq, not_true_eq_false, or_self]
  unfold State.writeWord State.regWrite
  simp only [hl, hp, Bool.false_and, Bool.false_eq_true, if_false, Nat.mod_eq_of_lt hw]
  unfold State.plain at hacc
  unfold State.applyValue State.writeFields
  simp only [hp, hk, hl2, List.findSome?_nil, Bool.false_eq_true, if_false, hacc, List.foldl_nil]

/-- A field is written. -/
theorem State.poke_acc {who : Party} {f : FRef} {v x : Nat} {h : RegHit} (hr : s.reaches who f.addr = true)
    (hi : regIs f.addr h = true)
    (hacc : s.writeField h (putBits 0 f.lsb f.width v) ⟨s.plain h f.addr, []⟩ (h.field f) = ⟨x, []⟩) :
    s.poke who f v = (s.wr f.addr (BitVec.ofNat 32 (h.desc.hideWo x))).hook s ⟨h, (s.rd f.addr).toNat, x, putBits 0 f.lsb f.width v⟩ := by
  simp only [regIs, Bool.and_eq_true, beq_iff_eq, Option.isNone_iff_eq_none] at hi
  obtain ⟨⟨⟨h1, -⟩, -⟩, h4⟩ := hi
  obtain ⟨r1, r2, r3, r4⟩ := State.reaches_parts hr
  have hl := State.liveReg_of r4 h1
  have hp := RegDesc.sound_pair h4
  unfold State.plain at hacc
  unfold State.poke State.writeOne State.writeFields
  simp only [r1, r2, r3, hl, hp, hacc, Bool.not_true, Bool.false_and, Bool.or_self, Bool.false_eq_true, if_false, List.foldl_cons, List.foldl_nil]

/-- What the field's part of the written word is. -/
theorem bits_poked (w l n v : Nat) : bits (putBits w l n v) l n = v % 2 ^ n := bits_putBits _ _ _ _

/-- A write-only field. -/
theorem State.writeField_wo {h : RegHit} {total cur : Nat} {fd : FieldDesc} (ha : fd.access = .wo) (hl : fd.legal = .any)
    (hs : s.shut h fd = false) (hn : bits total fd.lsb fd.width ≠ 0) :
    s.writeField h total ⟨cur, []⟩ fd = ⟨putBits cur fd.lsb fd.width (bits total fd.lsb fd.width), []⟩ := by
  unfold State.writeField
  simp [ha, hs, hn, State.legalValue, hl, Legal.fixed]

/-- A set-only field. -/
theorem State.writeField_w1s {h : RegHit} {total cur : Nat} {fd : FieldDesc} (ha : fd.access = .w1s) (hs : s.shut h fd = false)
    (hn : bits total fd.lsb fd.width ≠ 0)
    (hl : s.legalValue h fd (bits cur fd.lsb fd.width) (bits cur fd.lsb fd.width ||| bits total fd.lsb fd.width) total
      = bits cur fd.lsb fd.width ||| bits total fd.lsb fd.width) :
    s.writeField h total ⟨cur, []⟩ fd
      = ⟨putBits cur fd.lsb fd.width (bits cur fd.lsb fd.width ||| bits total fd.lsb fd.width), []⟩ := by
  unfold State.writeField
  simp [ha, hs, hn, hl]

/-- A field cleared by writing ones. -/
theorem State.writeField_w1c {h : RegHit} {total cur : Nat} {fd : FieldDesc} (ha : fd.access = .w1c) (hs : s.shut h fd = false)
    (hn : bits total fd.lsb fd.width ≠ 0) :
    s.writeField h total ⟨cur, []⟩ fd
      = ⟨putBits cur fd.lsb fd.width (bits cur fd.lsb fd.width - (bits cur fd.lsb fd.width &&& bits total fd.lsb fd.width)), []⟩ := by
  unfold State.writeField
  simp [ha, hs, hn]

/-- A field that software reads and writes, with a legal value; also one that TOP_LOCK guards, while it is not set. -/
theorem State.writeField_rw {h : RegHit} {total cur : Nat} {fd : FieldDesc} (ha : fd.access = .rw ∨ fd.access = .rwl ∧ s.locked = false)
    (hs : s.shut h fd = false)
    (hl : s.legalValue h fd (bits cur fd.lsb fd.width) (bits total fd.lsb fd.width) total = bits total fd.lsb fd.width) :
    s.writeField h total ⟨cur, []⟩ fd = ⟨putBits cur fd.lsb fd.width (bits total fd.lsb fd.width), []⟩ := by
  unfold State.writeField
  rcases ha with ha | ⟨ha, hk⟩
  · simp [ha, hs, hl]
  · simp [ha, hk, hs, hl]

/-! ### The four kinds of field -/

/-- What the register map says of an address, with a stand-in where it says nothing. -/
def hitAt (a : Nat) : RegHit := (regAt a).getD ⟨.top, 0, 0, ⟨0, 4, 0, 4, 0, false, []⟩, 0, 0, false⟩

/-- The field of a register that a reference names. -/
def fieldOf (f : FRef) : FieldDesc := (hitAt f.addr).field f

/-- A reference names a field of a register of one word, with this access. -/
def FRef.is (f : FRef) (a : Access) : Bool :=
  regIs f.addr (hitAt f.addr) && (hitAt f.addr).desc.fields.contains (fieldOf f) && (fieldOf f).lsb == f.lsb && (fieldOf f).width == f.width
    && (fieldOf f).access == a

theorem FRef.is_parts {f : FRef} {a : Access} (h : f.is a = true) :
    regIs f.addr (hitAt f.addr) = true ∧ fieldOf f ∈ (hitAt f.addr).desc.fields ∧ (fieldOf f).lsb = f.lsb ∧ (fieldOf f).width = f.width
      ∧ (fieldOf f).access = a := by
  simp only [FRef.is, Bool.and_eq_true, beq_iff_eq, List.contains_iff_mem] at h
  exact ⟨h.1.1.1.1, h.1.1.1.2, h.1.1.2, h.1.2, h.2⟩

theorem regIs_regAt {a : Nat} {h : RegHit} (hi : regIs a h = true) : regAt a = some h := by
  simp only [regIs, Bool.and_eq_true, beq_iff_eq] at hi; exact hi.1.1.1

theorem State.stored_eq {f : FRef} {h : RegHit} (hi : regIs f.addr h = true) (v : Nat) :
    s.stored f v = s.wr f.addr (BitVec.ofNat 32 (h.desc.hideWo (putBits (s.plain h f.addr) f.lsb f.width v))) := by
  unfold State.stored State.plain; simp only [regIs_regAt hi]

theorem putBits_mod (v l w x : Nat) : putBits v l w (x % 2 ^ w) = putBits v l w x := by
  simp only [putBits, Nat.mod_mod]

/-- The write as the hooks see it. -/
def State.wrote (s : State) (f : FRef) (x v : Nat) : Wrote :=
  ⟨hitAt f.addr, (s.rd f.addr).toNat, putBits (s.plain (hitAt f.addr) f.addr) f.lsb f.width x,
    putBits 0 f.lsb f.width v⟩

theorem State.poke_wo {who : Party} {f : FRef} {v : Nat} (hr : s.reaches who f.addr = true) (hf : f.is .wo = true)
    (hl : (fieldOf f).legal = .any) (hs : s.shut (hitAt f.addr) (fieldOf f) = false) (hv : v % 2 ^ f.width ≠ 0) :
    s.poke who f v = (s.stored f v).hook s (s.wrote f v v) := by
  obtain ⟨h1, h2, h3, h4, h5⟩ := FRef.is_parts hf
  rw [State.poke_acc hr h1 (x := putBits (s.plain (hitAt f.addr) f.addr) f.lsb f.width v), State.stored_eq h1]
  · rfl
  · rw [show (hitAt f.addr).field f = fieldOf f from rfl, State.writeField_wo h5 hl hs (by rw [h3, h4, bits_poked]; exact hv), h3, h4, bits_poked, putBits_mod]

theorem State.poke_rw {who : Party} {f : FRef} {v : Nat} (hr : s.reaches who f.addr = true)
    (hf : f.is .rw = true ∨ f.is .rwl = true ∧ s.locked = false) (hs : s.shut (hitAt f.addr) (fieldOf f) = false)
    (hl : ∀ old word, s.legalValue (hitAt f.addr) (fieldOf f) old (v % 2 ^ f.width) word = v % 2 ^ f.width) :
    s.poke who f v = (s.stored f v).hook s (s.wrote f v v) := by
  have hk : ∃ a, f.is a = true ∧ (a = .rw ∨ a = .rwl ∧ s.locked = false) := by
    rcases hf with hf | ⟨hf, hk⟩
    · exact ⟨_, hf, .inl rfl⟩
    · exact ⟨_, hf, .inr ⟨rfl, hk⟩⟩
  obtain ⟨a, ha, hk⟩ := hk
  obtain ⟨h1, h2, h3, h4, h5⟩ := FRef.is_parts ha
  rw [State.poke_acc hr h1 (x := putBits (s.plain (hitAt f.addr) f.addr) f.lsb f.width v), State.stored_eq h1]
  · rfl
  · rw [show (hitAt f.addr).field f = fieldOf f from rfl, State.writeField_rw (by rw [h5]; exact hk) hs (by rw [h3, h4, bits_poked]; exact hl _ _), h3, h4, bits_poked, putBits_mod]

theorem State.poke_w1s {who : Party} {f : FRef} {v : Nat} (hr : s.reaches who f.addr = true) (hf : f.is .w1s = true)
    (hs : s.shut (hitAt f.addr) (fieldOf f) = false) (hv : v % 2 ^ f.width ≠ 0)
    (hl : ∀ old word, s.legalValue (hitAt f.addr) (fieldOf f) old (old ||| v % 2 ^ f.width) word = old ||| v % 2 ^ f.width) :
    s.poke who f v = (s.stored f (bits (s.plain (hitAt f.addr) f.addr) f.lsb f.width ||| v % 2 ^ f.width)).hook s
      (s.wrote f (bits (s.plain (hitAt f.addr) f.addr) f.lsb f.width ||| v % 2 ^ f.width) v) := by
  obtain ⟨h1, h2, h3, h4, h5⟩ := FRef.is_parts hf
  rw [State.poke_acc hr h1
    (x := putBits (s.plain (hitAt f.addr) f.addr) f.lsb f.width (bits (s.plain (hitAt f.addr) f.addr) f.lsb f.width ||| v % 2 ^ f.width)),
    State.stored_eq h1]
  · rfl
  · rw [show (hitAt f.addr).field f = fieldOf f from rfl, State.writeField_w1s h5 hs (by rw [h3, h4, bits_poked]; exact hv) (by rw [h3, h4, bits_poked]; exact hl _ _), h3, h4, bits_poked]

/-- A set-only bit. -/
theorem State.poke_bit {who : Party} {f : FRef} (hr : s.reaches who f.addr = true) (hf : f.is .w1s = true) (hw : f.width = 1)
    (hs : s.shut (hitAt f.addr) (fieldOf f) = false)
    (hl : ∀ old word, s.legalValue (hitAt f.addr) (fieldOf f) old 1 word = 1) :
    s.poke who f 1 = (s.stored f 1).hook s (s.wrote f 1 1) := by
  have e (b : Nat) (h : b < 2) : b ||| 1 = 1 := by
    rcases (by omega : b = 0 ∨ b = 1) with rfl | rfl <;> rfl
  have hb : bits (s.plain (hitAt f.addr) f.addr) f.lsb f.width < 2 := by
    have := bits_lt (s.plain (hitAt f.addr) f.addr) f.lsb f.width; rw [hw] at this ⊢; exact this
  have hone : 1 % 2 ^ f.width = 1 := by simp [hw]
  have hb' := e _ hb
  obtain ⟨h1, h2, h3, h4, h5⟩ := FRef.is_parts hf
  rw [State.poke_acc hr h1 (x := putBits (s.plain (hitAt f.addr) f.addr) f.lsb f.width 1), State.stored_eq h1]
  · rfl
  · rw [show (hitAt f.addr).field f = fieldOf f from rfl, State.writeField_w1s h5 hs (by rw [h3, h4, bits_poked, hone]; decide)
      (by rw [h3, h4, bits_poked, hone, hb']; exact hl _ _), h3, h4, bits_poked, hone, hb']

theorem State.poke_w1c {who : Party} {f : FRef} {v : Nat} (hr : s.reaches who f.addr = true) (hf : f.is .w1c = true)
    (hs : s.shut (hitAt f.addr) (fieldOf f) = false) (hv : v % 2 ^ f.width ≠ 0) :
    s.poke who f v
      = (s.stored f (bits (s.plain (hitAt f.addr) f.addr) f.lsb f.width
          - (bits (s.plain (hitAt f.addr) f.addr) f.lsb f.width &&& v % 2 ^ f.width))).hook s
        (s.wrote f (bits (s.plain (hitAt f.addr) f.addr) f.lsb f.width
          - (bits (s.plain (hitAt f.addr) f.addr) f.lsb f.width &&& v % 2 ^ f.width)) v) := by
  obtain ⟨h1, h2, h3, h4, h5⟩ := FRef.is_parts hf
  rw [State.poke_acc hr h1 (x := putBits (s.plain (hitAt f.addr) f.addr) f.lsb f.width
    (bits (s.plain (hitAt f.addr) f.addr) f.lsb f.width - (bits (s.plain (hitAt f.addr) f.addr) f.lsb f.width &&& v % 2 ^ f.width))),
    State.stored_eq h1]
  · rfl
  · rw [show (hitAt f.addr).field f = fieldOf f from rfl, State.writeField_w1c h5 hs (by rw [h3, h4, bits_poked]; exact hv), h3, h4, bits_poked]

/-! ### Bits that the hooks look at -/

theorem bitAt_eq (v i : Nat) : bitAt v i = (bits v i 1 == 1) := by simp [bitAt, bits]

theorem bitAt_putBits_one (v i x : Nat) : bitAt (putBits v i 1 x) i = (x % 2 == 1) := by
  rw [bitAt_eq, bits_putBits, Nat.pow_one]

theorem bitAt_putBits_ne {v l w i : Nat} (x : Nat) (h : i < l ∨ l + w ≤ i) : bitAt (putBits v l w x) i = bitAt v i := by
  rw [bitAt_eq, bitAt_eq]
  rcases h with h | h
  · rw [bits_putBits_low _ _ _ (by omega)]
  · rw [bits_putBits_high _ _ _ h]

/-- A one-bit field that is not write-only. -/
def RegDesc.keepsBit (d : RegDesc) (i : Nat) : Bool := d.fields.any (fun f => f.lsb == i && f.width == 1 && f.access != .wo)

/-- A write-only one-bit field. -/
def RegDesc.hidesBit (d : RegDesc) (i : Nat) : Bool := d.fields.any (fun f => f.lsb == i && f.width == 1 && f.access == .wo)

theorem State.plain_bit {h : RegHit} {a i : Nat} (hi : regIs a h = true) (hk : h.desc.keepsBit i = true) :
    bitAt (s.plain h a) i = bitAt (s.rd a).toNat i := by
  simp only [regIs, Bool.and_eq_true] at hi
  simp only [RegDesc.keepsBit, List.any_eq_true, Bool.and_eq_true, beq_iff_eq, bne_iff_ne] at hk
  obtain ⟨f, hf, ⟨rfl, hw⟩, ha⟩ := hk
  have := putFold_bits (p := fun f => f.access == .wo) (g := fun _ => 0) (v := (s.rd a).toNat) (RegDesc.sound_pairwise hi.2) hf
  simp only [beq_iff_eq, ha, if_false, hw] at this
  rw [bitAt_eq, bitAt_eq]
  unfold State.plain
  rw [RegDesc.hideWo_eq, this]

theorem State.plain_hidden {h : RegHit} {a i : Nat} (hi : regIs a h = true) (hk : h.desc.hidesBit i = true) : bitAt (s.plain h a) i = false := by
  simp only [regIs, Bool.and_eq_true] at hi
  simp only [RegDesc.hidesBit, List.any_eq_true, Bool.and_eq_true, beq_iff_eq] at hk
  obtain ⟨f, hf, ⟨rfl, hw⟩, ha⟩ := hk
  have := putFold_bits (p := fun f => f.access == .wo) (g := fun _ => 0) (v := (s.rd a).toNat) (RegDesc.sound_pairwise hi.2) hf
  simp only [ha, beq_self_eq_true, if_true, hw] at this
  rw [bitAt_eq]
  unfold State.plain
  rw [RegDesc.hideWo_eq, this]; rfl

/-- A register without write-only fields reads as it is. -/
theorem RegDesc.hideWo_same {d : RegDesc} (h : d.fields.all (fun f => f.access != .wo) = true) (v : Nat) : d.hideWo v = v := by
  rw [RegDesc.hideWo_eq]
  unfold putFold
  have : ∀ l : List FieldDesc, l.all (fun f => f.access != .wo) = true → ∀ v,
      l.foldl (fun v f => if (f.access == .wo) = true then putBits v f.lsb f.width 0 else v) v = v := by
    intro l
    induction l with
    | nil => intros; rfl
    | cons f t ih =>
      intro h v
      rw [List.all_cons, Bool.and_eq_true] at h
      have e : (f.access == .wo) = false := by
        rw [beq_eq_false_iff_ne]; exact bne_iff_ne.mp h.1
      rw [List.foldl_cons, e]
      exact ih h.2 v
  exact this _ h v

theorem State.plain_same {h : RegHit} {a : Nat} (hw : h.desc.fields.all (fun f => f.access != .wo) = true) : s.plain h a = (s.rd a).toNat :=
  RegDesc.hideWo_same hw _

theorem State.stored_same {f : FRef} (hw : (hitAt f.addr).desc.fields.all (fun f => f.access != .wo) = true) (hi : regIs f.addr (hitAt f.addr) = true) (v : Nat) :
    s.stored f v = s.setFld f v := by
  rw [State.stored_eq hi, State.plain_same hw, RegDesc.hideWo_same hw]
  rfl

end Sys2Proof.Machine
end

