-- ==== Sys2Proof/Laws/Commands.lean ====
section
/-! SUPPORT. What each command that writes one register field does, once the write reaches the register (the rules are at `Machine.Commands`). -/

set_option Elab.async false

namespace Sys2Proof.Machine

variable {s : State} {who : Party}

/-! ### What the hooks see -/

theorem State.wrote_set {f : FRef} (x v : Nat) (hw : f.width = 1) : (s.wrote f x v).set f.lsb = (x % 2 == 1) := by
  unfold Wrote.set State.wrote; rw [hw]; exact bitAt_putBits_one _ _ _

theorem State.wrote_set_hidden {f : FRef} {i : Nat} (x v : Nat) (hi : regIs f.addr (hitAt f.addr) = true)
    (hk : (hitAt f.addr).desc.hidesBit i = true) (hn : i < f.lsb ∨ f.lsb + f.width ≤ i) : (s.wrote f x v).set i = false := by
  unfold Wrote.set State.wrote; rw [bitAt_putBits_ne _ hn]; exact State.plain_hidden hi hk

theorem State.wrote_set_kept {f : FRef} {i : Nat} (x v : Nat) (hi : regIs f.addr (hitAt f.addr) = true)
    (hk : (hitAt f.addr).desc.keepsBit i = true) (hn : i < f.lsb ∨ f.lsb + f.width ≤ i) :
    (s.wrote f x v).set i = bitAt (s.rd f.addr).toNat i := by
  unfold Wrote.set State.wrote; rw [bitAt_putBits_ne _ hn]; exact State.plain_bit hi hk

theorem State.wrote_rose_ne {f : FRef} {i : Nat} (x v : Nat) (hi : regIs f.addr (hitAt f.addr) = true)
    (hk : (hitAt f.addr).desc.keepsBit i = true) (hn : i < f.lsb ∨ f.lsb + f.width ≤ i) : (s.wrote f x v).rose i = false := by
  unfold Wrote.rose State.wrote
  rw [bitAt_putBits_ne _ hn, State.plain_bit hi hk]; cases bitAt (s.rd f.addr).toNat i <;> rfl

theorem State.wrote_fell_ne {f : FRef} {i : Nat} (x v : Nat) (hi : regIs f.addr (hitAt f.addr) = true)
    (hk : (hitAt f.addr).desc.keepsBit i = true) (hn : i < f.lsb ∨ f.lsb + f.width ≤ i) : (s.wrote f x v).fell i = false := by
  unfold Wrote.fell State.wrote
  rw [bitAt_putBits_ne _ hn, State.plain_bit hi hk]; cases bitAt (s.rd f.addr).toNat i <;> rfl

theorem State.wrote_old {f : FRef} (x v : Nat) (hw : f.width = 1) : bitAt (s.wrote f x v).old f.lsb = s.flag f := by
  unfold State.wrote State.flag State.fld; rw [bitAt_eq, hw]

theorem State.wrote_rose {f : FRef} (x v : Nat) (hw : f.width = 1) : (s.wrote f x v).rose f.lsb = ((x % 2 == 1) && !s.flag f) := by
  have h1 := State.wrote_set (s := s) x v hw
  have h2 := State.wrote_old (s := s) x v hw
  unfold Wrote.set at h1
  unfold Wrote.rose; rw [h1, h2]

theorem State.wrote_fell {f : FRef} (x v : Nat) (hw : f.width = 1) : (s.wrote f x v).fell f.lsb = (!(x % 2 == 1) && s.flag f) := by
  have h1 := State.wrote_set (s := s) x v hw
  have h2 := State.wrote_old (s := s) x v hw
  unfold Wrote.set at h1
  unfold Wrote.fell; rw [h1, h2]

/-! ### What the hooks do, by block -/

theorem State.hook_compute {t : State} {w : Wrote} (hb : w.h.blk.inCompute = true) (ht : w.h.blk ≠ .tng) :
    t.hook s w = (t.hookUnit w).syncSrc w.h.maskBit := by
  unfold State.hook State.hookBasic RegHit.maskBit Blk.sources
  cases h : w.h.blk <;> simp_all [Blk.inCompute]

theorem State.hook_quiet {t : State} {w : Wrote} (hb : w.h.blk = .top ∨ w.h.blk = .emb ∨ w.h.blk = .fwl ∨ w.h.blk = .snt) : t.hook s w = t := by
  unfold State.hook State.hookBasic Blk.sources
  rcases hb with h | h | h | h <;> simp [h]

theorem State.shut_compute {h : RegHit} {f : FieldDesc} (hb : h.blk.inCompute = true) (ht : h.blk ≠ .tng) : s.shut h f = false := by
  unfold State.shut
  cases e : h.blk <;> simp_all [Blk.inCompute]

/-! ### Compute units (R88, R96, R100, R163, R200, R231, R266, R412, R414) -/

/-- What the register map says of a register of a compute unit. -/
def unitRegOk (a off u : Nat) : Bool :=
  let h := hitAt a
  h.blk.inCompute && h.blk != .tng && h.desc.off == off && h.maskBit == u && regIs a h

theorem unitRegOk_parts {a off u : Nat} (h : unitRegOk a off u = true) :
    (hitAt a).blk.inCompute = true ∧ (hitAt a).blk ≠ .tng ∧ (hitAt a).desc.off = off ∧ (hitAt a).maskBit = u ∧ regIs a (hitAt a) = true := by
  simp only [unitRegOk, Bool.and_eq_true, beq_iff_eq, bne_iff_ne] at h
  exact ⟨h.1.1.1.1, h.1.1.1.2, h.1.1.2, h.1.2, h.2⟩

/-- A write-only bit of a compute unit's register. -/
theorem State.poke_unit_wo {f : FRef} {off u : Nat} (hr : s.reaches who f.addr = true) (hu : unitRegOk f.addr off u = true)
    (hf : f.is .wo = true) (hl : (fieldOf f).legal = .any) (hw : f.width = 1) :
    s.poke who f 1 = ((s.stored f 1).hookUnit (s.wrote f 1 1)).syncSrc u := by
  obtain ⟨h1, h2, -, h4, -⟩ := unitRegOk_parts hu
  rw [State.poke_wo hr hf hl (State.shut_compute h1 h2) (by rw [hw]; decide), State.hook_compute h1 h2]
  exact congrArg _ h4

def unitCtlOk (u : Nat) : Bool :=
  let h := hitAt (unitBase u + 0x10)
  unitRegOk (unitBase u + 0x10) 0x10 u && h.desc.keepsBit 10 && h.desc.keepsBit 0 && h.desc.hidesBit 11
    && (⟨unitBase u + 0x10, 11, 1⟩ : FRef).is .wo && (fieldOf ⟨unitBase u + 0x10, 11, 1⟩).legal == .any
    && (unitFence u).is .w1s && (fieldOf (unitFence u)).legal == .any

theorem unitCtlOk_all : ∀ u : Fin 78, unitCtlOk u = true := by decide +kernel

theorem unitCtl_ok (u : Fin 78) : unitRegOk (unitBase u + 0x10) 0x10 u = true
    ∧ (hitAt (unitBase u + 0x10)).desc.keepsBit 10 = true ∧ (hitAt (unitBase u + 0x10)).desc.keepsBit 0 = true
    ∧ (hitAt (unitBase u + 0x10)).desc.hidesBit 11 = true
    ∧ (⟨unitBase u + 0x10, 11, 1⟩ : FRef).is .wo = true ∧ (fieldOf ⟨unitBase u + 0x10, 11, 1⟩).legal = .any
    ∧ (unitFence u).is .w1s = true ∧ (fieldOf (unitFence u)).legal = .any := by
  have h := unitCtlOk_all u
  simp only [unitCtlOk, Bool.and_eq_true, beq_iff_eq] at h
  simp only [h, and_self]

theorem execSoftReset_does (u : Fin 78) (hr : s.reaches who (unitBase u + 0x10) = true) :
    execSoftReset who u s = .next (((s.stored ⟨unitBase u + 0x10, 11, 1⟩ 1).softReset u).syncSrc u) := by
  obtain ⟨h0, h6, h7, -, hf, hl, -⟩ := unitCtl_ok u
  obtain ⟨-, -, h3, h4, h5⟩ := unitRegOk_parts h0
  unfold execSoftReset
  rw [State.poke_unit_wo (f := ⟨unitBase u + 0x10, 11, 1⟩) hr h0 hf hl rfl]
  have e10 := State.wrote_rose_ne (s := s) (f := ⟨unitBase u + 0x10, 11, 1⟩) 1 1 h5 h6 (by simp)
  have e0 := State.wrote_rose_ne (s := s) (f := ⟨unitBase u + 0x10, 11, 1⟩) 1 1 h5 h7 (by simp)
  have e0' := State.wrote_fell_ne (s := s) (f := ⟨unitBase u + 0x10, 11, 1⟩) 1 1 h5 h7 (by simp)
  have e11 : (s.wrote ⟨unitBase u + 0x10, 11, 1⟩ 1 1).set 11 = true := State.wrote_set (f := ⟨unitBase u + 0x10, 11, 1⟩) 1 1 rfl
  have hm : (s.wrote ⟨unitBase u + 0x10, 11, 1⟩ 1 1).h.maskBit = u := h4
  have ho : (s.wrote ⟨unitBase u + 0x10, 11, 1⟩ 1 1).h.desc.off = 0x10 := h3
  simp only [State.hookUnit, hm, ho, e10, e0, e0', e11, State.when, if_true, if_false, Bool.false_eq_true, Bool.or_self]

theorem execUnitFence_does (u : Fin 78) (hr : s.reaches who (unitBase u + 0x10) = true) (hb : s.flag (unitFence u) = false) :
    execUnitFence who (.unit u) s = .next (((s.stored (unitFence u) 1).fenceUnit u 1).syncSrc u) := by
  obtain ⟨h0, -, h7, h8, -, -, hf, hl⟩ := unitCtl_ok u
  obtain ⟨h1, h2, h3, h4, h5⟩ := unitRegOk_parts h0
  unfold execUnitFence
  simp only [fenceField]
  rw [State.poke_bit (f := unitFence u) hr hf rfl (State.shut_compute h1 h2) (by intro o w; unfold State.legalValue; rw [hl]; rfl), State.hook_compute h1 h2]
  have e10 : (s.wrote (unitFence u) 1 1).rose 10 = true := by
    rw [show (10 : Nat) = (unitFence u).lsb from rfl, State.wrote_rose _ _ rfl, hb]; rfl
  have e0 := State.wrote_rose_ne (s := s) (f := unitFence u) 1 1 h5 h7 (by simp [unitFence])
  have e0' := State.wrote_fell_ne (s := s) (f := unitFence u) 1 1 h5 h7 (by simp [unitFence])
  have e11 : (s.wrote (unitFence u) 1 1).set 11 = false := State.wrote_set_hidden (f := unitFence u) 1 1 h5 h8 (by simp [unitFence])
  have hm : (s.wrote (unitFence u) 1 1).h.maskBit = u := h4
  have ho : (s.wrote (unitFence u) 1 1).h.desc.off = 0x10 := h3
  simp only [State.hookUnit, hm, ho, e10, e0, e0', e11, State.when, if_true, if_false, Bool.false_eq_true, Bool.or_self]

theorem unitPairOk_all : ∀ u : Fin 78, (unitRegOk (unitBase u + 0x14) 0x14 u && (unitPairReq u).is .rw
    && (fieldOf (unitPairReq u)).legal == .dyn .pairReq && (hitAt (unitBase u + 0x14)).unitNo % 2 == u.val % 2) = true := by decide +kernel

theorem unitPair_ok (u : Fin 78) : unitRegOk (unitBase u + 0x14) 0x14 u = true ∧ (unitPairReq u).is .rw = true
    ∧ (fieldOf (unitPairReq u)).legal = .dyn .pairReq ∧ (hitAt (unitBase u + 0x14)).unitNo % 2 = u.val % 2 := by
  have h := unitPairOk_all u
  simp only [Bool.and_eq_true, beq_iff_eq] at h
  simp only [h, and_self]

theorem execPairRequest_does (u : Fin 78) (req : Bool) (hr : s.reaches who (unitBase u + 0x14) = true) (he : u.val % 2 = 0) :
    execPairRequest who u req s = .next (((s.stored (unitPairReq u) (ofBool req)).pairWritten u req).syncSrc u) := by
  obtain ⟨h0, hf, hl, hn⟩ := unitPair_ok u
  obtain ⟨h1, h2, h3, h4, h5⟩ := unitRegOk_parts h0
  unfold execPairRequest
  rw [State.poke_rw (f := unitPairReq u) hr (.inl hf) (State.shut_compute h1 h2), State.hook_compute h1 h2]
  · have e8 : (s.wrote (unitPairReq u) (ofBool req) (ofBool req)).set 8 = req := by
      rw [show (8 : Nat) = (unitPairReq u).lsb from rfl, State.wrote_set _ _ rfl]; cases req <;> rfl
    have hm : (s.wrote (unitPairReq u) (ofBool req) (ofBool req)).h.maskBit = u := h4
    have ho : (s.wrote (unitPairReq u) (ofBool req) (ofBool req)).h.desc.off = 0x14 := h3
    simp only [State.hookUnit, hm, ho, e8, he, if_true, if_false, Nat.reduceEqDiff]
  · intro o w
    unfold State.legalValue; rw [hl]
    simp only [State.dynLegal]
    rw [show (hitAt (unitPairReq u).addr).unitNo % 2 = u.val % 2 from hn, he]; rfl

theorem unitResOk_all : ∀ u : Fin 78, (76 ≤ u.val || (unitRegOk (unitBase u + 0x40) 0x40 u
    && (⟨unitBase u + 0x40, 8, 1⟩ : FRef).is .wo && (fieldOf ⟨unitBase u + 0x40, 8, 1⟩).legal == .any)) = true := by decide +kernel

theorem unitRes_ok (u : Fin 78) (hu : u.val < 76) : unitRegOk (unitBase u + 0x40) 0x40 u = true
    ∧ (⟨unitBase u + 0x40, 8, 1⟩ : FRef).is .wo = true ∧ (fieldOf ⟨unitBase u + 0x40, 8, 1⟩).legal = .any := by
  have h := unitResOk_all u
  have h76 : ¬ 76 ≤ u.val := by omega
  simp only [Bool.or_eq_true, decide_eq_true_eq, h76, false_or, Bool.and_eq_true, beq_iff_eq] at h
  simp only [h, and_self]

theorem execResidueInject_does (u : Fin 78) (hu : u.val < 76) (hr : s.reaches who (unitBase u + 0x40) = true) :
    execResidueInject who u s = .next (((s.stored ⟨unitBase u + 0x40, 8, 1⟩ 1).arm u 0).syncSrc u) := by
  obtain ⟨h0, hf, hl⟩ := unitRes_ok u hu
  obtain ⟨-, -, h3, h4, -⟩ := unitRegOk_parts h0
  unfold execResidueInject
  rw [State.poke_unit_wo (f := ⟨unitBase u + 0x40, 8, 1⟩) hr h0 hf hl rfl]
  have e8 : (s.wrote ⟨unitBase u + 0x40, 8, 1⟩ 1 1).set 8 = true := State.wrote_set (f := ⟨unitBase u + 0x40, 8, 1⟩) 1 1 rfl
  have hm : (s.wrote ⟨unitBase u + 0x40, 8, 1⟩ 1 1).h.maskBit = u := h4
  have ho : (s.wrote ⟨unitBase u + 0x40, 8, 1⟩ 1 1).h.desc.off = 0x40 := h3
  simp only [State.hookUnit, hm, ho, e8, State.when, if_true, if_false, Nat.reduceEqDiff]

theorem fusCtl_ok : ∀ n : Fin 64, unitRegOk (Reg.ANV_FUS_CTL n) 0xA4 n = true ∧ (hitAt (Reg.ANV_FUS_CTL n)).blk = .anv
    ∧ (Reg.ANV_FUS_CTL.INJ_PRO n).is .wo = true ∧ (fieldOf (Reg.ANV_FUS_CTL.INJ_PRO n)).legal = .any
    ∧ (Reg.ANV_FUS_CTL.INJ_EPI n).is .wo = true ∧ (fieldOf (Reg.ANV_FUS_CTL.INJ_EPI n)).legal = .any
    ∧ (hitAt (Reg.ANV_FUS_CTL n)).desc.hidesBit 0 = true ∧ (hitAt (Reg.ANV_FUS_CTL n)).desc.hidesBit 1 = true := by decide +kernel

theorem execInjPro_does (n : Fin 64) (hr : s.reaches who (Reg.ANV_FUS_CTL n) = true) :
    execInjPro who n s = .next (((s.stored (Reg.ANV_FUS_CTL.INJ_PRO n) 1).arm n 2).syncSrc n) := by
  obtain ⟨h0, hb, hf, hl, -, -, k0, -⟩ := fusCtl_ok n
  obtain ⟨-, -, h3, h4, h5⟩ := unitRegOk_parts h0
  unfold execInjPro
  rw [State.poke_unit_wo (f := Reg.ANV_FUS_CTL.INJ_PRO n) hr h0 hf hl rfl]
  have e1 : (s.wrote (Reg.ANV_FUS_CTL.INJ_PRO n) 1 1).set 1 = true := State.wrote_set (f := Reg.ANV_FUS_CTL.INJ_PRO n) 1 1 rfl
  have e0 : (s.wrote (Reg.ANV_FUS_CTL.INJ_PRO n) 1 1).set 0 = false := State.wrote_set_hidden (f := Reg.ANV_FUS_CTL.INJ_PRO n) 1 1 h5 k0 (by simp [Reg.ANV_FUS_CTL.INJ_PRO])
  have hm : (s.wrote (Reg.ANV_FUS_CTL.INJ_PRO n) 1 1).h.maskBit = n := h4
  have ho : (s.wrote (Reg.ANV_FUS_CTL.INJ_PRO n) 1 1).h.desc.off = 0xA4 := h3
  have hb' : (s.wrote (Reg.ANV_FUS_CTL.INJ_PRO n) 1 1).h.blk = .anv := hb
  simp only [State.hookUnit, hm, ho, hb', e1, e0, State.when, if_true, if_false, Nat.reduceEqDiff, Bool.false_eq_true]

theorem execInjEpi_does (n : Fin 64) (hr : s.reaches who (Reg.ANV_FUS_CTL n) = true) :
    execInjEpi who n s = .next (((s.stored (Reg.ANV_FUS_CTL.INJ_EPI n) 1).arm n 1).syncSrc n) := by
  obtain ⟨h0, hb, -, -, hf, hl, -, k1⟩ := fusCtl_ok n
  obtain ⟨-, -, h3, h4, h5⟩ := unitRegOk_parts h0
  unfold execInjEpi
  rw [State.poke_unit_wo (f := Reg.ANV_FUS_CTL.INJ_EPI n) hr h0 hf hl rfl]
  have e1 : (s.wrote (Reg.ANV_FUS_CTL.INJ_EPI n) 1 1).set 0 = true := State.wrote_set (f := Reg.ANV_FUS_CTL.INJ_EPI n) 1 1 rfl
  have e0 : (s.wrote (Reg.ANV_FUS_CTL.INJ_EPI n) 1 1).set 1 = false := State.wrote_set_hidden (f := Reg.ANV_FUS_CTL.INJ_EPI n) 1 1 h5 k1 (by simp [Reg.ANV_FUS_CTL.INJ_EPI])
  have hm : (s.wrote (Reg.ANV_FUS_CTL.INJ_EPI n) 1 1).h.maskBit = n := h4
  have ho : (s.wrote (Reg.ANV_FUS_CTL.INJ_EPI n) 1 1).h.desc.off = 0xA4 := h3
  have hb' : (s.wrote (Reg.ANV_FUS_CTL.INJ_EPI n) 1 1).h.blk = .anv := hb
  simp only [State.hookUnit, hm, ho, hb', e1, e0, State.when, if_true, if_false, Nat.reduceEqDiff, Bool.false_eq_true]

theorem dupCtl_ok : ∀ p : Fin 4, unitRegOk (Reg.DRW_DUP_CTL p) 0xA4 (64 + p) = true ∧ (hitAt (Reg.DRW_DUP_CTL p)).blk = .drw
    ∧ (Reg.DRW_DUP_CTL.INJ_ROPE p).is .wo = true ∧ (fieldOf (Reg.DRW_DUP_CTL.INJ_ROPE p)).legal = .any
    ∧ (Reg.DRW_DUP_CTL.INJ_OUT p).is .wo = true ∧ (fieldOf (Reg.DRW_DUP_CTL.INJ_OUT p)).legal = .any
    ∧ (hitAt (Reg.DRW_DUP_CTL p)).desc.hidesBit 0 = true ∧ (hitAt (Reg.DRW_DUP_CTL p)).desc.hidesBit 1 = true := by decide +kernel

theorem execInjRope_does (p : Fin 4) (hr : s.reaches who (Reg.DRW_DUP_CTL p) = true) :
    execInjRope who p s = .next (((s.stored (Reg.DRW_DUP_CTL.INJ_ROPE p) 1).arm (64 + p) 2).syncSrc (64 + p)) := by
  obtain ⟨h0, hb, hf, hl, -, -, k0, -⟩ := dupCtl_ok p
  obtain ⟨-, -, h3, h4, h5⟩ := unitRegOk_parts h0
  unfold execInjRope
  rw [State.poke_unit_wo (f := Reg.DRW_DUP_CTL.INJ_ROPE p) hr h0 hf hl rfl]
  have e1 : (s.wrote (Reg.DRW_DUP_CTL.INJ_ROPE p) 1 1).set 1 = true := State.wrote_set (f := Reg.DRW_DUP_CTL.INJ_ROPE p) 1 1 rfl
  have e0 : (s.wrote (Reg.DRW_DUP_CTL.INJ_ROPE p) 1 1).set 0 = false := State.wrote_set_hidden (f := Reg.DRW_DUP_CTL.INJ_ROPE p) 1 1 h5 k0 (by simp [Reg.DRW_DUP_CTL.INJ_ROPE])
  have hm : (s.wrote (Reg.DRW_DUP_CTL.INJ_ROPE p) 1 1).h.maskBit = 64 + p := h4
  have ho : (s.wrote (Reg.DRW_DUP_CTL.INJ_ROPE p) 1 1).h.desc.off = 0xA4 := h3
  have hb' : (s.wrote (Reg.DRW_DUP_CTL.INJ_ROPE p) 1 1).h.blk = .drw := hb
  simp only [State.hookUnit, hm, ho, hb', e1, e0, State.when, if_true, if_false, Nat.reduceEqDiff, Bool.false_eq_true, reduceCtorEq]

theorem execInjOut_does (p : Fin 4) (hr : s.reaches who (Reg.DRW_DUP_CTL p) = true) :
    execInjOut who p s = .next (((s.stored (Reg.DRW_DUP_CTL.INJ_OUT p) 1).arm (64 + p) 1).syncSrc (64 + p)) := by
  obtain ⟨h0, hb, -, -, hf, hl, -, k1⟩ := dupCtl_ok p
  obtain ⟨-, -, h3, h4, h5⟩ := unitRegOk_parts h0
  unfold execInjOut
  rw [State.poke_unit_wo (f := Reg.DRW_DUP_CTL.INJ_OUT p) hr h0 hf hl rfl]
  have e1 : (s.wrote (Reg.DRW_DUP_CTL.INJ_OUT p) 1 1).set 0 = true := State.wrote_set (f := Reg.DRW_DUP_CTL.INJ_OUT p) 1 1 rfl
  have e0 : (s.wrote (Reg.DRW_DUP_CTL.INJ_OUT p) 1 1).set 1 = false := State.wrote_set_hidden (f := Reg.DRW_DUP_CTL.INJ_OUT p) 1 1 h5 k1 (by simp [Reg.DRW_DUP_CTL.INJ_OUT])
  have hm : (s.wrote (Reg.DRW_DUP_CTL.INJ_OUT p) 1 1).h.maskBit = 64 + p := h4
  have ho : (s.wrote (Reg.DRW_DUP_CTL.INJ_OUT p) 1 1).h.desc.off = 0xA4 := h3
  have hb' : (s.wrote (Reg.DRW_DUP_CTL.INJ_OUT p) 1 1).h.blk = .drw := hb
  simp only [State.hookUnit, hm, ho, hb', e1, e0, State.when, if_true, if_false, Nat.reduceEqDiff, Bool.false_eq_true, reduceCtorEq]

theorem vecDupOk_all : ∀ u : Fin 10, (unitRegOk (unitBase (68 + u) + 0xA0) 0xA0 (68 + u)
    && ((hitAt (unitBase (68 + u) + 0xA0)).blk == .vec || (hitAt (unitBase (68 + u) + 0xA0)).blk == .ppu)
    && (⟨unitBase (68 + u) + 0xA0, 0, 1⟩ : FRef).is .wo && (fieldOf ⟨unitBase (68 + u) + 0xA0, 0, 1⟩).legal == .any
    && (u.val < 8 || (hitAt (unitBase (68 + u) + 0xA0)).desc.hidesBit 1)) = true := by decide +kernel

theorem vecDup_ok (u : Fin 10) : unitRegOk (unitBase (68 + u) + 0xA0) 0xA0 (68 + u) = true
    ∧ ((hitAt (unitBase (68 + u) + 0xA0)).blk = .vec ∨ (hitAt (unitBase (68 + u) + 0xA0)).blk = .ppu)
    ∧ (⟨unitBase (68 + u) + 0xA0, 0, 1⟩ : FRef).is .wo = true ∧ (fieldOf ⟨unitBase (68 + u) + 0xA0, 0, 1⟩).legal = .any
    ∧ (8 ≤ u.val → (hitAt (unitBase (68 + u) + 0xA0)).desc.hidesBit 1 = true) := by
  have h := vecDupOk_all u
  simp only [Bool.and_eq_true, Bool.or_eq_true, beq_iff_eq, decide_eq_true_eq] at h
  exact ⟨h.1.1.1.1, h.1.1.1.2, h.1.1.2, h.1.2, fun h8 => h.2.resolve_left (by omega)⟩

theorem execInjA_does (u : Fin 10) (hr : s.reaches who (unitBase (68 + u) + 0xA0) = true) :
    execInjA who u s = .next (((s.stored ⟨unitBase (68 + u) + 0xA0, 0, 1⟩ 1).arm (68 + u) 1).syncSrc (68 + u)) := by
  obtain ⟨h0, hb, hf, hl, k⟩ := vecDup_ok u
  obtain ⟨-, -, h3, h4, h5⟩ := unitRegOk_parts h0
  unfold execInjA
  rw [State.poke_unit_wo (f := ⟨unitBase (68 + u) + 0xA0, 0, 1⟩) hr h0 hf hl rfl]
  have e0 : (s.wrote ⟨unitBase (68 + u) + 0xA0, 0, 1⟩ 1 1).set 0 = true := State.wrote_set (f := ⟨unitBase (68 + u) + 0xA0, 0, 1⟩) 1 1 rfl
  have e1 : ((s.wrote ⟨unitBase (68 + u) + 0xA0, 0, 1⟩ 1 1).set 1 && decide (76 ≤ 68 + u.val)) = false := by
    by_cases h : 8 ≤ u.val
    · rw [State.wrote_set_hidden (f := ⟨unitBase (68 + u) + 0xA0, 0, 1⟩) 1 1 h5 (k h) (by simp)]; rfl
    · rw [decide_eq_false (by omega), Bool.and_false]
  have hm : (s.wrote ⟨unitBase (68 + u) + 0xA0, 0, 1⟩ 1 1).h.maskBit = 68 + u := h4
  have ho : (s.wrote ⟨unitBase (68 + u) + 0xA0, 0, 1⟩ 1 1).h.desc.off = 0xA0 := h3
  have hb1 : (s.wrote ⟨unitBase (68 + u) + 0xA0, 0, 1⟩ 1 1).h.blk ≠ .anv := by
    rcases hb with hb | hb <;> (show (hitAt _).blk ≠ _; rw [hb]; decide)
  have hb2 : (s.wrote ⟨unitBase (68 + u) + 0xA0, 0, 1⟩ 1 1).h.blk ≠ .drw := by
    rcases hb with hb | hb <;> (show (hitAt _).blk ≠ _; rw [hb]; decide)
  simp only [State.hookUnit, hm, ho, hb1, hb2, e0, e1, State.when, if_true, if_false, Nat.reduceEqDiff, Bool.false_eq_true]

theorem ppuDup_ok : ∀ u : Fin 2, unitRegOk (Reg.PPU_DUP u) 0xA0 (76 + u) = true ∧ (hitAt (Reg.PPU_DUP u)).blk = .ppu
    ∧ (Reg.PPU_DUP.INJ_B u).is .wo = true ∧ (fieldOf (Reg.PPU_DUP.INJ_B u)).legal = .any
    ∧ (hitAt (Reg.PPU_DUP u)).desc.hidesBit 0 = true := by decide +kernel

theorem execInjB_does (u : Fin 2) (hr : s.reaches who (Reg.PPU_DUP u) = true) :
    execInjB who u s = .next (((s.stored (Reg.PPU_DUP.INJ_B u) 1).arm (76 + u) 2).syncSrc (76 + u)) := by
  obtain ⟨h0, hb, hf, hl, k0⟩ := ppuDup_ok u
  obtain ⟨-, -, h3, h4, h5⟩ := unitRegOk_parts h0
  unfold execInjB
  rw [State.poke_unit_wo (f := Reg.PPU_DUP.INJ_B u) hr h0 hf hl rfl]
  have e1 : (s.wrote (Reg.PPU_DUP.INJ_B u) 1 1).set 1 = true := State.wrote_set (f := Reg.PPU_DUP.INJ_B u) 1 1 rfl
  have e0 : (s.wrote (Reg.PPU_DUP.INJ_B u) 1 1).set 0 = false := State.wrote_set_hidden (f := Reg.PPU_DUP.INJ_B u) 1 1 h5 k0 (by simp [Reg.PPU_DUP.INJ_B])
  have hm : (s.wrote (Reg.PPU_DUP.INJ_B u) 1 1).h.maskBit = 76 + u := h4
  have ho : (s.wrote (Reg.PPU_DUP.INJ_B u) 1 1).h.desc.off = 0xA0 := h3
  have hb' : (s.wrote (Reg.PPU_DUP.INJ_B u) 1 1).h.blk = .ppu := hb
  have h76 : decide (76 ≤ 76 + u.val) = true := decide_eq_true (by omega)
  simp only [State.hookUnit, hm, ho, hb', e1, e0, h76, State.when, if_true, if_false, Nat.reduceEqDiff, Bool.false_eq_true, reduceCtorEq, Bool.and_self]

theorem bsEcc_ok : ∀ n : Fin 64, unitRegOk (Reg.ANV_BS_ECC n) 0x38 n = true ∧ (hitAt (Reg.ANV_BS_ECC n)).blk = .anv
    ∧ (Reg.ANV_BS_ECC.INJECT n).is .wo = true ∧ (fieldOf (Reg.ANV_BS_ECC.INJECT n)).legal = .any := by decide +kernel

theorem execBsEccInject_does (n : Fin 64) (hr : s.reaches who (Reg.ANV_BS_ECC n) = true) :
    execBsEccInject who n s
      = .next (({ s.stored (Reg.ANV_BS_ECC.INJECT n) 1 with arms := { s.arms with bsEcc := setInsert s.arms.bsEcc n } } : State).syncSrc n) := by
  obtain ⟨h0, hb, hf, hl⟩ := bsEcc_ok n
  obtain ⟨-, -, h3, h4, h5⟩ := unitRegOk_parts h0
  unfold execBsEccInject
  rw [State.poke_unit_wo (f := Reg.ANV_BS_ECC.INJECT n) hr h0 hf hl rfl]
  have e0 : (s.wrote (Reg.ANV_BS_ECC.INJECT n) 1 1).set 0 = true := State.wrote_set (f := Reg.ANV_BS_ECC.INJECT n) 1 1 rfl
  have hm : (s.wrote (Reg.ANV_BS_ECC.INJECT n) 1 1).h.maskBit = n := h4
  have ho : (s.wrote (Reg.ANV_BS_ECC.INJECT n) 1 1).h.desc.off = 0x38 := h3
  have hb' : (s.wrote (Reg.ANV_BS_ECC.INJECT n) 1 1).h.blk = .anv := hb
  simp only [State.hookUnit, hm, ho, hb', e0, State.when, if_true, if_false, Nat.reduceEqDiff]
  rfl

end Sys2Proof.Machine
end

