-- ==== Sys2Proof/Laws/Kept/Regs.lean ====
section
/-! SUPPORT. What the operations of Machine/Regs.lean keep. -/

namespace Sys2Proof.Machine

theorem State.wr_kept {r₀ s : State} {a v} (h₀ : Kept r₀ s) : Kept r₀ (s.wr a v) :=
  Kept.put rfl (fun c => ⟨c.mem, c.mram, SMap.wf_put _ _ _ c.regs, c.poison, c.damage⟩) h₀

theorem State.wr64_kept {r₀ : State} {s : State} {a v} (h₀ : Kept r₀ s) : Kept r₀ (State.wr64 s a v) := by
  unfold State.wr64
  refine State.wr_kept ?_
  refine State.wr_kept ?_
  assumption

theorem State.setFld_kept {r₀ : State} {s : State} {f v} (h₀ : Kept r₀ s) : Kept r₀ (State.setFld s f v) := by
  unfold State.setFld
  refine State.wr_kept ?_
  assumption

theorem State.setFlag_kept {r₀ : State} {s : State} {f b} (h₀ : Kept r₀ s) : Kept r₀ (State.setFlag s f b) := by
  unfold State.setFlag
  refine State.setFld_kept ?_
  assumption

theorem State.count_kept {r₀ : State} {s : State} {f n} (h₀ : Kept r₀ s) : Kept r₀ (State.count s f n) := by
  unfold State.count
  refine State.setFld_kept ?_
  assumption

theorem State.hicEvent_kept {r₀ : State} {s : State} {src} (h₀ : Kept r₀ s) : Kept r₀ (State.hicEvent s src) := by
  unfold State.hicEvent
  extract_lets s1
  have h2 : Kept r₀ s1 := by
    unfold s1
    refine State.count_kept ?_
    assumption
  clear_value s1
  refine State.setFlag_kept ?_
  assumption

theorem State.syncSrc_kept {r₀ : State} {s : State} {src} (h₀ : Kept r₀ s) : Kept r₀ (State.syncSrc s src) := by
  unfold State.syncSrc
  extract_lets x1
  clear_value x1
  refine Kept.ite ?_ ?_
  · refine State.hicEvent_kept ?_
    refine Kept.upd rfl ?_
    assumption
  · refine Kept.ite ?_ ?_
    · refine Kept.upd rfl ?_
      assumption
    · assumption

theorem State.event_kept {r₀ : State} {s : State} {f src} (h₀ : Kept r₀ s) : Kept r₀ (State.event s f src) := by
  unfold State.event
  refine State.syncSrc_kept ?_
  refine State.setFld_kept ?_
  assumption

theorem State.free_kept {r₀ : State} {s : State} (h₀ : Kept r₀ s) : Kept r₀ (State.free s).1 := by
  unfold State.free
  refine Kept.pair ?_
  refine Kept.upd rfl ?_
  assumption

theorem State.send_kept {r₀ s : State} {m} (h₀ : Kept r₀ s) : Kept r₀ (s.send m) :=
  ⟨h₀.queue, h₀.sent.trans (List.prefix_append _ _), fun c => { h₀.canon c with }⟩

theorem State.openQuotient_kept {r₀ : State} {s : State} {x d} (h₀ : Kept r₀ s) : Kept r₀ (State.openQuotient s x d).1 := by
  unfold State.openQuotient
  refine Kept.iteFst ?_ ?_
  · refine Kept.pair ?_
    assumption
  · split
    refine Kept.pair ?_
    refine Kept.fst ‹_› ?_
    refine State.free_kept ?_
    assumption

theorem State.wrapAdd_kept {r₀ : State} {s : State} {f n} (h₀ : Kept r₀ s) : Kept r₀ (State.wrapAdd s f n) := by
  unfold State.wrapAdd
  refine State.setFld_kept ?_
  assumption

end Sys2Proof.Machine
end

