-- ==== Sys2Proof/Laws/Kept/Log.lean ====
section
/-! SUPPORT. What the operations of Machine/Log.lean keep. -/

namespace Sys2Proof.Machine

theorem State.evrAdd_kept {r₀ : State} {s : State} {ty word n} (h₀ : Kept r₀ s) : Kept r₀ (State.evrAdd s ty word n) := by
  unfold State.evrAdd
  refine Kept.ite ?_ ?_
  · refine Kept.upd rfl ?_
    assumption
  · assumption

theorem State.evrCounter_kept {r₀ : State} {s : State} {i} (h₀ : Kept r₀ s) : Kept r₀ (State.evrCounter s i) := by
  unfold State.evrCounter
  refine State.evrAdd_kept ?_
  assumption

theorem State.setUnit_kept {r₀ : State} {s : State} {u x} (h₀ : Kept r₀ s) : Kept r₀ (State.setUnit s u x) := by
  unfold State.setUnit
  refine Kept.upd rfl ?_
  assumption

theorem State.modUnit_kept {r₀ : State} {s : State} {u f} (h₀ : Kept r₀ s) : Kept r₀ (State.modUnit s u f) := by
  unfold State.modUnit
  refine State.setUnit_kept ?_
  assumption

theorem State.fclEvent_kept {r₀ : State} {s : State} {i} (h₀ : Kept r₀ s) : Kept r₀ (State.fclEvent s i) := by
  unfold State.fclEvent
  refine State.event_kept ?_
  assumption

theorem State.snapTrigger_kept {r₀ : State} {s : State} {cause} (h₀ : Kept r₀ s) : Kept r₀ (State.snapTrigger s cause) := by
  unfold State.snapTrigger
  refine Kept.ite ?_ ?_
  · assumption
  · refine Kept.ite ?_ ?_
    · refine State.count_kept ?_
      assumption
    · extract_lets s1
      have h2 : Kept r₀ s1 := by
        unfold s1
        refine Kept.upd rfl ?_
        assumption
      clear_value s1
      refine State.wr64_kept ?_
      refine State.setFld_kept ?_
      refine State.setFld_kept ?_
      assumption

theorem State.latchN_kept {r₀ : State} {s : State} {c source} (h₀ : Kept r₀ s) : Kept r₀ (State.latchN s c source) := by
  unfold State.latchN
  extract_lets x1 s2 s3 s4
  clear_value x1
  have h5 : Kept r₀ s2 := by
    unfold s2
    refine Kept.ite ?_ ?_
    · refine State.setFld_kept ?_
      refine State.setFld_kept ?_
      assumption
    · refine State.setFld_kept ?_
      assumption
  clear_value s2
  have h6 : Kept r₀ s3 := by
    unfold s3
    refine State.count_kept ?_
    assumption
  clear_value s3
  have h7 : Kept r₀ s4 := by
    unfold s4
    refine State.fclEvent_kept ?_
    assumption
  clear_value s4
  refine Kept.ite ?_ ?_
  · refine Kept.ite ?_ ?_
    · refine State.snapTrigger_kept ?_
      assumption
    · assumption
  · assumption

theorem State.mramWrite_kept {r₀ s : State} {o bs} (h₀ : Kept r₀ s) : Kept r₀ (s.mramWrite o bs) :=
  Kept.put rfl (fun c => ⟨c.mem, c.mram.foldPut _ _, c.regs, c.poison, c.damage⟩) h₀

theorem State.logWrite_kept {r₀ : State} {s : State} {kind cls ctx source unit op d0 d1} (h₀ : Kept r₀ s) : Kept r₀ (State.logWrite s kind cls ctx source unit op d0 d1) := by
  unfold State.logWrite
  extract_lets x1 s2 s3
  clear_value x1
  have h4 : Kept r₀ s2 := by
    unfold s2
    refine State.mramWrite_kept ?_
    assumption
  clear_value s2
  have h5 : Kept r₀ s3 := by
    unfold s3
    refine State.setFld_kept ?_
    assumption
  clear_value s3
  refine Kept.upd rfl ?_
  assumption

theorem State.logLimited_kept {r₀ : State} {s : State} {kind op r} (h₀ : Kept r₀ s) : Kept r₀ (State.logLimited s kind op r) := by
  unfold State.logLimited
  extract_lets x1 s2 s3
  clear_value x1
  have h4 : Kept r₀ s2 := by
    unfold s2
    refine State.logWrite_kept ?_
    assumption
  clear_value s2
  have h5 : Kept r₀ s3 := by
    unfold s3
    refine State.count_kept ?_
    assumption
  clear_value s3
  refine Kept.ite ?_ ?_
  · refine Kept.upd rfl ?_
    assumption
  · refine Kept.upd rfl ?_
    assumption

theorem State.noteFault_kept {r₀ : State} {s : State} {r} (h₀ : Kept r₀ s) : Kept r₀ (State.noteFault s r) := by
  unfold State.noteFault
  extract_lets s1 s2
  have h3 : Kept r₀ s1 := by
    unfold s1
    refine State.evrCounter_kept ?_
    assumption
  clear_value s1
  have h4 : Kept r₀ s2 := by
    unfold s2
    refine State.logLimited_kept ?_
    assumption
  clear_value s2
  refine Kept.ite ?_ ?_
  · refine State.logLimited_kept ?_
    refine State.count_kept ?_
    assumption
  · split
    · refine State.latchN_kept ?_
      assumption
    · assumption

theorem State.sfiEvent_kept {r₀ : State} {s : State} {i} (h₀ : Kept r₀ s) : Kept r₀ (State.sfiEvent s i) := by
  unfold State.sfiEvent
  refine State.event_kept ?_
  assumption

theorem State.setFirst_kept {r₀ : State} {s : State} {r} (h₀ : Kept r₀ s) : Kept r₀ (State.setFirst s r) := by
  unfold State.setFirst
  refine State.setFld_kept ?_
  refine State.setFld_kept ?_
  refine State.setFld_kept ?_
  assumption

theorem State.latchFirst_kept {r₀ : State} {s : State} {r} (h₀ : Kept r₀ s) : Kept r₀ (State.latchFirst s r) := by
  unfold State.latchFirst
  refine Kept.ite ?_ ?_
  · extract_lets s1
    have h2 : Kept r₀ s1 := by
      unfold s1
      refine State.setFld_kept ?_
      assumption
    clear_value s1
    refine Kept.ite ?_ ?_
    · refine State.setFirst_kept ?_
      assumption
    · assumption
  · extract_lets s3 s4 s5 s6
    have h7 : Kept r₀ s3 := by
      unfold s3
      refine State.setFirst_kept ?_
      refine State.setFld_kept ?_
      assumption
    clear_value s3
    have h8 : Kept r₀ s4 := by
      unfold s4
      refine Kept.upd rfl ?_
      assumption
    clear_value s4
    have h9 : Kept r₀ s5 := by
      unfold s5
      refine State.setFld_kept ?_
      refine State.wr64_kept ?_
      assumption
    clear_value s5
    have h10 : Kept r₀ s6 := by
      unfold s6
      refine State.fclEvent_kept ?_
      assumption
    clear_value s6
    refine Kept.ite ?_ ?_
    · refine State.snapTrigger_kept ?_
      assumption
    · assumption

theorem State.evrExtreme_kept {r₀ : State} {s : State} {k most x} (h₀ : Kept r₀ s) : Kept r₀ (State.evrExtreme s k most x) := by
  unfold State.evrExtreme
  extract_lets x1 x2
  clear_value x1 x2
  refine Kept.ite ?_ ?_
  · assumption
  · refine Kept.upd rfl ?_
    assumption

theorem State.evrHist_kept {r₀ : State} {s : State} {ty x edge width} (h₀ : Kept r₀ s) : Kept r₀ (State.evrHist s ty x edge width) := by
  unfold State.evrHist
  refine State.evrAdd_kept ?_
  assumption

end Sys2Proof.Machine
end

