-- ==== Sys2Proof/Laws/Kept/Mem.lean ====
section
/-! SUPPORT. What the operations of Machine/Mem.lean keep. -/

namespace Sys2Proof.Machine

theorem State.collide_kept {r₀ : State} {s : State} {n bank port} (h₀ : Kept r₀ s) : Kept r₀ (State.collide s n bank port) := by
  unfold State.collide
  extract_lets s1 s2
  have h3 : Kept r₀ s1 := by
    unfold s1
    refine State.count_kept ?_
    assumption
  clear_value s1
  have h4 : Kept r₀ s2 := by
    unfold s2
    refine State.setFld_kept ?_
    refine State.setFld_kept ?_
    refine State.setFld_kept ?_
    assumption
  clear_value s2
  refine State.event_kept ?_
  assumption

theorem State.violation_kept {r₀ : State} {s : State} {rq a write reg} (h₀ : Kept r₀ s) : Kept r₀ (State.violation s rq a write reg) := by
  unfold State.violation
  extract_lets s1 s2
  have h3 : Kept r₀ s1 := by
    unfold s1
    refine State.count_kept ?_
    assumption
  clear_value s1
  have h4 : Kept r₀ s2 := by
    unfold s2
    refine State.setFlag_kept ?_
    refine State.setFlag_kept ?_
    refine State.setFld_kept ?_
    assumption
  clear_value s2
  refine State.sfiEvent_kept ?_
  refine State.wr64_kept ?_
  assumption

theorem State.accessCheck_kept {r₀ : State} {s : State} {rq a write} (h₀ : Kept r₀ s) : Kept r₀ (State.accessCheck s rq a write).1 := by
  unfold State.accessCheck
  refine Kept.iteFst ?_ ?_
  · refine Kept.pair ?_
    assumption
  · refine Kept.iteFst ?_ ?_
    · refine Kept.pair ?_
      refine State.violation_kept ?_
      assumption
    · refine Kept.iteFst ?_ ?_
      · refine Kept.pair ?_
        assumption
      · split
        · extract_lets x1 x2
          clear_value x1 x2
          split
          · refine Kept.iteFst ?_ ?_
            · refine Kept.pair ?_
              refine State.collide_kept ?_
              refine State.collide_kept ?_
              assumption
            · refine Kept.pair ?_
              assumption
          · refine Kept.iteFst ?_ ?_
            · refine Kept.pair ?_
              refine State.collide_kept ?_
              assumption
            · refine Kept.pair ?_
              assumption
        · refine Kept.pair ?_
          assumption

theorem State.spendInject_kept {r₀ s : State} {a} (h₀ : Kept r₀ s) : Kept r₀ (s.spendInject a) := by
  have put (k v) (arms : Arms) : Kept r₀ { s with damage := SMap.insert s.damage k v, arms := arms } :=
    Kept.put rfl (fun c => ⟨c.mem, c.mram, c.regs, c.poison, SMap.wf_insert _ _ c.damage⟩) h₀
  unfold State.spendInject
  extract_lets u
  split
  · exact Kept.ite (put _ _ _) h₀
  · exact Kept.ite (put _ _ _) (Kept.ite (put _ _ _) h₀)
  · exact h₀

theorem State.countBytes_kept {r₀ : State} {s : State} {a n} (h₀ : Kept r₀ s) : Kept r₀ (State.countBytes s a n) := by
  unfold State.countBytes
  split
  · extract_lets x1
    clear_value x1
    refine State.wr64_kept ?_
    assumption
  · assumption

theorem State.corrected_kept {r₀ : State} {s : State} {a} (h₀ : Kept r₀ s) : Kept r₀ (State.corrected s a) := by
  unfold State.corrected
  extract_lets x1 s2 x3
  clear_value x1
  have h4 : Kept r₀ s2 := by
    unfold s2
    split
    · refine State.evrCounter_kept ?_
      refine State.count_kept ?_
      assumption
    · refine State.evrCounter_kept ?_
      refine State.count_kept ?_
      assumption
    · refine State.count_kept ?_
      assumption
    · assumption
  clear_value s2
  clear_value x3
  refine State.noteFault_kept ?_
  assumption

theorem State.uncorrectable_kept {r₀ : State} {s : State} {a} (h₀ : Kept r₀ s) : Kept r₀ (State.uncorrectable s a) := by
  unfold State.uncorrectable
  extract_lets x1 s2 x3
  clear_value x1
  have h4 : Kept r₀ s2 := by
    unfold s2
    split
    · refine State.wr64_kept ?_
      refine State.count_kept ?_
      assumption
    · refine State.wr64_kept ?_
      refine State.count_kept ?_
      assumption
    · refine State.setFld_kept ?_
      refine State.count_kept ?_
      assumption
    · assumption
  clear_value s2
  clear_value x3
  refine State.noteFault_kept ?_
  assumption

theorem State.readStored_kept {r₀ : State} {s : State} {a} (h₀ : Kept r₀ s) : Kept r₀ (State.readStored s a).1 := by
  unfold State.readStored
  extract_lets x1 x2 s3
  clear_value x1 x2
  have h4 : Kept r₀ s3 := by
    unfold s3
    refine State.countBytes_kept ?_
    assumption
  clear_value s3
  refine Kept.iteFst ?_ ?_
  · refine Kept.pair ?_
    assumption
  · split
    · refine Kept.pair ?_
      refine State.corrected_kept ?_
      assumption
    · refine Kept.pair ?_
      refine State.uncorrectable_kept ?_
      assumption
    · refine Kept.pair ?_
      assumption

theorem State.setBytes_kept {r₀ s : State} {a bs} (h₀ : Kept r₀ s) : Kept r₀ (s.setBytes a bs) :=
  Kept.put rfl (fun c => ⟨c.mem.foldPut _ _, c.mram, c.regs, c.poison, c.damage⟩) h₀

theorem State.storeUnit_kept {r₀ s : State} {a bs poison} (h₀ : Kept r₀ s) : Kept r₀ (s.storeUnit a bs poison) := by
  unfold State.storeUnit
  extract_lets u s1 whole
  have h1 : Kept r₀ s1 := State.countBytes_kept h₀
  clear_value s1
  refine Kept.ite h1 ?_
  split
  rename_i s2 old e
  have h2 : Kept r₀ s2 := by
    refine Kept.fst e (Kept.iteFst h1 (Kept.iteFst (State.readStored_kept h1) h1))
  extract_lets bad s3
  have h3 : Kept r₀ s3 := State.setBytes_kept h2
  clear_value s3
  refine Kept.put rfl (fun c => ⟨c.mem, c.mram, c.regs, ?_, SMap.wf_erase _ c.damage⟩) h3
  split
  · exact setWf_insert _ c.poison
  · exact setWf_erase _ c.poison

theorem State.putUnit_kept {r₀ : State} {s : State} {a bs poison} (h₀ : Kept r₀ s) : Kept r₀ (State.putUnit s a bs poison) := by
  unfold State.putUnit
  extract_lets s1
  have h2 : Kept r₀ s1 := by
    unfold s1
    refine State.spendInject_kept ?_
    refine State.storeUnit_kept ?_
    assumption
  clear_value s1
  split
  · split
    · refine State.storeUnit_kept ?_
      assumption
    · assumption
  · assumption

theorem State.ringWrite_kept {r₀ : State} {s : State} {a bs} (h₀ : Kept r₀ s) : Kept r₀ (State.ringWrite s a bs) := by
  unfold State.ringWrite
  extract_lets x1
  clear_value x1
  split
  · split
    · refine State.noteFault_kept ?_
      refine Kept.fst ‹_› ?_
      refine State.accessCheck_kept ?_
      assumption
    · refine Kept.fst ‹_› ?_
      refine State.accessCheck_kept ?_
      assumption
  · refine State.putUnit_kept ?_
    refine Kept.fst ‹_› ?_
    refine State.accessCheck_kept ?_
    assumption

theorem State.zeroRange_kept {r₀ s : State} {a n} (h₀ : Kept r₀ s) : Kept r₀ (s.zeroRange a n) :=
  Kept.put rfl (fun c => ⟨c.mem.keep _, c.mram, c.regs, setWf_filter _ c.poison, SMap.wf_keep _ c.damage⟩) h₀

theorem State.setByte_kept {r₀ s : State} {a b} (h₀ : Kept r₀ s) : Kept r₀ (s.setByte a b) :=
  Kept.put rfl (fun c => ⟨c.mem.put _ _, c.mram, c.regs, c.poison, c.damage⟩) h₀

end Sys2Proof.Machine
end

