-- ==== Sys2Proof/Laws/Kept/RegWrite.lean ====
section
/-! SUPPORT. What the operations of Machine/RegWrite.lean keep. -/

namespace Sys2Proof.Machine

theorem State.cfgReport_kept {r₀ : State} {s : State} {addr source n} (h₀ : Kept r₀ s) : Kept r₀ (State.cfgReport s addr source n) := by
  unfold State.cfgReport
  extract_lets x1 x2 x3 s4
  clear_value x1 x2 x3
  have h5 : Kept r₀ s4 := by
    unfold s4
    refine State.ringWrite_kept ?_
    assumption
  clear_value s4
  refine Kept.ite ?_ ?_
  · refine State.count_kept ?_
    assumption
  · refine State.event_kept ?_
    refine State.setFld_kept ?_
    assumption

theorem State.writeFields_kept {r₀ : State} {s : State} {hh base total source place fs} (h₀ : Kept r₀ s) : Kept r₀ (State.writeFields s hh base total source place fs).1 := by
  unfold State.writeFields
  extract_lets x1 x2 x3 s4 x5
  clear_value x1 x2 x3
  have h6 : Kept r₀ s4 := by
    unfold s4
    refine Kept.ite ?_ ?_
    · refine State.wr64_kept ?_
      assumption
    · refine State.wr_kept ?_
      assumption
  clear_value s4
  clear_value x5
  refine Kept.pair ?_
  refine Kept.foldl (fun s7 x8 h9 => ?_) ?_
  · refine State.cfgReport_kept ?_
    assumption
  · assumption

theorem State.applyHeld_kept {r₀ : State} {s : State} {u} (h₀ : Kept r₀ s) : Kept r₀ (State.applyHeld s u) := by
  unfold State.applyHeld
  extract_lets s1
  have h2 : Kept r₀ s1 := by
    unfold s1
    refine Kept.foldl (fun s3 x4 h5 => ?_) ?_
    · split
      · refine State.writeFields_kept ?_
        assumption
      · assumption
    · assumption
  clear_value s1
  refine State.setFld_kept ?_
  refine Kept.upd rfl ?_
  assumption

theorem State.applyValue_kept {r₀ : State} {s : State} {hh base total source place} (h₀ : Kept r₀ s) : Kept r₀ (State.applyValue s hh base total source place).1 := by
  unfold State.applyValue
  extract_lets x1 x2 x3
  clear_value x1 x2 x3
  split
  split
  · refine Kept.pair ?_
    refine State.setFld_kept ?_
    refine Kept.upd rfl ?_
    refine Kept.fst ‹_› ?_
    refine State.writeFields_kept ?_
    assumption
  · refine Kept.pair ?_
    refine Kept.fst ‹_› ?_
    refine State.writeFields_kept ?_
    assumption

theorem State.regWrite_kept {r₀ : State} {s : State} {a value source place} (h₀ : Kept r₀ s) : Kept r₀ (State.regWrite s a value source place).1 := by
  unfold State.regWrite
  split
  · refine Kept.pair ?_
    assumption
  · refine Kept.iteFst ?_ ?_
    · refine Kept.pair ?_
      refine Kept.upd rfl ?_
      assumption
    · refine Kept.iteFst ?_ ?_
      · extract_lets x1 x2 x3
        clear_value x1 x2 x3
        split
        refine Kept.pair ?_
        refine Kept.fst ‹_› ?_
        refine State.applyValue_kept ?_
        refine Kept.upd rfl ?_
        assumption
      · extract_lets x4
        clear_value x4
        split
        refine Kept.pair ?_
        refine Kept.fst ‹_› ?_
        refine State.applyValue_kept ?_
        assumption

theorem State.clearRc_kept {r₀ : State} {s : State} {hh a} (h₀ : Kept r₀ s) : Kept r₀ (State.clearRc s hh a) := by
  unfold State.clearRc
  refine Kept.foldl (fun s1 x2 h3 => ?_) ?_
  · refine Kept.ite ?_ ?_
    · refine Kept.ite ?_ ?_
      · refine Kept.ite ?_ ?_
        · refine State.setFld_kept ?_
          assumption
        · assumption
      · refine Kept.ite ?_ ?_
        · refine State.setFld_kept ?_
          assumption
        · assumption
    · assumption
  · assumption

theorem State.regRead_kept {r₀ : State} {s : State} {a} (h₀ : Kept r₀ s) : Kept r₀ (State.regRead s a).1 := by
  unfold State.regRead
  split
  · refine Kept.pair ?_
    assumption
  · split
    · refine Kept.pair ?_
      refine Kept.upd rfl ?_
      assumption
    · extract_lets x1 s2 x3 s4 s5
      clear_value x1
      have h6 : Kept r₀ s2 := by
        unfold s2
        refine State.clearRc_kept ?_
        assumption
      clear_value s2
      clear_value x3
      have h7 : Kept r₀ s4 := by
        unfold s4
        refine State.clearRc_kept ?_
        assumption
      clear_value s4
      have h8 : Kept r₀ s5 := by
        unfold s5
        refine Kept.upd rfl ?_
        assumption
      clear_value s5
      refine Kept.iteFst ?_ ?_
      · refine Kept.pair ?_
        refine Kept.ite ?_ ?_
        · refine Kept.upd rfl ?_
          assumption
        · assumption
      · refine Kept.pair ?_
        assumption

end Sys2Proof.Machine
end

