-- ==== Sys2Proof/Laws/Kept/Faults.lean ====
section
/-! SUPPORT. What the operations of Machine/Faults.lean keep. -/

namespace Sys2Proof.Machine

theorem State.enqueueRec_kept {r₀ : State} {s : State} {c r x} (h₀ : Kept r₀ s) : Kept r₀ (State.enqueueRec s c r x) := by
  unfold State.enqueueRec
  refine Kept.upd rfl ?_
  assumption

theorem State.syncJobs_kept {r₀ : State} {s : State} {c} (h₀ : Kept r₀ s) : Kept r₀ (State.syncJobs s c) := by
  unfold State.syncJobs
  refine State.setFld_kept ?_
  assumption

theorem State.retire_kept {r₀ : State} {s : State} {j verdict status} (h₀ : Kept r₀ s) : Kept r₀ (State.retire s j verdict status) := by
  unfold State.retire
  extract_lets s1
  have h2 : Kept r₀ s1 := by
    unfold s1
    refine State.enqueueRec_kept ?_
    assumption
  clear_value s1
  refine State.syncJobs_kept ?_
  refine Kept.upd rfl ?_
  assumption

theorem State.fixSafetyJobs_kept {r₀ : State} {s : State} (h₀ : Kept r₀ s) : Kept r₀ (State.fixSafetyJobs s) := by
  unfold State.fixSafetyJobs
  extract_lets s1
  have h2 : Kept r₀ s1 := by
    unfold s1
    refine Kept.upd rfl ?_
    assumption
  clear_value s1
  refine Kept.foldl (fun s3 x4 h5 => ?_) ?_
  · refine State.retire_kept ?_
    assumption
  · assumption

theorem State.setAnvil_kept {r₀ : State} {s : State} {n x} (h₀ : Kept r₀ s) : Kept r₀ (State.setAnvil s n x) := by
  unfold State.setAnvil
  refine Kept.upd rfl ?_
  assumption

theorem State.modAnvil_kept {r₀ : State} {s : State} {n f} (h₀ : Kept r₀ s) : Kept r₀ (State.modAnvil s n f) := by
  unfold State.modAnvil
  refine State.setAnvil_kept ?_
  assumption

theorem State.stopUnit_kept {r₀ : State} {s : State} {u} (h₀ : Kept r₀ s) : Kept r₀ (State.stopUnit s u) := by
  unfold State.stopUnit
  extract_lets s1 s2 s3
  have h4 : Kept r₀ s1 := by
    unfold s1
    refine State.setFld_kept ?_
    assumption
  clear_value s1
  have h5 : Kept r₀ s2 := by
    unfold s2
    refine Kept.ite ?_ ?_
    · refine State.setFld_kept ?_
      refine State.modAnvil_kept ?_
      assumption
    · refine State.setFld_kept ?_
      assumption
  clear_value s2
  have h6 : Kept r₀ s3 := by
    unfold s3
    refine State.modUnit_kept ?_
    assumption
  clear_value s3
  refine State.applyHeld_kept ?_
  assumption

theorem State.stopSafetyUnits_kept {r₀ : State} {s : State} (h₀ : Kept r₀ s) : Kept r₀ (State.stopSafetyUnits s) := by
  unfold State.stopSafetyUnits
  refine Kept.foldl (fun s1 x2 h3 => ?_) ?_
  · refine Kept.ite ?_ ?_
    · refine State.stopUnit_kept ?_
      assumption
    · assumption
  · assumption

theorem State.queueFrame_kept {r₀ : State} {s : State} {f} (h₀ : Kept r₀ s) : Kept r₀ (State.queueFrame s f) := by
  unfold State.queueFrame
  refine Kept.upd rfl ?_
  assumption

theorem State.safeStateFrame_kept {r₀ : State} {s : State} (h₀ : Kept r₀ s) : Kept r₀ (State.safeStateFrame s) := by
  unfold State.safeStateFrame
  extract_lets x1 s2 x3
  clear_value x1
  have h4 : Kept r₀ s2 := by
    unfold s2
    refine State.setFld_kept ?_
    refine State.queueFrame_kept ?_
    assumption
  clear_value s2
  clear_value x3
  refine Kept.upd rfl ?_
  assumption

theorem State.startQuench_kept {r₀ : State} {s : State} {cls source st frame} (h₀ : Kept r₀ s) : Kept r₀ (State.startQuench s cls source st frame) := by
  unfold State.startQuench
  extract_lets s1 s2 s3 x4 x5 s6 s7 s8
  have h9 : Kept r₀ s1 := by
    unfold s1
    refine State.setFld_kept ?_
    refine State.setFld_kept ?_
    assumption
  clear_value s1
  have h10 : Kept r₀ s2 := by
    unfold s2
    refine State.wr64_kept ?_
    refine State.setFld_kept ?_
    assumption
  clear_value s2
  have h11 : Kept r₀ s3 := by
    unfold s3
    refine State.setFld_kept ?_
    assumption
  clear_value s3
  clear_value x4 x5
  have h12 : Kept r₀ s6 := by
    unfold s6
    refine Kept.upd rfl ?_
    assumption
  clear_value s6
  have h13 : Kept r₀ s7 := by
    unfold s7
    refine State.fixSafetyJobs_kept ?_
    refine State.stopSafetyUnits_kept ?_
    assumption
  clear_value s7
  have h14 : Kept r₀ s8 := by
    unfold s8
    refine Kept.ite ?_ ?_
    · refine State.safeStateFrame_kept ?_
      assumption
    · assumption
  clear_value s8
  refine State.evrCounter_kept ?_
  refine State.sfiEvent_kept ?_
  assumption

theorem State.correctFrames_kept {r₀ : State} {s : State} (h₀ : Kept r₀ s) : Kept r₀ (State.correctFrames s) := by
  unfold State.correctFrames
  extract_lets x1 x2 x3 x4 x5
  clear_value x1 x2 x3 x4 x5
  refine Kept.upd rfl ?_
  assumption

theorem State.noteFirst_kept {r₀ : State} {s : State} {r counter} (h₀ : Kept r₀ s) : Kept r₀ (State.noteFirst s r counter) := by
  unfold State.noteFirst
  extract_lets s1 s2
  have h3 : Kept r₀ s1 := by
    unfold s1
    refine State.latchFirst_kept ?_
    refine State.count_kept ?_
    refine State.evrCounter_kept ?_
    assumption
  clear_value s1
  have h4 : Kept r₀ s2 := by
    unfold s2
    refine Kept.ite ?_ ?_
    · refine State.correctFrames_kept ?_
      assumption
    · assumption
  clear_value s2
  refine State.logWrite_kept ?_
  assumption

theorem State.stopEmber_kept {r₀ : State} {s : State} (h₀ : Kept r₀ s) : Kept r₀ (State.stopEmber s) := by
  unfold State.stopEmber
  refine Kept.ite ?_ ?_
  · extract_lets s1 x2
    have h3 : Kept r₀ s1 := by
      unfold s1
      refine State.setFld_kept ?_
      refine State.setFld_kept ?_
      assumption
    clear_value s1
    clear_value x2
    refine Kept.upd rfl ?_
    assumption
  · assumption

theorem State.goFatal_kept {r₀ : State} {s : State} {r} (h₀ : Kept r₀ s) : Kept r₀ (State.goFatal s r) := by
  unfold State.goFatal
  extract_lets s1 s2 s3 s4 x5
  have h6 : Kept r₀ s1 := by
    unfold s1
    refine Kept.ite ?_ ?_
    · assumption
    · refine State.startQuench_kept ?_
      assumption
  clear_value s1
  have h7 : Kept r₀ s2 := by
    unfold s2
    refine State.setFld_kept ?_
    refine State.setFld_kept ?_
    assumption
  clear_value s2
  have h8 : Kept r₀ s3 := by
    unfold s3
    refine State.setFld_kept ?_
    refine State.queueFrame_kept ?_
    assumption
  clear_value s3
  have h9 : Kept r₀ s4 := by
    unfold s4
    refine State.stopEmber_kept ?_
    assumption
  clear_value s4
  clear_value x5
  refine Kept.ite ?_ ?_
  · refine Kept.upd rfl ?_
    assumption
  · assumption

theorem State.report_kept {r₀ : State} {s : State} {r} (h₀ : Kept r₀ s) : Kept r₀ (State.report s r) := by
  unfold State.report
  split
  · refine State.noteFault_kept ?_
    assumption
  · refine State.noteFault_kept ?_
    assumption
  · extract_lets s1
    have h2 : Kept r₀ s1 := by
      unfold s1
      refine State.noteFirst_kept ?_
      assumption
    clear_value s1
    refine Kept.ite ?_ ?_
    · refine State.startQuench_kept ?_
      assumption
    · assumption
  · refine State.goFatal_kept ?_
    refine State.noteFirst_kept ?_
    assumption

theorem State.modJob_kept {r₀ : State} {s : State} {id f} (h₀ : Kept r₀ s) : Kept r₀ (State.modJob s id f) := by
  unfold State.modJob
  refine Kept.upd rfl ?_
  assumption

theorem State.harm_kept {r₀ : State} {s : State} {u} (h₀ : Kept r₀ s) : Kept r₀ (State.harm s u) := by
  unfold State.harm
  split
  · refine State.modJob_kept ?_
    assumption
  · assumption

theorem State.fault_kept {r₀ : State} {s : State} {g inst safety ctx unit addr detail} (h₀ : Kept r₀ s) : Kept r₀ (State.fault s g inst safety ctx unit addr detail) := by
  unfold State.fault
  refine State.report_kept ?_
  assumption

theorem State.unitFault_kept {r₀ : State} {s : State} {u g inst addr detail} (h₀ : Kept r₀ s) : Kept r₀ (State.unitFault s u g inst addr detail) := by
  unfold State.unitFault
  extract_lets s1
  have h2 : Kept r₀ s1 := by
    unfold s1
    refine Kept.ite ?_ ?_
    · refine State.harm_kept ?_
      assumption
    · assumption
  clear_value s1
  refine State.fault_kept ?_
  assumption

end Sys2Proof.Machine
end

