-- ==== Sys2Proof/Laws/Kept/Access.lean ====
section
/-! SUPPORT. What the operations of Machine/Access.lean keep. -/

namespace Sys2Proof.Machine

theorem State.chargeErr_kept {r₀ : State} {s : State} {rq a e} (h₀ : Kept r₀ s) : Kept r₀ (State.chargeErr s rq a e) := by
  unfold State.chargeErr
  split
  · assumption
  · refine State.report_kept ?_
    split
    · refine Kept.ite ?_ ?_
      · refine State.harm_kept ?_
        assumption
      · assumption
    · assumption

theorem State.freeBytes_kept {r₀ : State} {s : State} {n} (h₀ : Kept r₀ s) : Kept r₀ (State.freeBytes s n).1 := by
  unfold State.freeBytes
  refine Kept.pair ?_
  refine Kept.upd rfl ?_
  assumption

theorem State.access_kept {r₀ : State} {s : State} {rq a write charge} (h₀ : Kept r₀ s) : Kept r₀ (State.access s rq a write charge).1 := by
  unfold State.access
  split
  · refine Kept.pair ?_
    refine Kept.ite ?_ ?_
    · refine State.chargeErr_kept ?_
      refine Kept.fst ‹_› ?_
      refine State.accessCheck_kept ?_
      assumption
    · refine Kept.fst ‹_› ?_
      refine State.accessCheck_kept ?_
      assumption
  · refine Kept.pair ?_
    refine Kept.fst ‹_› ?_
    refine State.accessCheck_kept ?_
    assumption

theorem State.readUnit_kept {r₀ : State} {s : State} {rq a charge} (h₀ : Kept r₀ s) : Kept r₀ (State.readUnit s rq a charge).1 := by
  unfold State.readUnit
  split
  · split
    refine Kept.pair ?_
    refine Kept.fst ‹_› ?_
    refine State.freeBytes_kept ?_
    refine Kept.fst ‹_› ?_
    refine State.access_kept ?_
    assumption
  · refine State.readStored_kept ?_
    refine Kept.fst ‹_› ?_
    refine State.access_kept ?_
    assumption

theorem State.refuseReg_kept {r₀ : State} {s : State} {who a write} (h₀ : Kept r₀ s) : Kept r₀ (State.refuseReg s who a write) := by
  unfold State.refuseReg
  refine Kept.ite ?_ ?_
  · refine State.chargeErr_kept ?_
    assumption
  · refine State.fault_kept ?_
    refine State.violation_kept ?_
    assumption

theorem State.consumed_kept {r₀ : State} {s : State} {unit ctx addr} (h₀ : Kept r₀ s) : Kept r₀ (State.consumed s unit ctx addr) := by
  unfold State.consumed
  refine State.report_kept ?_
  assumption

theorem State.read_kept {r₀ : State} {s : State} {rq a len charge} (h₀ : Kept r₀ s) : Kept r₀ (State.read s rq a len charge).1 := by
  unfold State.read
  refine Kept.foldlFst (fun p1 x2 h3 => ?_) ?_
  · split
    refine Kept.pair ?_
    refine Kept.fst ‹_› ?_
    refine State.readUnit_kept ?_
    assumption
  · refine Kept.pair ?_
    assumption

theorem State.writeUnit_kept {r₀ : State} {s : State} {rq a bs poison charge} (h₀ : Kept r₀ s) : Kept r₀ (State.writeUnit s rq a bs poison charge).1 := by
  unfold State.writeUnit
  split
  · refine Kept.pair ?_
    refine Kept.fst ‹_› ?_
    refine State.access_kept ?_
    assumption
  · refine Kept.pair ?_
    refine State.putUnit_kept ?_
    refine Kept.fst ‹_› ?_
    refine State.access_kept ?_
    assumption

theorem State.write_kept {r₀ : State} {s : State} {rq a bs poison charge} (h₀ : Kept r₀ s) : Kept r₀ (State.write s rq a bs poison charge).1 := by
  unfold State.write
  refine Kept.foldlFst (fun p1 x2 h3 => ?_) ?_
  · split
    refine Kept.pair ?_
    refine Kept.fst ‹_› ?_
    refine State.writeUnit_kept ?_
    assumption
  · refine Kept.pair ?_
    assumption

end Sys2Proof.Machine
end

