-- ==== Sys2Proof/Laws/Kept/Hic.lean ====
section
/-! SUPPORT. What the operations of Machine/Hic.lean keep. -/

namespace Sys2Proof.Machine

theorem State.badComplete_kept {r₀ : State} {s : State} (h₀ : Kept r₀ s) : Kept r₀ (State.badComplete s) := by
  unfold State.badComplete
  refine State.count_kept ?_
  assumption

theorem State.endActivity_kept {r₀ : State} {s : State} {src} (h₀ : Kept r₀ s) : Kept r₀ (State.endActivity s src) := by
  unfold State.endActivity
  extract_lets s1 s2 s3
  have h4 : Kept r₀ s1 := by
    unfold s1
    refine State.setFld_kept ?_
    assumption
  clear_value s1
  have h5 : Kept r₀ s2 := by
    unfold s2
    refine Kept.upd rfl ?_
    assumption
  clear_value s2
  have h6 : Kept r₀ s3 := by
    unfold s3
    refine Kept.ite ?_ ?_
    · refine State.setFld_kept ?_
      assumption
    · assumption
  clear_value s3
  refine State.setFlag_kept ?_
  assumption

theorem State.hicXComplete_kept {r₀ : State} {s : State} {src} (h₀ : Kept r₀ s) : Kept r₀ (State.hicXComplete s src) := by
  unfold State.hicXComplete
  refine Kept.ite ?_ ?_
  · refine State.endActivity_kept ?_
    assumption
  · refine State.badComplete_kept ?_
    assumption

theorem State.hicCompleteBy_kept {r₀ : State} {s : State} {k src} (h₀ : Kept r₀ s) : Kept r₀ (State.hicCompleteBy s k src) := by
  unfold State.hicCompleteBy
  refine Kept.ite ?_ ?_
  · refine State.badComplete_kept ?_
    assumption
  · refine State.endActivity_kept ?_
    assumption

theorem State.claim_kept {r₀ : State} {s : State} {src claimer} (h₀ : Kept r₀ s) : Kept r₀ (State.claim s src claimer) := by
  unfold State.claim
  extract_lets s1
  have h2 : Kept r₀ s1 := by
    unfold s1
    refine State.setFld_kept ?_
    refine State.setFld_kept ?_
    refine State.setFld_kept ?_
    assumption
  clear_value s1
  refine Kept.upd rfl ?_
  assumption

theorem State.claimRead_kept {r₀ : State} {s : State} {k} (h₀ : Kept r₀ s) : Kept r₀ (State.claimRead s k).1 := by
  unfold State.claimRead
  refine Kept.iteFst ?_ ?_
  · refine Kept.pair ?_
    assumption
  · split
    · refine Kept.pair ?_
      assumption
    · refine Kept.pair ?_
      refine State.claim_kept ?_
      assumption

end Sys2Proof.Machine
end

