-- ==== Sys2Proof/Laws/Kept/Jobs.lean ====
section
/-! SUPPORT. What the operations of Machine/Jobs.lean keep. -/

namespace Sys2Proof.Machine

theorem State.completeJob_kept {r₀ : State} {s : State} {j} (h₀ : Kept r₀ s) : Kept r₀ (State.completeJob s j) := by
  unfold State.completeJob
  extract_lets x1 x2 s3
  clear_value x1 x2
  have h4 : Kept r₀ s3 := by
    unfold s3
    refine State.retire_kept ?_
    assumption
  clear_value s3
  refine Kept.ite ?_ ?_
  · refine State.report_kept ?_
    assumption
  · assumption

theorem State.sliceOver_kept {r₀ : State} {s : State} {j} (h₀ : Kept r₀ s) : Kept r₀ (State.sliceOver s j) := by
  unfold State.sliceOver
  refine Kept.ite ?_ ?_
  · assumption
  · refine Kept.ite ?_ ?_
    · refine State.completeJob_kept ?_
      assumption
    · refine Kept.ite ?_ ?_
      · refine State.modJob_kept ?_
        assumption
      · assumption

theorem State.settle_kept {r₀ : State} {a2 : State} {a1} (h₀ : Kept r₀ a2) : Kept r₀ (State.settle a1 a2) := by
  induction a1 generalizing a2
  · unfold State.settle
    assumption
  · rename_i ih
    unfold State.settle
    split
    · assumption
    · extract_lets s1
      have h2 : Kept r₀ s1 := by
        unfold s1
        split
        · refine Kept.upd rfl ?_
          assumption
        · assumption
      clear_value s1
      refine ih ?_
      refine State.completeJob_kept ?_
      assumption

theorem State.startUnit_kept {r₀ : State} {s : State} {u job event} (h₀ : Kept r₀ s) : Kept r₀ (State.startUnit s u job event) := by
  unfold State.startUnit
  extract_lets x1 x2 x3 x4 s5 s6 s7
  clear_value x1 x2 x3 x4
  have h8 : Kept r₀ s5 := by
    unfold s5
    refine State.setFld_kept ?_
    refine State.setFld_kept ?_
    refine State.setFld_kept ?_
    assumption
  clear_value s5
  have h9 : Kept r₀ s6 := by
    unfold s6
    refine Kept.ite ?_ ?_
    · refine State.modAnvil_kept ?_
      assumption
    · assumption
  clear_value s6
  have h10 : Kept r₀ s7 := by
    unfold s7
    split
    · refine Kept.upd rfl ?_
      assumption
    · assumption
  clear_value s7
  refine State.modUnit_kept ?_
  assumption

theorem State.grant_kept {r₀ : State} {s : State} {j} (h₀ : Kept r₀ s) : Kept r₀ (State.grant s j) := by
  unfold State.grant
  extract_lets s1 x2 x3 s4 s5
  have h6 : Kept r₀ s1 := by
    unfold s1
    refine Kept.upd rfl ?_
    assumption
  clear_value s1
  clear_value x2 x3
  have h7 : Kept r₀ s4 := by
    unfold s4
    refine Kept.upd rfl ?_
    assumption
  clear_value s4
  have h8 : Kept r₀ s5 := by
    unfold s5
    refine State.modJob_kept ?_
    assumption
  clear_value s5
  refine Kept.foldl (fun s9 x10 h11 => ?_) ?_
  · refine Kept.ite ?_ ?_
    · refine State.startUnit_kept ?_
      assumption
    · assumption
  · assumption

theorem State.arbitrate_kept {r₀ : State} {a2 : State} {a1} (h₀ : Kept r₀ a2) : Kept r₀ (State.arbitrate a1 a2) := by
  induction a1 generalizing a2
  · unfold State.arbitrate
    assumption
  · rename_i ih
    unfold State.arbitrate
    split
    · assumption
    · extract_lets s1
      have h2 : Kept r₀ s1 := by
        unfold s1
        refine State.grant_kept ?_
        assumption
      clear_value s1
      refine ih ?_
      refine Kept.ite ?_ ?_
      · split
        · refine State.sliceOver_kept ?_
          assumption
        · assumption
      · assumption

theorem State.schedule_kept {r₀ : State} {s : State} (h₀ : Kept r₀ s) : Kept r₀ (State.schedule s) := by
  unfold State.schedule
  extract_lets x1 s2 s3
  clear_value x1
  have h4 : Kept r₀ s2 := by
    unfold s2
    refine State.settle_kept ?_
    assumption
  clear_value s2
  have h5 : Kept r₀ s3 := by
    unfold s3
    refine State.arbitrate_kept ?_
    assumption
  clear_value s3
  refine State.settle_kept ?_
  assumption

theorem State.checkJob_kept {r₀ : State} {s : State} {id} (h₀ : Kept r₀ s) : Kept r₀ (State.checkJob s id) := by
  unfold State.checkJob
  split
  · refine State.schedule_kept ?_
    assumption
  · refine State.schedule_kept ?_
    refine State.sliceOver_kept ?_
    assumption

theorem State.unitDoneFor_kept {r₀ : State} {s : State} {id u status} (h₀ : Kept r₀ s) : Kept r₀ (State.unitDoneFor s id u status) := by
  unfold State.unitDoneFor
  split
  · refine State.schedule_kept ?_
    assumption
  · refine Kept.ite ?_ ?_
    · refine State.schedule_kept ?_
      assumption
    · extract_lets s1
      have h2 : Kept r₀ s1 := by
        unfold s1
        refine State.modJob_kept ?_
        assumption
      clear_value s1
      refine State.checkJob_kept ?_
      assumption

theorem State.stopWith_kept {r₀ : State} {s : State} {u status late} (h₀ : Kept r₀ s) : Kept r₀ (State.stopWith s u status late) := by
  unfold State.stopWith
  extract_lets x1 s2
  clear_value x1
  have h3 : Kept r₀ s2 := by
    unfold s2
    refine State.stopUnit_kept ?_
    assumption
  clear_value s2
  split
  · refine State.unitDoneFor_kept ?_
    refine State.modJob_kept ?_
    assumption
  · refine State.schedule_kept ?_
    assumption

theorem State.setModer_kept {r₀ : State} {s : State} {c r m} (h₀ : Kept r₀ s) : Kept r₀ (State.setModer s c r m) := by
  unfold State.setModer
  refine Kept.upd rfl ?_
  assumption

theorem State.moderate_kept {r₀ : State} {s : State} {c r noIrq} (h₀ : Kept r₀ s) : Kept r₀ (State.moderate s c r noIrq) := by
  unfold State.moderate
  refine Kept.ite ?_ ?_
  · assumption
  · extract_lets x1 x2
    clear_value x1 x2
    refine Kept.ite ?_ ?_
    · refine State.hicEvent_kept ?_
      refine State.setModer_kept ?_
      assumption
    · refine State.setModer_kept ?_
      assumption

theorem State.cqPut_kept {r₀ : State} {s : State} {c r unit gen x} (h₀ : Kept r₀ s) : Kept r₀ (State.cqPut s c r unit gen x) := by
  unfold State.cqPut
  extract_lets x1 x2 x3 x4 x5
  clear_value x1 x2 x3 x4 x5
  split
  extract_lets s6 s7
  have h8 : Kept r₀ s6 := by
    unfold s6
    refine State.setFld_kept ?_
    refine Kept.fst ‹_› ?_
    refine State.write_kept ?_
    assumption
  clear_value s6
  have h9 : Kept r₀ s7 := by
    unfold s7
    refine Kept.ite ?_ ?_
    · refine State.setFld_kept ?_
      assumption
    · assumption
  clear_value s7
  refine State.moderate_kept ?_
  assumption

theorem State.writeOneRec_kept {r₀ : State} {s : State} {c r} (h₀ : Kept r₀ s) : Kept r₀ (State.writeOneRec s c r) := by
  unfold State.writeOneRec
  split
  · assumption
  · refine Kept.ite ?_ ?_
    · refine State.cqPut_kept ?_
      refine Kept.upd rfl ?_
      assumption
    · assumption

theorem State.startPair_kept {r₀ : State} {s : State} {u job event} (h₀ : Kept r₀ s) : Kept r₀ (State.startPair s u job event) := by
  unfold State.startPair
  refine Kept.ite ?_ ?_
  · extract_lets x1 s2
    clear_value x1
    have h3 : Kept r₀ s2 := by
      unfold s2
      refine Kept.ite ?_ ?_
      · refine State.startUnit_kept ?_
        assumption
      · assumption
    clear_value s2
    refine Kept.ite ?_ ?_
    · refine State.startUnit_kept ?_
      assumption
    · assumption
  · refine State.startUnit_kept ?_
    assumption

end Sys2Proof.Machine
end

