-- ==== Sys2Proof/Laws/Kept/Rings.lean ====
section
/-! SUPPORT. What the operations of Machine/Rings.lean keep. -/

namespace Sys2Proof.Machine

theorem State.recutSplits_kept {r₀ : State} {s : State} {u} (h₀ : Kept r₀ s) : Kept r₀ (State.recutSplits s u) := by
  unfold State.recutSplits
  refine Kept.upd rfl ?_
  assumption

theorem State.badDoorbell_kept {r₀ : State} {s : State} {c} (h₀ : Kept r₀ s) : Kept r₀ (State.badDoorbell s c) := by
  unfold State.badDoorbell
  extract_lets s1
  have h2 : Kept r₀ s1 := by
    unfold s1
    refine State.event_kept ?_
    refine State.count_kept ?_
    assumption
  clear_value s1
  refine State.report_kept ?_
  assumption

theorem State.cqDoorbell_kept {r₀ : State} {s : State} {c r value} (h₀ : Kept r₀ s) : Kept r₀ (State.cqDoorbell s c r value) := by
  unfold State.cqDoorbell
  extract_lets x1 x2 x3 s4
  clear_value x1 x2 x3
  have h5 : Kept r₀ s4 := by
    unfold s4
    refine State.setFld_kept ?_
    assumption
  clear_value s4
  refine Kept.ite ?_ ?_
  · assumption
  · refine Kept.ite ?_ ?_
    · refine State.badDoorbell_kept ?_
      assumption
    · refine Kept.ite ?_ ?_
      · refine State.setModer_kept ?_
        assumption
      · assumption

theorem State.ringBy_kept {r₀ s ring : State} {who c slot} (h₀ : Kept r₀ s) (h : Kept r₀ ring) : Kept r₀ (s.ringBy who c slot ring) := by
  unfold State.ringBy
  exact Kept.ite h₀ (Kept.ite h (Kept.ite h₀ (State.refuseReg_kept h₀)))

theorem execCqHeadDoorbell_completes {s : State} {who c r value} : Completes s (execCqHeadDoorbell who c r value s) := by
  exact Completes.next (State.ringBy_kept Kept.refl (State.cqDoorbell_kept Kept.refl))

theorem State.reach_kept {r₀ : State} {s : State} {ns} (h₀ : Kept r₀ s) : Kept r₀ (State.reach s ns) := by
  unfold State.reach
  refine Kept.ite ?_ ?_
  · refine Kept.upd rfl ?_
    assumption
  · assumption

theorem State.every_kept {r₀ : State} {s : State} {key period} (h₀ : Kept r₀ s) : Kept r₀ (State.every s key period) := by
  unfold State.every
  extract_lets s1
  have h2 : Kept r₀ s1 := by
    unfold s1
    refine State.reach_kept ?_
    assumption
  clear_value s1
  refine Kept.upd rfl ?_
  assumption

theorem State.expire_kept {r₀ : State} {s : State} {ns} (h₀ : Kept r₀ s) : Kept r₀ (State.expire s ns) := by
  unfold State.expire
  extract_lets x1
  clear_value x1
  refine Kept.ite ?_ ?_
  · refine Kept.upd rfl ?_
    assumption
  · assumption

theorem State.sqDoorbell_kept {r₀ : State} {s : State} {c r value} (h₀ : Kept r₀ s) : Kept r₀ (State.sqDoorbell s c r value) := by
  unfold State.sqDoorbell
  extract_lets x1 x2 x3
  clear_value x1 x2 x3
  refine Kept.ite ?_ ?_
  · assumption
  · refine Kept.ite ?_ ?_
    · refine State.badDoorbell_kept ?_
      assumption
    · refine State.setFld_kept ?_
      assumption

theorem State.readDesc_kept {r₀ : State} {s : State} {c r} (h₀ : Kept r₀ s) : Kept r₀ (State.readDesc s c r).1 := by
  unfold State.readDesc
  extract_lets rq a
  exact State.read_kept (State.read_kept h₀)

theorem State.advanceHead_kept {r₀ : State} {s : State} {c r} (h₀ : Kept r₀ s) : Kept r₀ (State.advanceHead s c r) := by
  unfold State.advanceHead
  extract_lets x1
  clear_value x1
  refine State.setFld_kept ?_
  assumption

theorem State.takeDesc_kept {r₀ s : State} {c r op run} (hf : ∀ d s, Kept r₀ s → Kept r₀ (run s d)) (h₀ : Kept r₀ s) :
    Kept r₀ (s.takeDesc c r op run) := by
  unfold State.takeDesc
  refine Kept.ite h₀ ?_
  split
  rename_i s1 x e
  have h1 : Kept r₀ s1 := Kept.fst e (State.readDesc_kept h₀)
  extract_lets d o s2 j
  refine Kept.ite h₀ ?_
  split
  · exact State.enqueueRec_kept (State.count_kept (State.advanceHead_kept h1))
  · exact Kept.ite h₀ (hf _ _ (State.advanceHead_kept h1))

theorem State.accept_kept {r₀ : State} {s : State} {j} (h₀ : Kept r₀ s) : Kept r₀ (State.accept s j) := by
  unfold State.accept
  refine State.syncJobs_kept ?_
  refine Kept.upd rfl ?_
  assumption

theorem execDescriptorFence_completes {s : State} {c r} : Completes s (execDescriptorFence c r s) := by
  unfold execDescriptorFence
  refine Completes.next ?_
  refine State.takeDesc_kept (fun d3 s1 h2 => ?_) ?_
  · refine State.schedule_kept ?_
    refine State.accept_kept ?_
    assumption
  · exact Kept.refl

theorem State.doorbellWrite_kept {r₀ : State} {s : State} {c off value} (h₀ : Kept r₀ s) : Kept r₀ (State.doorbellWrite s c off value) := by
  unfold State.doorbellWrite
  refine Kept.ite ?_ ?_
  · assumption
  · refine Kept.ite ?_ ?_
    · refine State.sqDoorbell_kept ?_
      assumption
    · refine State.cqDoorbell_kept ?_
      assumption

theorem execUnloadModel_completes {s : State} {c r} : Completes s (execUnloadModel c r s) := by
  unfold execUnloadModel
  refine Completes.next ?_
  refine State.takeDesc_kept (fun d3 s1 h2 => ?_) ?_
  · extract_lets x4 s5
    clear_value x4
    have h6 : Kept s s5 := by
      unfold s5
      refine Kept.upd rfl ?_
      assumption
    clear_value s5
    refine State.schedule_kept ?_
    refine State.accept_kept ?_
    assumption
  · exact Kept.refl

theorem execRunGraph_completes {s : State} {c r} : Completes s (execRunGraph c r s) := by
  unfold execRunGraph
  refine Completes.next ?_
  refine State.takeDesc_kept (fun d3 s1 h2 => ?_) ?_
  · extract_lets x4 x5 x6 x7 x8
    clear_value x4 x5 x6 x7 x8
    refine Kept.ite ?_ ?_
    · refine State.enqueueRec_kept ?_
      assumption
    · refine State.schedule_kept ?_
      refine State.accept_kept ?_
      assumption
  · exact Kept.refl

theorem execSqTailDoorbell_completes {s : State} {who c r value} : Completes s (execSqTailDoorbell who c r value s) := by
  exact Completes.next (State.ringBy_kept Kept.refl (State.sqDoorbell_kept Kept.refl))

theorem execDeadlineExpire_completes {s : State} {job} : Completes s (execDeadlineExpire job s) := by
  unfold execDeadlineExpire
  refine Completes.next ?_
  split
  · exact Kept.refl
  · refine Kept.ite ?_ ?_
    · exact Kept.refl
    · extract_lets s1 x2
      have h3 : Kept s s1 := by
        unfold s1
        refine State.expire_kept ?_
        exact Kept.refl
      clear_value s1
      clear_value x2
      refine State.checkJob_kept ?_
      refine State.modJob_kept ?_
      assumption

theorem execCompletionRecordWrite_completes {s : State} {c r} : Completes s (execCompletionRecordWrite c r s) := by
  unfold execCompletionRecordWrite
  refine Completes.next ?_
  refine State.writeOneRec_kept ?_
  exact Kept.refl

theorem execNop_completes {s : State} {c r} : Completes s (execNop c r s) := by
  unfold execNop
  refine Completes.next ?_
  refine State.takeDesc_kept (fun d3 s1 h2 => ?_) ?_
  · extract_lets x4
    clear_value x4
    refine State.enqueueRec_kept ?_
    assumption
  · exact Kept.refl

theorem execModerationTimer_completes {s : State} {c r} : Completes s (execModerationTimer c r s) := by
  unfold execModerationTimer
  refine Completes.next ?_
  extract_lets x1 x2
  clear_value x1 x2
  refine Kept.ite ?_ ?_
  · exact Kept.refl
  · refine State.hicEvent_kept ?_
    refine State.setModer_kept ?_
    refine State.expire_kept ?_
    exact Kept.refl

theorem execDescriptorReadError_completes {s : State} {c r} : Completes s (execDescriptorReadError c r s) := by
  unfold execDescriptorReadError
  refine Completes.next ?_
  refine Kept.ite ?_ ?_
  · exact Kept.refl
  · split
    refine Kept.ite ?_ ?_
    · exact Kept.refl
    · extract_lets s1 s2 x3
      have h4 : Kept s s1 := by
        unfold s1
        refine Kept.ite ?_ ?_
        · refine State.consumed_kept ?_
          refine Kept.fst ‹_› ?_
          refine State.readDesc_kept ?_
          exact Kept.refl
        · refine Kept.fst ‹_› ?_
          refine State.readDesc_kept ?_
          exact Kept.refl
      clear_value s1
      have h5 : Kept s s2 := by
        unfold s2
        refine State.count_kept ?_
        refine State.advanceHead_kept ?_
        assumption
      clear_value s2
      clear_value x3
      refine State.enqueueRec_kept ?_
      assumption

end Sys2Proof.Machine
end

