-- ==== Sys2Proof/Laws/Kept/Link.lean ====
section
/-! SUPPORT. What the operations of Machine/Link.lean keep. -/

namespace Sys2Proof.Machine

theorem State.setLink_kept {r₀ : State} {s : State} {q x} (h₀ : Kept r₀ s) : Kept r₀ (State.setLink s q x) := by
  unfold State.setLink
  refine Kept.upd rfl ?_
  assumption

theorem State.transmit_kept {r₀ : State} {s : State} {q m} (h₀ : Kept r₀ s) : Kept r₀ (State.transmit s q m) := by
  unfold State.transmit
  extract_lets x1 x2 x3 s4 x5 s6
  clear_value x1 x2 x3
  have h7 : Kept r₀ s4 := by
    unfold s4
    refine State.setLink_kept ?_
    assumption
  clear_value s4
  clear_value x5
  have h8 : Kept r₀ s6 := by
    unfold s6
    refine Kept.ite ?_ ?_
    · refine Kept.upd rfl ?_
      assumption
    · assumption
  clear_value s6
  refine State.send_kept ?_
  assumption

theorem State.linkSend_kept {r₀ : State} {s : State} {q m} (h₀ : Kept r₀ s) : Kept r₀ (State.linkSend s q m) := by
  unfold State.linkSend
  extract_lets x1
  clear_value x1
  refine Kept.ite ?_ ?_
  · assumption
  · refine Kept.ite ?_ ?_
    · refine State.transmit_kept ?_
      assumption
    · refine State.setLink_kept ?_
      assumption

theorem State.modLink_kept {r₀ : State} {s : State} {q f} (h₀ : Kept r₀ s) : Kept r₀ (State.modLink s q f) := by
  unfold State.modLink
  refine State.setLink_kept ?_
  assumption

theorem State.portEvent_kept {r₀ : State} {s : State} {q f} (h₀ : Kept r₀ s) : Kept r₀ (State.portEvent s q f) := by
  unfold State.portEvent
  refine State.syncSrc_kept ?_
  refine State.syncSrc_kept ?_
  refine State.setFld_kept ?_
  assumption

theorem State.linkDrop_kept {r₀ : State} {s : State} {q} (h₀ : Kept r₀ s) : Kept r₀ (State.linkDrop s q) := by
  unfold State.linkDrop
  refine State.portEvent_kept ?_
  refine State.count_kept ?_
  assumption

theorem State.linkCtl_kept {r₀ : State} {s : State} {q ty arg0 arg1} (h₀ : Kept r₀ s) : Kept r₀ (State.linkCtl s q ty arg0 arg1) := by
  unfold State.linkCtl
  refine State.send_kept ?_
  assumption

theorem State.linkGot_kept {r₀ : State} {s : State} {q m} (h₀ : Kept r₀ s) : Kept r₀ (State.linkGot s q m) := by
  unfold State.linkGot
  extract_lets x1 x2 s3 s4
  clear_value x1 x2
  have h5 : Kept r₀ s3 := by
    unfold s3
    refine Kept.ite ?_ ?_
    · refine Kept.upd rfl ?_
      assumption
    · assumption
  clear_value s3
  have h6 : Kept r₀ s4 := by
    unfold s4
    refine Kept.ite ?_ ?_
    · refine State.linkCtl_kept ?_
      refine State.setLink_kept ?_
      assumption
    · refine State.setLink_kept ?_
      assumption
  clear_value s4
  refine State.linkCtl_kept ?_
  assumption

theorem State.linkDrain_kept {r₀ : State} {a3 : State} {a1 a2} (h₀ : Kept r₀ a3) : Kept r₀ (State.linkDrain a1 a2 a3) := by
  induction a1 generalizing a2 a3
  · unfold State.linkDrain
    assumption
  · rename_i ih
    unfold State.linkDrain
    extract_lets x1 x2
    clear_value x1 x2
    split
    · refine ih ?_
      refine State.transmit_kept ?_
      refine State.setLink_kept ?_
      assumption
    · assumption

end Sys2Proof.Machine
end

