-- ==== Sys2Proof/Laws/Kept/TimeUnit.lean ====
section
/-! SUPPORT. What the operations of Machine/TimeUnit.lean keep. -/

namespace Sys2Proof.Machine

theorem State.timEvent_kept {r₀ : State} {s : State} {i} (h₀ : Kept r₀ s) : Kept r₀ (State.timEvent s i) := by
  unfold State.timEvent
  refine State.event_kept ?_
  assumption

theorem State.modTime_kept {r₀ : State} {s : State} {f} (h₀ : Kept r₀ s) : Kept r₀ (State.modTime s f) := by
  unfold State.modTime
  refine Kept.upd rfl ?_
  assumption

theorem State.runStart_kept {r₀ : State} {s : State} (h₀ : Kept r₀ s) : Kept r₀ (State.runStart s) := by
  unfold State.runStart
  extract_lets x1 s2 x3 x4 x5 x6
  clear_value x1
  have h7 : Kept r₀ s2 := by
    unfold s2
    refine State.modTime_kept ?_
    assumption
  clear_value s2
  clear_value x3 x4 x5 x6
  refine Kept.ite ?_ ?_
  · refine State.modTime_kept ?_
    refine State.setFld_kept ?_
    assumption
  · refine State.modTime_kept ?_
    assumption

theorem State.runStop_kept {r₀ : State} {s : State} (h₀ : Kept r₀ s) : Kept r₀ (State.runStop s) := by
  unfold State.runStop
  refine State.modTime_kept ?_
  refine State.setFld_kept ?_
  assumption

theorem State.gptpConfig_kept {r₀ : State} {s : State} (h₀ : Kept r₀ s) : Kept r₀ (State.gptpConfig s) := by
  unfold State.gptpConfig
  extract_lets s1
  have h2 : Kept r₀ s1 := by
    unfold s1
    refine State.setFlag_kept ?_
    assumption
  clear_value s1
  refine Kept.ite ?_ ?_
  · refine Kept.ite ?_ ?_
    · assumption
    · refine State.modTime_kept ?_
      assumption
  · refine State.modTime_kept ?_
    refine State.setFld_kept ?_
    assumption

theorem State.reachFrac_kept {r₀ : State} {s : State} {t} (h₀ : Kept r₀ s) : Kept r₀ (State.reachFrac s t) := by
  unfold State.reachFrac
  refine Kept.ite ?_ ?_
  · refine Kept.upd rfl ?_
    assumption
  · assumption

theorem State.barFault_kept {r₀ : State} {s : State} (h₀ : Kept r₀ s) : Kept r₀ (State.barFault s) := by
  unfold State.barFault
  refine State.fault_kept ?_
  assumption

theorem State.useMark_kept {r₀ : State} {s : State} {m} (h₀ : Kept r₀ s) : Kept r₀ (State.useMark s m) := by
  unfold State.useMark
  extract_lets x1 x2 x3 x4 x5 x6
  clear_value x1 x2 x3 x4 x5 x6
  split
  extract_lets x7 x8 x9 x10 x11 x12
  clear_value x7 x8 x9 x10 x11 x12
  split
  extract_lets s13 x14 x15 x16 s17 x18 s19 s20 x21
  have h22 : Kept r₀ s13 := by
    unfold s13
    refine State.setFld_kept ?_
    refine Kept.fst ‹_› ?_
    refine State.openQuotient_kept ?_
    refine Kept.fst ‹_› ?_
    split
    · refine Kept.pair ?_
      assumption
    · split
      · refine Kept.pair ?_
        assumption
      · split
        refine Kept.pair ?_
        refine Kept.fst ‹_› ?_
        refine State.free_kept ?_
        assumption
  clear_value s13
  clear_value x14 x15 x16
  have h23 : Kept r₀ s17 := by
    unfold s17
    refine State.modTime_kept ?_
    assumption
  clear_value s17
  clear_value x18
  have h24 : Kept r₀ s19 := by
    unfold s19
    refine Kept.ite ?_ ?_
    · refine State.barFault_kept ?_
      refine State.timEvent_kept ?_
      refine State.modTime_kept ?_
      assumption
    · assumption
  clear_value s19
  have h25 : Kept r₀ s20 := by
    unfold s20
    refine State.timEvent_kept ?_
    refine State.setFld_kept ?_
    assumption
  clear_value s20
  clear_value x21
  refine Kept.ite ?_ ?_
  · refine Kept.ite ?_ ?_
    · assumption
    · refine State.modTime_kept ?_
      assumption
  · assumption

theorem execStrikeMark_completes {s : State} {q m} : Completes s (execStrikeMark q m s) := by
  unfold execStrikeMark
  refine Completes.next ?_
  refine Kept.ite ?_ ?_
  · exact Kept.refl
  · refine Kept.ite ?_ ?_
    · refine State.count_kept ?_
      exact Kept.refl
    · refine State.useMark_kept ?_
      exact Kept.refl

theorem State.stampNs_kept {r₀ : State} {s : State} (h₀ : Kept r₀ s) : Kept r₀ (State.stampNs s).1 := by
  unfold State.stampNs
  split
  refine Kept.pair ?_
  refine Kept.fst ‹_› ?_
  refine State.free_kept ?_
  assumption

theorem execMarkCoastTimeout_completes {s : State} : Completes s (execMarkCoastTimeout s) := by
  unfold execMarkCoastTimeout
  refine Completes.next ?_
  refine Kept.ite ?_ ?_
  · exact Kept.refl
  · refine State.modTime_kept ?_
    refine State.setFld_kept ?_
    refine State.expire_kept ?_
    exact Kept.refl

theorem State.gmSync_kept {r₀ : State} {s : State} {p} (h₀ : Kept r₀ s) : Kept r₀ (State.gmSync s p) := by
  unfold State.gmSync
  split
  refine State.send_kept ?_
  refine State.send_kept ?_
  refine Kept.fst ‹_› ?_
  refine State.stampNs_kept ?_
  assumption

theorem execGmSyncTransmit_completes {s : State} : Completes s (execGmSyncTransmit s) := by
  unfold execGmSyncTransmit
  refine Completes.next ?_
  refine Kept.ite ?_ ?_
  · exact Kept.refl
  · extract_lets s1 s2
    have h3 : Kept s s1 := by
      unfold s1
      refine State.reach_kept ?_
      exact Kept.refl
    clear_value s1
    have h4 : Kept s s2 := by
      unfold s2
      refine Kept.foldl (fun s5 x6 h7 => ?_) ?_
      · refine Kept.ite ?_ ?_
        · refine State.gmSync_kept ?_
          assumption
        · assumption
      · assumption
    clear_value s2
    refine State.modTime_kept ?_
    assumption

theorem State.sendMarks_kept {r₀ : State} {s : State} {offset} (h₀ : Kept r₀ s) : Kept r₀ (State.sendMarks s offset) := by
  unfold State.sendMarks
  refine Kept.ite ?_ ?_
  · refine Kept.foldl (fun s1 x2 h3 => ?_) ?_
    · extract_lets x4
      clear_value x4
      refine State.linkSend_kept ?_
      assumption
    · assumption
  · assumption

theorem execStrikeMarkTimer_completes {s : State} : Completes s (execStrikeMarkTimer s) := by
  unfold execStrikeMarkTimer
  refine Completes.next ?_
  refine Kept.ite ?_ ?_
  · exact Kept.refl
  · extract_lets x1 x2
    clear_value x1 x2
    refine Kept.ite ?_ ?_
    · exact Kept.refl
    · refine State.sendMarks_kept ?_
      refine State.reachFrac_kept ?_
      exact Kept.refl

theorem execPdelayExchange_completes {s : State} {p m} : Completes s (execPdelayExchange p m s) := by
  unfold execPdelayExchange
  refine Completes.next ?_
  refine Kept.ite ?_ ?_
  · exact Kept.refl
  · extract_lets x1 s2 s3
    clear_value x1
    have h4 : Kept s s2 := by
      unfold s2
      refine State.reach_kept ?_
      exact Kept.refl
    clear_value s2
    have h5 : Kept s s3 := by
      unfold s3
      refine State.modTime_kept ?_
      refine State.setFld_kept ?_
      assumption
    clear_value s3
    split
    refine State.send_kept ?_
    refine Kept.fst ‹_› ?_
    refine State.stampNs_kept ?_
    assumption

theorem State.gptpStep_kept {r₀ : State} {s : State} {offset} (h₀ : Kept r₀ s) : Kept r₀ (State.gptpStep s offset) := by
  unfold State.gptpStep
  extract_lets x1 s2 s3 s4
  clear_value x1
  have h5 : Kept r₀ s2 := by
    unfold s2
    refine Kept.upd rfl ?_
    assumption
  clear_value s2
  have h6 : Kept r₀ s3 := by
    unfold s3
    refine Kept.upd rfl ?_
    assumption
  clear_value s3
  have h7 : Kept r₀ s4 := by
    unfold s4
    refine State.modTime_kept ?_
    assumption
  clear_value s4
  refine State.timEvent_kept ?_
  refine State.setFld_kept ?_
  refine State.setFld_kept ?_
  assumption

theorem State.gptpOffset_kept {r₀ : State} {s : State} {p offset} (h₀ : Kept r₀ s) : Kept r₀ (State.gptpOffset s p offset) := by
  unfold State.gptpOffset
  extract_lets s1 x2 x3 x4 s5 s6 s7
  have h8 : Kept r₀ s1 := by
    unfold s1
    refine State.setFld_kept ?_
    assumption
  clear_value s1
  clear_value x2 x3 x4
  have h9 : Kept r₀ s5 := by
    unfold s5
    refine Kept.ite ?_ ?_
    · refine State.timEvent_kept ?_
      assumption
    · assumption
  clear_value s5
  have h10 : Kept r₀ s6 := by
    unfold s6
    refine State.setFld_kept ?_
    assumption
  clear_value s6
  have h11 : Kept r₀ s7 := by
    unfold s7
    refine State.modTime_kept ?_
    assumption
  clear_value s7
  refine Kept.ite ?_ ?_
  · refine State.gptpStep_kept ?_
    assumption
  · assumption

theorem State.linkDelayNs_kept {r₀ : State} {s : State} {p} (h₀ : Kept r₀ s) : Kept r₀ (State.linkDelayNs s p).1 := by
  unfold State.linkDelayNs
  extract_lets x1
  clear_value x1
  refine Kept.iteFst ?_ ?_
  · refine State.free_kept ?_
    assumption
  · refine Kept.pair ?_
    assumption

theorem State.gptpMeasure_kept {r₀ : State} {s : State} {p origin correction ingress} (h₀ : Kept r₀ s) : Kept r₀ (State.gptpMeasure s p origin correction ingress) := by
  unfold State.gptpMeasure
  split
  split
  refine State.gptpOffset_kept ?_
  refine Kept.fst ‹_› ?_
  refine State.openQuotient_kept ?_
  refine Kept.fst ‹_› ?_
  refine State.linkDelayNs_kept ?_
  assumption

theorem State.relayFollowUp_kept {r₀ : State} {s : State} {p m correction ingress egress} (h₀ : Kept r₀ s) : Kept r₀ (State.relayFollowUp s p m correction ingress egress) := by
  unfold State.relayFollowUp
  split
  · assumption
  · split
    split
    split
    split
    refine State.send_kept ?_
    refine Kept.fst ‹_› ?_
    refine State.openQuotient_kept ?_
    refine Kept.fst ‹_› ?_
    refine State.openQuotient_kept ?_
    refine Kept.fst ‹_› ?_
    split
    · refine Kept.pair ?_
      refine Kept.fst ‹_› ?_
      refine State.linkDelayNs_kept ?_
      assumption
    · split
      refine Kept.pair ?_
      refine Kept.fst ‹_› ?_
      refine State.free_kept ?_
      refine Kept.fst ‹_› ?_
      refine State.linkDelayNs_kept ?_
      assumption

theorem execFollowUpReceived_completes {s : State} {p m} : Completes s (execFollowUpReceived p m s) := by
  unfold execFollowUpReceived
  refine Completes.next ?_
  refine Kept.ite ?_ ?_
  · exact Kept.refl
  · split
    · exact Kept.refl
    · refine Kept.ite ?_ ?_
      · exact Kept.refl
      · extract_lets s1 x2
        have h3 : Kept s s1 := by
          unfold s1
          refine State.modTime_kept ?_
          exact Kept.refl
        clear_value s1
        clear_value x2
        refine State.gptpMeasure_kept ?_
        refine State.relayFollowUp_kept ?_
        assumption

theorem execSyncReceived_completes {s : State} {p m} : Completes s (execSyncReceived p m s) := by
  unfold execSyncReceived
  refine Completes.next ?_
  refine Kept.ite ?_ ?_
  · exact Kept.refl
  · split
    split
    refine Kept.ite ?_ ?_
    · refine State.modTime_kept ?_
      refine Kept.fst ‹_› ?_
      split
      · split
        extract_lets x1
        clear_value x1
        refine Kept.pair ?_
        refine State.send_kept ?_
        refine Kept.fst ‹_› ?_
        refine State.free_kept ?_
        refine Kept.fst ‹_› ?_
        refine State.stampNs_kept ?_
        exact Kept.refl
      · refine Kept.pair ?_
        refine Kept.fst ‹_› ?_
        refine State.stampNs_kept ?_
        exact Kept.refl
    · refine State.gptpMeasure_kept ?_
      refine State.relayFollowUp_kept ?_
      refine Kept.fst ‹_› ?_
      split
      · split
        extract_lets x2
        clear_value x2
        refine Kept.pair ?_
        refine State.send_kept ?_
        refine Kept.fst ‹_› ?_
        refine State.free_kept ?_
        refine Kept.fst ‹_› ?_
        refine State.stampNs_kept ?_
        exact Kept.refl
      · refine Kept.pair ?_
        refine Kept.fst ‹_› ?_
        refine State.stampNs_kept ?_
        exact Kept.refl

theorem execMarkLostTimeout_completes {s : State} : Completes s (execMarkLostTimeout s) := by
  unfold execMarkLostTimeout
  refine Completes.next ?_
  refine Kept.ite ?_ ?_
  · exact Kept.refl
  · extract_lets s1
    have h2 : Kept s s1 := by
      unfold s1
      refine State.modTime_kept ?_
      refine State.setFld_kept ?_
      refine State.expire_kept ?_
      exact Kept.refl
    clear_value s1
    refine State.barFault_kept ?_
    refine State.timEvent_kept ?_
    assumption

theorem State.takeRelease_kept {r₀ : State} {s : State} {id strike} (h₀ : Kept r₀ s) : Kept r₀ (State.takeRelease s id strike) := by
  unfold State.takeRelease
  refine Kept.ite ?_ ?_
  · refine State.modTime_kept ?_
    assumption
  · assumption

theorem State.sendRelease_kept {r₀ : State} {s : State} {id strike module} (h₀ : Kept r₀ s) : Kept r₀ (State.sendRelease s id strike module) := by
  unfold State.sendRelease
  refine Kept.ite ?_ ?_
  · refine State.takeRelease_kept ?_
    assumption
  · split
    · refine State.linkSend_kept ?_
      assumption
    · assumption

theorem State.takeArrive_kept {r₀ : State} {s : State} {module id mask} (h₀ : Kept r₀ s) : Kept r₀ (State.takeArrive s module id mask) := by
  unfold State.takeArrive
  extract_lets x1 s2 x3 x4 x5 s6
  clear_value x1
  have h7 : Kept r₀ s2 := by
    unfold s2
    refine State.modTime_kept ?_
    assumption
  clear_value s2
  clear_value x3 x4 x5
  have h8 : Kept r₀ s6 := by
    unfold s6
    refine State.modTime_kept ?_
    assumption
  clear_value s6
  refine Kept.ite ?_ ?_
  · refine Kept.foldl (fun s9 x10 h11 => ?_) ?_
    · refine State.sendRelease_kept ?_
      assumption
    · assumption
  · assumption

theorem execBarrier_completes {s : State} {c r} : Completes s (execBarrier c r s) := by
  unfold execBarrier
  refine Completes.next ?_
  refine Kept.ite ?_ ?_
  · exact Kept.refl
  · refine State.takeDesc_kept (fun d3 s1 h2 => ?_) ?_
    · extract_lets x4 x5 x6 s7 x8
      clear_value x4 x5 x6
      have h9 : Kept s s7 := by
        unfold s7
        refine State.modTime_kept ?_
        refine State.accept_kept ?_
        assumption
      clear_value s7
      clear_value x8
      split
      · refine Kept.ite ?_ ?_
        · refine State.takeRelease_kept ?_
          assumption
        · assumption
      · refine State.takeArrive_kept ?_
        assumption
      · refine State.linkSend_kept ?_
        assumption
    · exact Kept.refl

theorem execArrive_completes {s : State} {module id mask} : Completes s (execArrive module id mask s) := by
  unfold execArrive
  refine Completes.next ?_
  refine Kept.ite ?_ ?_
  · exact Kept.refl
  · refine State.takeArrive_kept ?_
    exact Kept.refl

theorem execSyncTimeout_completes {s : State} : Completes s (execSyncTimeout s) := by
  unfold execSyncTimeout
  refine Completes.next ?_
  extract_lets x1 s2
  clear_value x1
  have h3 : Kept s s2 := by
    unfold s2
    refine State.expire_kept ?_
    exact Kept.refl
  clear_value s2
  refine Kept.ite ?_ ?_
  · exact Kept.refl
  · refine State.timEvent_kept ?_
    refine State.count_kept ?_
    refine State.setFld_kept ?_
    assumption

theorem execRelease_completes {s : State} {id strike} : Completes s (execRelease id strike s) := by
  unfold execRelease
  refine Completes.next ?_
  refine State.takeRelease_kept ?_
  exact Kept.refl

theorem State.tick_kept {r₀ : State} {s : State} (h₀ : Kept r₀ s) : Kept r₀ (State.tick s) := by
  unfold State.tick
  refine Kept.ite ?_ ?_
  · assumption
  · refine Kept.upd rfl ?_
    assumption

end Sys2Proof.Machine
end

