-- ==== Sys2Proof/Laws/Kept/Flags.lean ====
section
/-! SUPPORT. What the operations of Machine/Flags.lean keep. -/

namespace Sys2Proof.Machine

theorem State.leavePair_kept {r₀ : State} {s : State} {u} (h₀ : Kept r₀ s) : Kept r₀ (State.leavePair s u) := by
  unfold State.leavePair
  extract_lets x1 s2 s3
  clear_value x1
  have h4 : Kept r₀ s2 := by
    unfold s2
    refine State.setFld_kept ?_
    assumption
  clear_value s2
  have h5 : Kept r₀ s3 := by
    unfold s3
    refine State.setFld_kept ?_
    assumption
  clear_value s3
  refine Kept.ite ?_ ?_
  · assumption
  · refine Kept.ite ?_ ?_
    · refine Kept.upd rfl ?_
      assumption
    · refine State.setFld_kept ?_
      assumption

theorem State.fenceUnit_kept {r₀ : State} {s : State} {u cause} (h₀ : Kept r₀ s) : Kept r₀ (State.fenceUnit s u cause) := by
  unfold State.fenceUnit
  extract_lets s1 s2 s3
  have h4 : Kept r₀ s1 := by
    unfold s1
    refine State.setFld_kept ?_
    refine State.setFld_kept ?_
    assumption
  clear_value s1
  have h5 : Kept r₀ s2 := by
    unfold s2
    refine State.evrCounter_kept ?_
    refine State.fclEvent_kept ?_
    refine State.logWrite_kept ?_
    assumption
  clear_value s2
  have h6 : Kept r₀ s3 := by
    unfold s3
    refine State.recutSplits_kept ?_
    refine State.leavePair_kept ?_
    assumption
  clear_value s3
  refine Kept.ite ?_ ?_
  · refine State.stopWith_kept ?_
    assumption
  · assumption

theorem State.latchSig_kept {r₀ : State} {s : State} {u} (h₀ : Kept r₀ s) : Kept r₀ (State.latchSig s u).1 := by
  unfold State.latchSig
  split
  · refine Kept.pair ?_
    assumption
  · extract_lets s1
    have h2 : Kept r₀ s1 := by
      unfold s1
      refine State.wrapAdd_kept ?_
      refine State.wr64_kept ?_
      assumption
    clear_value s1
    refine Kept.pair ?_
    refine State.modUnit_kept ?_
    assumption

theorem State.closeWindow_kept {r₀ : State} {s : State} {u} (h₀ : Kept r₀ s) : Kept r₀ (State.closeWindow s u) := by
  unfold State.closeWindow
  refine Kept.ite ?_ ?_
  · assumption
  · split
    extract_lets x1 s2 s3 x4
    clear_value x1
    have h5 : Kept r₀ s2 := by
      unfold s2
      refine State.modUnit_kept ?_
      refine Kept.fst ‹_› ?_
      refine State.latchSig_kept ?_
      assumption
    clear_value s2
    have h6 : Kept r₀ s3 := by
      unfold s3
      split
      · refine State.modJob_kept ?_
        assumption
      · assumption
    clear_value s3
    clear_value x4
    refine Kept.ite ?_ ?_
    · refine Kept.upd rfl ?_
      assumption
    · assumption

theorem State.sigClose_kept {r₀ : State} {s : State} {u} (h₀ : Kept r₀ s) : Kept r₀ (State.sigClose s u) := by
  unfold State.sigClose
  refine State.closeWindow_kept ?_
  assumption

theorem State.eat_kept {r₀ : State} {s : State} {u addr} (h₀ : Kept r₀ s) : Kept r₀ (State.eat s u addr) := by
  unfold State.eat
  extract_lets x1 x2 s3 s4
  clear_value x1 x2
  have h5 : Kept r₀ s3 := by
    unfold s3
    refine State.modUnit_kept ?_
    assumption
  clear_value s3
  have h6 : Kept r₀ s4 := by
    unfold s4
    split
    · refine State.modJob_kept ?_
      assumption
    · assumption
  clear_value s4
  refine Kept.ite ?_ ?_
  · assumption
  · refine State.consumed_kept ?_
    assumption

theorem State.eatIf_kept {r₀ : State} {s : State} {u addr p} (h₀ : Kept r₀ s) : Kept r₀ (State.eatIf s u addr p) := by
  unfold State.eatIf
  refine Kept.ite ?_ ?_
  · refine State.eat_kept ?_
    assumption
  · assumption

theorem State.emit_kept {r₀ : State} {s : State} {u rec} (h₀ : Kept r₀ s) : Kept r₀ (State.emit s u rec) := by
  unfold State.emit
  refine State.modUnit_kept ?_
  assumption

theorem State.unitEvent_kept {r₀ : State} {s : State} {u i} (h₀ : Kept r₀ s) : Kept r₀ (State.unitEvent s u i) := by
  unfold State.unitEvent
  refine State.event_kept ?_
  assumption

theorem State.goldenFailed_kept {r₀ : State} {s : State} {u} (h₀ : Kept r₀ s) : Kept r₀ (State.goldenFailed s u) := by
  unfold State.goldenFailed
  extract_lets x1 s2 s3 s4
  clear_value x1
  have h5 : Kept r₀ s2 := by
    unfold s2
    refine State.unitEvent_kept ?_
    refine State.setFld_kept ?_
    assumption
  clear_value s2
  have h6 : Kept r₀ s3 := by
    unfold s3
    refine State.modUnit_kept ?_
    assumption
  clear_value s3
  have h7 : Kept r₀ s4 := by
    unfold s4
    refine State.fault_kept ?_
    assumption
  clear_value s4
  refine Kept.ite ?_ ?_
  · assumption
  · refine State.fenceUnit_kept ?_
    assumption

theorem State.goldCompare_kept {r₀ : State} {s : State} {u expect} (h₀ : Kept r₀ s) : Kept r₀ (State.goldCompare s u expect) := by
  unfold State.goldCompare
  split
  refine Kept.ite ?_ ?_
  · refine Kept.ite ?_ ?_
    · refine Kept.fst ‹_› ?_
      refine State.latchSig_kept ?_
      assumption
    · refine State.goldenFailed_kept ?_
      refine Kept.fst ‹_› ?_
      refine State.latchSig_kept ?_
      assumption
  · extract_lets s1
    have h2 : Kept r₀ s1 := by
      unfold s1
      refine State.modUnit_kept ?_
      refine Kept.fst ‹_› ?_
      refine State.latchSig_kept ?_
      assumption
    clear_value s1
    refine Kept.ite ?_ ?_
    · assumption
    · refine Kept.ite ?_ ?_
      · refine State.report_kept ?_
        refine State.harm_kept ?_
        assumption
      · refine State.report_kept ?_
        assumption

end Sys2Proof.Machine
end

