-- ==== Sys2Proof/Laws/Kept/Store.lean ====
section
/-! SUPPORT. What the operations of Machine/Store.lean keep. -/

namespace Sys2Proof.Machine

theorem State.storedCells_kept {r₀ : State} {s : State} {n off len} (h₀ : Kept r₀ s) : Kept r₀ (State.storedCells s n off len).1 := by
  unfold State.storedCells
  refine Kept.foldlFst (fun p1 x2 h3 => ?_) ?_
  · split
    refine Kept.pair ?_
    refine Kept.fst ‹_› ?_
    refine State.readStored_kept ?_
    assumption
  · refine Kept.pair ?_
    assumption

theorem State.stalled_kept {r₀ : State} {s : State} {n} (h₀ : Kept r₀ s) : Kept r₀ (State.stalled s n) := by
  unfold State.stalled
  split
  refine State.count_kept ?_
  refine Kept.fst ‹_› ?_
  refine State.free_kept ?_
  assumption

theorem State.putRuns_kept {r₀ : State} {a5 : State} {a1 a2 a3 a4} (h₀ : Kept r₀ a5) : Kept r₀ (State.putRuns a1 a2 a3 a4 a5) := by
  induction a1 generalizing a2 a3 a4 a5
  · unfold State.putRuns
    assumption
  · rename_i ih
    unfold State.putRuns
    split
    · assumption
    · extract_lets x1 s2
      clear_value x1
      have h3 : Kept r₀ s2 := by
        unfold s2
        refine State.storeUnit_kept ?_
        assumption
      clear_value s2
      refine ih ?_
      assumption

theorem State.spendStore_kept {r₀ s : State} {n unit} (h₀ : Kept r₀ s) : Kept r₀ (s.spendStore n unit) :=
  Kept.ite (Kept.put rfl (fun c => ⟨c.mem, c.mram, c.regs, c.poison, SMap.wf_insert _ _ c.damage⟩) h₀) h₀

theorem State.planeCollision_kept {r₀ : State} {s : State} {n off port} (h₀ : Kept r₀ s) : Kept r₀ (State.planeCollision s n off port) := by
  unfold State.planeCollision
  refine State.chargeErr_kept ?_
  refine State.collide_kept ?_
  assumption

theorem State.planeWrite_kept {r₀ : State} {s : State} {n e} (h₀ : Kept r₀ s) : Kept r₀ (State.planeWrite s n e) := by
  unfold State.planeWrite
  extract_lets x1 s2
  clear_value x1
  have h3 : Kept r₀ s2 := by
    unfold s2
    refine Kept.foldl (fun s4 x5 h6 => ?_) ?_
    · refine State.putRuns_kept ?_
      assumption
    · assumption
  clear_value s2
  refine Kept.ite ?_ ?_
  · refine State.planeCollision_kept ?_
    assumption
  · refine State.spendStore_kept ?_
    assumption

theorem State.wbDrainOne_kept {r₀ : State} {s : State} {n} (h₀ : Kept r₀ s) : Kept r₀ (State.wbDrainOne s n) := by
  unfold State.wbDrainOne
  split
  · assumption
  · refine State.planeWrite_kept ?_
    refine State.modAnvil_kept ?_
    assumption

theorem State.wbSettle_kept {r₀ : State} {a5 : State} {a1 a2 a3 a4} (h₀ : Kept r₀ a5) : Kept r₀ (State.wbSettle a1 a2 a3 a4 a5) := by
  induction a1 generalizing a2 a3 a4 a5
  · unfold State.wbSettle
    assumption
  · rename_i ih
    unfold State.wbSettle
    refine Kept.ite ?_ ?_
    · refine ih ?_
      refine State.wbDrainOne_kept ?_
      assumption
    · assumption

theorem State.seqPiece_kept {r₀ : State} {s : State} {n off len mover} (h₀ : Kept r₀ s) : Kept r₀ (State.seqPiece s n off len mover).1 := by
  unfold State.seqPiece
  extract_lets x1 x2 s3
  clear_value x1 x2
  have h4 : Kept r₀ s3 := by
    unfold s3
    refine Kept.ite ?_ ?_
    · assumption
    · refine State.stalled_kept ?_
      refine State.count_kept ?_
      refine State.wbSettle_kept ?_
      assumption
  clear_value s3
  refine Kept.iteFst ?_ ?_
  · split
    refine Kept.pair ?_
    refine Kept.fst ‹_› ?_
    refine State.freeBytes_kept ?_
    refine State.planeCollision_kept ?_
    assumption
  · refine Kept.iteFst ?_ ?_
    · split
      · refine Kept.pair ?_
        refine State.count_kept ?_
        assumption
      · refine State.storedCells_kept ?_
        assumption
    · refine State.storedCells_kept ?_
      assumption

theorem State.seqRead_kept {r₀ : State} {s : State} {n off len mover} (h₀ : Kept r₀ s) : Kept r₀ (State.seqRead s n off len mover).1 := by
  unfold State.seqRead
  refine Kept.foldlFst (fun p1 x2 h3 => ?_) ?_
  · split
    refine Kept.pair ?_
    refine Kept.fst ‹_› ?_
    refine State.seqPiece_kept ?_
    assumption
  · refine Kept.pair ?_
    assumption

theorem State.wbPush_kept {r₀ : State} {s : State} {n e} (h₀ : Kept r₀ s) : Kept r₀ (State.wbPush s n e) := by
  unfold State.wbPush
  extract_lets s1
  have h2 : Kept r₀ s1 := by
    unfold s1
    refine Kept.ite ?_ ?_
    · refine State.stalled_kept ?_
      refine State.wbDrainOne_kept ?_
      assumption
    · assumption
  clear_value s1
  refine State.modAnvil_kept ?_
  assumption

theorem State.wbBytes_kept {r₀ : State} {s : State} {n off bs poison} (h₀ : Kept r₀ s) : Kept r₀ (State.wbBytes s n off bs poison) := by
  unfold State.wbBytes
  refine Kept.foldl (fun s1 x2 h3 => ?_) ?_
  · extract_lets x4 x5 x6
    clear_value x4 x5 x6
    refine Kept.ite ?_ ?_
    · assumption
    · refine State.wbPush_kept ?_
      assumption
  · assumption

theorem State.seqRows_kept {r₀ : State} {s : State} {n off stride rows len mover} (h₀ : Kept r₀ s) : Kept r₀ (State.seqRows s n off stride rows len mover).1 := by
  unfold State.seqRows
  refine Kept.foldlFst (fun p1 x2 h3 => ?_) ?_
  · split
    refine Kept.pair ?_
    refine Kept.fst ‹_› ?_
    refine State.seqRead_kept ?_
    assumption
  · refine Kept.pair ?_
    assumption

end Sys2Proof.Machine
end

