-- ==== Sys2Proof/Laws/Kept/Plane.lean ====
section
/-! SUPPORT. What the operations of Machine/Plane.lean keep. -/

namespace Sys2Proof.Machine

theorem State.readOpnd_kept {r₀ : State} {s : State} {n r fmt kcont} (h₀ : Kept r₀ s) : Kept r₀ (State.readOpnd s n r fmt kcont).1 := by
  unfold State.readOpnd
  split
  split
  refine Kept.pair ?_
  refine Kept.fst ‹_› ?_
  refine State.seqRows_kept ?_
  refine Kept.fst ‹_› ?_
  refine State.seqRows_kept ?_
  assumption

end Sys2Proof.Machine
end

