-- ==== Sys2Proof/Laws/Kept/Ops.lean ====
section
/-! SUPPORT. What the operations of Machine/Ops.lean keep. -/

namespace Sys2Proof.Machine

theorem State.goldMissing_kept {r₀ : State} {s : State} {u} (h₀ : Kept r₀ s) : Kept r₀ (State.goldMissing s u) := by
  unfold State.goldMissing
  refine State.fault_kept ?_
  assumption

theorem State.endChecks_kept {r₀ : State} {s : State} {u} (h₀ : Kept r₀ s) : Kept r₀ (State.endChecks s u) := by
  unfold State.endChecks
  extract_lets x1
  clear_value x1
  refine Kept.ite ?_ ?_
  · refine Kept.ite ?_ ?_
    · refine State.goldMissing_kept ?_
      assumption
    · assumption
  · refine Kept.ite ?_ ?_
    · refine State.fault_kept ?_
      assumption
    · assumption

theorem State.winBreach_kept {r₀ : State} {s : State} {w u kind safety ctx} (h₀ : Kept r₀ s) : Kept r₀ (State.winBreach s w u kind safety ctx) := by
  unfold State.winBreach
  extract_lets x1 s2 s3
  clear_value x1
  have h4 : Kept r₀ s2 := by
    unfold s2
    refine State.setFld_kept ?_
    refine State.setFld_kept ?_
    refine State.setFld_kept ?_
    refine State.count_kept ?_
    assumption
  clear_value s2
  have h5 : Kept r₀ s3 := by
    unfold s3
    refine Kept.upd rfl ?_
    assumption
  clear_value s3
  refine State.fault_kept ?_
  refine State.sfiEvent_kept ?_
  assumption

theorem State.earlyCheck_kept {r₀ : State} {s : State} {u} (h₀ : Kept r₀ s) : Kept r₀ (State.earlyCheck s u) := by
  unfold State.earlyCheck
  extract_lets x1
  clear_value x1
  split
  · refine Kept.ite ?_ ?_
    · refine State.winBreach_kept ?_
      assumption
    · assumption
  · assumption

theorem State.endUnit_kept {r₀ : State} {s : State} {u} (h₀ : Kept r₀ s) : Kept r₀ (State.endUnit s u) := by
  unfold State.endUnit
  extract_lets s1 s2 s3 s4
  have h5 : Kept r₀ s1 := by
    unfold s1
    refine State.earlyCheck_kept ?_
    assumption
  clear_value s1
  have h6 : Kept r₀ s2 := by
    unfold s2
    refine State.setFld_kept ?_
    refine Kept.upd rfl ?_
    assumption
  clear_value s2
  have h7 : Kept r₀ s3 := by
    unfold s3
    refine Kept.ite ?_ ?_
    · refine State.setFld_kept ?_
      refine State.modAnvil_kept ?_
      assumption
    · assumption
  clear_value s3
  have h8 : Kept r₀ s4 := by
    unfold s4
    refine State.modUnit_kept ?_
    assumption
  clear_value s4
  refine State.applyHeld_kept ?_
  assumption

theorem State.partOver_kept {r₀ : State} {s : State} {u status} (h₀ : Kept r₀ s) : Kept r₀ (State.partOver s u status) := by
  unfold State.partOver
  extract_lets x1 s2
  clear_value x1
  have h3 : Kept r₀ s2 := by
    unfold s2
    refine State.endUnit_kept ?_
    assumption
  clear_value s2
  split
  · refine State.unitDoneFor_kept ?_
    assumption
  · refine State.schedule_kept ?_
    assumption

theorem State.finishList_kept {r₀ : State} {s : State} {u} (h₀ : Kept r₀ s) : Kept r₀ (State.finishList s u) := by
  unfold State.finishList
  refine State.partOver_kept ?_
  refine State.event_kept ?_
  refine State.endChecks_kept ?_
  refine State.sigClose_kept ?_
  assumption

theorem State.listStop_kept {r₀ : State} {s : State} {u status} (h₀ : Kept r₀ s) : Kept r₀ (State.listStop s u status) := by
  unfold State.listStop
  refine State.modUnit_kept ?_
  assumption

theorem State.refuseAt_kept {r₀ : State} {s : State} {u reason index} (h₀ : Kept r₀ s) : Kept r₀ (State.refuseAt s u reason index) := by
  unfold State.refuseAt
  extract_lets x1 s2 s3
  clear_value x1
  have h4 : Kept r₀ s2 := by
    unfold s2
    refine State.setFld_kept ?_
    refine State.setFld_kept ?_
    assumption
  clear_value s2
  have h5 : Kept r₀ s3 := by
    unfold s3
    refine State.event_kept ?_
    assumption
  clear_value s3
  refine Kept.ite ?_ ?_
  · refine State.listStop_kept ?_
    refine State.goldenFailed_kept ?_
    assumption
  · refine State.listStop_kept ?_
    refine State.unitFault_kept ?_
    assumption

theorem State.fetchFailed_kept {r₀ : State} {s : State} {u r} (h₀ : Kept r₀ s) : Kept r₀ (State.fetchFailed s u r) := by
  unfold State.fetchFailed
  extract_lets s1
  have h2 : Kept r₀ s1 := by
    unfold s1
    refine State.eatIf_kept ?_
    assumption
  clear_value s1
  refine Kept.ite ?_ ?_
  · refine State.listStop_kept ?_
    refine State.modUnit_kept ?_
    assumption
  · refine State.listStop_kept ?_
    assumption

theorem State.fetchAt_kept {r₀ : State} {s : State} {u i} (h₀ : Kept r₀ s) : Kept r₀ (State.fetchAt s u i).1 := by
  unfold State.fetchAt
  extract_lets x1
  clear_value x1
  refine Kept.iteFst ?_ ?_
  · split
    refine Kept.pair ?_
    refine Kept.fst ‹_› ?_
    refine State.seqRead_kept ?_
    assumption
  · refine State.read_kept ?_
    assumption

theorem State.prefetch_kept {r₀ : State} {a4 : State} {a1 a2 a3} (h₀ : Kept r₀ a4) : Kept r₀ (State.prefetch a1 a2 a3 a4) := by
  induction a1 generalizing a2 a3 a4
  · unfold State.prefetch
    assumption
  · rename_i ih
    unfold State.prefetch
    refine Kept.ite ?_ ?_
    · assumption
    · refine Kept.ite ?_ ?_
      · refine ih ?_
        assumption
      · split
        refine Kept.ite ?_ ?_
        · assumption
        · refine ih ?_
          refine State.modUnit_kept ?_
          refine Kept.fst ‹_› ?_
          refine State.fetchAt_kept ?_
          assumption

theorem State.fetchAhead_kept {r₀ : State} {s : State} {u} (h₀ : Kept r₀ s) : Kept r₀ (State.fetchAhead s u) := by
  unfold State.fetchAhead
  refine State.prefetch_kept ?_
  refine State.modUnit_kept ?_
  assumption

theorem State.fetch_kept {r₀ : State} {s : State} {u} (h₀ : Kept r₀ s) : Kept r₀ (State.fetch s u).1 := by
  unfold State.fetch
  split
  · refine Kept.pair ?_
    refine State.fetchAhead_kept ?_
    assumption
  · split
    refine Kept.pair ?_
    refine Kept.ite ?_ ?_
    · refine Kept.fst ‹_› ?_
      refine State.fetchAt_kept ?_
      assumption
    · refine State.fetchAhead_kept ?_
      refine State.modUnit_kept ?_
      refine Kept.fst ‹_› ?_
      refine State.fetchAt_kept ?_
      assumption

theorem State.advance_kept {r₀ : State} {s : State} {u} (h₀ : Kept r₀ s) : Kept r₀ (State.advance s u) := by
  unfold State.advance
  refine State.modUnit_kept ?_
  refine State.setFld_kept ?_
  assumption

theorem State.issue_kept {r₀ s : State} {u ops f} (hf : ∀ d s, Kept r₀ s → IssueKept r₀ (f d s)) (h₀ : Kept r₀ s) :
    Kept r₀ (s.issue u ops f) := by
  unfold State.issue
  refine Kept.ite h₀ ?_
  split
  rename_i s1 x e
  have h1 : Kept r₀ s1 := Kept.fst e (State.fetch_kept h₀)
  refine Kept.ite (State.fetchFailed_kept h1) ?_
  extract_lets form common
  refine Kept.ite (State.refuseAt_kept h1) (Kept.ite h₀ (Kept.ite (State.refuseAt_kept h1) ?_))
  have h2 := hf x.bytes s1 h1
  split <;> rename_i e2 <;> rw [e2] at h2
  · exact Kept.ite (State.advance_kept h2) (State.refuseAt_kept h1)
  · exact Kept.ite h2 (State.refuseAt_kept h1)
  · exact State.refuseAt_kept h2

theorem State.firstLaunch_kept {r₀ : State} {s : State} {u} (h₀ : Kept r₀ s) : Kept r₀ (State.firstLaunch s u) := by
  unfold State.firstLaunch
  extract_lets s1 s2
  have h3 : Kept r₀ s1 := by
    unfold s1
    refine Kept.ite ?_ ?_
    · refine State.setFld_kept ?_
      assumption
    · assumption
  clear_value s1
  have h4 : Kept r₀ s2 := by
    unfold s2
    refine State.modUnit_kept ?_
    assumption
  clear_value s2
  refine Kept.ite ?_ ?_
  · refine State.modUnit_kept ?_
    refine State.setFld_kept ?_
    assumption
  · assumption

theorem State.launch_kept {r₀ : State} {s : State} {u event} (h₀ : Kept r₀ s) : Kept r₀ (State.launch s u event) := by
  unfold State.launch
  refine Kept.ite ?_ ?_
  · assumption
  · extract_lets x1 x2 s3 s4
    clear_value x1 x2
    have h5 : Kept r₀ s3 := by
      unfold s3
      refine State.startUnit_kept ?_
      assumption
    clear_value s3
    have h6 : Kept r₀ s4 := by
      unfold s4
      split
      · refine State.modJob_kept ?_
        assumption
      · assumption
    clear_value s4
    refine Kept.ite ?_ ?_
    · refine State.fault_kept ?_
      assumption
    · refine Kept.ite ?_ ?_
      · refine State.firstLaunch_kept ?_
        assumption
      · assumption

end Sys2Proof.Machine
end

