-- ==== Sys2Proof/Laws/Kept/Pass.lean ====
section
/-! SUPPORT. What the operations of Machine/Pass.lean keep. -/

namespace Sys2Proof.Machine

theorem State.arm_kept {r₀ : State} {s : State} {u k} (h₀ : Kept r₀ s) : Kept r₀ (State.arm s u k) := by
  unfold State.arm
  refine State.modUnit_kept ?_
  assumption

theorem State.spend_kept {r₀ : State} {s : State} {u k} (h₀ : Kept r₀ s) : Kept r₀ (State.spend s u k) := by
  unfold State.spend
  refine State.modUnit_kept ?_
  assumption

theorem State.dupMismatch_kept {r₀ : State} {s : State} {u unit slot} (h₀ : Kept r₀ s) : Kept r₀ (State.dupMismatch s u unit slot) := by
  unfold State.dupMismatch
  extract_lets s1
  have h2 : Kept r₀ s1 := by
    unfold s1
    refine State.setFld_kept ?_
    refine State.setFld_kept ?_
    refine State.count_kept ?_
    assumption
  clear_value s1
  refine State.unitFault_kept ?_
  assumption

theorem State.readVec_kept {r₀ : State} {s : State} {u r} (h₀ : Kept r₀ s) : Kept r₀ (State.readVec s u r).1 := by
  unfold State.readVec
  refine Kept.iteFst ?_ ?_
  · refine Kept.pair ?_
    assumption
  · refine State.seqRead_kept ?_
    assumption

theorem State.proPoison_kept {r₀ : State} {s : State} {u ds blocks} (h₀ : Kept r₀ s) : Kept r₀ (State.proPoison s u ds blocks).1 := by
  unfold State.proPoison
  split
  · refine Kept.iteFst ?_ ?_
    · refine Kept.pair ?_
      assumption
    · split
      extract_lets x1
      clear_value x1
      refine Kept.pair ?_
      refine Kept.fst ‹_› ?_
      refine State.free_kept ?_
      refine State.setFld_kept ?_
      refine State.spend_kept ?_
      assumption
  · refine Kept.pair ?_
    assumption

theorem State.spendCycles_kept {r₀ : State} {s : State} {u} (h₀ : Kept r₀ s) : Kept r₀ (State.spendCycles s u) := by
  unfold State.spendCycles
  split
  split
  refine State.count_kept ?_
  refine State.wr64_kept ?_
  refine Kept.fst ‹_› ?_
  refine State.free_kept ?_
  refine Kept.fst ‹_› ?_
  refine State.free_kept ?_
  assumption

theorem State.runProblem_kept {r₀ : State} {s : State} {u slot d old} (h₀ : Kept r₀ s) : Kept r₀ (State.runProblem s u slot d old).1 := by
  unfold State.runProblem
  refine Kept.iteFst ?_ ?_
  · refine Kept.pair ?_
    assumption
  · extract_lets x1 x2 x3 x4 x5 x6 x7 x8 x9 x10 x11
    clear_value x1 x2 x3 x4 x5 x6 x7 x8 x9 x10 x11
    split
    split
    split
    split
    split
    split
    split
    split
    split
    extract_lets x12 x13 x14 x15 x16 x17 x18 x19 x20 x21 x22 x23 x24
    clear_value x12 x13 x14 x15 x16 x17 x18 x19 x20 x21 x22 x23 x24
    refine Kept.pair ?_
    refine Kept.fst ‹_› ?_
    refine Kept.pair ?_
    refine Kept.upd rfl ?_
    refine Kept.fst ‹_› ?_
    refine State.seqRows_kept ?_
    refine Kept.fst ‹_› ?_
    refine State.seqRows_kept ?_
    refine Kept.fst ‹_› ?_
    refine State.readVec_kept ?_
    refine Kept.fst ‹_› ?_
    refine State.readVec_kept ?_
    refine Kept.fst ‹_› ?_
    refine State.readVec_kept ?_
    refine Kept.fst ‹_› ?_
    refine State.readVec_kept ?_
    refine Kept.fst ‹_› ?_
    refine State.readOpnd_kept ?_
    refine Kept.fst ‹_› ?_
    refine State.readOpnd_kept ?_
    assumption

theorem State.showLanes_kept {r₀ : State} {s : State} {u} (h₀ : Kept r₀ s) : Kept r₀ (State.showLanes s u) := by
  unfold State.showLanes
  extract_lets x1 x2
  clear_value x1 x2
  refine State.setFld_kept ?_
  assumption

theorem State.noteProblems_kept {r₀ : State} {s : State} {u ds} (h₀ : Kept r₀ s) : Kept r₀ (State.noteProblems s u ds) := by
  unfold State.noteProblems
  split
  · refine State.modJob_kept ?_
    assumption
  · assumption

theorem State.spendPro_kept {r₀ : State} {s : State} {u ds} (h₀ : Kept r₀ s) : Kept r₀ (State.spendPro s u ds) := by
  unfold State.spendPro
  refine Kept.ite ?_ ?_
  · assumption
  · split
    · refine State.dupMismatch_kept ?_
      refine State.spend_kept ?_
      assumption
    · assumption

theorem State.pushPass_kept {r₀ : State} {s : State} {u p} (h₀ : Kept r₀ s) : Kept r₀ (State.pushPass s u p) := by
  unfold State.pushPass
  refine State.showLanes_kept ?_
  refine State.modAnvil_kept ?_
  assumption

theorem State.runPass_kept {r₀ : State} {s : State} {u index ds} (h₀ : Kept r₀ s) : Kept r₀ (State.runPass s u index ds) := by
  unfold State.runPass
  split
  extract_lets x1 s2 s3 x4
  clear_value x1
  have h5 : Kept r₀ s2 := by
    unfold s2
    refine State.eatIf_kept ?_
    refine Kept.fst ‹_› ?_
    refine Kept.foldlFst (fun p6 x7 h8 => ?_) ?_
    · split
      refine Kept.pair ?_
      refine Kept.fst ‹_› ?_
      refine State.runProblem_kept ?_
      assumption
    · refine Kept.pair ?_
      assumption
  clear_value s2
  have h9 : Kept r₀ s3 := by
    unfold s3
    refine State.noteProblems_kept ?_
    refine State.spendPro_kept ?_
    assumption
  clear_value s3
  clear_value x4
  split
  extract_lets s10
  have h11 : Kept r₀ s10 := by
    unfold s10
    refine State.modAnvil_kept ?_
    refine Kept.fst ‹_› ?_
    refine State.proPoison_kept ?_
    assumption
  clear_value s10
  refine Kept.ite ?_ ?_
  · assumption
  · refine State.pushPass_kept ?_
    refine State.spendCycles_kept ?_
    assumption

theorem State.spoil_kept {r₀ : State} {s : State} {u writes} (h₀ : Kept r₀ s) : Kept r₀ (State.spoil s u writes) := by
  unfold State.spoil
  split
  · assumption
  · refine Kept.ite ?_ ?_
    · refine State.modAnvil_kept ?_
      assumption
    · assumption

end Sys2Proof.Machine
end

