-- ==== Sys2Proof/Laws/Kept/Drain.lean ====
section
/-! SUPPORT. What the operations of Machine/Drain.lean keep. -/

namespace Sys2Proof.Machine

theorem State.emitAll_kept {r₀ : State} {s : State} {u window recs} (h₀ : Kept r₀ s) : Kept r₀ (State.emitAll s u window recs) := by
  unfold State.emitAll
  refine Kept.ite ?_ ?_
  · refine Kept.foldl (fun s1 x2 h3 => ?_) ?_
    · refine State.emit_kept ?_
      assumption
    · assumption
  · assumption

theorem State.writeGroup_kept {r₀ : State} {s : State} {u window d slot m g vs} (h₀ : Kept r₀ s) : Kept r₀ (State.writeGroup s u window d slot m g vs) := by
  unfold State.writeGroup
  extract_lets x1 x2 x3 x4 x5 s6
  clear_value x1 x2 x3 x4 x5
  have h7 : Kept r₀ s6 := by
    unfold s6
    refine State.emitAll_kept ?_
    assumption
  clear_value s6
  refine Kept.ite ?_ ?_
  · split
    extract_lets s8 x9 x10 s11
    have h12 : Kept r₀ s8 := by
      unfold s8
      refine State.emitAll_kept ?_
      assumption
    clear_value s8
    clear_value x9 x10
    have h13 : Kept r₀ s11 := by
      unfold s11
      refine State.wbBytes_kept ?_
      assumption
    clear_value s11
    refine State.wbBytes_kept ?_
    assumption
  · split
    refine State.wbBytes_kept ?_
    refine Kept.fst ‹_› ?_
    split
    · refine Kept.pair ?_
      assumption
    · split
      refine Kept.pair ?_
      refine Kept.fst ‹_› ?_
      refine State.free_kept ?_
      assumption

theorem State.gatherElem_kept {r₀ : State} {s : State} {u p d e v poison} (h₀ : Kept r₀ s) : Kept r₀ (State.gatherElem s u p d e v poison).1 := by
  unfold State.gatherElem
  extract_lets x1 x2 x3 x4
  clear_value x1 x2 x3 x4
  refine Kept.iteFst ?_ ?_
  · refine Kept.pair ?_
    refine State.writeGroup_kept ?_
    assumption
  · refine Kept.pair ?_
    assumption

theorem State.residueFault_kept {r₀ : State} {s : State} {u} (h₀ : Kept r₀ s) : Kept r₀ (State.residueFault s u) := by
  unfold State.residueFault
  refine State.unitFault_kept ?_
  refine State.event_kept ?_
  refine State.count_kept ?_
  assumption

theorem State.spendEpi_kept {r₀ : State} {s : State} {u slot} (h₀ : Kept r₀ s) : Kept r₀ (State.spendEpi s u slot).1 := by
  unfold State.spendEpi
  refine Kept.iteFst ?_ ?_
  · refine Kept.pair ?_
    refine State.setFld_kept ?_
    refine State.spend_kept ?_
    assumption
  · refine Kept.pair ?_
    refine Kept.ite ?_ ?_
    · refine State.dupMismatch_kept ?_
      refine State.spend_kept ?_
      assumption
    · assumption

theorem State.noteAnchor_kept {r₀ : State} {s : State} {u d off b} (h₀ : Kept r₀ s) : Kept r₀ (State.noteAnchor s u d off b) := by
  unfold State.noteAnchor
  refine Kept.ite ?_ ?_
  · refine Kept.upd rfl ?_
    assumption
  · assumption

theorem State.receive_kept {r₀ : State} {s : State} {u slot pr blocks} (h₀ : Kept r₀ s) : Kept r₀ (State.receive s u slot pr blocks).1 := by
  unfold State.receive
  extract_lets x1
  clear_value x1
  refine Kept.iteFst ?_ ?_
  · split
    extract_lets x2
    clear_value x2
    refine Kept.pair ?_
    refine Kept.fst ‹_› ?_
    refine State.readVec_kept ?_
    assumption
  · refine Kept.pair ?_
    assumption

theorem State.residueAt_kept {r₀ : State} {s : State} {u e delivered} (h₀ : Kept r₀ s) : Kept r₀ (State.residueAt s u e delivered).1 := by
  unfold State.residueAt
  refine Kept.pair ?_
  refine State.setFld_kept ?_
  refine State.setFld_kept ?_
  assumption

theorem State.checkElem_kept {r₀ : State} {s : State} {u poison e} (h₀ : Kept r₀ s) : Kept r₀ (State.checkElem s u poison e).1 := by
  unfold State.checkElem
  extract_lets s1 x2 s3
  have h4 : Kept r₀ s1 := by
    unfold s1
    refine Kept.ite ?_ ?_
    · refine State.event_kept ?_
      refine State.count_kept ?_
      assumption
    · assumption
  clear_value s1
  clear_value x2
  have h5 : Kept r₀ s3 := by
    unfold s3
    refine State.spend_kept ?_
    assumption
  clear_value s3
  refine Kept.iteFst ?_ ?_
  · refine Kept.pair ?_
    assumption
  · refine Kept.iteFst ?_ ?_
    · refine State.residueAt_kept ?_
      refine State.spend_kept ?_
      assumption
    · refine Kept.iteFst ?_ ?_
      · refine Kept.pair ?_
        assumption
      · refine State.residueAt_kept ?_
        refine State.residueFault_kept ?_
        assumption

theorem State.joinRun_kept {r₀ : State} {s : State} {u r off bs poison lane} (h₀ : Kept r₀ s) : Kept r₀ (State.joinRun s u r off bs poison lane).1 := by
  unfold State.joinRun
  split
  · refine Kept.iteFst ?_ ?_
    · refine Kept.pair ?_
      assumption
    · refine Kept.pair ?_
      refine State.wbBytes_kept ?_
      assumption
  · refine Kept.pair ?_
    assumption

theorem State.drainElem_kept {r₀ : State} {acc} {u block e} (h₀ : Kept r₀ acc.1) : Kept r₀ (State.drainElem u block acc e).1 := by
  unfold State.drainElem
  split
  split
  · refine Kept.pair ?_
    assumption
  · extract_lets x1
    clear_value x1
    split
    split
    extract_lets x2
    clear_value x2
    refine Kept.iteFst ?_ ?_
    · refine Kept.pair ?_
      refine Kept.fst ‹_› ?_
      refine State.spendEpi_kept ?_
      refine Kept.fst ‹_› ?_
      refine State.checkElem_kept ?_
      assumption
    · split
      · refine Kept.pair ?_
        refine Kept.fst ‹_› ?_
        refine State.spendEpi_kept ?_
        refine Kept.fst ‹_› ?_
        refine State.checkElem_kept ?_
        assumption
      · extract_lets s3
        have h4 : Kept r₀ s3 := by
          unfold s3
          refine State.noteAnchor_kept ?_
          refine State.emitAll_kept ?_
          refine Kept.fst ‹_› ?_
          refine State.spendEpi_kept ?_
          refine Kept.fst ‹_› ?_
          refine State.checkElem_kept ?_
          assumption
        clear_value s3
        split
        refine Kept.pair ?_
        refine Kept.fst ‹_› ?_
        refine State.joinRun_kept ?_
        assumption
      · split
        refine Kept.pair ?_
        refine Kept.fst ‹_› ?_
        refine State.gatherElem_kept ?_
        refine Kept.fst ‹_› ?_
        refine State.spendEpi_kept ?_
        refine Kept.fst ‹_› ?_
        refine State.checkElem_kept ?_
        assumption

theorem State.await_kept {r₀ s t : State} {u p} (h₀ : Kept r₀ s) (e : s.await u p = some t) : Kept r₀ t := by
  unfold State.await at e
  split at e
  · cases e; exact h₀
  · split at e
    · cases e
    · rename_i sc _
      extract_lets s1 held at e
      have h1 : Kept r₀ s1 := State.modUnit_kept h₀
      clear_value s1 held
      split at e
      rename_i s2 blocks bads e2
      have h2 : Kept r₀ s2 := by
        refine Kept.fst e2 (Kept.foldlFst (fun p x h => ?_) h1)
        split
        exact Kept.pair (Kept.fst ‹_› (State.receive_kept h))
      cases e
      exact State.modAnvil_kept (State.eatIf_kept h2)

theorem State.drainBlock_kept {r₀ s : State} {u} (h₀ : Kept r₀ s) : Kept r₀ (s.drainBlock u) := by
  unfold State.drainBlock
  split
  · exact h₀
  · split
    · exact h₀
    · split
      · exact h₀
      · rename_i s1 e1
        have h1 : Kept r₀ s1 := State.await_kept h₀ e1
        extract_lets x b
        split
        rename_i s2 p r e2
        have h2 : Kept r₀ s2 := Kept.fst e2 (Kept.foldlFst (fun p x h => State.drainElem_kept h) h1)
        extract_lets s3
        have h3 : Kept r₀ s3 := by
          unfold s3
          split
          · exact State.wbBytes_kept h2
          · exact h2
        exact State.showLanes_kept (State.modAnvil_kept h3)

end Sys2Proof.Machine
end

