-- ==== Sys2Proof/Laws/Kept/Anvil.lean ====
section
/-! SUPPORT. What the operations of Machine/Anvil.lean keep. -/

namespace Sys2Proof.Machine

theorem State.sendFailed_kept {r₀ : State} {s : State} {n code} (h₀ : Kept r₀ s) : Kept r₀ (State.sendFailed s n code) := by
  unfold State.sendFailed
  extract_lets s1
  have h2 : Kept r₀ s1 := by
    unfold s1
    refine State.setFld_kept ?_
    refine State.count_kept ?_
    assumption
  clear_value s1
  refine State.unitFault_kept ?_
  assumption

theorem State.atomicUnit_kept {r₀ : State} {s : State} {n a bs poison} (h₀ : Kept r₀ s) : Kept r₀ (State.atomicUnit s n a bs poison).1 := by
  unfold State.atomicUnit
  split
  · refine Kept.pair ?_
    refine Kept.fst ‹_› ?_
    refine State.access_kept ?_
    assumption
  · split
    extract_lets x1 s2 x3
    clear_value x1
    have h4 : Kept r₀ s2 := by
      unfold s2
      refine State.eatIf_kept ?_
      refine Kept.fst ‹_› ?_
      refine State.readStored_kept ?_
      refine Kept.fst ‹_› ?_
      refine State.access_kept ?_
      assumption
    clear_value s2
    clear_value x3
    refine Kept.pair ?_
    refine State.count_kept ?_
    refine State.spendInject_kept ?_
    refine State.storeUnit_kept ?_
    assumption

theorem State.storeRow_kept {r₀ : State} {s : State} {n atomic src dst len} (h₀ : Kept r₀ s) : Kept r₀ (State.storeRow s n atomic src dst len).1 := by
  unfold State.storeRow
  refine Kept.foldlFst (fun p1 x2 h3 => ?_) ?_
  · split
    extract_lets x4 x5
    clear_value x4 x5
    split
    refine Kept.pair ?_
    refine Kept.fst ‹_› ?_
    refine Kept.iteFst ?_ ?_
    · refine State.atomicUnit_kept ?_
      refine Kept.fst ‹_› ?_
      refine State.seqRead_kept ?_
      assumption
    · split
      refine Kept.pair ?_
      refine Kept.fst ‹_› ?_
      refine State.writeUnit_kept ?_
      refine Kept.fst ‹_› ?_
      refine State.seqRead_kept ?_
      assumption
  · refine Kept.pair ?_
    assumption

theorem State.moveAnchors_kept {r₀ : State} {s : State} {src dst len n} (h₀ : Kept r₀ s) : Kept r₀ (State.moveAnchors s src dst len n) := by
  unfold State.moveAnchors
  extract_lets x1
  clear_value x1
  refine Kept.upd rfl ?_
  assumption

theorem State.loadsFill_kept {r₀ : State} {s : State} {n d} (h₀ : Kept r₀ s) : Kept r₀ (State.loadsFill s n d) := by
  unfold State.loadsFill
  split
  extract_lets x1 x2 x3
  clear_value x1 x2 x3
  split
  extract_lets x4 x5
  clear_value x4 x5
  refine State.modAnvil_kept ?_
  refine Kept.fst ‹_› ?_
  refine State.readOpnd_kept ?_
  assumption

theorem execMmaP_completes {s : State} {n} : Completes s (execMmaP n s) := by
  unfold execMmaP
  refine Completes.next ?_
  refine State.issue_kept (fun d3 s1 h2 => ?_) ?_
  · refine IssueKept.ifZ1 ?_ ?_
    · assumption
    · refine IssueKept.done ?_
      refine State.modAnvil_kept ?_
      assumption
  · exact Kept.refl

theorem execShadowFillComplete_completes {s : State} {n} : Completes s (execShadowFillComplete n s) := by
  unfold execShadowFillComplete
  refine Completes.next ?_
  refine Kept.ite ?_ ?_
  · exact Kept.refl
  · refine State.modAnvil_kept ?_
    exact Kept.refl

theorem State.pushSend_kept {r₀ : State} {s : State} {n x} (h₀ : Kept r₀ s) : Kept r₀ (State.pushSend s n x) := by
  unfold State.pushSend
  extract_lets s1
  have h2 : Kept r₀ s1 := by
    unfold s1
    refine State.modAnvil_kept ?_
    assumption
  clear_value s1
  refine State.setFld_kept ?_
  assumption

theorem State.m2Run_kept {r₀ : State} {s : State} {n d} (h₀ : Kept r₀ s) : Kept r₀ (State.m2Run s n d) := by
  unfold State.m2Run
  extract_lets x1 x2
  clear_value x1 x2
  split
  extract_lets x3 x4
  clear_value x3 x4
  split
  extract_lets s5 x6 x7
  have h8 : Kept r₀ s5 := by
    unfold s5
    refine State.noteProblems_kept ?_
    refine State.eatIf_kept ?_
    refine Kept.fst ‹_› ?_
    refine State.runProblem_kept ?_
    refine Kept.fst ‹_› ?_
    refine State.free_kept ?_
    assumption
  clear_value s5
  clear_value x6 x7
  refine State.showLanes_kept ?_
  refine State.spendCycles_kept ?_
  refine State.modAnvil_kept ?_
  assumption

theorem execMma_completes {s : State} {n} : Completes s (execMma n s) := by
  unfold execMma
  refine Completes.next ?_
  refine State.issue_kept (fun d3 s1 h2 => ?_) ?_
  · refine IssueKept.ite ?_ ?_
    · refine IssueKept.ite ?_ ?_
      · refine IssueKept.hold ?_
        assumption
      · refine IssueKept.check ?_ ?_
        · assumption
        · refine IssueKept.ite ?_ ?_
          · refine IssueKept.hold ?_
            assumption
          · refine IssueKept.done ?_
            refine State.m2Run_kept ?_
            assumption
    · refine IssueKept.ite ?_ ?_
      · refine IssueKept.hold ?_
        assumption
      · extract_lets x4 x5 x6 x7
        clear_value x4 x5 x6 x7
        refine IssueKept.ite ?_ ?_
        · refine IssueKept.refuse ?_
          assumption
        · refine IssueKept.ite ?_ ?_
          · refine IssueKept.hold ?_
            assumption
          · refine IssueKept.done ?_
            refine State.runPass_kept ?_
            assumption
  · exact Kept.refl

theorem State.publish_kept {r₀ : State} {s : State} {n result poison} (h₀ : Kept r₀ s) : Kept r₀ (State.publish s n result poison) := by
  unfold State.publish
  extract_lets x1 s2 s3
  clear_value x1
  have h4 : Kept r₀ s2 := by
    unfold s2
    refine Kept.ite ?_ ?_
    · refine State.goldMissing_kept ?_
      assumption
    · assumption
  clear_value s2
  have h5 : Kept r₀ s3 := by
    unfold s3
    refine State.modUnit_kept ?_
    assumption
  clear_value s3
  split
  · assumption
  · split
    · assumption
    · extract_lets x6 x7 x8
      clear_value x6 x7 x8
      split
      extract_lets s9 s10
      have h11 : Kept r₀ s9 := by
        unfold s9
        refine Kept.ite ?_ ?_
        · refine State.fault_kept ?_
          refine State.sfiEvent_kept ?_
          refine State.setFld_kept ?_
          refine State.setFld_kept ?_
          refine State.count_kept ?_
          assumption
        · assumption
      clear_value s9
      have h12 : Kept r₀ s10 := by
        unfold s10
        refine Kept.ite ?_ ?_
        · refine State.evrExtreme_kept ?_
          refine State.evrHist_kept ?_
          assumption
        · assumption
      clear_value s10
      refine State.modJob_kept ?_
      assumption

theorem execStoreComplete_completes {s : State} {n} : Completes s (execStoreComplete n s) := by
  unfold execStoreComplete
  refine Completes.next ?_
  split
  · exact Kept.refl
  · extract_lets s1
    have h2 : Kept s s1 := by
      unfold s1
      refine State.modAnvil_kept ?_
      exact Kept.refl
    clear_value s1
    refine Kept.ite ?_ ?_
    · refine State.publish_kept ?_
      assumption
    · assumption

theorem State.sendPeer_kept {r₀ : State} {s : State} {n d} (h₀ : Kept r₀ s) : Kept r₀ (State.sendPeer s n d) := by
  unfold State.sendPeer
  extract_lets x1
  clear_value x1
  split
  · refine State.pushSend_kept ?_
    assumption
  · refine Kept.ite ?_ ?_
    · refine State.pushSend_kept ?_
      assumption
    · split
      extract_lets x2 s3 x4 x5 x6 s7 s8
      clear_value x2
      have h9 : Kept r₀ s3 := by
        unfold s3
        refine State.modLink_kept ?_
        refine Kept.fst ‹_› ?_
        refine Kept.foldlFst (fun p10 x11 h12 => ?_) ?_
        · split
          refine Kept.pair ?_
          refine Kept.fst ‹_› ?_
          refine State.seqRead_kept ?_
          assumption
        · refine Kept.pair ?_
          assumption
      clear_value s3
      clear_value x4 x5 x6
      have h13 : Kept r₀ s7 := by
        unfold s7
        refine Kept.foldl (fun s14 x15 h16 => ?_) ?_
        · refine State.linkSend_kept ?_
          assumption
        · assumption
      clear_value s7
      have h17 : Kept r₀ s8 := by
        unfold s8
        refine State.linkSend_kept ?_
        assumption
      clear_value s8
      refine State.pushSend_kept ?_
      assumption

theorem execSendComplete_completes {s : State} {n} : Completes s (execSendComplete n s) := by
  unfold execSendComplete
  refine Completes.next ?_
  split
  · exact Kept.refl
  · extract_lets s1 s2
    have h3 : Kept s s1 := by
      unfold s1
      refine State.modAnvil_kept ?_
      exact Kept.refl
    clear_value s1
    have h4 : Kept s s2 := by
      unfold s2
      refine State.setFld_kept ?_
      assumption
    clear_value s2
    refine Kept.ite ?_ ?_
    · assumption
    · refine State.sendFailed_kept ?_
      assumption

theorem State.m2Drain_kept {r₀ : State} {s : State} {n} (h₀ : Kept r₀ s) : Kept r₀ (State.m2Drain s n) := by
  unfold State.m2Drain
  refine State.issue_kept (fun d3 s1 h2 => ?_) ?_
  · refine IssueKept.ite ?_ ?_
    · refine IssueKept.hold ?_
      assumption
    · split
      extract_lets x4 x5 x6 x7
      clear_value x4 x5 x6 x7
      refine IssueKept.ite ?_ ?_
      · refine IssueKept.refuse ?_
        assumption
      · refine IssueKept.ite ?_ ?_
        · refine IssueKept.done ?_
          assumption
        · refine IssueKept.done ?_
          refine State.pushPass_kept ?_
          refine State.modAnvil_kept ?_
          assumption
  · assumption

theorem State.scrubUnit_kept {r₀ : State} {s : State} {n off} (h₀ : Kept r₀ s) : Kept r₀ (State.scrubUnit s n off) := by
  unfold State.scrubUnit
  refine Kept.ite ?_ ?_
  · refine State.planeCollision_kept ?_
    assumption
  · refine State.spendStore_kept ?_
    refine State.zeroRange_kept ?_
    assumption

theorem execScrub_completes {s : State} {n} : Completes s (execScrub n s) := by
  unfold execScrub
  refine Completes.next ?_
  refine State.issue_kept (fun d3 s1 h2 => ?_) ?_
  · refine IssueKept.ifZ1 ?_ ?_
    · assumption
    · refine IssueKept.check ?_ ?_
      · assumption
      · extract_lets x4
        clear_value x4
        refine IssueKept.ite ?_ ?_
        · refine IssueKept.hold ?_
          assumption
        · refine IssueKept.done ?_
          refine Kept.foldl (fun s5 x6 h7 => ?_) ?_
          · refine State.scrubUnit_kept ?_
            assumption
          · refine State.spoil_kept ?_
            assumption
  · exact Kept.refl

theorem execBlockDrain_completes {s : State} {n} : Completes s (execBlockDrain n s) := by
  unfold execBlockDrain
  refine Completes.next ?_
  refine Kept.ite ?_ ?_
  · refine State.m2Drain_kept ?_
    exact Kept.refl
  · refine State.drainBlock_kept ?_
    exact Kept.refl

theorem State.effectRecord_kept {r₀ : State} {s : State} {u op srcOff value tail} (h₀ : Kept r₀ s) : Kept r₀ (State.effectRecord s u op srcOff value tail) := by
  unfold State.effectRecord
  refine Kept.ite ?_ ?_
  · refine State.emit_kept ?_
    assumption
  · assumption

theorem State.storeAll_kept {r₀ : State} {s : State} {n d} (h₀ : Kept r₀ s) : Kept r₀ (State.storeAll s n d).1 := by
  unfold State.storeAll
  refine Kept.foldlFst (fun p1 x2 h3 => ?_) ?_
  · split
    refine Kept.pair ?_
    refine Kept.fst ‹_› ?_
    refine State.storeRow_kept ?_
    assumption
  · refine Kept.pair ?_
    assumption

theorem execStore_completes {s : State} {n} : Completes s (execStore n s) := by
  unfold execStore
  refine Completes.next ?_
  refine State.issue_kept (fun d3 s1 h2 => ?_) ?_
  · refine IssueKept.ifZ1 ?_ ?_
    · assumption
    · refine IssueKept.check ?_ ?_
      · assumption
      · extract_lets x4 s5
        clear_value x4
        have h6 : Kept s s5 := by
          unfold s5
          refine State.effectRecord_kept ?_
          assumption
        clear_value s5
        refine IssueKept.ite ?_ ?_
        · refine IssueKept.hold ?_
          assumption
        · refine IssueKept.ite ?_ ?_
          · refine IssueKept.done ?_
            assumption
          · split
            refine IssueKept.done ?_
            refine State.modAnvil_kept ?_
            refine Kept.fst ‹_› ?_
            refine State.storeAll_kept ?_
            refine State.spoil_kept ?_
            assumption
  · exact Kept.refl

theorem execEpi_completes {s : State} {n} : Completes s (execEpi n s) := by
  unfold execEpi
  refine Completes.next ?_
  refine State.issue_kept (fun d3 s1 h2 => ?_) ?_
  · refine IssueKept.ifZ1 ?_ ?_
    · assumption
    · refine IssueKept.check ?_ ?_
      · assumption
      · refine IssueKept.done ?_
        refine State.modAnvil_kept ?_
        assumption
  · exact Kept.refl

theorem State.loadsNext_kept {r₀ : State} {s : State} {n} (h₀ : Kept r₀ s) : IssueKept r₀ (State.loadsNext s n) := by
  unfold State.loadsNext
  extract_lets x1 x2
  clear_value x1 x2
  refine IssueKept.ite ?_ ?_
  · refine IssueKept.done ?_
    assumption
  · refine IssueKept.ite ?_ ?_
    · refine IssueKept.hold ?_
      assumption
    · split
      refine IssueKept.done ?_
      refine State.modAnvil_kept ?_
      refine Kept.fst ‹_› ?_
      refine Kept.foldlFst (fun p3 x4 h5 => ?_) ?_
      · split
        refine Kept.pair ?_
        refine Kept.fst ‹_› ?_
        refine State.seqRows_kept ?_
        assumption
      · refine Kept.pair ?_
        assumption

theorem execLoads_completes {s : State} {n} : Completes s (execLoads n s) := by
  unfold execLoads
  refine Completes.next ?_
  refine State.issue_kept (fun d3 s1 h2 => ?_) ?_
  · extract_lets x4
    clear_value x4
    refine IssueKept.check ?_ ?_
    · assumption
    · refine IssueKept.ite ?_ ?_
      · refine State.loadsNext_kept ?_
        assumption
      · refine IssueKept.ite ?_ ?_
        · refine IssueKept.hold ?_
          assumption
        · refine IssueKept.done ?_
          refine State.loadsFill_kept ?_
          assumption
  · exact Kept.refl

theorem State.sendUnits_kept {r₀ : State} {a5 : State} {a1 a2 a3 a4} (h₀ : Kept r₀ a5) : Kept r₀ (State.sendUnits a1 a2 a3 a4 a5).1 := by
  induction a1 generalizing a2 a3 a4 a5
  · unfold State.sendUnits
    refine Kept.pair ?_
    assumption
  · rename_i ih
    unfold State.sendUnits
    split
    split
    · extract_lets s1
      have h2 : Kept r₀ s1 := by
        unfold s1
        refine Kept.ite ?_ ?_
        · refine State.report_kept ?_
          refine Kept.fst ‹_› ?_
          refine State.writeUnit_kept ?_
          refine Kept.fst ‹_› ?_
          refine State.seqRead_kept ?_
          assumption
        · refine Kept.fst ‹_› ?_
          refine State.writeUnit_kept ?_
          refine Kept.fst ‹_› ?_
          refine State.seqRead_kept ?_
          assumption
      clear_value s1
      refine Kept.pair ?_
      assumption
    · refine ih ?_
      refine Kept.fst ‹_› ?_
      refine State.writeUnit_kept ?_
      refine Kept.fst ‹_› ?_
      refine State.seqRead_kept ?_
      assumption

theorem State.sendLocal_kept {r₀ : State} {s : State} {n d} (h₀ : Kept r₀ s) : Kept r₀ (State.sendLocal s n d) := by
  unfold State.sendLocal
  extract_lets x1 x2
  clear_value x1 x2
  split
  extract_lets s3 s4
  have h5 : Kept r₀ s3 := by
    unfold s3
    refine State.moveAnchors_kept ?_
    refine Kept.fst ‹_› ?_
    refine Kept.iteFst ?_ ?_
    · refine Kept.pair ?_
      assumption
    · refine State.sendUnits_kept ?_
      assumption
  clear_value s3
  have h6 : Kept r₀ s4 := by
    unfold s4
    refine Kept.ite ?_ ?_
    · refine Kept.upd rfl ?_
      assumption
    · assumption
  clear_value s4
  refine State.pushSend_kept ?_
  assumption

theorem execSend_completes {s : State} {n} : Completes s (execSend n s) := by
  unfold execSend
  refine Completes.next ?_
  refine State.issue_kept (fun d3 s1 h2 => ?_) ?_
  · refine IssueKept.ifZ1 ?_ ?_
    · assumption
    · refine IssueKept.check ?_ ?_
      · assumption
      · extract_lets x4 s5
        clear_value x4
        have h6 : Kept s s5 := by
          unfold s5
          refine State.effectRecord_kept ?_
          assumption
        clear_value s5
        refine IssueKept.ite ?_ ?_
        · refine IssueKept.hold ?_
          assumption
        · refine IssueKept.ite ?_ ?_
          · refine IssueKept.done ?_
            assumption
          · refine IssueKept.done ?_
            refine Kept.ite ?_ ?_
            · refine State.sendPeer_kept ?_
              assumption
            · refine State.sendLocal_kept ?_
              refine State.spoil_kept ?_
              assumption
  · exact Kept.refl

theorem execWriteBufferDrain_completes {s : State} {n} : Completes s (execWriteBufferDrain n s) := by
  unfold execWriteBufferDrain
  refine Completes.next ?_
  refine State.wbDrainOne_kept ?_
  exact Kept.refl

theorem execSwap_completes {s : State} {n} : Completes s (execSwap n s) := by
  unfold execSwap
  refine Completes.next ?_
  refine State.issue_kept (fun d3 s1 h2 => ?_) ?_
  · refine IssueKept.ifZ1 ?_ ?_
    · assumption
    · refine IssueKept.check ?_ ?_
      · assumption
      · refine IssueKept.ite ?_ ?_
        · split
          refine IssueKept.done ?_
          refine State.count_kept ?_
          refine State.modAnvil_kept ?_
          refine Kept.fst ‹_› ?_
          refine State.free_kept ?_
          assumption
        · refine IssueKept.done ?_
          refine State.modAnvil_kept ?_
          assumption
  · exact Kept.refl

end Sys2Proof.Machine
end

