-- ==== Sys2Proof/Laws/Kept/Compare.lean ====
section
/-! SUPPORT. What the operations of Machine/Compare.lean keep. -/

namespace Sys2Proof.Machine

theorem State.modCmp_kept {r₀ : State} {s : State} {f} (h₀ : Kept r₀ s) : Kept r₀ (State.modCmp s f) := by
  unfold State.modCmp
  refine Kept.upd rfl ?_
  assumption

theorem State.startSelftest_kept {r₀ : State} {s : State} (h₀ : Kept r₀ s) : Kept r₀ (State.startSelftest s) := by
  unfold State.startSelftest
  refine State.modCmp_kept ?_
  assumption

theorem State.cmpFail_kept {r₀ : State} {s : State} {slot missing} (h₀ : Kept r₀ s) : Kept r₀ (State.cmpFail s slot missing) := by
  unfold State.cmpFail
  extract_lets s1 s2
  have h3 : Kept r₀ s1 := by
    unfold s1
    refine State.count_kept ?_
    assumption
  clear_value s1
  have h4 : Kept r₀ s2 := by
    unfold s2
    refine State.setFlag_kept ?_
    refine State.setFld_kept ?_
    assumption
  clear_value s2
  refine State.fault_kept ?_
  refine State.sfiEvent_kept ?_
  assumption

theorem State.cmpInject_kept {r₀ : State} {s : State} (h₀ : Kept r₀ s) : Kept r₀ (State.cmpInject s) := by
  unfold State.cmpInject
  extract_lets x1
  clear_value x1
  refine Kept.ite ?_ ?_
  · refine State.modCmp_kept ?_
    assumption
  · refine State.cmpFail_kept ?_
    assumption

theorem State.windowSettled_kept {r₀ : State} {s : State} {job matched} (h₀ : Kept r₀ s) : Kept r₀ (State.windowSettled s job matched) := by
  unfold State.windowSettled
  split
  · refine State.checkJob_kept ?_
    refine State.modJob_kept ?_
    assumption
  · assumption

theorem State.compareCloses_kept {r₀ : State} {s : State} {slot a b} (h₀ : Kept r₀ s) : Kept r₀ (State.compareCloses s slot a b) := by
  unfold State.compareCloses
  extract_lets x1 s2
  clear_value x1
  have h3 : Kept r₀ s2 := by
    unfold s2
    refine Kept.ite ?_ ?_
    · assumption
    · refine State.cmpFail_kept ?_
      assumption
  clear_value s2
  refine State.windowSettled_kept ?_
  refine State.windowSettled_kept ?_
  assumption

theorem State.closeArrives_kept {r₀ : State} {s : State} {u c} (h₀ : Kept r₀ s) : Kept r₀ (State.closeArrives s u c) := by
  unfold State.closeArrives
  extract_lets x1 x2 x3 s4 x5 s6
  clear_value x1 x2 x3
  have h7 : Kept r₀ s4 := by
    unfold s4
    refine Kept.ite ?_ ?_
    · refine State.modCmp_kept ?_
      assumption
    · assumption
  clear_value s4
  clear_value x5
  have h8 : Kept r₀ s6 := by
    unfold s6
    refine State.modCmp_kept ?_
    assumption
  clear_value s6
  split
  · refine State.compareCloses_kept ?_
    refine State.modCmp_kept ?_
    assumption
  · refine Kept.ite ?_ ?_
    · refine State.windowSettled_kept ?_
      assumption
    · refine Kept.ite ?_ ?_
      · refine State.cmpFail_kept ?_
        assumption
      · assumption

theorem State.deliverClose_kept {r₀ : State} {s : State} {u} (h₀ : Kept r₀ s) : Kept r₀ (State.deliverClose s u) := by
  unfold State.deliverClose
  split
  · assumption
  · refine State.closeArrives_kept ?_
    refine State.modCmp_kept ?_
    assumption

theorem State.deliverAll_kept {r₀ : State} {a3 : State} {a1 a2} (h₀ : Kept r₀ a3) : Kept r₀ (State.deliverAll a1 a2 a3) := by
  induction a1 generalizing a2 a3
  · unfold State.deliverAll
    assumption
  · rename_i ih
    unfold State.deliverAll
    refine ih ?_
    refine State.deliverClose_kept ?_
    refine State.deliverClose_kept ?_
    assumption

theorem State.missingCloses_kept {r₀ : State} {s : State} {slot} (h₀ : Kept r₀ s) : Kept r₀ (State.missingCloses s slot) := by
  unfold State.missingCloses
  extract_lets x1 s2 x3 s4
  clear_value x1
  have h5 : Kept r₀ s2 := by
    unfold s2
    refine State.deliverAll_kept ?_
    assumption
  clear_value s2
  clear_value x3
  have h6 : Kept r₀ s4 := by
    unfold s4
    refine State.modCmp_kept ?_
    assumption
  clear_value s4
  refine Kept.foldl (fun s7 x8 h9 => ?_) ?_
  · refine State.windowSettled_kept ?_
    refine State.cmpFail_kept ?_
    assumption
  · assumption

theorem State.selftestFailed_kept {r₀ : State} {s : State} {inst} (h₀ : Kept r₀ s) : Kept r₀ (State.selftestFailed s inst) := by
  unfold State.selftestFailed
  refine State.fault_kept ?_
  refine State.setFld_kept ?_
  refine State.setFld_kept ?_
  assumption

theorem State.emptySlot_kept {r₀ : State} {s : State} {slot} (h₀ : Kept r₀ s) : Kept r₀ (State.emptySlot s slot) := by
  unfold State.emptySlot
  refine State.modCmp_kept ?_
  assumption

theorem State.silentCheck_kept {r₀ : State} {s : State} {u} (h₀ : Kept r₀ s) : Kept r₀ (State.silentCheck s u) := by
  unfold State.silentCheck
  refine Kept.ite ?_ ?_
  · refine State.cmpFail_kept ?_
    split
    · refine State.modJob_kept ?_
      assumption
    · assumption
  · assumption

theorem execSignatureClose_completes {s : State} {slot checker} : Completes s (execSignatureClose slot checker s) := by
  unfold execSignatureClose
  refine Completes.next ?_
  refine State.deliverClose_kept ?_
  exact Kept.refl

theorem State.strikeSelftest_kept {r₀ : State} {s : State} (h₀ : Kept r₀ s) : Kept r₀ (State.strikeSelftest s) := by
  unfold State.strikeSelftest
  refine Kept.ite ?_ ?_
  · refine State.selftestFailed_kept ?_
    assumption
  · assumption

theorem execComparatorSelftestDone_completes {s : State} {ok} : Completes s (execComparatorSelftestDone ok s) := by
  unfold execComparatorSelftestDone
  refine Completes.next ?_
  refine Kept.ite ?_ ?_
  · exact Kept.refl
  · extract_lets s1 s2 s3
    have h4 : Kept s s1 := by
      unfold s1
      refine Kept.ite ?_ ?_
      · refine State.setFld_kept ?_
        exact Kept.refl
      · exact Kept.refl
    clear_value s1
    have h5 : Kept s s2 := by
      unfold s2
      refine State.modCmp_kept ?_
      refine State.setFld_kept ?_
      assumption
    clear_value s2
    have h6 : Kept s s3 := by
      unfold s3
      refine State.setFlag_kept ?_
      assumption
    clear_value s3
    refine Kept.ite ?_ ?_
    · assumption
    · refine State.selftestFailed_kept ?_
      assumption

end Sys2Proof.Machine
end

