-- ==== Sys2Proof/Laws/Kept/Sync.lean ====
section
/-! SUPPORT. What the operations of Machine/Sync.lean keep. -/

namespace Sys2Proof.Machine

theorem State.addSc_kept {r₀ : State} {s : State} {u sc n} (h₀ : Kept r₀ s) : Kept r₀ (State.addSc s u sc n) := by
  unfold State.addSc
  extract_lets x1 x2 s3
  clear_value x1 x2
  have h4 : Kept r₀ s3 := by
    unfold s3
    refine State.modUnit_kept ?_
    assumption
  clear_value s3
  refine Kept.ite ?_ ?_
  · refine State.report_kept ?_
    assumption
  · assumption

theorem State.applyInc_kept {r₀ : State} {s : State} {i} (h₀ : Kept r₀ s) : Kept r₀ (State.applyInc s i) := by
  unfold State.applyInc
  split
  · refine State.report_kept ?_
    assumption
  · refine Kept.ite ?_ ?_
    · refine State.report_kept ?_
      assumption
    · extract_lets s1
      have h2 : Kept r₀ s1 := by
        unfold s1
        refine State.addSc_kept ?_
        assumption
      clear_value s1
      refine Kept.ite ?_ ?_
      · refine State.addSc_kept ?_
        assumption
      · assumption

theorem execSyncCounterIncrement_completes {s : State} {index} : Completes s (execSyncCounterIncrement index s) := by
  unfold execSyncCounterIncrement
  refine Completes.next ?_
  split
  · exact Kept.refl
  · extract_lets x1
    clear_value x1
    refine State.applyInc_kept ?_
    refine Kept.upd rfl ?_
    exact Kept.refl

end Sys2Proof.Machine
end

