-- ==== Sys2Proof/Laws/Kept/Lists.lean ====
section
/-! SUPPORT. What the operations of Machine/Lists.lean keep. -/

namespace Sys2Proof.Machine

theorem State.sigIssue_kept {r₀ : State} {s : State} {u d0 close} (h₀ : Kept r₀ s) : IssueKept r₀ (State.sigIssue s u d0 close) := by
  unfold State.sigIssue
  split
  refine IssueKept.ite ?_ ?_
  · refine IssueKept.hold ?_
    assumption
  · extract_lets x1
    clear_value x1
    refine IssueKept.check ?_ ?_
    · assumption
    · refine IssueKept.ite ?_ ?_
      · refine IssueKept.done ?_
        refine State.modUnit_kept ?_
        assumption
      · refine IssueKept.ite ?_ ?_
        · refine IssueKept.done ?_
          refine State.sigClose_kept ?_
          assumption
        · refine IssueKept.hold ?_
          assumption

theorem execSigClose_completes {s : State} {u} : Completes s (execSigClose u s) := by
  unfold execSigClose
  refine Completes.next ?_
  refine State.issue_kept (fun d3 s1 h2 => ?_) ?_
  · refine State.sigIssue_kept ?_
    assumption
  · exact Kept.refl

theorem State.waitTake_kept {r₀ : State} {s : State} {u d} (h₀ : Kept r₀ s) : Kept r₀ (State.waitTake s u d) := by
  unfold State.waitTake
  refine Kept.ite ?_ ?_
  · extract_lets x1
    clear_value x1
    refine State.modUnit_kept ?_
    assumption
  · assumption

theorem State.waitIssue_kept {r₀ : State} {s : State} {u d0} (h₀ : Kept r₀ s) : IssueKept r₀ (State.waitIssue s u d0) := by
  unfold State.waitIssue
  extract_lets x1
  clear_value x1
  refine IssueKept.check ?_ ?_
  · assumption
  · refine IssueKept.ite ?_ ?_
    · refine IssueKept.done ?_
      refine State.waitTake_kept ?_
      assumption
    · refine IssueKept.hold ?_
      refine State.modUnit_kept ?_
      assumption

theorem State.afterGolden_kept {r₀ : State} {s : State} {u} (h₀ : Kept r₀ s) : Kept r₀ (State.afterGolden s u) := by
  unfold State.afterGolden
  extract_lets s1
  have h2 : Kept r₀ s1 := by
    unfold s1
    refine State.setFld_kept ?_
    refine State.setFld_kept ?_
    assumption
  clear_value s1
  refine State.modUnit_kept ?_
  assumption

theorem execGoldenRunEnd_completes {s : State} {u} : Completes s (execGoldenRunEnd u s) := by
  unfold execGoldenRunEnd
  refine Completes.next ?_
  extract_lets x1 s2
  clear_value x1
  have h3 : Kept s s2 := by
    unfold s2
    refine Kept.ite ?_ ?_
    · exact Kept.refl
    · refine State.modUnit_kept ?_
      refine State.setFld_kept ?_
      exact Kept.refl
  clear_value s2
  refine Kept.ite ?_ ?_
  · exact Kept.refl
  · refine State.afterGolden_kept ?_
    assumption

theorem execFence_completes {s : State} {u} : Completes s (execFence u s) := by
  unfold execFence
  refine Completes.next ?_
  refine State.issue_kept (fun d3 s1 h2 => ?_) ?_
  · refine IssueKept.ifZ1 ?_ ?_
    · assumption
    · refine IssueKept.check ?_ ?_
      · assumption
      · refine IssueKept.done ?_
        refine State.modUnit_kept ?_
        assumption
  · exact Kept.refl

theorem State.syncPeer_kept {r₀ : State} {s : State} {u d} (h₀ : Kept r₀ s) : Kept r₀ (State.syncPeer s u d) := by
  unfold State.syncPeer
  split
  · extract_lets x1 x2 s3
    clear_value x1 x2
    have h4 : Kept r₀ s3 := by
      unfold s3
      refine State.modLink_kept ?_
      assumption
    clear_value s3
    refine Kept.ite ?_ ?_
    · assumption
    · refine State.linkSend_kept ?_
      assumption
  · refine Kept.ite ?_ ?_
    · refine State.sendFailed_kept ?_
      assumption
    · refine State.unitFault_kept ?_
      assumption

theorem State.runOut_kept {r₀ : State} {s : State} {u} (h₀ : Kept r₀ s) : Kept r₀ (State.runOut s u) := by
  unfold State.runOut
  extract_lets x1
  clear_value x1
  refine Kept.ite ?_ ?_
  · refine State.refuseAt_kept ?_
    refine State.modAnvil_kept ?_
    assumption
  · refine State.finishList_kept ?_
    refine State.silentCheck_kept ?_
    refine State.sigClose_kept ?_
    assumption

theorem State.issuedAll_kept {r₀ : State} {s : State} {u} (h₀ : Kept r₀ s) : Kept r₀ (State.issuedAll s u).1 := by
  unfold State.issuedAll
  refine Kept.iteFst ?_ ?_
  · refine Kept.pair ?_
    assumption
  · refine Kept.iteFst ?_ ?_
    · split
      refine Kept.iteFst ?_ ?_
      · refine Kept.pair ?_
        assumption
      · refine Kept.pair ?_
        refine State.setFld_kept ?_
        refine Kept.fst ‹_› ?_
        refine State.fetch_kept ?_
        assumption
    · refine Kept.pair ?_
      assumption

theorem execSigOpen_completes {s : State} {u} : Completes s (execSigOpen u s) := by
  unfold execSigOpen
  refine Completes.next ?_
  refine State.issue_kept (fun d3 s1 h2 => ?_) ?_
  · refine State.sigIssue_kept ?_
    assumption
  · exact Kept.refl

theorem execWait_completes {s : State} {u} : Completes s (execWait u s) := by
  unfold execWait
  refine Completes.next ?_
  refine State.issue_kept (fun d3 s1 h2 => ?_) ?_
  · refine State.waitIssue_kept ?_
    assumption
  · exact Kept.refl

theorem execWaitTimeout_completes {s : State} {u} : Completes s (execWaitTimeout u s) := by
  unfold execWaitTimeout
  refine Completes.next ?_
  split
  · exact Kept.refl
  · refine State.issue_kept (fun d3 s1 h2 => ?_) ?_
    · extract_lets x4
      clear_value x4
      refine IssueKept.ite ?_ ?_
      · refine IssueKept.hold ?_
        assumption
      · refine IssueKept.ite ?_ ?_
        · refine IssueKept.done ?_
          refine State.waitTake_kept ?_
          assumption
        · refine IssueKept.refuse ?_
          refine State.reach_kept ?_
          assumption
    · exact Kept.refl

theorem State.syncLocal_kept {r₀ : State} {s : State} {u d} (h₀ : Kept r₀ s) : Kept r₀ (State.syncLocal s u d) := by
  unfold State.syncLocal
  extract_lets x1
  clear_value x1
  split
  refine Kept.upd rfl ?_
  refine Kept.fst ‹_› ?_
  split
  · refine Kept.pair ?_
    assumption
  · split
    refine Kept.pair ?_
    refine Kept.fst ‹_› ?_
    refine State.free_kept ?_
    assumption

theorem execSync_completes {s : State} {u} : Completes s (execSync u s) := by
  unfold execSync
  refine Completes.next ?_
  refine State.issue_kept (fun d3 s1 h2 => ?_) ?_
  · refine IssueKept.ifZ1 ?_ ?_
    · assumption
    · refine IssueKept.check ?_ ?_
      · assumption
      · refine IssueKept.ite ?_ ?_
        · refine IssueKept.hold ?_
          assumption
        · extract_lets s4
          have h5 : Kept s s4 := by
            unfold s4
            refine State.effectRecord_kept ?_
            assumption
          clear_value s4
          refine IssueKept.done ?_
          refine Kept.ite ?_ ?_
          · assumption
          · refine Kept.ite ?_ ?_
            · refine State.syncPeer_kept ?_
              assumption
            · refine State.syncLocal_kept ?_
              assumption
  · exact Kept.refl

theorem execGold_completes {s : State} {u} : Completes s (execGold u s) := by
  unfold execGold
  refine Completes.next ?_
  refine State.issue_kept (fun d3 s1 h2 => ?_) ?_
  · split
    refine IssueKept.check ?_ ?_
    · assumption
    · refine IssueKept.ite ?_ ?_
      · refine IssueKept.done ?_
        refine State.goldCompare_kept ?_
        assumption
      · refine IssueKept.hold ?_
        assumption
  · exact Kept.refl

theorem execTileListEnd_completes {s : State} {u} : Completes s (execTileListEnd u s) := by
  unfold execTileListEnd
  refine Completes.next ?_
  refine Kept.ite ?_ ?_
  · exact Kept.refl
  · split
    · refine State.partOver_kept ?_
      exact Kept.refl
    · split
      refine Kept.ite ?_ ?_
      · refine State.runOut_kept ?_
        refine Kept.fst ‹_› ?_
        refine State.issuedAll_kept ?_
        exact Kept.refl
      · refine Kept.fst ‹_› ?_
        refine State.issuedAll_kept ?_
        exact Kept.refl

end Sys2Proof.Machine
end

