-- ==== Sys2Proof/Laws/Kept/Blocks.lean ====
section
/-! SUPPORT. What the operations of Machine/Blocks.lean keep. -/

namespace Sys2Proof.Machine

theorem State.unitWrite_kept {r₀ : State} {s : State} {u a bs poison} (h₀ : Kept r₀ s) : Kept r₀ (State.unitWrite s u a bs poison) := by
  unfold State.unitWrite
  refine Kept.ite ?_ ?_
  · assumption
  · refine State.write_kept ?_
    assumption

theorem Pull.s_kept {r₀ : State} {self : Pull} (h₀ : Kept r₀ self.s) : Kept r₀ (Pull.s self) := by
  unfold Pull.s
  assumption

theorem Pull.read_kept {r₀ : State} {p : Pull} {u a len} (h₀ : Kept r₀ p.s) : Kept r₀ (Pull.read p u a len).1.s := by
  unfold Pull.read
  split
  refine Kept.pairPull ?_
  refine Kept.pull ?_
  refine Kept.fst ‹_› ?_
  refine State.read_kept ?_
  assumption

theorem State.blockFetch_kept {r₀ : State} {s : State} {u d} (h₀ : Kept r₀ s) : Kept r₀ (State.blockFetch s u d).1.s := by
  unfold State.blockFetch
  refine Kept.iteFstPull ?_ ?_
  · refine Pull.read_kept ?_
    refine Kept.pull ?_
    assumption
  · refine Kept.pairPull ?_
    refine Kept.pull ?_
    assumption

theorem State.unitWriteRow_kept {r₀ : State} {s : State} {u a bs bad} (h₀ : Kept r₀ s) : Kept r₀ (State.unitWriteRow s u a bs bad) := by
  unfold State.unitWriteRow
  refine Kept.foldl (fun s1 x2 h3 => ?_) ?_
  · refine State.unitWrite_kept ?_
    assumption
  · assumption

theorem State.unitDup_kept {r₀ : State} {s : State} {u last} (h₀ : Kept r₀ s) : Kept r₀ (State.unitDup s u last).1 := by
  unfold State.unitDup
  extract_lets s1 s2
  have h3 : Kept r₀ s1 := by
    unfold s1
    refine State.unitEvent_kept ?_
    refine State.setFld_kept ?_
    refine State.count_kept ?_
    assumption
  clear_value s1
  have h4 : Kept r₀ s2 := by
    unfold s2
    refine Kept.ite ?_ ?_
    · refine State.unitFault_kept ?_
      assumption
    · refine State.unitFault_kept ?_
      assumption
  clear_value s2
  refine Kept.pair ?_
  assumption

theorem State.spendDup_kept {r₀ : State} {s : State} {u k last any} (h₀ : Kept r₀ s) : Kept r₀ (State.spendDup s u k last any).1 := by
  unfold State.spendDup
  refine Kept.iteFst ?_ ?_
  · refine Kept.pair ?_
    refine State.spend_kept ?_
    assumption
  · refine Kept.iteFst ?_ ?_
    · refine State.unitDup_kept ?_
      refine State.spend_kept ?_
      assumption
    · refine Kept.pair ?_
      assumption

theorem State.spendStall_kept {r₀ : State} {s : State} {u} (h₀ : Kept r₀ s) : Kept r₀ (State.spendStall s u) := by
  unfold State.spendStall
  split
  refine State.count_kept ?_
  refine Kept.fst ‹_› ?_
  refine State.free_kept ?_
  assumption

theorem Pull.rows_kept {r₀ : State} {p : Pull} {u len addrs} (h₀ : Kept r₀ p.s) : Kept r₀ (Pull.rows p u len addrs).1.s := by
  unfold Pull.rows
  refine Kept.foldlFstPull (fun p1 x2 h3 => ?_) ?_
  · split
    refine Kept.pairPull ?_
    refine Kept.fstPull ‹_› ?_
    refine Pull.read_kept ?_
    assumption
  · refine Kept.pairPull ?_
    assumption

theorem IssueKept.pullCheck {r₀ : State} {p : Pull} {u a l} {i : Issue} (h : Kept r₀ p.s) (hi : IssueKept r₀ i) :
    IssueKept r₀ (p.check u a l i) :=
  IssueKept.ite hi (IssueKept.refuse (State.eatIf_kept h))

end Sys2Proof.Machine
end

