-- ==== Sys2Proof/Laws/Kept/Messages.lean ====
section
/-! SUPPORT. What the operations of Machine/Messages.lean keep. -/

namespace Sys2Proof.Machine

theorem State.announceGen_kept {r₀ : State} {s : State} {c} (h₀ : Kept r₀ s) : Kept r₀ (State.announceGen s c) := by
  unfold State.announceGen
  refine Kept.foldl (fun s1 x2 h3 => ?_) ?_
  · refine State.linkSend_kept ?_
    assumption
  · assumption

theorem State.syncFailed_kept {r₀ : State} {s : State} {u code} (h₀ : Kept r₀ s) : Kept r₀ (State.syncFailed s u code) := by
  unfold State.syncFailed
  refine Kept.ite ?_ ?_
  · refine State.sendFailed_kept ?_
    assumption
  · refine State.unitFault_kept ?_
    assumption

theorem State.sendOver_kept {r₀ : State} {s : State} {q tag code} (h₀ : Kept r₀ s) : Kept r₀ (State.sendOver s q tag code) := by
  unfold State.sendOver
  refine Kept.upd rfl ?_
  assumption

theorem State.peerAnswer_kept {r₀ : State} {s : State} {q tag code} (h₀ : Kept r₀ s) : Kept r₀ (State.peerAnswer s q tag code) := by
  unfold State.peerAnswer
  split
  · extract_lets s1
    have h2 : Kept r₀ s1 := by
      unfold s1
      refine State.modLink_kept ?_
      assumption
    clear_value s1
    refine Kept.ite ?_ ?_
    · assumption
    · refine State.syncFailed_kept ?_
      assumption
  · refine State.sendOver_kept ?_
    assumption

theorem State.failMsg_kept {r₀ : State} {s : State} {q m} (h₀ : Kept r₀ s) : Kept r₀ (State.failMsg s q m) := by
  unfold State.failMsg
  refine Kept.ite ?_ ?_
  · refine State.peerAnswer_kept ?_
    assumption
  · assumption

theorem State.portEmpty_kept {r₀ : State} {s : State} {q} (h₀ : Kept r₀ s) : Kept r₀ (State.portEmpty s q) := by
  unfold State.portEmpty
  extract_lets x1 s2 s3 x4
  clear_value x1
  have h5 : Kept r₀ s2 := by
    unfold s2
    refine Kept.foldl (fun s6 x7 h8 => ?_) ?_
    · refine State.failMsg_kept ?_
      assumption
    · assumption
  clear_value s2
  have h9 : Kept r₀ s3 := by
    unfold s3
    refine Kept.upd rfl ?_
    assumption
  clear_value s3
  clear_value x4
  refine State.setLink_kept ?_
  assumption

theorem State.portLeaves_kept {r₀ : State} {s : State} {q state} (h₀ : Kept r₀ s) : Kept r₀ (State.portLeaves s q state) := by
  unfold State.portLeaves
  extract_lets x1 s2 s3
  clear_value x1
  have h4 : Kept r₀ s2 := by
    unfold s2
    refine State.portEmpty_kept ?_
    assumption
  clear_value s2
  have h5 : Kept r₀ s3 := by
    unfold s3
    refine State.setFld_kept ?_
    assumption
  clear_value s3
  refine Kept.ite ?_ ?_
  · refine State.portEvent_kept ?_
    assumption
  · assumption

theorem State.startTraining_kept {r₀ : State} {s : State} {q} (h₀ : Kept r₀ s) : Kept r₀ (State.startTraining s q) := by
  unfold State.startTraining
  refine State.portLeaves_kept ?_
  assumption

theorem State.inbound_kept {r₀ s : State} {q m ty run} (hf : ∀ s, Kept r₀ s → Kept r₀ (run s)) (h₀ : Kept r₀ s) :
    Kept r₀ (s.inbound q m ty run) :=
  Kept.ite h₀ (Kept.ite (State.linkDrop_kept (State.linkGot_kept h₀)) (Kept.ite h₀ (hf _ (State.linkGot_kept h₀))))

theorem State.fmRelay_kept {r₀ : State} {s : State} {m} (h₀ : Kept r₀ s) : Kept r₀ (State.fmRelay s m) := by
  unfold State.fmRelay
  refine Kept.ite ?_ ?_
  · assumption
  · refine Kept.foldl (fun s1 x2 h3 => ?_) ?_
    · refine Kept.ite ?_ ?_
      · assumption
      · split
        · refine State.linkSend_kept ?_
          assumption
        · assumption
    · assumption

theorem execResetNotice_completes {s : State} {q m} : Completes s (execResetNotice q m s) := by
  unfold execResetNotice
  refine Completes.next ?_
  refine State.inbound_kept (fun s1 h2 => ?_) ?_
  · refine State.fmRelay_kept ?_
    refine State.modLink_kept ?_
    assumption
  · exact Kept.refl

theorem State.answerSend_kept {r₀ : State} {s : State} {q m code} (h₀ : Kept r₀ s) : Kept r₀ (State.answerSend s q m code) := by
  unfold State.answerSend
  refine State.linkSend_kept ?_
  assumption

theorem execLinkSync_completes {s : State} {q m} : Completes s (execLinkSync q m s) := by
  unfold execLinkSync
  refine Completes.next ?_
  refine State.inbound_kept (fun s1 h2 => ?_) ?_
  · refine Kept.ite ?_ ?_
    · refine State.answerSend_kept ?_
      assumption
    · refine Kept.ite ?_ ?_
      · refine State.answerSend_kept ?_
        assumption
      · refine State.applyInc_kept ?_
        assumption
  · exact Kept.refl

theorem State.fmMessage_kept {r₀ s : State} {q m run} (hf : ∀ s, Kept r₀ s → Kept r₀ (run s)) (h₀ : Kept r₀ s) :
    Kept r₀ (s.fmMessage q m run) :=
  Kept.ite h₀ (Kept.ite (hf _ (State.event_kept h₀)) (State.event_kept (State.linkDrop_kept h₀)))

theorem execFmBarCfg_completes {s : State} {q m} : Completes s (execFmBarCfg q m s) := by
  unfold execFmBarCfg
  refine Completes.next ?_
  refine State.inbound_kept (fun s1 h2 => ?_) ?_
  · refine State.fmMessage_kept (fun s4 h5 => ?_) ?_
    · refine State.regWrite_kept ?_
      assumption
    · assumption
  · exact Kept.refl

theorem State.routeDown_kept {r₀ : State} {s : State} {q} (h₀ : Kept r₀ s) : Kept r₀ (State.routeDown s q) := by
  unfold State.routeDown
  extract_lets s1
  have h2 : Kept r₀ s1 := by
    unfold s1
    refine State.portEvent_kept ?_
    refine State.count_kept ?_
    assumption
  clear_value s1
  refine State.fault_kept ?_
  refine State.startTraining_kept ?_
  assumption

theorem execNak_completes {s : State} {q seq} : Completes s (execNak q seq s) := by
  unfold execNak
  refine Completes.next ?_
  extract_lets x1 s2 s3
  clear_value x1
  have h4 : Kept s s2 := by
    unfold s2
    refine State.count_kept ?_
    exact Kept.refl
  clear_value s2
  have h5 : Kept s s3 := by
    unfold s3
    refine State.modLink_kept ?_
    assumption
  clear_value s3
  refine Kept.ite ?_ ?_
  · exact Kept.refl
  · refine Kept.ite ?_ ?_
    · refine State.routeDown_kept ?_
      assumption
    · refine Kept.foldl (fun s6 x7 h8 => ?_) ?_
      · refine State.send_kept ?_
        assumption
      · assumption

theorem execLinkTrainingComplete_completes {s : State} {q t} : Completes s (execLinkTrainingComplete q t s) := by
  unfold execLinkTrainingComplete
  refine Completes.next ?_
  refine Kept.ite ?_ ?_
  · exact Kept.refl
  · extract_lets s1 x2 s3 s4 x5 s6 s7
    have h8 : Kept s s1 := by
      unfold s1
      refine State.setFld_kept ?_
      exact Kept.refl
    clear_value s1
    clear_value x2
    have h9 : Kept s s3 := by
      unfold s3
      refine State.setFld_kept ?_
      refine State.setFld_kept ?_
      assumption
    clear_value s3
    have h10 : Kept s s4 := by
      unfold s4
      refine State.setFld_kept ?_
      assumption
    clear_value s4
    clear_value x5
    have h11 : Kept s s6 := by
      unfold s6
      refine State.setLink_kept ?_
      assumption
    clear_value s6
    have h12 : Kept s s7 := by
      unfold s7
      refine State.portEvent_kept ?_
      assumption
    clear_value s7
    refine Kept.ite ?_ ?_
    · refine State.setFld_kept ?_
      assumption
    · refine Kept.ite ?_ ?_
      · refine Kept.foldl (fun s13 x14 h15 => ?_) ?_
        · refine State.announceGen_kept ?_
          assumption
        · assumption
      · assumption

theorem execSendDone_completes {s : State} {q m} : Completes s (execSendDone q m s) := by
  unfold execSendDone
  refine Completes.next ?_
  refine State.inbound_kept (fun s1 h2 => ?_) ?_
  · refine Kept.ite ?_ ?_
    · assumption
    · refine State.peerAnswer_kept ?_
      assumption
  · exact Kept.refl

theorem execLinkDoorbell_completes {s : State} {q m} : Completes s (execLinkDoorbell q m s) := by
  unfold execLinkDoorbell
  refine Completes.next ?_
  refine State.inbound_kept (fun s1 h2 => ?_) ?_
  · refine Kept.ite ?_ ?_
    · assumption
    · refine Kept.ite ?_ ?_
      · refine State.linkDrop_kept ?_
        assumption
      · refine Kept.ite ?_ ?_
        · refine State.linkDrop_kept ?_
          refine State.refuseReg_kept ?_
          assumption
        · refine State.doorbellWrite_kept ?_
          assumption
  · exact Kept.refl

theorem State.setRecv_kept {r₀ : State} {s : State} {q m x} (h₀ : Kept r₀ s) : Kept r₀ (State.setRecv s q m x) := by
  unfold State.setRecv
  refine State.modLink_kept ?_
  assumption

theorem execSendInc_completes {s : State} {q m} : Completes s (execSendInc q m s) := by
  unfold execSendInc
  refine Completes.next ?_
  refine State.inbound_kept (fun s1 h2 => ?_) ?_
  · refine Kept.ite ?_ ?_
    · refine State.answerSend_kept ?_
      assumption
    · refine Kept.ite ?_ ?_
      · refine State.answerSend_kept ?_
        refine State.setRecv_kept ?_
        assumption
      · split
        refine Kept.ite ?_ ?_
        · refine State.setRecv_kept ?_
          assumption
        · extract_lets s4 x5 x6 s7
          have h8 : Kept s s4 := by
            unfold s4
            refine State.setRecv_kept ?_
            assumption
          clear_value s4
          clear_value x5 x6
          have h9 : Kept s s7 := by
            unfold s7
            refine Kept.ite ?_ ?_
            · refine State.applyInc_kept ?_
              assumption
            · assumption
          clear_value s7
          refine State.answerSend_kept ?_
          assumption
  · exact Kept.refl

theorem execMemWr_completes {s : State} {q m} : Completes s (execMemWr q m s) := by
  unfold execMemWr
  refine Completes.next ?_
  refine State.inbound_kept (fun s1 h2 => ?_) ?_
  · refine Kept.ite ?_ ?_
    · assumption
    · refine Kept.ite ?_ ?_
      · refine State.linkDrop_kept ?_
        assumption
      · split
        refine Kept.ite ?_ ?_
        · refine State.linkDrop_kept ?_
          refine Kept.fst ‹_› ?_
          refine Kept.foldlFst (fun p4 x5 h6 => ?_) ?_
          · split
            refine Kept.pair ?_
            refine Kept.fst ‹_› ?_
            refine State.write_kept ?_
            assumption
          · refine Kept.pair ?_
            assumption
        · refine Kept.fst ‹_› ?_
          refine Kept.foldlFst (fun p7 x8 h9 => ?_) ?_
          · split
            refine Kept.pair ?_
            refine Kept.fst ‹_› ?_
            refine State.write_kept ?_
            assumption
          · refine Kept.pair ?_
            assumption
  · exact Kept.refl

theorem execLinkAck_completes {s : State} {q seq} : Completes s (execLinkAck q seq s) := by
  unfold execLinkAck
  refine Completes.next ?_
  refine Kept.ite ?_ ?_
  · exact Kept.refl
  · refine State.modLink_kept ?_
    exact Kept.refl

theorem execUncorrectableCodeword_completes {s : State} {q seq} : Completes s (execUncorrectableCodeword q seq s) := by
  unfold execUncorrectableCodeword
  refine Completes.next ?_
  refine Kept.ite ?_ ?_
  · exact Kept.refl
  · refine State.linkCtl_kept ?_
    exact Kept.refl

theorem execLinkCredit_completes {s : State} {q m} : Completes s (execLinkCredit q m s) := by
  unfold execLinkCredit
  refine Completes.next ?_
  refine Kept.ite ?_ ?_
  · exact Kept.refl
  · refine Kept.ite ?_ ?_
    · refine State.linkDrop_kept ?_
      exact Kept.refl
    · refine Kept.ite ?_ ?_
      · exact Kept.refl
      · extract_lets x1 s2
        clear_value x1
        have h3 : Kept s s2 := by
          unfold s2
          refine State.modLink_kept ?_
          exact Kept.refl
        clear_value s2
        refine State.linkDrain_kept ?_
        assumption

theorem execReady_completes {s : State} {q m} : Completes s (execReady q m s) := by
  unfold execReady
  refine Completes.next ?_
  refine State.inbound_kept (fun s1 h2 => ?_) ?_
  · refine Kept.ite ?_ ?_
    · assumption
    · refine State.fmRelay_kept ?_
      refine State.modLink_kept ?_
      assumption
  · exact Kept.refl

theorem execAckCoalesceTimer_completes {s : State} {q} : Completes s (execAckCoalesceTimer q s) := by
  unfold execAckCoalesceTimer
  refine Completes.next ?_
  refine Kept.ite ?_ ?_
  · exact Kept.refl
  · refine State.linkCtl_kept ?_
    refine State.modLink_kept ?_
    refine State.reach_kept ?_
    exact Kept.refl

theorem execFmRelay_completes {s : State} {q m} : Completes s (execFmRelay q m s) := by
  unfold execFmRelay
  refine Completes.next ?_
  refine State.inbound_kept (fun s1 h2 => ?_) ?_
  · refine State.fmMessage_kept (fun s4 h5 => ?_) ?_
    · assumption
    · assumption
  · exact Kept.refl

theorem State.linkWrite_kept {r₀ : State} {s : State} {q m a} (h₀ : Kept r₀ s) : Kept r₀ (State.linkWrite s q m a).1 := by
  unfold State.linkWrite
  refine Kept.foldlFst (fun p1 x2 h3 => ?_) ?_
  · refine Kept.iteFst ?_ ?_
    · assumption
    · split
      · extract_lets s4
        have h5 : Kept r₀ s4 := by
          unfold s4
          refine Kept.ite ?_ ?_
          · refine State.report_kept ?_
            refine Kept.fst ‹_› ?_
            refine State.writeUnit_kept ?_
            assumption
          · refine Kept.fst ‹_› ?_
            refine State.writeUnit_kept ?_
            assumption
        clear_value s4
        refine Kept.pair ?_
        assumption
      · refine Kept.pair ?_
        refine Kept.fst ‹_› ?_
        refine State.writeUnit_kept ?_
        assumption
  · refine Kept.pair ?_
    assumption

theorem execSendData_completes {s : State} {q m} : Completes s (execSendData q m s) := by
  unfold execSendData
  refine Completes.next ?_
  refine State.inbound_kept (fun s1 h2 => ?_) ?_
  · refine Kept.ite ?_ ?_
    · refine State.answerSend_kept ?_
      assumption
    · refine Kept.ite ?_ ?_
      · refine State.answerSend_kept ?_
        assumption
      · split
        split
        refine State.setRecv_kept ?_
        refine Kept.fst ‹_› ?_
        refine Kept.iteFst ?_ ?_
        · refine State.linkWrite_kept ?_
          assumption
        · refine Kept.pair ?_
          assumption
  · exact Kept.refl

theorem State.poisonUnits_kept {r₀ : State} {s : State} {n} (h₀ : Kept r₀ s) : Kept r₀ (State.poisonUnits s n).1 := by
  unfold State.poisonUnits
  refine Kept.foldlFst (fun p1 x2 h3 => ?_) ?_
  · split
    refine Kept.pair ?_
    refine Kept.fst ‹_› ?_
    refine State.freeBytes_kept ?_
    assumption
  · refine Kept.pair ?_
    assumption

theorem State.answerRead_kept {r₀ : State} {s : State} {q m status data} (h₀ : Kept r₀ s) : Kept r₀ (State.answerRead s q m status data) := by
  unfold State.answerRead
  refine State.linkSend_kept ?_
  assumption

theorem execMemRd_completes {s : State} {q m} : Completes s (execMemRd q m s) := by
  unfold execMemRd
  refine Completes.next ?_
  refine State.inbound_kept (fun s1 h2 => ?_) ?_
  · extract_lets x4
    clear_value x4
    refine Kept.ite ?_ ?_
    · refine State.answerRead_kept ?_
      assumption
    · refine Kept.ite ?_ ?_
      · split
        refine State.answerRead_kept ?_
        refine Kept.fst ‹_› ?_
        refine State.poisonUnits_kept ?_
        assumption
      · split
        refine Kept.ite ?_ ?_
        · split
          refine State.answerRead_kept ?_
          refine Kept.fst ‹_› ?_
          refine State.poisonUnits_kept ?_
          refine Kept.fst ‹_› ?_
          refine Kept.foldlFst (fun p5 x6 h7 => ?_) ?_
          · split
            refine Kept.pair ?_
            refine Kept.fst ‹_› ?_
            refine State.read_kept ?_
            assumption
          · refine Kept.pair ?_
            assumption
        · refine State.answerRead_kept ?_
          refine Kept.fst ‹_› ?_
          refine Kept.foldlFst (fun p8 x9 h10 => ?_) ?_
          · split
            refine Kept.pair ?_
            refine Kept.fst ‹_› ?_
            refine State.read_kept ?_
            assumption
          · refine Kept.pair ?_
            assumption
  · exact Kept.refl

theorem execGenAnnounce_completes {s : State} {q m} : Completes s (execGenAnnounce q m s) := by
  unfold execGenAnnounce
  refine Completes.next ?_
  refine State.inbound_kept (fun s1 h2 => ?_) ?_
  · refine State.fmRelay_kept ?_
    refine State.modLink_kept ?_
    assumption
  · exact Kept.refl

theorem execMemRdResp_completes {s : State} {q m} : Completes s (execMemRdResp q m s) := by
  unfold execMemRdResp
  refine Completes.next ?_
  refine State.inbound_kept (fun s1 h2 => ?_) ?_
  · refine Kept.ite ?_ ?_
    · assumption
    · refine State.send_kept ?_
      refine State.modLink_kept ?_
      assumption
  · exact Kept.refl

theorem execNarultilPortDown_completes {s : State} {q} : Completes s (execNarultilPortDown q s) := by
  unfold execNarultilPortDown
  refine Completes.next ?_
  refine Kept.ite ?_ ?_
  · exact Kept.refl
  · refine State.fault_kept ?_
    refine State.portLeaves_kept ?_
    exact Kept.refl

end Sys2Proof.Machine
end

