-- ==== Sys2Proof/Laws/Kept/Gate.lean ====
section
/-! SUPPORT. What the operations of Machine/Gate.lean keep. -/

namespace Sys2Proof.Machine

theorem State.setTenant_kept {r₀ : State} {s : State} {t x} (h₀ : Kept r₀ s) : Kept r₀ (State.setTenant s t x) := by
  unfold State.setTenant
  refine Kept.upd rfl ?_
  assumption

theorem State.syncOut_kept {r₀ : State} {s : State} {t} (h₀ : Kept r₀ s) : Kept r₀ (State.syncOut s t) := by
  unfold State.syncOut
  refine State.setFld_kept ?_
  assumption

theorem State.gateForget_kept {r₀ : State} {s : State} {t} (h₀ : Kept r₀ s) : Kept r₀ (State.gateForget s t) := by
  unfold State.gateForget
  extract_lets x1 x2 s3 s4
  clear_value x1 x2
  have h5 : Kept r₀ s3 := by
    unfold s3
    refine State.setTenant_kept ?_
    assumption
  clear_value s3
  have h6 : Kept r₀ s4 := by
    unfold s4
    refine Kept.upd rfl ?_
    assumption
  clear_value s4
  refine State.syncOut_kept ?_
  refine State.setFld_kept ?_
  refine State.setFld_kept ?_
  assumption

theorem State.modTenant_kept {r₀ : State} {s : State} {t f} (h₀ : Kept r₀ s) : Kept r₀ (State.modTenant s t f) := by
  unfold State.modTenant
  refine State.setTenant_kept ?_
  assumption

theorem State.keyWord_kept {r₀ : State} {s : State} {t k value} (h₀ : Kept r₀ s) : Kept r₀ (State.keyWord s t k value) := by
  unfold State.keyWord
  extract_lets s1
  have h2 : Kept r₀ s1 := by
    unfold s1
    refine State.modTenant_kept ?_
    assumption
  clear_value s1
  refine Kept.ite ?_ ?_
  · refine State.setFld_kept ?_
    assumption
  · assumption

theorem State.sendDepot_kept {r₀ : State} {s : State} {t cls seq body} (h₀ : Kept r₀ s) : Kept r₀ (State.sendDepot s t cls seq body) := by
  unfold State.sendDepot
  extract_lets x1 x2 x3 x4 x5 s6
  clear_value x1 x2 x3 x4 x5
  have h7 : Kept r₀ s6 := by
    unfold s6
    refine State.modTenant_kept ?_
    assumption
  clear_value s6
  refine Kept.ite ?_ ?_
  · assumption
  · refine Kept.foldl (fun s8 x9 h10 => ?_) ?_
    · refine State.send_kept ?_
      assumption
    · assumption

theorem execTimeHint_completes {s : State} : Completes s (execTimeHint s) := by
  unfold execTimeHint
  refine Completes.next ?_
  refine Kept.ite ?_ ?_
  · exact Kept.refl
  · refine Kept.foldl (fun s1 x2 h3 => ?_) ?_
    · refine Kept.ite ?_ ?_
      · refine State.sendDepot_kept ?_
        assumption
      · assumption
    · refine State.every_kept ?_
      exact Kept.refl

theorem State.gateSubmit_kept {r₀ : State} {s : State} {t r d} (h₀ : Kept r₀ s) : Kept r₀ (State.gateSubmit s t r d) := by
  unfold State.gateSubmit
  extract_lets x1
  clear_value x1
  split
  refine State.sqDoorbell_kept ?_
  refine Kept.fst ‹_› ?_
  refine State.write_kept ?_
  assumption

theorem State.sendCredit_kept {r₀ : State} {s : State} {t} (h₀ : Kept r₀ s) : Kept r₀ (State.sendCredit s t) := by
  unfold State.sendCredit
  extract_lets x1 s2
  clear_value x1
  have h3 : Kept r₀ s2 := by
    unfold s2
    refine Kept.upd rfl ?_
    assumption
  clear_value s2
  refine State.sendDepot_kept ?_
  assumption

theorem State.gateDrop_kept {r₀ : State} {s : State} {t reason} (h₀ : Kept r₀ s) : Kept r₀ (State.gateDrop s t reason) := by
  unfold State.gateDrop
  extract_lets s1 s2
  have h3 : Kept r₀ s1 := by
    unfold s1
    refine State.setFld_kept ?_
    refine State.setFld_kept ?_
    refine State.count_kept ?_
    assumption
  clear_value s1
  have h4 : Kept r₀ s2 := by
    unfold s2
    refine State.event_kept ?_
    assumption
  clear_value s2
  refine Kept.ite ?_ ?_
  · assumption
  · refine State.modTenant_kept ?_
    assumption

theorem State.gateMessage_kept {r₀ : State} {s : State} {t peer m} (h₀ : Kept r₀ s) : Kept r₀ (State.gateMessage s t peer m) := by
  unfold State.gateMessage
  extract_lets x1 x2 x3 x4 x5 s6
  clear_value x1 x2 x3 x4 x5
  have h7 : Kept r₀ s6 := by
    unfold s6
    refine State.modTenant_kept ?_
    assumption
  clear_value s6
  refine Kept.ite ?_ ?_
  · refine State.gateDrop_kept ?_
    assumption
  · refine Kept.ite ?_ ?_
    · refine State.gateDrop_kept ?_
      assumption
    · refine Kept.ite ?_ ?_
      · refine State.gateDrop_kept ?_
        assumption
      · split
        · refine State.gateDrop_kept ?_
          assumption
        · refine Kept.ite ?_ ?_
          · refine State.gateDrop_kept ?_
            assumption
          · refine Kept.ite ?_ ?_
            · refine State.sendCredit_kept ?_
              assumption
            · split
              · refine State.gateDrop_kept ?_
                assumption
              · refine Kept.ite ?_ ?_
                · refine State.gateDrop_kept ?_
                  assumption
                · extract_lets s8
                  have h9 : Kept r₀ s8 := by
                    unfold s8
                    refine State.modTenant_kept ?_
                    assumption
                  clear_value s8
                  refine Kept.ite ?_ ?_
                  · refine State.sendCredit_kept ?_
                    assumption
                  · assumption

theorem execDepotDatagram_completes {s : State} {f} : Completes s (execDepotDatagram f s) := by
  unfold execDepotDatagram
  refine Completes.next ?_
  extract_lets x1 x2 s3 x4 x5 x6 s7 x8 x9
  clear_value x1 x2
  have h10 : Kept s s3 := by
    unfold s3
    refine Kept.upd rfl ?_
    exact Kept.refl
  clear_value s3
  clear_value x4 x5 x6
  have h11 : Kept s s7 := by
    unfold s7
    refine Kept.upd rfl ?_
    exact Kept.refl
  clear_value s7
  clear_value x8 x9
  refine Kept.ite ?_ ?_
  · exact Kept.refl
  · refine Kept.ite ?_ ?_
    · refine State.gateDrop_kept ?_
      refine State.event_kept ?_
      assumption
    · refine Kept.ite ?_ ?_
      · refine State.gateDrop_kept ?_
        assumption
      · refine Kept.ite ?_ ?_
        · refine Kept.upd rfl ?_
          exact Kept.refl
        · refine Kept.ite ?_ ?_
          · refine State.gateDrop_kept ?_
            assumption
          · refine State.gateMessage_kept ?_
            assumption

theorem State.outBody_kept {r₀ : State} {s : State} {t e} (h₀ : Kept r₀ s) : Kept r₀ (State.outBody s t e).1 := by
  unfold State.outBody
  refine Kept.iteFst ?_ ?_
  · refine Kept.pair ?_
    assumption
  · split
    refine Kept.pair ?_
    refine Kept.fst ‹_› ?_
    refine State.read_kept ?_
    assumption

theorem execModelPutWriteComplete_completes {s : State} {t} : Completes s (execModelPutWriteComplete t s) := by
  unfold execModelPutWriteComplete
  refine Completes.next ?_
  split
  · exact Kept.refl
  · extract_lets x1 x2 x3 x4
    clear_value x1 x2 x3 x4
    refine Kept.ite ?_ ?_
    · exact Kept.refl
    · refine State.gateSubmit_kept ?_
      refine State.modTenant_kept ?_
      exact Kept.refl

theorem execNeighborSolicitation_completes {s : State} {senderMac senderIp target} : Completes s (execNeighborSolicitation senderMac senderIp target s) := by
  unfold execNeighborSolicitation
  refine Completes.next ?_
  extract_lets x1 x2 x3 x4
  clear_value x1 x2 x3 x4
  refine Kept.ite ?_ ?_
  · exact Kept.refl
  · refine State.send_kept ?_
    exact Kept.refl

theorem execStallTimeout_completes {s : State} {t} : Completes s (execStallTimeout t s) := by
  unfold execStallTimeout
  refine Completes.next ?_
  extract_lets x1 s2
  clear_value x1
  have h3 : Kept s s2 := by
    unfold s2
    refine State.reach_kept ?_
    exact Kept.refl
  clear_value s2
  refine Kept.ite ?_ ?_
  · exact Kept.refl
  · refine State.event_kept ?_
    refine State.setFld_kept ?_
    assumption

theorem State.gateTake_kept {r₀ s : State} {t cls run} (hf : ∀ d s, Kept r₀ s → Kept r₀ (run s d)) (h₀ : Kept r₀ s) :
    Kept r₀ (s.gateTake t cls run) := by
  unfold State.gateTake
  split
  · exact Kept.ite h₀ (hf _ _ (State.modTenant_kept h₀))
  · exact h₀

theorem State.sendOut_kept {r₀ : State} {s : State} {t e} (h₀ : Kept r₀ s) : Kept r₀ (State.sendOut s t e) := by
  unfold State.sendOut
  split
  extract_lets s1 x2
  have h3 : Kept r₀ s1 := by
    unfold s1
    refine State.sendDepot_kept ?_
    refine Kept.fst ‹_› ?_
    refine State.outBody_kept ?_
    assumption
  clear_value s1
  clear_value x2
  refine State.modTenant_kept ?_
  assumption

theorem execReassemblyTimeout_completes {s : State} {key} : Completes s (execReassemblyTimeout key s) := by
  unfold execReassemblyTimeout
  refine Completes.next ?_
  split
  · exact Kept.refl
  · refine State.gateDrop_kept ?_
    extract_lets s1
    have h2 : Kept s s1 := by
      unfold s1
      refine State.reach_kept ?_
      exact Kept.refl
    clear_value s1
    refine Kept.upd rfl ?_
    assumption

theorem State.queueOut_kept {r₀ : State} {s : State} {t l} (h₀ : Kept r₀ s) : Kept r₀ (State.queueOut s t l) := by
  unfold State.queueOut
  extract_lets x1 s2 s3
  clear_value x1
  have h4 : Kept r₀ s2 := by
    unfold s2
    refine Kept.foldl (fun s5 x6 h7 => ?_) ?_
    · refine State.modTenant_kept ?_
      assumption
    · assumption
  clear_value s2
  have h8 : Kept r₀ s3 := by
    unfold s3
    refine State.syncOut_kept ?_
    assumption
  clear_value s3
  refine Kept.ite ?_ ?_
  · refine State.event_kept ?_
    assumption
  · assumption

theorem State.gateRecord_kept {r₀ : State} {s : State} {t r i} (h₀ : Kept r₀ s) : Kept r₀ (State.gateRecord s t r i) := by
  unfold State.gateRecord
  split
  extract_lets x1 x2 s3
  clear_value x1 x2
  have h4 : Kept r₀ s3 := by
    unfold s3
    split
    · refine State.modTenant_kept ?_
      refine Kept.fst ‹_› ?_
      refine State.read_kept ?_
      assumption
    · refine Kept.fst ‹_› ?_
      refine State.read_kept ?_
      assumption
  clear_value s3
  split
  refine State.queueOut_kept ?_
  assumption

theorem State.gateRecords_kept {r₀ : State} {a6 : State} {a1 a2 a3 a4 a5} (h₀ : Kept r₀ a6) : Kept r₀ (State.gateRecords a1 a2 a3 a4 a5 a6).1 := by
  induction a1 generalizing a2 a3 a4 a5 a6
  · unfold State.gateRecords
    refine Kept.pair ?_
    assumption
  · rename_i ih
    unfold State.gateRecords
    refine Kept.iteFst ?_ ?_
    · refine Kept.pair ?_
      assumption
    · refine ih ?_
      refine State.gateRecord_kept ?_
      assumption

theorem execGateCompletionClaim_completes {s : State} {t r} : Completes s (execGateCompletionClaim t r s) := by
  unfold execGateCompletionClaim
  refine Completes.next ?_
  extract_lets x1 s2 x3
  clear_value x1
  have h4 : Kept s s2 := by
    unfold s2
    refine State.claim_kept ?_
    exact Kept.refl
  clear_value s2
  clear_value x3
  refine Kept.ite ?_ ?_
  · exact Kept.refl
  · split
    refine State.hicXComplete_kept ?_
    refine State.cqDoorbell_kept ?_
    refine Kept.fst ‹_› ?_
    refine State.gateRecords_kept ?_
    assumption

theorem State.resendAll_kept {r₀ : State} {s : State} {t} (h₀ : Kept r₀ s) : Kept r₀ (State.resendAll s t) := by
  unfold State.resendAll
  refine Kept.foldl (fun s1 x2 h3 => ?_) ?_
  · refine State.sendOut_kept ?_
    assumption
  · assumption

theorem execRtoResend_completes {s : State} {t} : Completes s (execRtoResend t s) := by
  unfold execRtoResend
  refine Completes.next ?_
  extract_lets x1
  clear_value x1
  split
  · exact Kept.refl
  · refine Kept.ite ?_ ?_
    · exact Kept.refl
    · extract_lets s2
      have h3 : Kept s s2 := by
        unfold s2
        refine State.reach_kept ?_
        exact Kept.refl
      clear_value s2
      refine State.modTenant_kept ?_
      refine State.resendAll_kept ?_
      assumption

theorem execGateOutboundSend_completes {s : State} {t} : Completes s (execGateOutboundSend t s) := by
  unfold execGateOutboundSend
  refine Completes.next ?_
  extract_lets x1
  clear_value x1
  split
  · exact Kept.refl
  · refine Kept.ite ?_ ?_
    · exact Kept.refl
    · refine State.sendOut_kept ?_
      exact Kept.refl

theorem execArpRequest_completes {s : State} {senderMac senderIp targetIp} : Completes s (execArpRequest senderMac senderIp targetIp s) := by
  unfold execArpRequest
  refine Completes.next ?_
  refine Kept.ite ?_ ?_
  · exact Kept.refl
  · refine State.send_kept ?_
    exact Kept.refl

theorem execJobSubmit_completes {s : State} {t} : Completes s (execJobSubmit t s) := by
  unfold execJobSubmit
  refine Completes.next ?_
  refine Kept.ite ?_ ?_
  · exact Kept.refl
  · refine State.gateTake_kept (fun d3 s1 h2 => ?_) ?_
    · extract_lets x4 x5 x6
      clear_value x4 x5 x6
      refine State.gateSubmit_kept ?_
      refine State.modTenant_kept ?_
      assumption
    · exact Kept.refl

theorem execGateCreditTimer_completes {s : State} {t} : Completes s (execGateCreditTimer t s) := by
  unfold execGateCreditTimer
  refine Completes.next ?_
  refine Kept.ite ?_ ?_
  · refine State.sendCredit_kept ?_
    refine State.every_kept ?_
    exact Kept.refl
  · exact Kept.refl

theorem execDepotLinkChange_completes {s : State} {up} : Completes s (execDepotLinkChange up s) := by
  unfold execDepotLinkChange
  refine Completes.next ?_
  refine Kept.ite ?_ ?_
  · exact Kept.refl
  · refine State.event_kept ?_
    refine Kept.upd rfl ?_
    exact Kept.refl

theorem execModelDrop_completes {s : State} {t} : Completes s (execModelDrop t s) := by
  unfold execModelDrop
  refine Completes.next ?_
  refine Kept.ite ?_ ?_
  · exact Kept.refl
  · refine State.gateTake_kept (fun d3 s1 h2 => ?_) ?_
    · refine State.gateSubmit_kept ?_
      assumption
    · exact Kept.refl

theorem execModelPut_completes {s : State} {t} : Completes s (execModelPut t s) := by
  unfold execModelPut
  refine Completes.next ?_
  refine State.gateTake_kept (fun d3 s1 h2 => ?_) ?_
  · split
    refine Kept.ite ?_ ?_
    · refine State.modTenant_kept ?_
      refine Kept.fst ‹_› ?_
      refine State.write_kept ?_
      assumption
    · refine Kept.fst ‹_› ?_
      refine State.write_kept ?_
      assumption
  · exact Kept.refl

theorem execStatusQuery_completes {s : State} {t} : Completes s (execStatusQuery t s) := by
  unfold execStatusQuery
  refine Completes.next ?_
  refine State.gateTake_kept (fun d3 s1 h2 => ?_) ?_
  · refine Kept.ite ?_ ?_
    · refine State.queueOut_kept ?_
      assumption
    · refine State.queueOut_kept ?_
      assumption
  · exact Kept.refl

theorem execCredit_completes {s : State} {t} : Completes s (execCredit t s) := by
  unfold execCredit
  refine Completes.next ?_
  refine State.gateTake_kept (fun d3 s1 h2 => ?_) ?_
  · extract_lets x4 x5 s6 s7
    clear_value x4 x5
    have h8 : Kept s s6 := by
      unfold s6
      refine State.modTenant_kept ?_
      assumption
    clear_value s6
    have h9 : Kept s s7 := by
      unfold s7
      refine State.syncOut_kept ?_
      assumption
    clear_value s7
    refine Kept.ite ?_ ?_
    · assumption
    · refine Kept.ite ?_ ?_
      · refine State.resendAll_kept ?_
        refine State.modTenant_kept ?_
        refine State.setFld_kept ?_
        assumption
      · assumption
  · exact Kept.refl

end Sys2Proof.Machine
end

