-- ==== Sys2Proof/Laws/Kept/Tongs.lean ====
section
/-! SUPPORT. What the operations of Machine/Tongs.lean keep. -/

namespace Sys2Proof.Machine

theorem State.setChan_kept {r₀ : State} {s : State} {n x} (h₀ : Kept r₀ s) : Kept r₀ (State.setChan s n x) := by
  unfold State.setChan
  refine Kept.upd rfl ?_
  assumption

theorem State.chanIdle_kept {r₀ : State} {s : State} {n} (h₀ : Kept r₀ s) : Kept r₀ (State.chanIdle s n) := by
  unfold State.chanIdle
  refine State.setFld_kept ?_
  assumption

theorem State.chanAbortNow_kept {r₀ : State} {s : State} {n} (h₀ : Kept r₀ s) : Kept r₀ (State.chanAbortNow s n) := by
  unfold State.chanAbortNow
  extract_lets x1
  clear_value x1
  refine Kept.ite ?_ ?_
  · refine State.chanIdle_kept ?_
    refine State.setFld_kept ?_
    refine State.setFld_kept ?_
    assumption
  · refine State.setFld_kept ?_
    refine State.setChan_kept ?_
    assumption

theorem State.chanSwitched_kept {r₀ : State} {s : State} {n} (h₀ : Kept r₀ s) : Kept r₀ (State.chanSwitched s n) := by
  unfold State.chanSwitched
  refine Kept.ite ?_ ?_
  · refine State.chanIdle_kept ?_
    assumption
  · assumption

theorem State.putPiece_kept {r₀ : State} {s : State} {rq segs q p} (h₀ : Kept r₀ s) : Kept r₀ (State.putPiece s rq segs q p).1 := by
  unfold State.putPiece
  extract_lets x1
  clear_value x1
  refine Kept.iteFst ?_ ?_
  · refine Kept.pair ?_
    assumption
  · split
    · refine Kept.pair ?_
      refine Kept.fst ‹_› ?_
      refine State.writeUnit_kept ?_
      assumption
    · refine Kept.pair ?_
      refine Kept.fst ‹_› ?_
      refine State.writeUnit_kept ?_
      assumption

theorem State.readPlaces_kept {r₀ : State} {s : State} {rq places} (h₀ : Kept r₀ s) : Kept r₀ (State.readPlaces s rq places).1 := by
  unfold State.readPlaces
  refine Kept.foldlFst (fun p1 x2 h3 => ?_) ?_
  · split
    refine Kept.pair ?_
    refine Kept.fst ‹_› ?_
    refine State.read_kept ?_
    assumption
  · refine Kept.pair ?_
    assumption

theorem State.stagePiece_kept {r₀ : State} {s : State} {rq t idx q} (h₀ : Kept r₀ s) : Kept r₀ (State.stagePiece s rq t idx q).1 := by
  unfold State.stagePiece
  refine Kept.foldlFst (fun p1 x2 h3 => ?_) ?_
  · refine Kept.iteFst ?_ ?_
    · assumption
    · split
      refine Kept.iteFst ?_ ?_
      · refine Kept.pair ?_
        refine Kept.fst ‹_› ?_
        refine State.readPlaces_kept ?_
        assumption
      · split
        refine Kept.pair ?_
        refine Kept.fst ‹_› ?_
        refine State.write_kept ?_
        refine Kept.fst ‹_› ?_
        refine State.readPlaces_kept ?_
        assumption
  · refine Kept.pair ?_
    assumption

theorem State.plainData_kept {r₀ : State} {s : State} {t idx q} (h₀ : Kept r₀ s) : Kept r₀ (State.plainData s t idx q).1 := by
  unfold State.plainData
  split
  · refine Kept.pair ?_
    assumption
  · split
    refine Kept.iteFst ?_ ?_
    · refine Kept.pair ?_
      assumption
    · refine Kept.iteFst ?_ ?_
      · split
        refine Kept.pair ?_
        refine Kept.fst ‹_› ?_
        refine State.freeBytes_kept ?_
        assumption
      · refine Kept.pair ?_
        assumption
  · refine Kept.pair ?_
    assumption

theorem State.pieceData_kept {r₀ : State} {s : State} {rq t idx q bounced} (h₀ : Kept r₀ s) : Kept r₀ (State.pieceData s rq t idx q bounced).1 := by
  unfold State.pieceData
  split
  · refine State.plainData_kept ?_
    assumption
  · refine State.readPlaces_kept ?_
    assumption

theorem State.moveStep_kept {r₀ : State} {s : State} {rq t idx segs x} (h₀ : Kept r₀ s) : Kept r₀ (State.moveStep s rq t idx segs x).1 := by
  unfold State.moveStep
  extract_lets x1 x2
  clear_value x1 x2
  refine Kept.iteFst ?_ ?_
  · refine Kept.pair ?_
    assumption
  · refine Kept.iteFst ?_ ?_
    · split
      refine Kept.pair ?_
      refine Kept.fst ‹_› ?_
      refine State.stagePiece_kept ?_
      assumption
    · split
      refine State.putPiece_kept ?_
      refine Kept.fst ‹_› ?_
      refine State.pieceData_kept ?_
      assumption

theorem State.freeBounce_kept {r₀ : State} {s : State} {rq t} (h₀ : Kept r₀ s) : Kept r₀ (State.freeBounce s rq t) := by
  unfold State.freeBounce
  refine Kept.ite ?_ ?_
  · assumption
  · split
    refine Kept.foldl (fun s1 x2 h3 => ?_) ?_
    · refine Kept.ite ?_ ?_
      · refine State.setBytes_kept ?_
        assumption
      · assumption
    · refine Kept.fst ‹_› ?_
      refine State.freeBytes_kept ?_
      assumption

theorem State.moveOn_kept {r₀ : State} {s : State} {n units} (h₀ : Kept r₀ s) : Kept r₀ (State.moveOn s n units) := by
  unfold State.moveOn
  extract_lets x1 x2 x3 x4 x5
  clear_value x1 x2 x3 x4 x5
  split
  extract_lets s6 x7 s8
  have h9 : Kept r₀ s6 := by
    unfold s6
    refine Kept.ite ?_ ?_
    · refine State.freeBounce_kept ?_
      refine Kept.fst ‹_› ?_
      refine Kept.foldlFst (fun p10 x11 h12 => ?_) ?_
      · refine State.moveStep_kept ?_
        assumption
      · refine Kept.pair ?_
        assumption
    · refine Kept.fst ‹_› ?_
      refine Kept.foldlFst (fun p13 x14 h15 => ?_) ?_
      · refine State.moveStep_kept ?_
        assumption
      · refine Kept.pair ?_
        assumption
  clear_value s6
  clear_value x7
  have h16 : Kept r₀ s8 := by
    unfold s8
    refine Kept.ite ?_ ?_
    · refine State.consumed_kept ?_
      assumption
    · assumption
  clear_value s8
  refine State.setChan_kept ?_
  assumption

theorem State.chanTake_kept {r₀ : State} {s : State} {n} (h₀ : Kept r₀ s) : Kept r₀ (State.chanTake s n).1 := by
  unfold State.chanTake
  extract_lets x1 x2 s3
  clear_value x1 x2
  have h4 : Kept r₀ s3 := by
    unfold s3
    refine State.setFld_kept ?_
    assumption
  clear_value s3
  refine Kept.iteFst ?_ ?_
  · refine Kept.pair ?_
    assumption
  · refine Kept.iteFst ?_ ?_
    · refine Kept.pair ?_
      assumption
    · refine Kept.iteFst ?_ ?_
      · refine Kept.pair ?_
        assumption
      · split
        refine Kept.pair ?_
        refine Kept.fst ‹_› ?_
        refine State.read_kept ?_
        assumption

theorem State.gatherIndices_kept {r₀ : State} {s : State} {rq t} (h₀ : Kept r₀ s) : Kept r₀ (State.gatherIndices s rq t).1 := by
  unfold State.gatherIndices
  refine Kept.foldlFst (fun p1 x2 h3 => ?_) ?_
  · split
    refine Kept.pair ?_
    refine Kept.fst ‹_› ?_
    refine State.read_kept ?_
    assumption
  · refine Kept.pair ?_
    assumption

theorem State.chanRunning_kept {r₀ : State} {s : State} {n on} (h₀ : Kept r₀ s) : Kept r₀ (State.chanRunning s n on) := by
  unfold State.chanRunning
  extract_lets s1
  have h2 : Kept r₀ s1 := by
    unfold s1
    refine Kept.ite ?_ ?_
    · refine State.setFld_kept ?_
      assumption
    · refine State.chanIdle_kept ?_
      assumption
  clear_value s1
  refine Kept.ite ?_ ?_
  · refine State.setFlag_kept ?_
    assumption
  · assumption

theorem State.tongsStart_kept {r₀ : State} {s : State} {n d bad} (h₀ : Kept r₀ s) : Kept r₀ (State.tongsStart s n d bad) := by
  unfold State.tongsStart
  extract_lets x1
  clear_value x1
  split
  extract_lets x2 x3 s4
  clear_value x2 x3
  have h5 : Kept r₀ s4 := by
    unfold s4
    refine State.chanRunning_kept ?_
    refine Kept.fst ‹_› ?_
    refine Kept.iteFst ?_ ?_
    · refine State.gatherIndices_kept ?_
      assumption
    · refine Kept.pair ?_
      assumption
  clear_value s4
  split
  · refine State.setChan_kept ?_
    assumption
  · refine State.setChan_kept ?_
    assumption

theorem State.tongsRun_kept {r₀ : State} {s : State} {n op units} (h₀ : Kept r₀ s) : Kept r₀ (State.tongsRun s n op units) := by
  unfold State.tongsRun
  split
  · assumption
  · extract_lets x1 s2
    clear_value x1
    have h3 : Kept r₀ s2 := by
      unfold s2
      refine Kept.ite ?_ ?_
      · refine Kept.fst ‹_› ?_
        refine State.chanTake_kept ?_
        assumption
      · refine State.tongsStart_kept ?_
        refine Kept.fst ‹_› ?_
        refine State.chanTake_kept ?_
        assumption
    clear_value s2
    refine Kept.ite ?_ ?_
    · assumption
    · refine Kept.ite ?_ ?_
      · assumption
      · refine State.moveOn_kept ?_
        assumption

theorem execTongsFill_completes {s : State} {run} : Completes s (execTongsFill run s) := by
  unfold execTongsFill
  refine Completes.next ?_
  refine State.tongsRun_kept ?_
  exact Kept.refl

theorem execTongsScrub_completes {s : State} {run} : Completes s (execTongsScrub run s) := by
  unfold execTongsScrub
  refine Completes.next ?_
  refine State.tongsRun_kept ?_
  exact Kept.refl

theorem execCopy_completes {s : State} {c r ch} : Completes s (execCopy c r ch s) := by
  unfold execCopy
  refine Completes.next ?_
  refine Kept.ite ?_ ?_
  · exact Kept.refl
  · refine State.takeDesc_kept (fun d3 s1 h2 => ?_) ?_
    · extract_lets x4 s5 x6
      clear_value x4
      have h7 : Kept s s5 := by
        unfold s5
        refine State.setFld_kept ?_
        assumption
      clear_value s5
      clear_value x6
      split
      extract_lets x8 s9 x10 x11
      clear_value x8
      have h12 : Kept s s9 := by
        unfold s9
        refine State.accept_kept ?_
        refine Kept.fst ‹_› ?_
        refine State.read_kept ?_
        assumption
      clear_value s9
      clear_value x10 x11
      refine State.chanRunning_kept ?_
      refine State.setChan_kept ?_
      assumption
    · exact Kept.refl

theorem State.chanFinish_kept {r₀ : State} {s : State} {n status rec good fault src} (h₀ : Kept r₀ s) : Kept r₀ (State.chanFinish s n status rec good fault src) := by
  unfold State.chanFinish
  extract_lets x1 x2 x3 x4 x5 x6
  clear_value x1 x2 x3 x4 x5 x6
  split
  extract_lets s7 s8 s9 s10 s11 s12 s13
  have h14 : Kept r₀ s7 := by
    unfold s7
    refine Kept.ite ?_ ?_
    · refine Kept.fst ‹_› ?_
      refine State.write_kept ?_
      assumption
    · refine State.wrapAdd_kept ?_
      refine Kept.fst ‹_› ?_
      refine State.write_kept ?_
      assumption
  clear_value s7
  have h15 : Kept r₀ s8 := by
    unfold s8
    refine State.setFld_kept ?_
    refine State.setFld_kept ?_
    assumption
  clear_value s8
  have h16 : Kept r₀ s9 := by
    unfold s9
    refine State.chanRunning_kept ?_
    refine State.setChan_kept ?_
    assumption
  clear_value s9
  have h17 : Kept r₀ s10 := by
    unfold s10
    refine Kept.ite ?_ ?_
    · refine State.chanIdle_kept ?_
      refine State.setFld_kept ?_
      refine State.setFld_kept ?_
      assumption
    · assumption
  clear_value s10
  have h18 : Kept r₀ s11 := by
    unfold s11
    refine Kept.ite ?_ ?_
    · refine State.applyInc_kept ?_
      assumption
    · assumption
  clear_value s11
  have h19 : Kept r₀ s12 := by
    unfold s12
    split
    · refine State.report_kept ?_
      assumption
    · assumption
  clear_value s12
  have h20 : Kept r₀ s13 := by
    unfold s13
    refine Kept.ite ?_ ?_
    · refine State.hicEvent_kept ?_
      assumption
    · assumption
  clear_value s13
  split
  · split
    · refine State.schedule_kept ?_
      refine State.completeJob_kept ?_
      assumption
    · assumption
  · assumption

theorem execTongsDescriptorComplete_completes {s : State} {ch} : Completes s (execTongsDescriptorComplete ch s) := by
  unfold execTongsDescriptorComplete
  refine Completes.next ?_
  extract_lets x1 x2
  clear_value x1 x2
  refine Kept.ite ?_ ?_
  · exact Kept.refl
  · refine State.chanFinish_kept ?_
    exact Kept.refl

theorem execTongsGather_completes {s : State} {run} : Completes s (execTongsGather run s) := by
  unfold execTongsGather
  refine Completes.next ?_
  refine State.tongsRun_kept ?_
  exact Kept.refl

theorem execTongsTranspose_completes {s : State} {run} : Completes s (execTongsTranspose run s) := by
  unfold execTongsTranspose
  refine Completes.next ?_
  refine State.tongsRun_kept ?_
  exact Kept.refl

theorem execTongsCopy_completes {s : State} {run} : Completes s (execTongsCopy run s) := by
  unfold execTongsCopy
  refine Completes.next ?_
  refine State.tongsRun_kept ?_
  exact Kept.refl

theorem execChannelHang_completes {s : State} {ch} : Completes s (execChannelHang ch s) := by
  unfold execChannelHang
  refine Completes.next ?_
  extract_lets x1 s2 x3
  clear_value x1
  have h4 : Kept s s2 := by
    unfold s2
    refine State.chanAbortNow_kept ?_
    refine State.reach_kept ?_
    exact Kept.refl
  clear_value s2
  clear_value x3
  refine Kept.ite ?_ ?_
  · exact Kept.refl
  · refine State.report_kept ?_
    assumption

end Sys2Proof.Machine
end

