-- ==== Sys2Proof/Laws/Kept/Patrol.lean ====
section
/-! SUPPORT. What the operations of Machine/Patrol.lean keep. -/

namespace Sys2Proof.Machine

theorem execDramChannelFailed_completes {s : State} {ch} : Completes s (execDramChannelFailed ch s) := by
  unfold execDramChannelFailed
  refine Completes.next ?_
  refine Kept.ite ?_ ?_
  · exact Kept.refl
  · refine State.fault_kept ?_
    refine State.setFld_kept ?_
    exact Kept.refl

theorem State.patrolUnit_kept {r₀ s : State} {u} (h₀ : Kept r₀ s) : Kept r₀ (s.patrolUnit u) := by
  unfold State.patrolUnit
  split
  · exact Kept.put rfl (fun c => ⟨c.mem, c.mram, c.regs, c.poison, SMap.wf_erase _ c.damage⟩) (State.corrected_kept h₀)
  · exact Kept.put rfl (fun c => ⟨c.mem, c.mram, c.regs, setWf_insert _ c.poison, SMap.wf_erase _ c.damage⟩) (State.uncorrectable_kept h₀)
  · exact h₀

theorem State.patrol_kept {r₀ : State} {s : State} {mine} (h₀ : Kept r₀ s) : Kept r₀ (State.patrol s mine) := by
  unfold State.patrol
  refine Kept.foldl (fun s1 x2 h3 => ?_) ?_
  · refine State.patrolUnit_kept ?_
    assumption
  · assumption

theorem execDramPatrol_completes {s : State} {ch} : Completes s (execDramPatrol ch s) := by
  unfold execDramPatrol
  refine Completes.next ?_
  refine Kept.ite ?_ ?_
  · refine State.patrol_kept ?_
    refine State.every_kept ?_
    exact Kept.refl
  · exact Kept.refl

theorem execCruciblePatrol_completes {s : State} : Completes s (execCruciblePatrol s) := by
  unfold execCruciblePatrol
  refine Completes.next ?_
  refine Kept.ite ?_ ?_
  · refine State.patrol_kept ?_
    refine State.every_kept ?_
    exact Kept.refl
  · exact Kept.refl

end Sys2Proof.Machine
end

