-- ==== Sys2Proof/Laws/Kept/Intake.lean ====
section
/-! SUPPORT. What the operations of Machine/Intake.lean keep. -/

namespace Sys2Proof.Machine

theorem State.setStream_kept {r₀ : State} {s : State} {k x} (h₀ : Kept r₀ s) : Kept r₀ (State.setStream s k x) := by
  unfold State.setStream
  refine Kept.upd rfl ?_
  assumption

theorem State.streamRead_kept {r₀ : State} {s : State} {k a n} (h₀ : Kept r₀ s) : Kept r₀ (State.streamRead s k a n).1 := by
  unfold State.streamRead
  refine State.read_kept ?_
  assumption

theorem State.modStream_kept {r₀ : State} {s : State} {k f} (h₀ : Kept r₀ s) : Kept r₀ (State.modStream s k f) := by
  unfold State.modStream
  refine State.setStream_kept ?_
  assumption

theorem State.readTemplate_kept {r₀ : State} {s : State} {j} (h₀ : Kept r₀ s) : Kept r₀ (State.readTemplate s j).1 := by
  unfold State.readTemplate
  split
  extract_lets s1 x2
  have h3 : Kept r₀ s1 := by
    unfold s1
    refine Kept.ite ?_ ?_
    · refine State.consumed_kept ?_
      refine Kept.fst ‹_› ?_
      refine State.streamRead_kept ?_
      assumption
    · refine Kept.fst ‹_› ?_
      refine State.streamRead_kept ?_
      assumption
  clear_value s1
  clear_value x2
  refine Kept.pair ?_
  refine State.modStream_kept ?_
  refine State.setFlag_kept ?_
  assumption

theorem State.streamEnabled_kept {r₀ : State} {s : State} {k} (h₀ : Kept r₀ s) : Kept r₀ (State.streamEnabled s k) := by
  unfold State.streamEnabled
  extract_lets s1 s2 s3
  have h4 : Kept r₀ s1 := by
    unfold s1
    refine State.setStream_kept ?_
    assumption
  clear_value s1
  have h5 : Kept r₀ s2 := by
    unfold s2
    refine State.setFld_kept ?_
    refine State.setFld_kept ?_
    assumption
  clear_value s2
  have h6 : Kept r₀ s3 := by
    unfold s3
    refine Kept.ite ?_ ?_
    · refine Kept.ite ?_ ?_
      · assumption
      · refine State.setFld_kept ?_
        assumption
    · assumption
  clear_value s3
  refine Kept.ite ?_ ?_
  · refine State.readTemplate_kept ?_
    assumption
  · assumption

theorem State.bellowsSwitched_kept {r₀ : State} {s : State} (h₀ : Kept r₀ s) : Kept r₀ (State.bellowsSwitched s) := by
  unfold State.bellowsSwitched
  refine Kept.foldl (fun s1 x2 h3 => ?_) ?_
  · refine Kept.ite ?_ ?_
    · assumption
    · refine Kept.ite ?_ ?_
      · refine State.streamEnabled_kept ?_
        assumption
      · refine State.setStream_kept ?_
        assumption
  · assumption

theorem State.fenceStream_kept {r₀ : State} {s : State} {k cause} (h₀ : Kept r₀ s) : Kept r₀ (State.fenceStream s k cause) := by
  unfold State.fenceStream
  extract_lets s1 s2
  have h3 : Kept r₀ s1 := by
    unfold s1
    refine State.evrCounter_kept ?_
    refine State.fclEvent_kept ?_
    refine State.logWrite_kept ?_
    refine State.setFld_kept ?_
    assumption
  clear_value s1
  have h4 : Kept r₀ s2 := by
    unfold s2
    refine Kept.ite ?_ ?_
    · refine State.setFld_kept ?_
      refine State.setFld_kept ?_
      assumption
    · assumption
  clear_value s2
  refine State.modStream_kept ?_
  assumption

theorem State.closeSweep_kept {r₀ : State} {s : State} {j} (h₀ : Kept r₀ s) : Kept r₀ (State.closeSweep s j) := by
  unfold State.closeSweep
  split
  · assumption
  · split
    refine State.modStream_kept ?_
    refine Kept.fst ‹_› ?_
    refine State.write_kept ?_
    assumption

theorem State.frameOver_kept {r₀ : State} {s : State} {c} (h₀ : Kept r₀ s) : Kept r₀ (State.frameOver s c) := by
  unfold State.frameOver
  refine State.setFld_kept ?_
  refine State.modStream_kept ?_
  assumption

theorem State.streamEvent_kept {r₀ : State} {s : State} {k i} (h₀ : Kept r₀ s) : Kept r₀ (State.streamEvent s k i) := by
  unfold State.streamEvent
  refine State.event_kept ?_
  assumption

theorem State.dropFaulty_kept {r₀ : State} {s : State} {c} (h₀ : Kept r₀ s) : Kept r₀ (State.dropFaulty s c) := by
  unfold State.dropFaulty
  extract_lets s1 s2
  have h3 : Kept r₀ s1 := by
    unfold s1
    refine State.modStream_kept ?_
    refine State.frameOver_kept ?_
    assumption
  clear_value s1
  have h4 : Kept r₀ s2 := by
    unfold s2
    refine State.setFld_kept ?_
    assumption
  clear_value s2
  refine State.streamEvent_kept ?_
  refine State.count_kept ?_
  assumption

theorem State.spoilFrame_kept {r₀ : State} {s : State} {c} (h₀ : Kept r₀ s) : Kept r₀ (State.spoilFrame s c) := by
  unfold State.spoilFrame
  refine State.modStream_kept ?_
  assumption

theorem State.camHeader_kept {r₀ : State} {s : State} {c pkt} (h₀ : Kept r₀ s) : Kept r₀ (State.camHeader s c pkt).1 := by
  unfold State.camHeader
  split
  · refine Kept.pair ?_
    assumption
  · refine Kept.pair ?_
    refine State.count_kept ?_
    assumption
  · refine Kept.pair ?_
    refine State.spoilFrame_kept ?_
    refine State.count_kept ?_
    assumption

theorem State.openFrame_kept {r₀ : State} {s : State} {c no} (h₀ : Kept r₀ s) : Kept r₀ (State.openFrame s c no) := by
  unfold State.openFrame
  extract_lets x1
  clear_value x1
  split
  extract_lets x2 x3
  clear_value x2 x3
  split
  split
  split
  extract_lets s4 x5 s6 s7
  have h8 : Kept r₀ s4 := by
    unfold s4
    refine Kept.ite ?_ ?_
    · refine State.report_kept ?_
      refine Kept.fst ‹_› ?_
      refine State.streamRead_kept ?_
      refine Kept.fst ‹_› ?_
      refine Kept.iteFst ?_ ?_
      · refine State.streamRead_kept ?_
        refine Kept.fst ‹_› ?_
        refine State.streamRead_kept ?_
        refine Kept.fst ‹_› ?_
        refine State.free_kept ?_
        assumption
      · refine Kept.pair ?_
        refine Kept.fst ‹_› ?_
        refine State.streamRead_kept ?_
        refine Kept.fst ‹_› ?_
        refine State.free_kept ?_
        assumption
    · refine Kept.fst ‹_› ?_
      refine State.streamRead_kept ?_
      refine Kept.fst ‹_› ?_
      refine Kept.iteFst ?_ ?_
      · refine State.streamRead_kept ?_
        refine Kept.fst ‹_› ?_
        refine State.streamRead_kept ?_
        refine Kept.fst ‹_› ?_
        refine State.free_kept ?_
        assumption
      · refine Kept.pair ?_
        refine Kept.fst ‹_› ?_
        refine State.streamRead_kept ?_
        refine Kept.fst ‹_› ?_
        refine State.free_kept ?_
        assumption
  clear_value s4
  clear_value x5
  have h9 : Kept r₀ s6 := by
    unfold s6
    refine State.setFld_kept ?_
    refine State.setFlag_kept ?_
    assumption
  clear_value s6
  have h10 : Kept r₀ s7 := by
    unfold s7
    refine State.setFld_kept ?_
    refine State.setFld_kept ?_
    assumption
  clear_value s7
  refine State.modStream_kept ?_
  assumption

theorem State.badDatagram_kept {r₀ : State} {s : State} {j} (h₀ : Kept r₀ s) : Kept r₀ (State.badDatagram s j) := by
  unfold State.badDatagram
  refine State.count_kept ?_
  assumption

theorem State.openSweep_kept {r₀ : State} {s : State} {j stamp} (h₀ : Kept r₀ s) : Kept r₀ (State.openSweep s j stamp) := by
  unfold State.openSweep
  extract_lets x1
  clear_value x1
  split
  refine State.modStream_kept ?_
  refine Kept.fst ‹_› ?_
  refine State.streamRead_kept ?_
  assumption

theorem State.ptRaw_kept {r₀ : State} {s : State} {t p f i sinceFirst} (h₀ : Kept r₀ s) : Kept r₀ (State.ptRaw s t p f i sinceFirst).1 := by
  unfold State.ptRaw
  extract_lets x1
  clear_value x1
  split
  · refine Kept.pair ?_
    assumption
  · refine Kept.pair ?_
    assumption
  · refine Kept.pair ?_
    assumption
  · refine Kept.pair ?_
    assumption
  · refine Kept.pair ?_
    assumption
  · refine Kept.pair ?_
    assumption
  · refine Kept.pair ?_
    assumption
  · split
    refine Kept.pair ?_
    refine Kept.fst ‹_› ?_
    refine State.openQuotient_kept ?_
    assumption

theorem State.ptColumns_kept {r₀ : State} {s : State} {t p i sinceFirst} (h₀ : Kept r₀ s) : Kept r₀ (State.ptColumns s t p i sinceFirst).1 := by
  unfold State.ptColumns
  refine Kept.foldlFst (fun p1 x2 h3 => ?_) ?_
  · split
    refine Kept.pair ?_
    refine Kept.fst ‹_› ?_
    refine State.ptRaw_kept ?_
    assumption
  · refine Kept.pair ?_
    assumption

theorem State.addPoints_kept {r₀ : State} {s : State} {j t d w} (h₀ : Kept r₀ s) : Kept r₀ (State.addPoints s j t d w).1 := by
  unfold State.addPoints
  extract_lets x1 x2 x3 s4 x5 s6
  clear_value x1 x2 x3
  have h7 : Kept r₀ s4 := by
    unfold s4
    refine Kept.foldl (fun s8 x9 h10 => ?_) ?_
    · split
      refine State.write_kept ?_
      refine Kept.fst ‹_› ?_
      refine State.ptColumns_kept ?_
      assumption
    · assumption
  clear_value s4
  clear_value x5
  have h11 : Kept r₀ s6 := by
    unfold s6
    refine Kept.ite ?_ ?_
    · assumption
    · refine State.streamEvent_kept ?_
      refine State.count_kept ?_
      assumption
  clear_value s6
  refine Kept.pair ?_
  assumption

theorem State.sweepDatagram_kept {r₀ : State} {s : State} {j d} (h₀ : Kept r₀ s) : Kept r₀ (State.sweepDatagram s j d) := by
  unfold State.sweepDatagram
  extract_lets x1 x2
  clear_value x1 x2
  split
  · assumption
  · split
    extract_lets s3
    have h4 : Kept r₀ s3 := by
      unfold s3
      refine State.modStream_kept ?_
      refine Kept.fst ‹_› ?_
      refine State.addPoints_kept ?_
      assumption
    clear_value s3
    refine Kept.ite ?_ ?_
    · refine State.closeSweep_kept ?_
      assumption
    · assumption

theorem State.closeAtStrike_kept {r₀ : State} {s : State} {j} (h₀ : Kept r₀ s) : Kept r₀ (State.closeAtStrike s j) := by
  unfold State.closeAtStrike
  extract_lets x1
  clear_value x1
  refine State.modStream_kept ?_
  refine State.closeSweep_kept ?_
  assumption

theorem State.reopenSweep_kept {r₀ : State} {s : State} {j w} (h₀ : Kept r₀ s) : Kept r₀ (State.reopenSweep s j w) := by
  unfold State.reopenSweep
  refine State.modStream_kept ?_
  assumption

theorem State.pointDatagram_kept {r₀ : State} {s : State} {j d} (h₀ : Kept r₀ s) : Kept r₀ (State.pointDatagram s j d) := by
  unfold State.pointDatagram
  extract_lets x1 x2 s3 x4
  clear_value x1 x2
  have h5 : Kept r₀ s3 := by
    unfold s3
    split
    · refine Kept.ite ?_ ?_
      · refine State.reopenSweep_kept ?_
        assumption
      · assumption
    · assumption
  clear_value s3
  clear_value x4
  refine Kept.ite ?_ ?_
  · assumption
  · split
    extract_lets x6 s7
    clear_value x6
    have h8 : Kept r₀ s7 := by
      unfold s7
      refine Kept.ite ?_ ?_
      · refine Kept.fst ‹_› ?_
        refine Kept.iteFst ?_ ?_
        · refine State.readTemplate_kept ?_
          assumption
        · refine Kept.pair ?_
          assumption
      · refine Kept.ite ?_ ?_
        · refine State.badDatagram_kept ?_
          refine Kept.fst ‹_› ?_
          refine Kept.iteFst ?_ ?_
          · refine State.readTemplate_kept ?_
            assumption
          · refine Kept.pair ?_
            assumption
        · refine State.sweepDatagram_kept ?_
          refine Kept.ite ?_ ?_
          · refine State.openSweep_kept ?_
            refine Kept.fst ‹_› ?_
            refine Kept.iteFst ?_ ?_
            · refine State.readTemplate_kept ?_
              assumption
            · refine Kept.pair ?_
              assumption
          · refine Kept.fst ‹_› ?_
            refine Kept.iteFst ?_ ?_
            · refine State.readTemplate_kept ?_
              assumption
            · refine Kept.pair ?_
              assumption
    clear_value s7
    refine Kept.ite ?_ ?_
    · refine State.closeAtStrike_kept ?_
      assumption
    · assumption

theorem State.goldFrameFailed_kept {r₀ : State} {s : State} {c} (h₀ : Kept r₀ s) : Kept r₀ (State.goldFrameFailed s c) := by
  unfold State.goldFrameFailed
  extract_lets s1 s2
  have h3 : Kept r₀ s1 := by
    unfold s1
    refine State.event_kept ?_
    refine State.streamEvent_kept ?_
    refine State.setFld_kept ?_
    assumption
  clear_value s1
  have h4 : Kept r₀ s2 := by
    unfold s2
    refine State.fault_kept ?_
    assumption
  clear_value s2
  refine Kept.ite ?_ ?_
  · assumption
  · refine State.fenceStream_kept ?_
    assumption

theorem State.camGeom_kept {r₀ : State} {s : State} {c} (h₀ : Kept r₀ s) : Kept r₀ (State.camGeom s c) := by
  unfold State.camGeom
  refine State.count_kept ?_
  assumption

theorem State.camBuffer_kept {r₀ : State} {s : State} {c pkt} (h₀ : Kept r₀ s) : Kept r₀ (State.camBuffer s c pkt).1 := by
  unfold State.camBuffer
  split
  · refine Kept.pair ?_
    assumption
  · refine Kept.pair ?_
    refine State.spoilFrame_kept ?_
    refine State.camGeom_kept ?_
    assumption
  · extract_lets x1
    clear_value x1
    refine Kept.pair ?_
    refine State.spoilFrame_kept ?_
    refine Kept.ite ?_ ?_
    · assumption
    · refine State.consumed_kept ?_
      assumption

theorem State.camPacket_kept {r₀ s : State} {c pkt dt run} (hf : ∀ s, Kept r₀ s → Kept r₀ (run s)) (h₀ : Kept r₀ s) :
    Kept r₀ (s.camPacket c pkt dt run) := by
  unfold State.camPacket
  refine Kept.ite h₀ ?_
  split
  rename_i s1 ok e
  have h1 : Kept r₀ s1 := Kept.fst e (State.camHeader_kept h₀)
  refine Kept.ite h1 (Kept.ite h1 ?_)
  split
  rename_i s2 ok2 e2
  have h2 : Kept r₀ s2 := Kept.fst e2 (State.camBuffer_kept h1)
  exact Kept.ite (hf _ h2) h2

theorem State.writeRow_kept {r₀ : State} {s : State} {c g f} (h₀ : Kept r₀ s) : Kept r₀ (State.writeRow s c g f).1 := by
  unfold State.writeRow
  extract_lets x1
  clear_value x1
  refine Kept.foldlFst (fun p2 x3 h4 => ?_) ?_
  · split
    refine Kept.pair ?_
    refine Kept.fst ‹_› ?_
    refine State.write_kept ?_
    assumption
  · refine Kept.pair ?_
    assumption

theorem State.writeRows_kept {r₀ : State} {a4 : State} {a1 a2 a3} (h₀ : Kept r₀ a4) : Kept r₀ (State.writeRows a1 a2 a3 a4) := by
  induction a1 generalizing a2 a3 a4
  · unfold State.writeRows
    assumption
  · rename_i ih
    unfold State.writeRows
    split
    · assumption
    · refine Kept.ite ?_ ?_
      · assumption
      · split
        refine ih ?_
        refine State.modStream_kept ?_
        refine Kept.fst ‹_› ?_
        refine State.writeRow_kept ?_
        assumption

theorem execLinePacket_completes {s : State} {cam pkt} : Completes s (execLinePacket cam pkt s) := by
  unfold execLinePacket
  extract_lets x1 x2
  clear_value x1 x2
  refine Completes.next ?_
  refine State.camPacket_kept (fun s3 h4 => ?_) ?_
  · split
    · assumption
    · extract_lets s6 s7
      have h8 : Kept s s6 := by
        unfold s6
        refine State.modStream_kept ?_
        assumption
      clear_value s6
      have h9 : Kept s s7 := by
        unfold s7
        refine Kept.ite ?_ ?_
        · refine State.writeRows_kept ?_
          assumption
        · refine State.spoilFrame_kept ?_
          refine State.camGeom_kept ?_
          assumption
      clear_value s7
      refine Kept.ite ?_ ?_
      · assumption
      · refine State.spoilFrame_kept ?_
        refine State.count_kept ?_
        assumption
  · exact Kept.refl

theorem State.strikeStream_kept {r₀ s : State} {k t} (h₀ : Kept r₀ s) : Kept r₀ (s.strikeStream k t) := by
  unfold State.strikeStream
  extract_lets x flags put s1
  have hp : ∀ s st f, Kept r₀ s → Kept r₀ (put s st f) := fun s st f h => State.modStream_kept h
  have h1 : Kept r₀ s1 := Kept.ite (State.setFld_kept (State.count_kept h₀)) h₀
  clear_value put s1
  refine Kept.ite (hp _ _ _ h₀) ?_
  split
  · exact hp _ _ _ h₀
  · exact Kept.ite (hp _ _ _ (State.event_kept (State.streamEvent_kept h1))) (hp _ _ _ h₀)

theorem State.complete_kept {r₀ : State} {s : State} {k f} (h₀ : Kept r₀ s) : Kept r₀ (State.complete s k f) := by
  unfold State.complete
  extract_lets s1 x2
  have h3 : Kept r₀ s1 := by
    unfold s1
    refine State.modStream_kept ?_
    assumption
  clear_value s1
  clear_value x2
  split
  · refine Kept.ite ?_ ?_
    · refine State.modStream_kept ?_
      refine State.strikeStream_kept ?_
      assumption
    · assumption
  · assumption

theorem execSweepComplete_completes {s : State} {j} : Completes s (execSweepComplete j s) := by
  unfold execSweepComplete
  refine Completes.next ?_
  split
  · exact Kept.refl
  · refine State.streamEvent_kept ?_
    refine State.complete_kept ?_
    exact Kept.refl

theorem State.strikeGold_kept {r₀ : State} {s : State} {c} (h₀ : Kept r₀ s) : Kept r₀ (State.strikeGold s c) := by
  unfold State.strikeGold
  extract_lets x1 x2 s3
  clear_value x1 x2
  have h4 : Kept r₀ s3 := by
    unfold s3
    refine Kept.ite ?_ ?_
    · refine State.goldFrameFailed_kept ?_
      assumption
    · assumption
  clear_value s3
  refine State.modStream_kept ?_
  assumption

theorem State.strikeIntake_kept {r₀ : State} {s : State} {n t} (h₀ : Kept r₀ s) : Kept r₀ (State.strikeIntake s n t) := by
  unfold State.strikeIntake
  refine Kept.ite ?_ ?_
  · assumption
  · extract_lets s1 s2 s3
    have h4 : Kept r₀ s1 := by
      unfold s1
      refine Kept.foldl (fun s5 x6 h7 => ?_) ?_
      · refine State.strikeGold_kept ?_
        assumption
      · assumption
    clear_value s1
    have h8 : Kept r₀ s2 := by
      unfold s2
      refine Kept.foldl (fun s9 x10 h11 => ?_) ?_
      · refine State.strikeStream_kept ?_
        assumption
      · assumption
    clear_value s2
    have h12 : Kept r₀ s3 := by
      unfold s3
      refine Kept.foldl (fun s13 x14 h15 => ?_) ?_
      · refine Kept.ite ?_ ?_
        · assumption
        · refine State.closeAtStrike_kept ?_
          assumption
      · assumption
    clear_value s3
    refine Kept.upd rfl ?_
    assumption

theorem execGoldenFrameRun_completes {s : State} {cam} : Completes s (execGoldenFrameRun cam s) := by
  unfold execGoldenFrameRun
  refine Completes.next ?_
  extract_lets x1 s2 x3
  clear_value x1
  have h4 : Kept s s2 := by
    unfold s2
    refine Kept.ite ?_ ?_
    · exact Kept.refl
    · refine State.reach_kept ?_
      exact Kept.refl
  clear_value s2
  clear_value x3
  refine Kept.ite ?_ ?_
  · exact Kept.refl
  · split
    extract_lets s5 x6 s7 s8
    have h9 : Kept s s5 := by
      unfold s5
      refine Kept.ite ?_ ?_
      · refine State.consumed_kept ?_
        refine Kept.fst ‹_› ?_
        refine State.streamRead_kept ?_
        assumption
      · refine Kept.fst ‹_› ?_
        refine State.streamRead_kept ?_
        assumption
    clear_value s5
    clear_value x6
    have h10 : Kept s s7 := by
      unfold s7
      refine State.modStream_kept ?_
      assumption
    clear_value s7
    have h11 : Kept s s8 := by
      unfold s8
      refine Kept.ite ?_ ?_
      · refine State.setFld_kept ?_
        assumption
      · assumption
    clear_value s8
    refine Kept.ite ?_ ?_
    · assumption
    · refine State.goldFrameFailed_kept ?_
      assumption

theorem execFrameComplete_completes {s : State} {cam} : Completes s (execFrameComplete cam s) := by
  unfold execFrameComplete
  refine Completes.next ?_
  split
  · exact Kept.refl
  · extract_lets s1 s2
    have h3 : Kept s s1 := by
      unfold s1
      refine State.setFld_kept ?_
      refine State.complete_kept ?_
      exact Kept.refl
    clear_value s1
    have h4 : Kept s s2 := by
      unfold s2
      refine Kept.ite ?_ ?_
      · refine State.setFld_kept ?_
        assumption
      · assumption
    clear_value s2
    refine State.streamEvent_kept ?_
    assumption

theorem execPointDatagram_completes {s : State} {j d} : Completes s (execPointDatagram j d s) := by
  unfold execPointDatagram
  refine Completes.next ?_
  refine State.pointDatagram_kept ?_
  exact Kept.refl

theorem execFrameTablePublish_completes {s : State} : Completes s (execFrameTablePublish s) := by
  unfold execFrameTablePublish
  refine Completes.next ?_
  split
  · exact Kept.refl
  · refine Kept.ite ?_ ?_
    · exact Kept.refl
    · extract_lets x1 s2 x3
      clear_value x1
      have h4 : Kept s s2 := by
        unfold s2
        refine Kept.foldl (fun s5 x6 h7 => ?_) ?_
        · refine State.write_kept ?_
          assumption
        · exact Kept.refl
      clear_value s2
      clear_value x3
      split
      extract_lets s8
      have h9 : Kept s s8 := by
        unfold s8
        refine Kept.foldl (fun s10 x11 h12 => ?_) ?_
        · refine State.modStream_kept ?_
          assumption
        · refine Kept.fst ‹_› ?_
          refine State.write_kept ?_
          assumption
      clear_value s8
      refine State.event_kept ?_
      refine Kept.upd rfl ?_
      assumption

theorem execFrameEnd_completes {s : State} {cam pkt} : Completes s (execFrameEnd cam pkt s) := by
  unfold execFrameEnd
  refine Completes.next ?_
  refine State.camPacket_kept (fun s1 h2 => ?_) ?_
  · split
    · assumption
    · extract_lets x4 s5
      clear_value x4
      have h6 : Kept s s5 := by
        unfold s5
        refine Kept.ite ?_ ?_
        · refine State.camGeom_kept ?_
          assumption
        · assumption
      clear_value s5
      refine Kept.ite ?_ ?_
      · refine State.dropFaulty_kept ?_
        assumption
      · refine State.modStream_kept ?_
        refine State.frameOver_kept ?_
        assumption
  · exact Kept.refl

theorem execFrameStart_completes {s : State} {cam pkt} : Completes s (execFrameStart cam pkt s) := by
  unfold execFrameStart
  refine Completes.next ?_
  refine State.camPacket_kept (fun s1 h2 => ?_) ?_
  · extract_lets s4
    have h5 : Kept s s4 := by
      unfold s4
      refine Kept.ite ?_ ?_
      · refine State.dropFaulty_kept ?_
        refine State.camGeom_kept ?_
        assumption
      · assumption
    clear_value s4
    refine State.openFrame_kept ?_
    assumption
  · exact Kept.refl

end Sys2Proof.Machine
end

