-- ==== Sys2Proof/Laws/Kept/Records.lean ====
section
/-! SUPPORT. What the operations of Machine/Records.lean keep. -/

namespace Sys2Proof.Machine

theorem State.chargeOnce_kept {r₀ : State} {s : State} {rq a len write} (h₀ : Kept r₀ s) : Kept r₀ (State.chargeOnce s rq a len write) := by
  unfold State.chargeOnce
  extract_lets x1 x2 x3
  clear_value x1 x2 x3
  split
  · refine Kept.ite ?_ ?_
    · assumption
    · refine State.setChan_kept ?_
      refine State.chargeErr_kept ?_
      assumption
  · assumption

theorem State.readMarked_kept {r₀ : State} {s : State} {rq a n} (h₀ : Kept r₀ s) : Kept r₀ (State.readMarked s rq a n).1 := by
  unfold State.readMarked
  refine Kept.foldlFst (fun p1 x2 h3 => ?_) ?_
  · split
    refine Kept.pair ?_
    refine Kept.fst ‹_› ?_
    refine State.readUnit_kept ?_
    refine State.chargeOnce_kept ?_
    assumption
  · refine Kept.pair ?_
    assumption

theorem State.recWrite_kept {r₀ : State} {s : State} {rq a bs} (h₀ : Kept r₀ s) : Kept r₀ (State.recWrite s rq a bs) := by
  unfold State.recWrite
  refine State.write_kept ?_
  refine State.chargeOnce_kept ?_
  assumption

theorem State.recordRows_kept {r₀ : State} {s : State} {rq sc tab packed i fs} (h₀ : Kept r₀ s) : Kept r₀ (State.recordRows s rq sc tab packed i fs) := by
  unfold State.recordRows
  refine Kept.foldl (fun s1 x2 h3 => ?_) ?_
  · refine Kept.ite ?_ ?_
    · assumption
    · extract_lets x4 x5
      clear_value x4 x5
      refine State.recWrite_kept ?_
      assumption
  · assumption

theorem State.recordRefused_kept {r₀ : State} {s : State} {rq r sc tab packed x code used} (h₀ : Kept r₀ s) : Kept r₀ (State.recordRefused s rq r sc tab packed x code used).1 := by
  unfold State.recordRefused
  extract_lets s1 s2
  have h3 : Kept r₀ s1 := by
    unfold s1
    refine State.recordRows_kept ?_
    assumption
  clear_value s1
  have h4 : Kept r₀ s2 := by
    unfold s2
    refine State.recWrite_kept ?_
    assumption
  clear_value s2
  refine Kept.pair ?_
  assumption

theorem State.recordTaken_kept {r₀ : State} {s : State} {rq r sc tab packed x fs used} (h₀ : Kept r₀ s) : Kept r₀ (State.recordTaken s rq r sc tab packed x fs used).1 := by
  unfold State.recordTaken
  extract_lets x1 x2 s3 s4 x5
  clear_value x1 x2
  have h6 : Kept r₀ s3 := by
    unfold s3
    refine State.recordRows_kept ?_
    assumption
  clear_value s3
  have h7 : Kept r₀ s4 := by
    unfold s4
    refine State.recWrite_kept ?_
    assumption
  clear_value s4
  have h9 : ∀ a8, Kept r₀ (x5 a8).1 := by
    intro a8
    unfold x5
    refine Kept.pair ?_
    assumption
  split
  · refine h9 _ 
  · refine Kept.iteFst ?_ ?_
    · refine State.recordRefused_kept ?_
      assumption
    · split
      · refine Kept.pair ?_
        assumption
      · refine h9 _

theorem State.recordLoop_kept {r₀ : State} {a9 : State} {rq r sc tab data poisoned packed a8 a10} (h₀ : Kept r₀ a9) : Kept r₀ (State.recordLoop rq r sc tab data poisoned packed a8 a9 a10).1 := by
  induction a8 generalizing rq r sc tab data poisoned packed a9 a10
  · unfold State.recordLoop
    refine Kept.pair ?_
    assumption
  · rename_i ih
    unfold State.recordLoop
    refine Kept.iteFst ?_ ?_
    · refine Kept.pair ?_
      assumption
    · extract_lets x1
      clear_value x1
      split
      · refine Kept.pair ?_
        assumption
      · extract_lets x2 x3
        clear_value x2 x3
        split
        split
        refine ih ?_
        refine Kept.fst ‹_› ?_
        refine Kept.iteFst ?_ ?_
        · refine State.recordRefused_kept ?_
          assumption
        · refine State.recordTaken_kept ?_
          assumption

theorem State.packEnd_kept {r₀ : State} {s : State} {rq r t p} (h₀ : Kept r₀ s) : Kept r₀ (State.packEnd s rq r t p) := by
  unfold State.packEnd
  extract_lets s1 x2
  have h3 : Kept r₀ s1 := by
    unfold s1
    refine Kept.foldl (fun s4 x5 h6 => ?_) ?_
    · refine State.recWrite_kept ?_
      assumption
    · assumption
  clear_value s1
  clear_value x2
  refine State.recWrite_kept ?_
  refine State.recWrite_kept ?_
  assumption

theorem State.recordRun_kept {r₀ : State} {s : State} {rq d sc tab} (h₀ : Kept r₀ s) : Kept r₀ (State.recordRun s rq d sc tab).1 := by
  unfold State.recordRun
  extract_lets x1 x2 x3 x4
  clear_value x1 x2 x3 x4
  split
  split
  extract_lets s5
  have h6 : Kept r₀ s5 := by
    unfold s5
    refine Kept.ite ?_ ?_
    · refine State.packEnd_kept ?_
      refine Kept.fst ‹_› ?_
      refine State.recordLoop_kept ?_
      refine Kept.fst ‹_› ?_
      refine State.readMarked_kept ?_
      assumption
    · refine Kept.fst ‹_› ?_
      refine State.recordLoop_kept ?_
      refine Kept.fst ‹_› ?_
      refine State.readMarked_kept ?_
      assumption
  clear_value s5
  refine Kept.pair ?_
  assumption

theorem execRecordDecode_completes {s : State} {r} : Completes s (execRecordDecode r s) := by
  unfold execRecordDecode
  extract_lets x1
  clear_value x1
  refine Completes.next ?_
  split
  · exact Kept.refl
  · extract_lets s2 x3 x4 x5 x6 s7 x8 x9 x10
    have h11 : Kept s s2 := by
      unfold s2
      refine State.chanRunning_kept ?_
      refine Kept.fst ‹_› ?_
      refine State.chanTake_kept ?_
      exact Kept.refl
    clear_value s2
    clear_value x3 x4 x5 x6
    have h12 : Kept s s7 := by
      unfold s7
      refine State.setChan_kept ?_
      assumption
    clear_value s7
    clear_value x8 x9
    have h17 : ∀ (a13 : State) a15 a16, Kept s a13 → Kept s (x10 a13 a15 a16).1 := by
      intro a13 a15 a16 h14
      unfold x10
      refine Kept.iteFst ?_ ?_
      · refine Kept.pair ?_
        assumption
      · refine State.read_kept ?_
        refine State.chargeOnce_kept ?_
        assumption
    split
    split
    split
    · refine State.setChan_kept ?_
      refine Kept.fst ‹_› ?_
      refine h17 _ _ _ ?_
      refine Kept.fst ‹_› ?_
      refine h17 _ _ _ ?_
      assumption
    · split
      extract_lets x18 x19 s20 x21
      clear_value x18 x19
      have h22 : Kept s s20 := by
        unfold s20
        refine Kept.ite ?_ ?_
        · refine State.consumed_kept ?_
          refine Kept.fst ‹_› ?_
          refine State.recordRun_kept ?_
          refine Kept.fst ‹_› ?_
          refine h17 _ _ _ ?_
          refine Kept.fst ‹_› ?_
          refine h17 _ _ _ ?_
          assumption
        · refine Kept.fst ‹_› ?_
          refine State.recordRun_kept ?_
          refine Kept.fst ‹_› ?_
          refine h17 _ _ _ ?_
          refine Kept.fst ‹_› ?_
          refine h17 _ _ _ ?_
          assumption
      clear_value s20
      clear_value x21
      refine State.setChan_kept ?_
      assumption

theorem execRecordDescriptorComplete_completes {s : State} {r} : Completes s (execRecordDescriptorComplete r s) := by
  unfold execRecordDescriptorComplete
  extract_lets x1 x2 x3 x4
  clear_value x1 x2 x3 x4
  refine Completes.next ?_
  refine Kept.ite ?_ ?_
  · exact Kept.refl
  · refine State.chanFinish_kept ?_
    exact Kept.refl

end Sys2Proof.Machine
end

