-- ==== Sys2Proof/Laws/Kept/Contexts.lean ====
section
/-! SUPPORT. What the operations of Machine/Contexts.lean keep. -/

namespace Sys2Proof.Machine

theorem State.dropTraffic_kept {r₀ : State} {s : State} {c} (h₀ : Kept r₀ s) : Kept r₀ (State.dropTraffic s c) := by
  unfold State.dropTraffic
  refine Kept.upd rfl ?_
  assumption

theorem State.dropJobs_kept {r₀ : State} {s : State} {c} (h₀ : Kept r₀ s) : Kept r₀ (State.dropJobs s c) := by
  unfold State.dropJobs
  refine State.syncJobs_kept ?_
  refine Kept.upd rfl ?_
  assumption

theorem State.setCtxState_kept {r₀ : State} {s : State} {c st} (h₀ : Kept r₀ s) : Kept r₀ (State.setCtxState s c st) := by
  unfold State.setCtxState
  refine State.setFlag_kept ?_
  refine State.setFld_kept ?_
  assumption

theorem State.releaseCtx_kept {r₀ : State} {s : State} {c} (h₀ : Kept r₀ s) : Kept r₀ (State.releaseCtx s c) := by
  unfold State.releaseCtx
  extract_lets s1
  have h2 : Kept r₀ s1 := by
    unfold s1
    refine Kept.foldl (fun s3 x4 h5 => ?_) ?_
    · refine Kept.ite ?_ ?_
      · refine State.stopUnit_kept ?_
        assumption
      · assumption
    · assumption
  clear_value s1
  refine Kept.foldl (fun s6 x7 h8 => ?_) ?_
  · refine Kept.ite ?_ ?_
    · refine State.chanAbortNow_kept ?_
      assumption
    · assumption
  · assumption

theorem State.advanceGen_kept {r₀ : State} {s : State} {c} (h₀ : Kept r₀ s) : Kept r₀ (State.advanceGen s c) := by
  unfold State.advanceGen
  extract_lets s1
  have h2 : Kept r₀ s1 := by
    unfold s1
    refine State.setFld_kept ?_
    assumption
  clear_value s1
  refine Kept.upd rfl ?_
  assumption

theorem State.teardown_kept {r₀ : State} {s : State} {c} (h₀ : Kept r₀ s) : Kept r₀ (State.teardown s c) := by
  unfold State.teardown
  extract_lets s1 s2 s3
  have h4 : Kept r₀ s1 := by
    unfold s1
    refine State.advanceGen_kept ?_
    refine State.setCtxState_kept ?_
    assumption
  clear_value s1
  have h5 : Kept r₀ s2 := by
    unfold s2
    refine State.dropTraffic_kept ?_
    refine State.releaseCtx_kept ?_
    refine State.dropJobs_kept ?_
    assumption
  clear_value s2
  have h6 : Kept r₀ s3 := by
    unfold s3
    refine Kept.upd rfl ?_
    assumption
  clear_value s3
  refine State.schedule_kept ?_
  refine State.gateForget_kept ?_
  refine State.announceGen_kept ?_
  assumption

theorem State.teardownWritten_kept {r₀ : State} {s : State} {c} (h₀ : Kept r₀ s) : Kept r₀ (State.teardownWritten s c) := by
  unfold State.teardownWritten
  split
  · refine Kept.ite ?_ ?_
    · assumption
    · refine State.teardown_kept ?_
      assumption
  · refine State.setFld_kept ?_
    assumption
  · assumption

theorem State.scrubDone_kept {r₀ : State} {s : State} {c} (h₀ : Kept r₀ s) : Kept r₀ (State.scrubDone s c) := by
  unfold State.scrubDone
  refine Kept.ite ?_ ?_
  · refine State.setFld_kept ?_
    refine State.setCtxState_kept ?_
    assumption
  · assumption

theorem State.enterScrubbing_kept {r₀ : State} {s : State} {c} (h₀ : Kept r₀ s) : Kept r₀ (State.enterScrubbing s c) := by
  unfold State.enterScrubbing
  refine State.event_kept ?_
  refine State.setCtxState_kept ?_
  refine Kept.upd rfl ?_
  assumption

theorem execTeardownQuiesced_completes {s : State} {c} : Completes s (execTeardownQuiesced c s) := by
  unfold execTeardownQuiesced
  refine Completes.next ?_
  refine Kept.ite ?_ ?_
  · exact Kept.refl
  · refine State.enterScrubbing_kept ?_
    exact Kept.refl

theorem State.dropLinks_kept {r₀ : State} {s : State} {c} (h₀ : Kept r₀ s) : Kept r₀ (State.dropLinks s c) := by
  unfold State.dropLinks
  refine Kept.upd rfl ?_
  assumption

theorem State.pciePme_kept {r₀ : State} {s : State} (h₀ : Kept r₀ s) : Kept r₀ (State.pciePme s) := by
  unfold State.pciePme
  extract_lets pme s1 x1 s2 x2
  have h1 : Kept r₀ s1 := by
    unfold s1
    exact Kept.ite (State.send_kept h₀) h₀
  clear_value pme s1 x1
  have h2 : Kept r₀ s2 := Kept.upd rfl h1
  clear_value s2
  refine Kept.ite h2 ?_
  refine Kept.ite ?_ h2
  exact Kept.upd rfl (State.send_kept h2)

theorem execMsixSend_completes {s : State} {source} : Completes s (execMsixSend source s) := by
  unfold execMsixSend
  refine Completes.next ?_
  extract_lets x1 x2 x3
  clear_value x1 x2 x3
  refine Kept.ite ?_ ?_
  · exact Kept.refl
  · refine Kept.ite ?_ ?_
    · refine State.pciePme_kept ?_
      exact Kept.refl
    · refine State.send_kept ?_
      refine State.setFld_kept ?_
      refine State.claim_kept ?_
      exact Kept.refl

theorem execQuiesceTimeout_completes {s : State} {c} : Completes s (execQuiesceTimeout c s) := by
  unfold execQuiesceTimeout
  refine Completes.next ?_
  refine Kept.ite ?_ ?_
  · exact Kept.refl
  · extract_lets s1
    have h2 : Kept s s1 := by
      unfold s1
      refine State.expire_kept ?_
      exact Kept.refl
    clear_value s1
    refine State.fault_kept ?_
    refine State.event_kept ?_
    refine State.enterScrubbing_kept ?_
    refine State.dropLinks_kept ?_
    refine State.dropTraffic_kept ?_
    assumption

end Sys2Proof.Machine
end

