-- ==== Sys2Proof/Laws/Kept/Strike.lean ====
section
/-! SUPPORT. What the operations of Machine/Strike.lean keep. -/

namespace Sys2Proof.Machine

theorem State.latchStrike_kept {r₀ : State} {s : State} {t} (h₀ : Kept r₀ s) : Kept r₀ (State.latchStrike s t) := by
  unfold State.latchStrike
  extract_lets x1 s2 s3 x4 x5
  clear_value x1
  have h6 : Kept r₀ s2 := by
    unfold s2
    refine State.wr64_kept ?_
    refine State.setFld_kept ?_
    assumption
  clear_value s2
  have h7 : Kept r₀ s3 := by
    unfold s3
    refine State.timEvent_kept ?_
    refine State.setFld_kept ?_
    assumption
  clear_value s3
  clear_value x4 x5
  refine State.modTime_kept ?_
  assumption

theorem State.skipEntries_kept {r₀ : State} {s : State} {n} (h₀ : Kept r₀ s) : Kept r₀ (State.skipEntries s n) := by
  unfold State.skipEntries
  refine Kept.ite ?_ ?_
  · assumption
  · refine State.timEvent_kept ?_
    refine State.count_kept ?_
    assumption

theorem State.restrike_kept {r₀ : State} {s : State} (h₀ : Kept r₀ s) : Kept r₀ (State.restrike s) := by
  unfold State.restrike
  refine Kept.ite ?_ ?_
  · extract_lets x1 x2 s3 s4
    clear_value x1 x2
    have h5 : Kept r₀ s3 := by
      unfold s3
      refine State.setFld_kept ?_
      assumption
    clear_value s3
    have h6 : Kept r₀ s4 := by
      unfold s4
      refine State.modTime_kept ?_
      assumption
    clear_value s4
    refine State.skipEntries_kept ?_
    assumption
  · assumption

theorem State.sweepPart_kept {r₀ : State} {s : State} {j u} (h₀ : Kept r₀ s) : Kept r₀ (State.sweepPart s j u) := by
  unfold State.sweepPart
  refine Kept.ite ?_ ?_
  · assumption
  · refine State.unitDoneFor_kept ?_
    assumption

theorem State.sweepJobs_kept {r₀ : State} {s : State} (h₀ : Kept r₀ s) : Kept r₀ (State.sweepJobs s) := by
  unfold State.sweepJobs
  refine Kept.foldl (fun s1 x2 h3 => ?_) ?_
  · refine Kept.foldl (fun s4 x5 h6 => ?_) ?_
    · split
      · refine State.sweepPart_kept ?_
        assumption
      · assumption
    · assumption
  · assumption

theorem State.dramState_kept {r₀ : State} {s : State} {v} (h₀ : Kept r₀ s) : Kept r₀ (State.dramState s v) := by
  unfold State.dramState
  refine Kept.foldl (fun s1 x2 h3 => ?_) ?_
  · refine Kept.ite ?_ ?_
    · assumption
    · refine State.setFld_kept ?_
      assumption
  · assumption

theorem State.endBound_kept {r₀ : State} {s : State} (h₀ : Kept r₀ s) : Kept r₀ (State.endBound s) := by
  unfold State.endBound
  extract_lets s1
  have h2 : Kept r₀ s1 := by
    unfold s1
    refine Kept.foldl (fun s3 x4 h5 => ?_) ?_
    · split
      · refine Kept.ite ?_ ?_
        · refine State.stopUnit_kept ?_
          assumption
        · assumption
      · assumption
    · assumption
  clear_value s1
  refine Kept.foldl (fun s6 x7 h8 => ?_) ?_
  · refine State.retire_kept ?_
    assumption
  · assumption

theorem State.enterDepot_kept {r₀ : State} {s : State} (h₀ : Kept r₀ s) : Kept r₀ (State.enterDepot s) := by
  unfold State.enterDepot
  extract_lets s1 s2 s3 x4 s5 s6 s7 x8
  have h9 : Kept r₀ s1 := by
    unfold s1
    refine State.endBound_kept ?_
    assumption
  clear_value s1
  have h10 : Kept r₀ s2 := by
    unfold s2
    refine Kept.ite ?_ ?_
    · refine State.setFld_kept ?_
      refine State.setFld_kept ?_
      assumption
    · assumption
  clear_value s2
  have h11 : Kept r₀ s3 := by
    unfold s3
    refine State.setFld_kept ?_
    refine State.setFld_kept ?_
    assumption
  clear_value s3
  clear_value x4
  have h12 : Kept r₀ s5 := by
    unfold s5
    refine State.setFld_kept ?_
    refine Kept.upd rfl ?_
    assumption
  clear_value s5
  have h13 : Kept r₀ s6 := by
    unfold s6
    refine Kept.ite ?_ ?_
    · refine State.setFld_kept ?_
      assumption
    · refine State.zeroRange_kept ?_
      assumption
  clear_value s6
  have h14 : Kept r₀ s7 := by
    unfold s7
    refine State.setFld_kept ?_
    assumption
  clear_value s7
  clear_value x8
  refine Kept.upd rfl ?_
  assumption

theorem State.emberEnds_kept {r₀ : State} {s : State} {status result summary} (h₀ : Kept r₀ s) : Kept r₀ (State.emberEnds s status result summary) := by
  unfold State.emberEnds
  extract_lets x1 x2 x3 x4 s5 s6 s7 s8 s9 s10
  clear_value x1 x2 x3 x4
  have h11 : Kept r₀ s5 := by
    unfold s5
    refine Kept.upd rfl ?_
    assumption
  clear_value s5
  have h12 : Kept r₀ s6 := by
    unfold s6
    refine State.setFld_kept ?_
    refine State.setFld_kept ?_
    assumption
  clear_value s6
  have h13 : Kept r₀ s7 := by
    unfold s7
    refine State.setFld_kept ?_
    refine State.setFld_kept ?_
    assumption
  clear_value s7
  have h14 : Kept r₀ s8 := by
    unfold s8
    refine Kept.ite ?_ ?_
    · refine State.setFld_kept ?_
      assumption
    · assumption
  clear_value s8
  have h15 : Kept r₀ s9 := by
    unfold s9
    refine Kept.ite ?_ ?_
    · refine State.count_kept ?_
      assumption
    · refine Kept.ite ?_ ?_
      · refine State.count_kept ?_
        assumption
      · assumption
  clear_value s9
  have h16 : Kept r₀ s10 := by
    unfold s10
    refine Kept.ite ?_ ?_
    · assumption
    · refine State.fault_kept ?_
      refine State.sfiEvent_kept ?_
      assumption
  clear_value s10
  refine Kept.ite ?_ ?_
  · refine State.safeStateFrame_kept ?_
    assumption
  · assumption

theorem State.lateUnit_kept {r₀ : State} {s : State} {w u} (h₀ : Kept r₀ s) : Kept r₀ (State.lateUnit s w u) := by
  unfold State.lateUnit
  extract_lets x1
  clear_value x1
  refine Kept.ite ?_ ?_
  · refine State.stopWith_kept ?_
    refine State.winBreach_kept ?_
    assumption
  · assumption

theorem State.noStartUnit_kept {r₀ : State} {s : State} {w u} (h₀ : Kept r₀ s) : Kept r₀ (State.noStartUnit s w u) := by
  unfold State.noStartUnit
  refine Kept.ite ?_ ?_
  · split
    · refine State.winBreach_kept ?_
      assumption
    · refine State.winBreach_kept ?_
      assumption
  · assumption

theorem State.closeStage_kept {r₀ : State} {s : State} {w} (h₀ : Kept r₀ s) : Kept r₀ (State.closeStage s w) := by
  unfold State.closeStage
  extract_lets s1 s2
  have h3 : Kept r₀ s1 := by
    unfold s1
    refine Kept.upd rfl ?_
    assumption
  clear_value s1
  have h4 : Kept r₀ s2 := by
    unfold s2
    refine Kept.foldl (fun s5 x6 h7 => ?_) ?_
    · refine State.noStartUnit_kept ?_
      refine State.lateUnit_kept ?_
      assumption
    · assumption
  clear_value s2
  refine Kept.foldl (fun s8 x9 h10 => ?_) ?_
  · refine Kept.ite ?_ ?_
    · refine State.missingCloses_kept ?_
      assumption
    · assumption
  · assumption

theorem State.slackSample_kept {r₀ : State} {s : State} (h₀ : Kept r₀ s) : Kept r₀ (State.slackSample s) := by
  unfold State.slackSample
  extract_lets x1 s2
  clear_value x1
  have h3 : Kept r₀ s2 := by
    unfold s2
    refine Kept.ite ?_ ?_
    · refine State.evrAdd_kept ?_
      assumption
    · refine State.evrHist_kept ?_
      assumption
  clear_value s2
  refine State.evrExtreme_kept ?_
  assumption

theorem State.endStrike_kept {r₀ : State} {s : State} (h₀ : Kept r₀ s) : Kept r₀ (State.endStrike s) := by
  unfold State.endStrike
  refine Kept.ite ?_ ?_
  · assumption
  · extract_lets s1 s2 s3 s4 s5
    have h6 : Kept r₀ s1 := by
      unfold s1
      refine Kept.foldl (fun s7 x8 h9 => ?_) ?_
      · refine State.closeStage_kept ?_
        assumption
      · assumption
    clear_value s1
    have h10 : Kept r₀ s2 := by
      unfold s2
      refine Kept.foldl (fun s11 x12 h13 => ?_) ?_
      · refine Kept.ite ?_ ?_
        · refine State.missingCloses_kept ?_
          assumption
        · assumption
      · assumption
    clear_value s2
    have h14 : Kept r₀ s3 := by
      unfold s3
      refine Kept.ite ?_ ?_
      · refine State.slackSample_kept ?_
        assumption
      · assumption
    clear_value s3
    have h15 : Kept r₀ s4 := by
      unfold s4
      refine State.modTime_kept ?_
      assumption
    clear_value s4
    have h16 : Kept r₀ s5 := by
      unfold s5
      refine Kept.upd rfl ?_
      assumption
    clear_value s5
    refine State.sweepJobs_kept ?_
    assumption

theorem State.memberBecomes_kept {r₀ : State} {s : State} {u st} (h₀ : Kept r₀ s) : Kept r₀ (State.memberBecomes s u st) := by
  unfold State.memberBecomes
  extract_lets x1 s2
  clear_value x1
  have h3 : Kept r₀ s2 := by
    unfold s2
    refine State.setFld_kept ?_
    assumption
  clear_value s2
  refine Kept.ite ?_ ?_
  · assumption
  · refine State.event_kept ?_
    assumption

theorem State.pairBecomes_kept {r₀ : State} {s : State} {p st} (h₀ : Kept r₀ s) : Kept r₀ (State.pairBecomes s p st) := by
  unfold State.pairBecomes
  extract_lets x1 s2
  clear_value x1
  have h3 : Kept r₀ s2 := by
    unfold s2
    refine State.memberBecomes_kept ?_
    refine State.memberBecomes_kept ?_
    assumption
  clear_value s2
  refine Kept.ite ?_ ?_
  · refine State.emptySlot_kept ?_
    assumption
  · assumption

theorem State.pairSplit_kept {r₀ : State} {s : State} {p} (h₀ : Kept r₀ s) : Kept r₀ (State.pairSplit s p) := by
  unfold State.pairSplit
  refine Kept.ite ?_ ?_
  · assumption
  · refine Kept.ite ?_ ?_
    · refine State.pairBecomes_kept ?_
      assumption
    · refine State.pairBecomes_kept ?_
      assumption

theorem State.pairJoin_kept {r₀ : State} {s : State} {p} (h₀ : Kept r₀ s) : Kept r₀ (State.pairJoin s p) := by
  unfold State.pairJoin
  refine Kept.ite ?_ ?_
  · assumption
  · refine Kept.ite ?_ ?_
    · refine State.pairBecomes_kept ?_
      assumption
    · refine State.pairBecomes_kept ?_
      assumption

theorem State.pairBoundary_kept {r₀ : State} {s : State} (h₀ : Kept r₀ s) : Kept r₀ (State.pairBoundary s) := by
  unfold State.pairBoundary
  extract_lets s1
  have h2 : Kept r₀ s1 := by
    unfold s1
    refine Kept.foldl (fun s3 x4 h5 => ?_) ?_
    · refine State.pairSplit_kept ?_
      assumption
    · assumption
  clear_value s1
  refine Kept.foldl (fun s6 x7 h8 => ?_) ?_
  · refine State.pairJoin_kept ?_
    assumption
  · assumption

theorem execWindowClose_completes {s : State} {w} : Completes s (execWindowClose w s) := by
  unfold execWindowClose
  refine Completes.next ?_
  extract_lets x1
  clear_value x1
  refine Kept.ite ?_ ?_
  · refine State.closeStage_kept ?_
    refine State.reachFrac_kept ?_
    exact Kept.refl
  · exact Kept.refl

theorem State.hearthBoundary_kept {r₀ : State} {s : State} {j} (h₀ : Kept r₀ s) : Kept r₀ (State.hearthBoundary s j) := by
  unfold State.hearthBoundary
  extract_lets x1 x2 x3
  clear_value x1 x2 x3
  refine Kept.ite ?_ ?_
  · refine Kept.ite ?_ ?_
    · assumption
    · refine State.sfiEvent_kept ?_
      refine Kept.upd rfl ?_
      assumption
  · refine Kept.ite ?_ ?_
    · refine State.setFld_kept ?_
      assumption
    · assumption

theorem State.emberLate_kept {r₀ : State} {s : State} (h₀ : Kept r₀ s) : Kept r₀ (State.emberLate s) := by
  unfold State.emberLate
  extract_lets x1 s2
  clear_value x1
  have h3 : Kept r₀ s2 := by
    unfold s2
    refine Kept.ite ?_ ?_
    · assumption
    · refine Kept.upd rfl ?_
      assumption
  clear_value s2
  refine State.emberEnds_kept ?_
  assumption

theorem State.countKicks_kept {r₀ : State} {s : State} {live} (h₀ : Kept r₀ s) : Kept r₀ (State.countKicks s live) := by
  unfold State.countKicks
  refine Kept.upd rfl ?_
  assumption

theorem State.barrierStrike_kept {r₀ : State} {s : State} (h₀ : Kept r₀ s) : Kept r₀ (State.barrierStrike s) := by
  unfold State.barrierStrike
  split
  · extract_lets x1 s2
    clear_value x1
    have h3 : Kept r₀ s2 := by
      unfold s2
      refine State.modTime_kept ?_
      assumption
    clear_value s2
    refine Kept.ite ?_ ?_
    · assumption
    · split
      · refine State.timEvent_kept ?_
        refine State.completeJob_kept ?_
        assumption
      · assumption
  · assumption

theorem State.launchBound_kept {r₀ : State} {s : State} (h₀ : Kept r₀ s) : Kept r₀ (State.launchBound s) := by
  unfold State.launchBound
  extract_lets x1 s2
  clear_value x1
  have h3 : Kept r₀ s2 := by
    unfold s2
    refine Kept.upd rfl ?_
    assumption
  clear_value s2
  refine Kept.foldl (fun s4 x5 h6 => ?_) ?_
  · refine Kept.ite ?_ ?_
    · refine State.checkJob_kept ?_
      assumption
    · assumption
  · assumption

theorem State.latchIsland_kept {r₀ : State} {s : State} (h₀ : Kept r₀ s) : Kept r₀ (State.latchIsland s) := by
  unfold State.latchIsland
  refine Kept.upd rfl ?_
  assumption

theorem State.freshUnit_kept {r₀ : State} {s : State} {u} (h₀ : Kept r₀ s) : Kept r₀ (State.freshUnit s u) := by
  unfold State.freshUnit
  extract_lets s1
  have h2 : Kept r₀ s1 := by
    unfold s1
    refine State.setFld_kept ?_
    assumption
  clear_value s1
  refine Kept.ite ?_ ?_
  · assumption
  · refine State.modUnit_kept ?_
    assumption

theorem State.beginStrike_kept {r₀ : State} {s : State} (h₀ : Kept r₀ s) : Kept r₀ (State.beginStrike s) := by
  unfold State.beginStrike
  extract_lets s1 x2 s3 s4 s5 x6 s7
  have h8 : Kept r₀ s1 := by
    unfold s1
    refine State.strikeSelftest_kept ?_
    refine State.latchIsland_kept ?_
    refine State.skipEntries_kept ?_
    assumption
  clear_value s1
  clear_value x2
  have h9 : Kept r₀ s3 := by
    unfold s3
    refine Kept.upd rfl ?_
    assumption
  clear_value s3
  have h10 : Kept r₀ s4 := by
    unfold s4
    refine Kept.foldl (fun s11 x12 h13 => ?_) ?_
    · refine State.freshUnit_kept ?_
      assumption
    · assumption
  clear_value s4
  have h14 : Kept r₀ s5 := by
    unfold s5
    refine State.setFld_kept ?_
    assumption
  clear_value s5
  clear_value x6
  have h15 : Kept r₀ s7 := by
    unfold s7
    refine Kept.upd rfl ?_
    assumption
  clear_value s7
  refine State.schedule_kept ?_
  refine State.sweepJobs_kept ?_
  refine State.launchBound_kept ?_
  refine State.barrierStrike_kept ?_
  refine State.sendMarks_kept ?_
  assumption

theorem State.strikeAt_kept {r₀ : State} {s : State} {t} (h₀ : Kept r₀ s) : Kept r₀ (State.strikeAt s t) := by
  unfold State.strikeAt
  extract_lets x1 x2 s1 s3 owed s4 s5 s6 s7a s7 s8
  clear_value x1 x2
  have h8 : Kept r₀ s1 := by
    unfold s1
    refine State.endStrike_kept ?_
    refine State.reachFrac_kept ?_
    assumption
  clear_value s1
  have h9 : Kept r₀ s3 := by
    unfold s3
    refine Kept.ite ?_ ?_
    · refine State.emberLate_kept ?_
      assumption
    · assumption
  clear_value owed s3
  have h10 : Kept r₀ s4 := by
    unfold s4
    refine State.pairBoundary_kept ?_
    assumption
  clear_value s4
  have h11 : Kept r₀ s5 := by
    unfold s5
    refine Kept.ite ?_ ?_
    · refine State.enterDepot_kept ?_
      assumption
    · assumption
  clear_value s5
  have h12 : Kept r₀ s6 := by
    unfold s6
    refine Kept.ite ?_ ?_
    · refine State.dramState_kept ?_
      assumption
    · assumption
  clear_value s6
  have h12a : Kept r₀ s7a := by
    unfold s7a
    refine State.latchStrike_kept ?_
    refine State.countKicks_kept ?_
    assumption
  clear_value s7a
  have h13 : Kept r₀ s7 := by
    unfold s7
    refine Kept.ite ?_ ?_
    · refine State.safeStateFrame_kept ?_
      assumption
    · assumption
  clear_value s7
  have h14 : Kept r₀ s8 := by
    unfold s8
    refine Kept.foldl (fun s15 x16 h17 => ?_) ?_
    · refine State.hearthBoundary_kept ?_
      assumption
    · assumption
  clear_value s8
  refine State.beginStrike_kept ?_
  refine State.strikeIntake_kept ?_
  assumption

theorem execStrike_completes {s : State} : Completes s (execStrike s) := by
  unfold execStrike
  refine Completes.next ?_
  split
  · exact Kept.refl
  · refine State.strikeAt_kept ?_
    exact Kept.refl

theorem State.fireEntries_kept {r₀ : State} {s : State} {es} (h₀ : Kept r₀ s) : Kept r₀ (State.fireEntries s es) := by
  unfold State.fireEntries
  extract_lets x1 s2 s3
  clear_value x1
  have h4 : Kept r₀ s2 := by
    unfold s2
    refine State.modTime_kept ?_
    assumption
  clear_value s2
  have h5 : Kept r₀ s3 := by
    unfold s3
    refine Kept.foldl (fun s6 x7 h8 => ?_) ?_
    · split
      · refine State.launch_kept ?_
        assumption
      · assumption
    · assumption
  clear_value s3
  refine State.sweepJobs_kept ?_
  assumption

theorem execStrikeTableEntryFire_completes {s : State} {e} : Completes s (execStrikeTableEntryFire e s) := by
  unfold execStrikeTableEntryFire
  refine Completes.next ?_
  refine Kept.ite ?_ ?_
  · exact Kept.refl
  · extract_lets x1 x2 x3
    clear_value x1 x2 x3
    refine State.fireEntries_kept ?_
    refine State.reachFrac_kept ?_
    exact Kept.refl

end Sys2Proof.Machine
end

