-- ==== Sys2Proof/Laws/Kept/Island.lean ====
section
/-! SUPPORT. What the operations of Machine/Island.lean keep. -/

namespace Sys2Proof.Machine

theorem State.armWritten_kept {r₀ : State} {s : State} {block took} (h₀ : Kept r₀ s) : Kept r₀ (State.armWritten s block took) := by
  unfold State.armWritten
  extract_lets s1 s2 x3 x4 s5
  have h6 : Kept r₀ s1 := by
    unfold s1
    refine State.setFld_kept ?_
    assumption
  clear_value s1
  have h7 : Kept r₀ s2 := by
    unfold s2
    refine State.setFld_kept ?_
    refine State.setFld_kept ?_
    assumption
  clear_value s2
  clear_value x3 x4
  have h8 : Kept r₀ s5 := by
    unfold s5
    refine Kept.upd rfl ?_
    assumption
  clear_value s5
  refine Kept.ite ?_ ?_
  · assumption
  · refine State.sfiEvent_kept ?_
    assumption

theorem State.fenceCore_kept {r₀ : State} {s : State} {k cause} (h₀ : Kept r₀ s) : Kept r₀ (State.fenceCore s k cause) := by
  unfold State.fenceCore
  extract_lets s1
  have h2 : Kept r₀ s1 := by
    unfold s1
    refine State.setFld_kept ?_
    assumption
  clear_value s1
  refine State.evrCounter_kept ?_
  refine State.fclEvent_kept ?_
  refine State.logWrite_kept ?_
  assumption

theorem State.embInputs_kept {r₀ : State} {s : State} (h₀ : Kept r₀ s) : Kept r₀ (State.embInputs s).1 := by
  unfold State.embInputs
  extract_lets x1 x2
  clear_value x1 x2
  split
  refine Kept.iteFst ?_ ?_
  · refine Kept.pair ?_
    refine Kept.fst ‹_› ?_
    refine State.read_kept ?_
    assumption
  · split
    refine Kept.pair ?_
    refine Kept.fst ‹_› ?_
    refine Kept.foldlFst (fun p3 x4 h5 => ?_) ?_
    · split
      refine Kept.iteFst ?_ ?_
      · refine Kept.pair ?_
        assumption
      · split
        refine Kept.iteFst ?_ ?_
        · refine Kept.pair ?_
          refine Kept.fst ‹_› ?_
          refine State.read_kept ?_
          assumption
        · refine Kept.iteFst ?_ ?_
          · extract_lets x6
            clear_value x6
            refine Kept.pair ?_
            refine Kept.fst ‹_› ?_
            refine State.read_kept ?_
            assumption
          · refine Kept.pair ?_
            refine Kept.fst ‹_› ?_
            refine State.read_kept ?_
            assumption
    · refine Kept.pair ?_
      refine Kept.fst ‹_› ?_
      refine State.read_kept ?_
      assumption

theorem execEmberRunStart_completes {s : State} {goldenOk} : Completes s (execEmberRunStart goldenOk s) := by
  unfold execEmberRunStart
  refine Completes.next ?_
  refine Kept.ite ?_ ?_
  · exact Kept.refl
  · extract_lets s1
    have h2 : Kept s s1 := by
      unfold s1
      refine State.reachFrac_kept ?_
      exact Kept.refl
    clear_value s1
    split
    extract_lets s3 x4
    have h5 : Kept s s3 := by
      unfold s3
      refine State.setFld_kept ?_
      refine State.setFlag_kept ?_
      refine Kept.fst ‹_› ?_
      refine State.embInputs_kept ?_
      assumption
    clear_value s3
    clear_value x4
    refine Kept.upd rfl ?_
    assumption

theorem State.fenceCode_kept {r₀ : State} {s : State} {c cause} (h₀ : Kept r₀ s) : Kept r₀ (State.fenceCode s c cause) := by
  unfold State.fenceCode
  split
  · refine Kept.ite ?_ ?_
    · refine State.fenceUnit_kept ?_
      assumption
    · assumption
  · refine Kept.ite ?_ ?_
    · refine State.fenceStream_kept ?_
      assumption
    · refine Kept.ite ?_ ?_
      · refine State.fenceCore_kept ?_
        assumption
      · assumption

theorem State.publishEmber_kept {r₀ : State} {s : State} (h₀ : Kept r₀ s) : Kept r₀ (State.publishEmber s) := by
  unfold State.publishEmber
  extract_lets x1 s2 x3 x4 x5
  clear_value x1
  have h6 : Kept r₀ s2 := by
    unfold s2
    refine Kept.upd rfl ?_
    assumption
  clear_value s2
  clear_value x3 x4 x5
  refine Kept.ite ?_ ?_
  · assumption
  · split
    refine Kept.ite ?_ ?_
    · refine Kept.fst ‹_› ?_
      refine State.write_kept ?_
      assumption
    · refine Kept.ite ?_ ?_
      · refine State.cqPut_kept ?_
        refine Kept.fst ‹_› ?_
        refine State.write_kept ?_
        assumption
      · refine State.count_kept ?_
        refine Kept.fst ‹_› ?_
        refine State.write_kept ?_
        assumption

theorem execEmberRunComplete_completes {s : State} {run} : Completes s (execEmberRunComplete run s) := by
  unfold execEmberRunComplete
  refine Completes.next ?_
  refine Kept.ite ?_ ?_
  · refine State.publishEmber_kept ?_
    exact Kept.refl
  · extract_lets x1
    clear_value x1
    refine State.publishEmber_kept ?_
    refine State.emberEnds_kept ?_
    exact Kept.refl

theorem State.modHearth_kept {r₀ : State} {s : State} {f} (h₀ : Kept r₀ s) : Kept r₀ (State.modHearth s f) := by
  unfold State.modHearth
  refine Kept.upd rfl ?_
  assumption

theorem execHearthJoinCsr_completes {s : State} {j} : Completes s (execHearthJoinCsr j s) := by
  unfold execHearthJoinCsr
  refine Completes.next ?_
  refine Kept.ite ?_ ?_
  · exact Kept.refl
  · extract_lets x1 s2
    clear_value x1
    have h3 : Kept s s2 := by
      unfold s2
      refine State.modHearth_kept ?_
      exact Kept.refl
    clear_value s2
    refine State.setFld_kept ?_
    assumption

theorem execHearthHang_completes {s : State} {core} : Completes s (execHearthHang core s) := by
  unfold execHearthHang
  refine Completes.next ?_
  refine Kept.ite ?_ ?_
  · exact Kept.refl
  · extract_lets s1 x2 x4 s3
    have h4 : Kept s s1 := by
      unfold s1
      refine State.fclEvent_kept ?_
      refine State.setFld_kept ?_
      exact Kept.refl
    clear_value s1 x2 x4
    have h5 : Kept s s3 := by
      unfold s3
      refine Kept.upd rfl ?_
      assumption
    clear_value s3
    refine State.fault_kept ?_
    assumption

theorem State.proofFailed_kept {r₀ : State} {s : State} {code op d0 d1} (h₀ : Kept r₀ s) : Kept r₀ (State.proofFailed s code op d0 d1) := by
  unfold State.proofFailed
  extract_lets s1 s2 s3
  have h4 : Kept r₀ s1 := by
    unfold s1
    refine State.logLimited_kept ?_
    refine State.count_kept ?_
    assumption
  clear_value s1
  have h5 : Kept r₀ s2 := by
    unfold s2
    refine State.fenceCode_kept ?_
    refine State.evrCounter_kept ?_
    refine State.evrCounter_kept ?_
    assumption
  clear_value s2
  have h6 : Kept r₀ s3 := by
    unfold s3
    split
    · refine State.setFld_kept ?_
      assumption
    · assumption
  clear_value s3
  refine State.fclEvent_kept ?_
  assumption

theorem State.hearthFailed_kept {r₀ : State} {s : State} {j replay} (h₀ : Kept r₀ s) : Kept r₀ (State.hearthFailed s j replay) := by
  unfold State.hearthFailed
  extract_lets s1
  have h2 : Kept r₀ s1 := by
    unfold s1
    refine State.setFld_kept ?_
    refine State.count_kept ?_
    assumption
  clear_value s1
  refine State.fault_kept ?_
  refine State.setFlag_kept ?_
  assumption

theorem execUnitHangStop_completes {s : State} {u} : Completes s (execUnitHangStop u s) := by
  unfold execUnitHangStop
  refine Completes.next ?_
  extract_lets x1
  clear_value x1
  refine Kept.ite ?_ ?_
  · refine State.stopWith_kept ?_
    refine State.report_kept ?_
    exact Kept.refl
  · exact Kept.refl

theorem execEmberDeadline_completes {s : State} : Completes s (execEmberDeadline s) := by
  unfold execEmberDeadline
  refine Completes.next ?_
  refine Kept.ite ?_ ?_
  · exact Kept.refl
  · extract_lets x1 x2
    clear_value x1 x2
    refine State.emberLate_kept ?_
    refine State.reachFrac_kept ?_
    exact Kept.refl

theorem execDebugRegWrite_completes {s : State} {core reg value} : Completes s (execDebugRegWrite core reg value s) := by
  unfold execDebugRegWrite
  refine Completes.next ?_
  refine Kept.ite ?_ ?_
  · exact Kept.refl
  · extract_lets s1 x2
    have h3 : Kept s s1 := by
      unfold s1
      refine State.modHearth_kept ?_
      exact Kept.refl
    clear_value s1
    clear_value x2
    refine Kept.ite ?_ ?_
    · assumption
    · refine Kept.ite ?_ ?_
      · refine State.modHearth_kept ?_
        assumption
      · refine State.hearthFailed_kept ?_
        assumption

theorem execSafeStateFrameSent_completes {s : State} {k} : Completes s (execSafeStateFrameSent k s) := by
  unfold execSafeStateFrameSent
  refine Completes.next ?_
  extract_lets s1 x2
  have h3 : Kept s s1 := by
    unfold s1
    refine State.publishEmber_kept ?_
    exact Kept.refl
  clear_value s1
  clear_value x2
  split
  · assumption
  · refine Kept.ite ?_ ?_
    · assumption
    · extract_lets s4
      have h5 : Kept s s4 := by
        unfold s4
        refine Kept.upd rfl ?_
        assumption
      clear_value s4
      refine State.evrCounter_kept ?_
      refine State.count_kept ?_
      refine State.send_kept ?_
      assumption

theorem State.resumeHearth_kept {r₀ : State} {s : State} {core step} (h₀ : Kept r₀ s) : Kept r₀ (State.resumeHearth s core step) := by
  unfold State.resumeHearth
  refine Kept.ite ?_ ?_
  · assumption
  · extract_lets x1 s2 s3
    clear_value x1
    have h4 : Kept r₀ s2 := by
      unfold s2
      refine Kept.ite ?_ ?_
      · refine State.modHearth_kept ?_
        assumption
      · assumption
    clear_value s2
    have h5 : Kept r₀ s3 := by
      unfold s3
      refine State.modHearth_kept ?_
      assumption
    clear_value s3
    refine Kept.ite ?_ ?_
    · assumption
    · refine Kept.ite ?_ ?_
      · refine State.modHearth_kept ?_
        assumption
      · assumption

theorem execDebugResume_completes {s : State} {core step} : Completes s (execDebugResume core step s) := by
  unfold execDebugResume
  refine Completes.next ?_
  split
  · refine Kept.ite ?_ ?_
    · refine State.resumeHearth_kept ?_
      exact Kept.refl
    · exact Kept.refl
  · refine Kept.ite ?_ ?_
    · exact Kept.refl
    · refine State.modHearth_kept ?_
      exact Kept.refl

theorem State.ageRead_kept {r₀ : State} {s : State} {n} (h₀ : Kept r₀ s) : Kept r₀ (State.ageRead s n) := by
  unfold State.ageRead
  extract_lets x1
  clear_value x1
  split
  refine Kept.ite ?_ ?_
  · refine State.fault_kept ?_
    refine State.sfiEvent_kept ?_
    refine State.count_kept ?_
    refine Kept.fst ‹_› ?_
    refine State.read_kept ?_
    assumption
  · refine Kept.foldl (fun s2 x3 h4 => ?_) ?_
    · split
      refine Kept.ite ?_ ?_
      · refine Kept.upd rfl ?_
        refine Kept.fst ‹_› ?_
        refine State.read_kept ?_
        assumption
      · refine Kept.fst ‹_› ?_
        refine State.read_kept ?_
        assumption
    · refine Kept.fst ‹_› ?_
      refine State.read_kept ?_
      assumption

theorem execAgeFrameTableRead_completes {s : State} : Completes s (execAgeFrameTableRead s) := by
  unfold execAgeFrameTableRead
  refine Completes.next ?_
  split
  · exact Kept.refl
  · refine State.ageRead_kept ?_
    refine State.reachFrac_kept ?_
    refine Kept.upd rfl ?_
    exact Kept.refl

theorem State.haltIsland_kept {r₀ : State} {s : State} (h₀ : Kept r₀ s) : Kept r₀ (State.haltIsland s) := by
  unfold State.haltIsland
  extract_lets s1
  have h2 : Kept r₀ s1 := by
    unfold s1
    refine State.modHearth_kept ?_
    assumption
  clear_value s1
  refine Kept.ite ?_ ?_
  · assumption
  · refine State.fault_kept ?_
    assumption

theorem State.haltHearth_kept {r₀ : State} {s : State} {core} (h₀ : Kept r₀ s) : Kept r₀ (State.haltHearth s core) := by
  unfold State.haltHearth
  extract_lets s1 s2
  have h3 : Kept r₀ s1 := by
    unfold s1
    refine State.modHearth_kept ?_
    assumption
  clear_value s1
  have h4 : Kept r₀ s2 := by
    unfold s2
    refine Kept.ite ?_ ?_
    · refine State.modHearth_kept ?_
      assumption
    · assumption
  clear_value s2
  refine Kept.ite ?_ ?_
  · refine State.fault_kept ?_
    assumption
  · assumption

theorem execDebugHalt_completes {s : State} {core} : Completes s (execDebugHalt core s) := by
  unfold execDebugHalt
  refine Completes.next ?_
  split
  · refine Kept.ite ?_ ?_
    · refine State.haltHearth_kept ?_
      exact Kept.refl
    · exact Kept.refl
  · refine State.haltIsland_kept ?_
    exact Kept.refl

theorem execHearthJoinTimeout_completes {s : State} {j} : Completes s (execHearthJoinTimeout j s) := by
  unfold execHearthJoinTimeout
  refine Completes.next ?_
  split
  · exact Kept.refl
  · refine State.fault_kept ?_
    refine State.modHearth_kept ?_
    refine State.reach_kept ?_
    exact Kept.refl

end Sys2Proof.Machine
end

