-- ==== Sys2Proof/Laws/Kept/Recovery.lean ====
section
/-! SUPPORT. What the operations of Machine/Recovery.lean keep. -/

namespace Sys2Proof.Machine

theorem State.resetRegs_kept {r₀ s : State} {p keep} (h₀ : Kept r₀ s) : Kept r₀ (s.resetRegs p keep) := by
  refine Kept.put rfl (fun c => ⟨c.mem, c.mram, ?_, c.poison, c.damage⟩) h₀
  have main (l : SMap Word) (m : SMap Word) (hm : SMap.wf m = true) (f : Nat × Word → Word) :
      SMap.wf (l.foldl (fun m e => if p e.1 = true then SMap.put m e.1 (resetWord e.1) (f e) else m) m) = true := by
    induction l generalizing m with
    | nil => exact hm
    | cons e t ih =>
      rw [List.foldl_cons]
      refine ih _ ?_
      by_cases hp : p e.1 = true
      · rw [if_pos hp]; exact SMap.wf_put _ _ _ hm
      · rw [if_neg hp]; exact hm
  exact main s.regs s.regs c.regs _

theorem State.softReset_kept {r₀ : State} {s : State} {u} (h₀ : Kept r₀ s) : Kept r₀ (State.softReset s u) := by
  unfold State.softReset
  refine Kept.ite ?_ ?_
  · assumption
  · extract_lets s1 s2 s3 s4 s5 s6
    have h7 : Kept r₀ s1 := by
      unfold s1
      refine State.evrCounter_kept ?_
      refine State.logWrite_kept ?_
      assumption
    clear_value s1
    have h8 : Kept r₀ s2 := by
      unfold s2
      refine State.leavePair_kept ?_
      assumption
    clear_value s2
    have h9 : Kept r₀ s3 := by
      unfold s3
      refine Kept.ite ?_ ?_
      · refine State.stopWith_kept ?_
        assumption
      · assumption
    clear_value s3
    have h10 : Kept r₀ s4 := by
      unfold s4
      refine State.resetRegs_kept ?_
      assumption
    clear_value s4
    have h11 : Kept r₀ s5 := by
      unfold s5
      refine Kept.upd rfl ?_
      assumption
    clear_value s5
    have h12 : Kept r₀ s6 := by
      unfold s6
      refine State.syncSrc_kept ?_
      refine Kept.ite ?_ ?_
      · refine State.zeroRange_kept ?_
        assumption
      · refine Kept.ite ?_ ?_
        · refine State.zeroRange_kept ?_
          assumption
        · assumption
    clear_value s6
    refine State.schedule_kept ?_
    refine Kept.ite ?_ ?_
    · refine State.fenceUnit_kept ?_
      assumption
    · assumption

theorem State.imageCopy_kept {r₀ s : State} {src dst n} (hs : src % 32 = 0) (hd : dst % 32 = 0) (hn : n % 32 = 0) (h₀ : Kept r₀ s) :
    Kept r₀ (s.imageCopy src dst n) := by
  unfold State.imageCopy
  extract_lets inSrc units
  have inIff (k : Nat) : inSrc k = true ↔ src ≤ k ∧ k < src + n := by
    simp [inSrc]
  refine Kept.put rfl (fun c => ⟨?_, c.mram, c.regs, ?_, SMap.wf_keep _ c.damage⟩) h₀
  · have hk : CellsWf (SMap.keep inSrc s.mem) := c.mem.keep _
    have hin : ∀ e ∈ SMap.keep inSrc s.mem, src ≤ e.1 ∧ e.1 < src + n := fun e he => (inIff e.1).1 (List.mem_filter.1 he).2
    refine c.mem.splice (hi := dst + n) ⟨?_, ?_⟩ ?_ (by omega)
    · have hm : ∀ a ∈ SMap.keep inSrc s.mem, ∀ b ∈ SMap.keep inSrc s.mem, a.1 < b.1 → a.1 - src + dst < b.1 - src + dst := by
        intro a ha b hb hab
        have := hin a ha
        omega
      generalize SMap.keep inSrc s.mem = m at hk hm
      cases m with
      | nil => rfl
      | cons e t =>
        refine SMap.above_map (f := fun e => (e.1 - src + dst, e.2)) hk.1 (fun x hx => hm e (by simp) x (by simp [hx]) ?_)
          (fun a ha b hb => hm a (by simp [ha]) b (by simp [hb]))
        exact SMap.lt_of_above hk.1 hx
    · intro x hx
      obtain ⟨e, he, rfl⟩ := List.mem_map.1 hx
      exact hk.2 e he
    · intro x hx
      obtain ⟨e, he, rfl⟩ := List.mem_map.1 hx
      have := hin e he
      show dst ≤ e.1 - src + dst ∧ e.1 - src + dst < dst + n
      omega
  · have base : setWf (s.poison.filter (fun u => inSrc (32 * u))) = true := setWf_filter _ c.poison
    have range : setWf units = true ∧ ∀ u ∈ units, src ≤ 32 * u ∧ 32 * u < src + n := by
      have fold (l : List (Nat × Nat)) (acc : List Nat) (hl : ∀ e ∈ l, src ≤ 32 * e.1 ∧ 32 * e.1 < src + n)
          (ha : setWf acc = true ∧ ∀ u ∈ acc, src ≤ 32 * u ∧ 32 * u < src + n) :
          setWf (l.foldl (fun l e => setInsert l e.1) acc) = true
            ∧ ∀ u ∈ l.foldl (fun l e => setInsert l e.1) acc, src ≤ 32 * u ∧ 32 * u < src + n := by
        induction l generalizing acc with
        | nil => exact ha
        | cons e t ih =>
          refine ih _ (fun x hx => hl x (by simp [hx])) ⟨setWf_insert _ ha.1, fun u hu => ?_⟩
          rcases mem_setInsert.1 hu with h | h
          · subst h; exact hl e (by simp)
          · exact ha.2 u h
      refine fold _ _ (fun e he => ?_) ⟨base, fun u hu => ?_⟩
      · have := (List.mem_filter.1 he).2
        simp only [Bool.and_eq_true] at this
        exact (inIff _).1 this.2
      · exact (inIff _).1 (List.mem_filter.1 hu).2
    have low : ∀ u ∈ s.poison.filter (fun u => decide (32 * u < dst)), 32 * u < dst := by
      intro u hu; simpa using (List.mem_filter.1 hu).2
    have high : ∀ u ∈ s.poison.filter (fun u => decide (dst + n ≤ 32 * u)), dst + n ≤ 32 * u := by
      intro u hu; simpa using (List.mem_filter.1 hu).2
    have mid : ∀ u ∈ units.map (fun u => u - src / 32 + dst / 32), dst ≤ 32 * u ∧ 32 * u < dst + n := by
      intro u hu
      obtain ⟨v, hv, rfl⟩ := List.mem_map.1 hu
      have := range.2 v hv
      show dst ≤ 32 * (v - src / 32 + dst / 32) ∧ 32 * (v - src / 32 + dst / 32) < dst + n
      omega
    have wmid : setWf (units.map (fun u => u - src / 32 + dst / 32)) = true := by
      refine setWf_map _ range.1 (fun a ha b hb hab => ?_)
      have := range.2 a ha
      omega
    refine setWf_append (setWf_append (setWf_filter _ c.poison) wmid ?_) (setWf_filter _ c.poison) ?_
    · intro a ha b hb
      have := low a ha; have := mid b hb
      omega
    · intro a ha b hb
      have := high b hb
      rcases List.mem_append.1 ha with ha | ha
      · have := low a ha; omega
      · have := mid a ha; omega

theorem State.bankImages_kept {r₀ s : State} (h₀ : Kept r₀ s) : Kept r₀ s.bankImages := by
  unfold State.bankImages
  refine Kept.foldl (fun s k h => Kept.ite (State.imageCopy_kept ?_ ?_ ?_ h) h) h₀ <;> omega

theorem State.mramBlock_kept {r₀ s : State} {o bs} (h₀ : Kept r₀ s) : Kept r₀ (s.mramBlock o bs) := by
  have cells (bs : List Byte) (k : Nat) :
      CellsWf (((bs.zipIdx k).filter (fun p => p.1 != 0)).map (fun p => (o + p.2, p.1)))
        ∧ ∀ c ∈ ((bs.zipIdx k).filter (fun p => p.1 != 0)).map (fun p => (o + p.2, p.1)), o + k ≤ c.1 ∧ c.1 < o + k + bs.length := by
    induction bs generalizing k with
    | nil => exact ⟨CellsWf.nil, by simp⟩
    | cons b t ih =>
      obtain ⟨h1, h2⟩ := ih (k + 1)
      have up : ∀ c ∈ ((t.zipIdx (k + 1)).filter (fun p => p.1 != 0)).map (fun p => (o + p.2, p.1)),
          o + k ≤ c.1 ∧ c.1 < o + k + (b :: t).length := by
        intro c hc
        have := h2 c hc
        simp only [List.length_cons]
        omega
      simp only [List.zipIdx_cons, List.filter_cons]
      split
      · rename_i hb
        simp only [List.map_cons]
        refine ⟨⟨?_, ?_⟩, ?_⟩
        · exact SMap.above_of_mem h1.1 (fun e he => by have := (h2 e he).1; omega)
        · intro c hc
          rcases List.mem_cons.1 hc with e | hc
          · subst e; simpa using hb
          · exact h1.2 c hc
        · intro c hc
          rcases List.mem_cons.1 hc with e | hc
          · subst e; simp
          · exact up c hc
      · exact ⟨h1, up⟩
  refine Kept.put rfl (fun c => ⟨c.mem, ?_, c.regs, c.poison, c.damage⟩) h₀
  obtain ⟨h1, h2⟩ := cells bs 0
  exact c.mram.splice h1 (fun c hc => by have := h2 c hc; omega) (by omega)

theorem State.dumpSlot_kept {r₀ : State} {s : State} {cause domain taker time strike images snapped} (h₀ : Kept r₀ s) : Kept r₀ (State.dumpSlot s cause domain taker time strike images snapped) := by
  unfold State.dumpSlot
  extract_lets x1 x2 s3 x4 s5
  clear_value x1 x2
  have h6 : Kept r₀ s3 := by
    unfold s3
    refine State.mramBlock_kept ?_
    assumption
  clear_value s3
  clear_value x4
  have h7 : Kept r₀ s5 := by
    unfold s5
    refine Kept.upd rfl ?_
    assumption
  clear_value s5
  refine State.setFld_kept ?_
  refine State.setFld_kept ?_
  assumption

theorem State.dumpStart_kept {r₀ : State} {s : State} (h₀ : Kept r₀ s) : Kept r₀ (State.dumpStart s) := by
  unfold State.dumpStart
  refine Kept.ite ?_ ?_
  · assumption
  · extract_lets x1 s2
    clear_value x1
    have h3 : Kept r₀ s2 := by
      unfold s2
      refine Kept.upd rfl ?_
      assumption
    clear_value s2
    refine State.dumpSlot_kept ?_
    refine State.bankImages_kept ?_
    assumption

theorem State.handoverDone_kept {r₀ : State} {s : State} (h₀ : Kept r₀ s) : Kept r₀ (State.handoverDone s) := by
  unfold State.handoverDone
  split
  · assumption
  · extract_lets x1 s2 s3 x4
    clear_value x1
    have h5 : Kept r₀ s2 := by
      unfold s2
      refine State.setFld_kept ?_
      refine State.setFld_kept ?_
      assumption
    clear_value s2
    have h6 : Kept r₀ s3 := by
      unfold s3
      refine State.evrExtreme_kept ?_
      assumption
    clear_value s3
    clear_value x4
    refine Kept.upd rfl ?_
    assumption

theorem State.evrCommit_kept {r₀ : State} {s : State} (h₀ : Kept r₀ s) : Kept r₀ (State.evrCommit s) := by
  unfold State.evrCommit
  extract_lets x1 s2
  clear_value x1
  have h3 : Kept r₀ s2 := by
    unfold s2
    refine Kept.foldl (fun s4 x5 h6 => ?_) ?_
    · refine State.mramBlock_kept ?_
      assumption
    · assumption
  clear_value s2
  refine State.setFld_kept ?_
  assumption

theorem State.evrClear_kept {r₀ : State} {s : State} (h₀ : Kept r₀ s) : Kept r₀ (State.evrClear s) := by
  unfold State.evrClear
  extract_lets s1
  have h2 : Kept r₀ s1 := by
    unfold s1
    refine State.mramBlock_kept ?_
    assumption
  clear_value s1
  refine Kept.upd rfl ?_
  assumption

theorem State.gateOff_kept {r₀ : State} {s : State} (h₀ : Kept r₀ s) : Kept r₀ (State.gateOff s) := by
  unfold State.gateOff
  refine Kept.upd rfl ?_
  assumption

theorem State.syncAll_kept {r₀ : State} {s : State} (h₀ : Kept r₀ s) : Kept r₀ (State.syncAll s) := by
  unfold State.syncAll
  refine Kept.foldl (fun s1 x2 h3 => ?_) ?_
  · refine State.syncSrc_kept ?_
    assumption
  · assumption

theorem State.refence_kept {r₀ : State} {s : State} (h₀ : Kept r₀ s) : Kept r₀ (State.refence s) := by
  unfold State.refence
  extract_lets s1 s2
  have h3 : Kept r₀ s1 := by
    unfold s1
    refine Kept.foldl (fun s4 x5 h6 => ?_) ?_
    · refine Kept.ite ?_ ?_
      · refine State.fenceUnit_kept ?_
        assumption
      · assumption
    · assumption
  clear_value s1
  have h7 : Kept r₀ s2 := by
    unfold s2
    refine Kept.foldl (fun s8 x9 h10 => ?_) ?_
    · refine Kept.ite ?_ ?_
      · refine State.fenceStream_kept ?_
        assumption
      · assumption
    · assumption
  clear_value s2
  refine Kept.foldl (fun s11 x12 h13 => ?_) ?_
  · refine Kept.ite ?_ ?_
    · refine State.fenceCore_kept ?_
      assumption
    · assumption
  · assumption

theorem State.enterOos_kept {r₀ : State} {s : State} {count} (h₀ : Kept r₀ s) : Kept r₀ (State.enterOos s count) := by
  unfold State.enterOos
  extract_lets s1 s2 s3 x4 x5 x6 s7
  have h8 : Kept r₀ s1 := by
    unfold s1
    refine State.logWrite_kept ?_
    assumption
  clear_value s1
  have h9 : Kept r₀ s2 := by
    unfold s2
    refine State.setFld_kept ?_
    refine State.setFld_kept ?_
    refine State.setFld_kept ?_
    assumption
  clear_value s2
  have h10 : Kept r₀ s3 := by
    unfold s3
    refine State.stopEmber_kept ?_
    refine State.setFld_kept ?_
    assumption
  clear_value s3
  clear_value x4 x5 x6
  have h11 : Kept r₀ s7 := by
    unfold s7
    refine Kept.upd rfl ?_
    assumption
  clear_value s7
  refine State.fclEvent_kept ?_
  refine State.evrCounter_kept ?_
  assumption

theorem State.dropWork_kept {r₀ : State} {s : State} (h₀ : Kept r₀ s) : Kept r₀ (State.dropWork s) := by
  unfold State.dropWork
  extract_lets s1 s2 x3
  have h4 : Kept r₀ s1 := by
    unfold s1
    refine Kept.foldl (fun s5 x6 h7 => ?_) ?_
    · refine Kept.ite ?_ ?_
      · refine State.stopUnit_kept ?_
        assumption
      · assumption
    · assumption
  clear_value s1
  have h8 : Kept r₀ s2 := by
    unfold s2
    refine Kept.foldl (fun s9 x10 h11 => ?_) ?_
    · refine Kept.ite ?_ ?_
      · refine State.setFld_kept ?_
        assumption
      · assumption
    · assumption
  clear_value s2
  clear_value x3
  refine Kept.upd rfl ?_
  assumption

theorem State.advanceAll_kept {r₀ : State} {s : State} (h₀ : Kept r₀ s) : Kept r₀ (State.advanceAll s) := by
  unfold State.advanceAll
  extract_lets s1
  have h2 : Kept r₀ s1 := by
    unfold s1
    refine Kept.foldl (fun s3 x4 h5 => ?_) ?_
    · refine State.advanceGen_kept ?_
      assumption
    · assumption
  clear_value s1
  refine Kept.foldl (fun s6 x7 h8 => ?_) ?_
  · refine State.gateForget_kept ?_
    refine State.setFld_kept ?_
    refine State.setCtxState_kept ?_
    assumption
  · refine Kept.upd rfl ?_
    assumption

theorem State.abortJobs_kept {r₀ : State} {s : State} (h₀ : Kept r₀ s) : Kept r₀ (State.abortJobs s) := by
  unfold State.abortJobs
  extract_lets s1 s2 x3 x4
  have h5 : Kept r₀ s1 := by
    unfold s1
    refine Kept.foldl (fun s6 x7 h8 => ?_) ?_
    · refine State.retire_kept ?_
      assumption
    · assumption
  clear_value s1
  have h9 : Kept r₀ s2 := by
    unfold s2
    refine Kept.foldl (fun s10 x11 h12 => ?_) ?_
    · refine Kept.foldl (fun s13 x14 h15 => ?_) ?_
      · refine State.writeOneRec_kept ?_
        assumption
      · assumption
    · assumption
  clear_value s2
  clear_value x3 x4
  refine Kept.upd rfl ?_
  assumption

theorem State.tellPeers_kept {r₀ : State} {s : State} {domain} (h₀ : Kept r₀ s) : Kept r₀ (State.tellPeers s domain) := by
  unfold State.tellPeers
  extract_lets s1
  have h2 : Kept r₀ s1 := by
    unfold s1
    refine Kept.foldl (fun s3 x4 h5 => ?_) ?_
    · refine State.linkSend_kept ?_
      assumption
    · assumption
  clear_value s1
  refine Kept.foldl (fun s6 x7 h8 => ?_) ?_
  · refine State.announceGen_kept ?_
    assumption
  · assumption

theorem State.computeReset_kept {r₀ : State} {s : State} {taker cause} (h₀ : Kept r₀ s) : Kept r₀ (State.computeReset s taker cause) := by
  unfold State.computeReset
  refine Kept.ite ?_ ?_
  · assumption
  · extract_lets x1 x2 s3 x4 x5 x6 s7 s8 x9 x10 s11 x12 s13 s14 s15 s16 s17 s18 s19 s20 x21 s22
    clear_value x1 x2
    have h23 : Kept r₀ s3 := by
      unfold s3
      refine State.evrCounter_kept ?_
      refine State.logWrite_kept ?_
      assumption
    clear_value s3
    clear_value x4 x5 x6
    have h24 : Kept r₀ s7 := by
      unfold s7
      refine Kept.upd rfl ?_
      assumption
    clear_value s7
    have h25 : Kept r₀ s8 := by
      unfold s8
      refine State.count_kept ?_
      refine State.setFld_kept ?_
      assumption
    clear_value s8
    clear_value x9 x10
    have h26 : Kept r₀ s11 := by
      unfold s11
      refine State.setFld_kept ?_
      assumption
    clear_value s11
    clear_value x12
    have h27 : Kept r₀ s13 := by
      unfold s13
      refine Kept.upd rfl ?_
      assumption
    clear_value s13
    have h28 : Kept r₀ s14 := by
      unfold s14
      refine State.snapTrigger_kept ?_
      refine State.dropWork_kept ?_
      assumption
    clear_value s14
    have h29 : Kept r₀ s15 := by
      unfold s15
      refine State.bankImages_kept ?_
      refine State.evrCommit_kept ?_
      refine State.abortJobs_kept ?_
      assumption
    clear_value s15
    have h30 : Kept r₀ s16 := by
      unfold s16
      refine State.dumpSlot_kept ?_
      assumption
    clear_value s16
    have h31 : Kept r₀ s17 := by
      unfold s17
      refine State.setFld_kept ?_
      refine State.tellPeers_kept ?_
      refine State.advanceAll_kept ?_
      assumption
    clear_value s17
    have h32 : Kept r₀ s18 := by
      unfold s18
      refine State.gateOff_kept ?_
      assumption
    clear_value s18
    have h33 : Kept r₀ s19 := by
      unfold s19
      refine Kept.ite ?_ ?_
      · refine State.setFld_kept ?_
        assumption
      · assumption
    clear_value s19
    have h34 : Kept r₀ s20 := by
      unfold s20
      refine State.dramState_kept ?_
      assumption
    clear_value s20
    clear_value x21
    have h35 : Kept r₀ s22 := by
      unfold s22
      refine Kept.upd rfl ?_
      assumption
    clear_value s22
    refine Kept.ite ?_ ?_
    · refine State.enterOos_kept ?_
      assumption
    · assumption

theorem State.logWindow_kept {r₀ : State} {s : State} (h₀ : Kept r₀ s) : Kept r₀ (State.logWindow s).1 := by
  unfold State.logWindow
  extract_lets x1 x2 s3
  clear_value x1 x2
  have h4 : Kept r₀ s3 := by
    unfold s3
    refine Kept.ite ?_ ?_
    · refine State.setFld_kept ?_
      refine State.setFld_kept ?_
      assumption
    · refine State.setFld_kept ?_
      assumption
  clear_value s3
  refine Kept.pair ?_
  assumption

theorem State.evrWindow_kept {r₀ : State} {s : State} (h₀ : Kept r₀ s) : Kept r₀ (State.evrWindow s).1 := by
  unfold State.evrWindow
  extract_lets x1 x2 s3
  clear_value x1 x2
  have h4 : Kept r₀ s3 := by
    unfold s3
    refine Kept.ite ?_ ?_
    · refine State.setFld_kept ?_
      refine State.setFld_kept ?_
      assumption
    · refine State.setFld_kept ?_
      assumption
  clear_value s3
  refine Kept.pair ?_
  assumption

theorem State.snpWindow_kept {r₀ : State} {s : State} (h₀ : Kept r₀ s) : Kept r₀ (State.snpWindow s).1 := by
  unfold State.snpWindow
  extract_lets x1
  clear_value x1
  refine Kept.iteFst ?_ ?_
  · refine Kept.pair ?_
    refine State.setFld_kept ?_
    assumption
  · refine Kept.pair ?_
    refine State.setFld_kept ?_
    assumption

theorem State.emptyCompute_kept {r₀ : State} {s : State} (h₀ : Kept r₀ s) : Kept r₀ (State.emptyCompute s) := by
  unfold State.emptyCompute
  extract_lets x0 s1
  clear_value x0
  have h2 : Kept r₀ s1 := by
    unfold s1
    refine Kept.upd rfl ?_
    assumption
  clear_value s1
  refine State.zeroRange_kept ?_
  refine State.zeroRange_kept ?_
  refine State.zeroRange_kept ?_
  assumption

theorem State.computeRelease_kept {r₀ : State} {s : State} (h₀ : Kept r₀ s) : Kept r₀ (State.computeRelease s) := by
  unfold State.computeRelease
  extract_lets s1 s2 s3 s4 x5 s6 s7 s8 s9
  have h10 : Kept r₀ s1 := by
    unfold s1
    refine State.emptyCompute_kept ?_
    refine State.resetRegs_kept ?_
    refine State.setFld_kept ?_
    assumption
  clear_value s1
  have h11 : Kept r₀ s2 := by
    unfold s2
    refine Kept.ite ?_ ?_
    · assumption
    · refine State.setFld_kept ?_
      refine State.setFld_kept ?_
      refine State.setFld_kept ?_
      assumption
  clear_value s2
  have h12 : Kept r₀ s3 := by
    unfold s3
    refine Kept.ite ?_ ?_
    · refine State.wr_kept ?_
      refine State.wr64_kept ?_
      refine State.wr_kept ?_
      assumption
    · assumption
  clear_value s3
  have h13 : Kept r₀ s4 := by
    unfold s4
    refine State.setFld_kept ?_
    refine State.setFld_kept ?_
    assumption
  clear_value s4
  clear_value x5
  have h14 : Kept r₀ s6 := by
    unfold s6
    refine Kept.upd rfl ?_
    assumption
  clear_value s6
  have h15 : Kept r₀ s7 := by
    unfold s7
    refine State.setFld_kept ?_
    refine State.dramState_kept ?_
    assumption
  clear_value s7
  have h16 : Kept r₀ s8 := by
    unfold s8
    refine State.fclEvent_kept ?_
    refine State.refence_kept ?_
    assumption
  clear_value s8
  have h17 : Kept r₀ s9 := by
    unfold s9
    refine Kept.foldl (fun s18 x19 h20 => ?_) ?_
    · refine State.linkSend_kept ?_
      assumption
    · assumption
  clear_value s9
  refine State.syncAll_kept ?_
  refine State.bellowsSwitched_kept ?_
  refine State.handoverDone_kept ?_
  assumption

theorem State.takeSensors_kept {r₀ : State} {s : State} {x} (h₀ : Kept r₀ s) : Kept r₀ (State.takeSensors s x) := by
  unfold State.takeSensors
  extract_lets s1 s2
  have h3 : Kept r₀ s1 := by
    unfold s1
    refine Kept.upd rfl ?_
    assumption
  clear_value s1
  have h4 : Kept r₀ s2 := by
    unfold s2
    refine State.setFld_kept ?_
    refine State.setFld_kept ?_
    assumption
  clear_value s2
  refine State.setFld_kept ?_
  assumption

theorem execEvrSample_completes {s : State} {x} : Completes s (execEvrSample x s) := by
  unfold execEvrSample
  refine Completes.next ?_
  refine Kept.ite ?_ ?_
  · exact Kept.refl
  · extract_lets s1 s2 s3 s4
    have h5 : Kept s s1 := by
      unfold s1
      refine State.takeSensors_kept ?_
      refine State.every_kept ?_
      exact Kept.refl
    clear_value s1
    have h6 : Kept s s2 := by
      unfold s2
      refine State.evrHist_kept ?_
      refine State.evrHist_kept ?_
      refine State.evrHist_kept ?_
      assumption
    clear_value s2
    have h7 : Kept s s3 := by
      unfold s3
      refine State.evrExtreme_kept ?_
      refine State.evrExtreme_kept ?_
      refine State.evrExtreme_kept ?_
      assumption
    clear_value s3
    have h8 : Kept s s4 := by
      unfold s4
      refine State.evrExtreme_kept ?_
      refine State.evrExtreme_kept ?_
      refine State.evrExtreme_kept ?_
      assumption
    clear_value s4
    refine State.evrExtreme_kept ?_
    refine State.evrExtreme_kept ?_
    refine State.evrExtreme_kept ?_
    assumption

theorem execAutoComputeReset_completes {s : State} : Completes s (execAutoComputeReset s) := by
  unfold execAutoComputeReset
  refine Completes.next ?_
  refine Kept.ite ?_ ?_
  · exact Kept.refl
  · refine Kept.ite ?_ ?_
    · refine State.computeReset_kept ?_
      exact Kept.refl
    · refine Kept.ite ?_ ?_
      · refine State.computeReset_kept ?_
        exact Kept.refl
      · exact Kept.refl

theorem execEvrCommitTimer_completes {s : State} : Completes s (execEvrCommitTimer s) := by
  unfold execEvrCommitTimer
  refine Completes.next ?_
  refine Kept.ite ?_ ?_
  · exact Kept.refl
  · extract_lets s1
    have h2 : Kept s s1 := by
      unfold s1
      refine State.count_kept ?_
      refine State.every_kept ?_
      exact Kept.refl
    clear_value s1
    refine State.evrCommit_kept ?_
    refine State.evrAdd_kept ?_
    assumption

end Sys2Proof.Machine
end

