-- ==== Sys2Proof/Laws/Kept/Hooks.lean ====
section
/-! SUPPORT. What the operations of Machine/Hooks.lean keep. -/

namespace Sys2Proof.Machine

theorem State.when_kept {r₀ s : State} {c f} (hf : ∀ s, Kept r₀ s → Kept r₀ (f s)) (h₀ : Kept r₀ s) : Kept r₀ (s.when c f) :=
  Kept.ite (hf s h₀) h₀

theorem State.hookTim_kept {r₀ : State} {s : State} {w} (h₀ : Kept r₀ s) : Kept r₀ (State.hookTim s w) := by
  unfold State.hookTim
  refine Kept.ite ?_ ?_
  · refine State.when_kept (fun s1 h2 => ?_) ?_
    · refine State.restrike_kept ?_
      assumption
    · refine State.when_kept (fun s4 h5 => ?_) ?_
      · refine State.sweepJobs_kept ?_
        refine State.runStop_kept ?_
        assumption
      · refine State.when_kept (fun s7 h8 => ?_) ?_
        · refine State.runStart_kept ?_
          assumption
        · assumption
  · refine Kept.ite ?_ ?_
    · refine State.restrike_kept ?_
      assumption
    · refine Kept.ite ?_ ?_
      · refine State.gptpConfig_kept ?_
        assumption
      · assumption

theorem State.ctxEnabled_kept {r₀ : State} {s : State} {c} (h₀ : Kept r₀ s) : Kept r₀ (State.ctxEnabled s c) := by
  unfold State.ctxEnabled
  refine State.setCtxState_kept ?_
  refine State.setFld_kept ?_
  assumption

theorem State.hookHrt_kept {r₀ : State} {s : State} {w} (h₀ : Kept r₀ s) : Kept r₀ (State.hookHrt s w) := by
  unfold State.hookHrt
  extract_lets x1 x2 x3 s4
  clear_value x1 x2 x3
  have h5 : Kept r₀ s4 := by
    unfold s4
    refine State.when_kept (fun s6 h7 => ?_) ?_
    · refine State.scrubDone_kept ?_
      assumption
    · refine State.when_kept (fun s9 h10 => ?_) ?_
      · refine State.teardownWritten_kept ?_
        assumption
      · assumption
  clear_value s4
  refine Kept.ite ?_ ?_
  · refine State.when_kept (fun s12 h13 => ?_) ?_
    · refine State.wr_kept ?_
      assumption
    · assumption
  · refine Kept.ite ?_ ?_
    · refine State.when_kept (fun s15 h16 => ?_) ?_
      · refine State.ctxEnabled_kept ?_
        assumption
      · assumption
    · refine Kept.ite ?_ ?_
      · refine State.when_kept (fun s18 h19 => ?_) ?_
        · refine State.wr_kept ?_
          assumption
        · assumption
      · refine Kept.ite ?_ ?_
        · refine State.when_kept (fun s21 h22 => ?_) ?_
          · refine State.setFld_kept ?_
            refine State.wr_kept ?_
            assumption
          · assumption
        · assumption

theorem State.hookNlk_kept {r₀ : State} {s : State} {w} (h₀ : Kept r₀ s) : Kept r₀ (State.hookNlk s w) := by
  unfold State.hookNlk
  refine Kept.ite ?_ ?_
  · extract_lets x1
    clear_value x1
    refine Kept.ite ?_ ?_
    · refine State.startTraining_kept ?_
      assumption
    · refine Kept.ite ?_ ?_
      · refine State.setFld_kept ?_
        refine State.portLeaves_kept ?_
        assumption
      · refine Kept.ite ?_ ?_
        · refine State.setFld_kept ?_
          assumption
        · refine State.when_kept (fun s2 h3 => ?_) ?_
          · refine State.startTraining_kept ?_
            assumption
          · assumption
  · assumption

theorem State.pairWritten_kept {r₀ : State} {s : State} {p req} (h₀ : Kept r₀ s) : Kept r₀ (State.pairWritten s p req) := by
  unfold State.pairWritten
  extract_lets s1 x2 x3 x4
  have h5 : Kept r₀ s1 := by
    unfold s1
    refine Kept.ite ?_ ?_
    · refine Kept.upd rfl ?_
      assumption
    · assumption
  clear_value s1
  clear_value x2 x3
  have h7 : ∀ a6, Kept r₀ (x4 a6) := by
    intro a6
    unfold x4
    refine State.setFld_kept ?_
    refine State.setFld_kept ?_
    assumption
  refine Kept.ite ?_ ?_
  · refine Kept.ite ?_ ?_
    · refine h7 _ 
    · refine Kept.ite ?_ ?_
      · refine h7 _ 
      · assumption
  · refine Kept.ite ?_ ?_
    · refine h7 _ 
    · refine Kept.ite ?_ ?_
      · refine h7 _ 
      · assumption

theorem State.hookUnit_kept {r₀ : State} {s : State} {w} (h₀ : Kept r₀ s) : Kept r₀ (State.hookUnit s w) := by
  unfold State.hookUnit
  extract_lets x1 x2 s3 s4
  clear_value x1 x2
  have h5 : Kept r₀ s3 := by
    unfold s3
    refine State.when_kept (fun s6 h7 => ?_) ?_
    · refine State.fenceUnit_kept ?_
      assumption
    · assumption
  clear_value s3
  have h9 : Kept r₀ s4 := by
    unfold s4
    refine State.when_kept (fun s10 h11 => ?_) ?_
    · refine State.softReset_kept ?_
      assumption
    · assumption
  clear_value s4
  refine Kept.ite ?_ ?_
  · refine State.when_kept (fun s13 h14 => ?_) ?_
    · refine State.schedule_kept ?_
      assumption
    · assumption
  · refine Kept.ite ?_ ?_
    · refine Kept.ite ?_ ?_
      · refine State.pairWritten_kept ?_
        assumption
      · assumption
    · refine Kept.ite ?_ ?_
      · refine State.when_kept (fun s16 h17 => ?_) ?_
        · refine State.arm_kept ?_
          assumption
        · assumption
      · refine Kept.ite ?_ ?_
        · refine Kept.ite ?_ ?_
          · refine State.when_kept (fun s19 h20 => ?_) ?_
            · refine Kept.upd rfl ?_
              assumption
            · assumption
          · refine Kept.ite ?_ ?_
            · refine State.when_kept (fun s22 h23 => ?_) ?_
              · refine State.arm_kept ?_
                assumption
              · refine State.when_kept (fun s25 h26 => ?_) ?_
                · refine State.arm_kept ?_
                  assumption
                · assumption
            · assumption
        · refine Kept.ite ?_ ?_
          · refine Kept.ite ?_ ?_
            · refine State.when_kept (fun s28 h29 => ?_) ?_
              · refine State.arm_kept ?_
                assumption
              · refine State.when_kept (fun s31 h32 => ?_) ?_
                · refine State.arm_kept ?_
                  assumption
                · assumption
            · assumption
          · refine Kept.ite ?_ ?_
            · refine State.when_kept (fun s34 h35 => ?_) ?_
              · refine State.arm_kept ?_
                assumption
              · refine State.when_kept (fun s37 h38 => ?_) ?_
                · refine State.arm_kept ?_
                  assumption
                · assumption
            · assumption

theorem State.hookBlw_kept {r₀ : State} {s : State} {w} (h₀ : Kept r₀ s) : Kept r₀ (State.hookBlw s w) := by
  unfold State.hookBlw
  extract_lets x1 x2
  clear_value x1
  have h4 : ∀ a3, Kept r₀ (x2 a3) := by
    intro a3
    unfold x2
    refine State.when_kept (fun s5 h6 => ?_) ?_
    · refine State.fenceStream_kept ?_
      assumption
    · refine State.when_kept (fun s8 h9 => ?_) ?_
      · refine State.streamEnabled_kept ?_
        assumption
      · assumption
  refine Kept.ite ?_ ?_
  · refine State.when_kept (fun s11 h12 => ?_) ?_
    · refine State.bellowsSwitched_kept ?_
      assumption
    · refine Kept.foldl (fun s14 x15 h16 => ?_) ?_
      · refine State.chanSwitched_kept ?_
        assumption
      · assumption
  · refine Kept.ite ?_ ?_
    · refine h4 _ 
    · refine Kept.ite ?_ ?_
      · refine h4 _ 
      · refine Kept.ite ?_ ?_
        · refine State.when_kept (fun s17 h18 => ?_) ?_
          · refine State.chanAbortNow_kept ?_
            assumption
          · refine State.chanSwitched_kept ?_
            assumption
        · assumption

theorem State.hookMem_kept {r₀ : State} {s : State} {w} (h₀ : Kept r₀ s) : Kept r₀ (State.hookMem s w) := by
  unfold State.hookMem
  refine Kept.ite ?_ ?_
  · extract_lets s1
    have h2 : Kept r₀ s1 := by
      unfold s1
      refine State.when_kept (fun s3 h4 => ?_) ?_
      · refine Kept.upd rfl ?_
        assumption
      · assumption
    clear_value s1
    refine State.when_kept (fun s6 h7 => ?_) ?_
    · refine Kept.upd rfl ?_
      assumption
    · assumption
  · assumption

theorem State.hookSnp_kept {r₀ : State} {s : State} {w} (h₀ : Kept r₀ s) : Kept r₀ (State.hookSnp s w) := by
  unfold State.hookSnp
  extract_lets x1
  clear_value x1
  refine Kept.ite ?_ ?_
  · refine State.when_kept (fun s2 h3 => ?_) ?_
    · refine State.snapTrigger_kept ?_
      assumption
    · assumption
  · refine Kept.ite ?_ ?_
    · refine State.when_kept (fun s5 h6 => ?_) ?_
      · refine Kept.upd rfl ?_
        assumption
      · assumption
    · refine Kept.ite ?_ ?_
      · refine State.when_kept (fun s8 h9 => ?_) ?_
        · refine State.dumpStart_kept ?_
          assumption
        · assumption
      · assumption

theorem State.hookSfi_kept {r₀ : State} {s : State} {before w} (h₀ : Kept r₀ s) : Kept r₀ (State.hookSfi s before w) := by
  unfold State.hookSfi
  refine Kept.ite ?_ ?_
  · extract_lets s1 s2
    have h3 : Kept r₀ s1 := by
      unfold s1
      refine State.armWritten_kept ?_
      assumption
    clear_value s1
    have h4 : Kept r₀ s2 := by
      unfold s2
      refine Kept.ite ?_ ?_
      · refine Kept.ite ?_ ?_
        · refine State.handoverDone_kept ?_
          assumption
        · assumption
      · assumption
    clear_value s2
    refine State.setFlag_kept ?_
    assumption
  · refine Kept.ite ?_ ?_
    · refine State.when_kept (fun s5 h6 => ?_) ?_
      · refine State.cmpInject_kept ?_
        assumption
      · refine State.when_kept (fun s8 h9 => ?_) ?_
        · refine State.startSelftest_kept ?_
          assumption
        · assumption
    · assumption

theorem State.clearFirst_kept {r₀ : State} {s : State} (h₀ : Kept r₀ s) : Kept r₀ (State.clearFirst s) := by
  unfold State.clearFirst
  refine State.wr_kept ?_
  refine State.wr64_kept ?_
  refine State.wr_kept ?_
  assumption

theorem State.injectFault_kept {r₀ : State} {s : State} {v} (h₀ : Kept r₀ s) : Kept r₀ (State.injectFault s v) := by
  unfold State.injectFault
  extract_lets x1
  clear_value x1
  refine State.report_kept ?_
  assumption

theorem State.hookFcl_kept {r₀ : State} {s : State} {before w} (h₀ : Kept r₀ s) : Kept r₀ (State.hookFcl s before w) := by
  unfold State.hookFcl
  extract_lets x1 x2 x3
  clear_value x1 x2 x3
  refine Kept.ite ?_ ?_
  · refine State.when_kept (fun s4 h5 => ?_) ?_
    · refine State.clearFirst_kept ?_
      assumption
    · assumption
  · refine Kept.ite ?_ ?_
    · refine Kept.upd rfl ?_
      assumption
    · refine Kept.ite ?_ ?_
      · refine State.when_kept (fun s7 h8 => ?_) ?_
        · refine State.injectFault_kept ?_
          assumption
        · assumption
      · refine Kept.ite ?_ ?_
        · refine State.wr_kept ?_
          assumption
        · refine Kept.ite ?_ ?_
          · refine State.when_kept (fun s10 h11 => ?_) ?_
            · refine State.setFld_kept ?_
              refine State.setFld_kept ?_
              assumption
            · assumption
          · assumption

theorem State.hookEvr_kept {r₀ : State} {s : State} {w} (h₀ : Kept r₀ s) : Kept r₀ (State.hookEvr s w) := by
  unfold State.hookEvr
  refine Kept.ite ?_ ?_
  · refine State.when_kept (fun s1 h2 => ?_) ?_
    · refine State.evrClear_kept ?_
      assumption
    · refine State.when_kept (fun s4 h5 => ?_) ?_
      · refine State.evrCommit_kept ?_
        assumption
      · assumption
  · assumption

theorem State.hookHic_kept {r₀ : State} {s : State} {w} (h₀ : Kept r₀ s) : Kept r₀ (State.hookHic s w) := by
  unfold State.hookHic
  extract_lets x1 x2
  clear_value x1 x2
  refine Kept.ite ?_ ?_
  · refine State.hicCompleteBy_kept ?_
    assumption
  · refine Kept.ite ?_ ?_
    · refine State.hicXComplete_kept ?_
      assumption
    · refine Kept.ite ?_ ?_
      · refine State.hicEvent_kept ?_
        assumption
      · assumption

theorem State.hookTng_kept {r₀ : State} {s : State} {w} (h₀ : Kept r₀ s) : Kept r₀ (State.hookTng s w) := by
  unfold State.hookTng
  extract_lets x1
  clear_value x1
  refine Kept.ite ?_ ?_
  · refine Kept.foldl (fun s2 x3 h4 => ?_) ?_
    · refine State.chanSwitched_kept ?_
      assumption
    · assumption
  · refine Kept.ite ?_ ?_
    · refine State.when_kept (fun s5 h6 => ?_) ?_
      · refine State.chanAbortNow_kept ?_
        assumption
      · refine State.chanSwitched_kept ?_
        assumption
    · assumption

theorem State.hookDgt_kept {r₀ : State} {s : State} {w} (h₀ : Kept r₀ s) : Kept r₀ (State.hookDgt s w) := by
  unfold State.hookDgt
  extract_lets x1
  clear_value x1
  refine Kept.ite ?_ ?_
  · refine State.keyWord_kept ?_
    assumption
  · assumption

theorem State.hookBasic_kept {r₀ : State} {s : State} {before w} (h₀ : Kept r₀ s) : Kept r₀ (State.hookBasic s before w) := by
  unfold State.hookBasic
  extract_lets s1
  have h2 : Kept r₀ s1 := by
    unfold s1
    split
    · refine State.hookUnit_kept ?_
      assumption
    · refine State.hookUnit_kept ?_
      assumption
    · refine State.hookUnit_kept ?_
      assumption
    · refine State.hookUnit_kept ?_
      assumption
    · refine State.when_kept (fun s3 h4 => ?_) ?_
      · refine Kept.upd rfl ?_
        assumption
      · assumption
    · refine State.hookMem_kept ?_
      assumption
    · refine State.hookBlw_kept ?_
      assumption
    · refine State.hookTng_kept ?_
      assumption
    · refine State.hookHrt_kept ?_
      assumption
    · refine State.hookHic_kept ?_
      assumption
    · refine State.hookTim_kept ?_
      assumption
    · refine State.hookSfi_kept ?_
      assumption
    · refine State.hookFcl_kept ?_
      assumption
    · refine State.hookEvr_kept ?_
      assumption
    · refine State.hookSnp_kept ?_
      assumption
    · refine State.hookNlk_kept ?_
      assumption
    · refine State.hookDgt_kept ?_
      assumption
    · assumption
  clear_value s1
  refine Kept.foldl (fun s6 x7 h8 => ?_) ?_
  · refine State.syncSrc_kept ?_
    assumption
  · assumption

theorem State.fullRead_kept {r₀ : State} {s : State} {a} (h₀ : Kept r₀ s) : Kept r₀ (State.fullRead s a).1 := by
  unfold State.fullRead
  split
  · refine Kept.pair ?_
    assumption
  · extract_lets x1
    clear_value x1
    refine Kept.iteFst ?_ ?_
    · refine State.claimRead_kept ?_
      assumption
    · refine Kept.iteFst ?_ ?_
      · refine Kept.pair ?_
        assumption
      · refine Kept.iteFst ?_ ?_
        · refine State.logWindow_kept ?_
          assumption
        · refine Kept.iteFst ?_ ?_
          · refine State.evrWindow_kept ?_
            assumption
          · refine Kept.iteFst ?_ ?_
            · refine State.snpWindow_kept ?_
              assumption
            · refine State.regRead_kept ?_
              assumption

end Sys2Proof.Machine
end

