-- ==== Sys2Proof/Laws/Kept/Boot.lean ====
section
/-! SUPPORT. What the operations of Machine/Boot.lean keep. -/

namespace Sys2Proof.Machine

theorem State.place_kept {r₀ : State} {s : State} {a bs} (h₀ : Kept r₀ s) : Kept r₀ (State.place s a bs) := by
  unfold State.place
  refine State.setBytes_kept ?_
  refine State.zeroRange_kept ?_
  assumption

theorem State.blank_kept {r₀ s : State} {keep} (h₀ : Kept r₀ s) : Kept r₀ (s.blank keep) := by
  unfold State.blank
  extract_lets z rec bt md r r1
  have h1 : Kept r₀ r1 := Kept.foldl (fun s f h => State.setFld_kept h)
    (Kept.put rfl (fun c => ⟨CellsWf.nil, c.mram, SMap.wf_keep _ c.regs, rfl, rfl⟩) h₀)
  exact Kept.ite h1 (State.setFld_kept h1)

theorem State.sysState_kept {r₀ s : State} (h₀ : Kept r₀ s) : Kept r₀ s.sysState := by
  unfold State.sysState
  extract_lets inDram r
  have hb : Kept r₀ r := State.blank_kept h₀
  exact ⟨hb.queue, hb.sent, fun c =>
    ⟨(h₀.canon c).mem.keep _, (hb.canon c).mram, (hb.canon c).flash, (hb.canon c).regs, setWf_filter _ (h₀.canon c).poison,
      SMap.wf_keep (fun u => inDram (32 * u)) (h₀.canon c).damage⟩⟩

theorem State.scrubPlaced_kept {r₀ : State} {s : State} {img} (h₀ : Kept r₀ s) : Kept r₀ (State.scrubPlaced s img) := by
  unfold State.scrubPlaced
  refine Kept.foldl (fun s1 x2 h3 => ?_) ?_
  · refine Kept.ite ?_ ?_
    · refine State.zeroRange_kept ?_
      assumption
    · refine Kept.ite ?_ ?_
      · refine State.zeroRange_kept ?_
        refine State.zeroRange_kept ?_
        assumption
      · assumption
  · assumption

theorem State.dropImage_kept {r₀ : State} {s : State} {service} (h₀ : Kept r₀ s) : Kept r₀ (State.dropImage s service) := by
  unfold State.dropImage
  refine Kept.upd rfl ?_
  assumption

theorem State.placeRec_kept {r₀ : State} {s : State} {r} (h₀ : Kept r₀ s) : Kept r₀ (State.placeRec s r) := by
  unfold State.placeRec
  split
  · extract_lets s1 x2
    have h3 : Kept r₀ s1 := by
      unfold s1
      refine State.place_kept ?_
      assumption
    clear_value s1
    refine Kept.upd rfl ?_
    assumption
  · refine Kept.upd rfl ?_
    assumption
  · refine Kept.upd rfl ?_
    assumption
  · extract_lets x4 s5 x6
    clear_value x4
    have h7 : Kept r₀ s5 := by
      unfold s5
      refine State.place_kept ?_
      refine State.place_kept ?_
      assumption
    clear_value s5
    refine Kept.upd rfl ?_
    assumption
  · extract_lets s8
    have h9 : Kept r₀ s8 := by
      unfold s8
      refine State.place_kept ?_
      assumption
    clear_value s8
    refine Kept.upd rfl ?_
    assumption
  · refine Kept.upd rfl ?_
    assumption
  · assumption

theorem State.hookBoot_kept {r₀ : State} {s : State} {w} (h₀ : Kept r₀ s) : Kept r₀ (State.hookBoot s w) := by
  unfold State.hookBoot
  extract_lets x1 x2 s3 s4 s5
  clear_value x1
  have h9 : ∀ (a6 : State) a8, Kept r₀ a6 → Kept r₀ (x2 a6 a8) := by
    intro a6 a8 h7
    unfold x2
    extract_lets s10 x11
    have h12 : Kept r₀ s10 := by
      unfold s10
      refine State.setFld_kept ?_
      assumption
    clear_value s10
    refine Kept.upd rfl ?_
    assumption
  have h13 : Kept r₀ s3 := by
    unfold s3
    refine State.setFld_kept ?_
    assumption
  clear_value s3
  have h14 : Kept r₀ s4 := by
    unfold s4
    refine Kept.ite ?_ ?_
    · refine State.setFld_kept ?_
      assumption
    · assumption
  clear_value s4
  have h15 : Kept r₀ s5 := by
    unfold s5
    refine Kept.ite ?_ ?_
    · refine h9 _ _ ?_
      assumption
    · assumption
  clear_value s5
  refine Kept.ite ?_ ?_
  · refine h9 _ _ ?_
    assumption
  · assumption

theorem State.applyReg_kept {r₀ : State} {s : State} {off a v} (h₀ : Kept r₀ s) : Kept r₀ (State.applyReg s off a v) := by
  unfold State.applyReg
  split
  · extract_lets x1 s2
    clear_value x1
    have h3 : Kept r₀ s2 := by
      unfold s2
      refine State.hookBasic_kept ?_
      refine Kept.fst ‹_› ?_
      refine State.regWrite_kept ?_
      assumption
    clear_value s2
    refine Kept.ite ?_ ?_
    · refine State.hookBoot_kept ?_
      assumption
    · refine Kept.ite ?_ ?_
      · refine State.setFld_kept ?_
        assumption
      · assumption
  · refine Kept.fst ‹_› ?_
    refine State.regWrite_kept ?_
    assumption

theorem State.applyConfig_kept {r₀ : State} {s : State} {e} (h₀ : Kept r₀ s) : Kept r₀ (State.applyConfig s e) := by
  unfold State.applyConfig
  extract_lets x1 x2 s3 x4
  clear_value x1 x2
  have h5 : Kept r₀ s3 := by
    unfold s3
    refine Kept.ite ?_ ?_
    · assumption
    · refine State.cfgReport_kept ?_
      assumption
  clear_value s3
  refine Kept.ite ?_ ?_
  · refine State.cfgReport_kept ?_
    assumption
  · split
    · refine Kept.upd rfl ?_
      assumption
    · refine Kept.upd rfl ?_
      assumption
    · refine State.setFld_kept ?_
      assumption
    · refine Kept.upd rfl ?_
      assumption
    · refine Kept.upd rfl ?_
      assumption
    · refine Kept.upd rfl ?_
      assumption

theorem State.applyRec_kept {r₀ : State} {s : State} {r} (h₀ : Kept r₀ s) : Kept r₀ (State.applyRec s r) := by
  unfold State.applyRec
  split
  · refine Kept.foldl (fun s1 x2 h3 => ?_) ?_
    · refine State.applyReg_kept ?_
      assumption
    · assumption
  · refine Kept.foldl (fun s4 x5 h6 => ?_) ?_
    · refine State.applyConfig_kept ?_
      assumption
    · assumption
  · assumption

theorem State.noteFirmware_kept {r₀ : State} {s : State} (h₀ : Kept r₀ s) : Kept r₀ (State.noteFirmware s) := by
  unfold State.noteFirmware
  refine Kept.upd rfl ?_
  assumption

theorem State.runImage_kept {r₀ s : State} {img slot domain} (h₀ : Kept r₀ s) : Kept r₀ (s.runImage img slot domain) := by
  unfold State.runImage
  extract_lets s1 s2 s3 s4 s5
  have h1 : Kept r₀ s1 := State.noteFirmware_kept (Kept.foldl (fun s x h => State.placeRec_kept h) (State.dropImage_kept h₀))
  have h2 : Kept r₀ s2 := State.wr_kept (State.setFld_kept h1)
  have h3 : Kept r₀ s3 := by
    unfold s3
    split
    · exact State.setFld_kept h2
    · exact h2
  have h4 : Kept r₀ s4 := State.refence_kept h3
  have h5 : Kept r₀ s5 := Kept.foldl (fun s x h => State.applyRec_kept h) h4
  exact Kept.ite (State.enterOos_kept (State.dumpSlot_kept h4)) (Kept.upd rfl h5)

theorem State.noImage_kept {r₀ : State} {s : State} (h₀ : Kept r₀ s) : Kept r₀ (State.noImage s) := by
  unfold State.noImage
  extract_lets x1 s2
  have h3 : Kept r₀ s2 := by
    unfold s2
    refine Kept.upd rfl ?_
    assumption
  clear_value s2
  refine State.evrCounter_kept ?_
  refine State.setFld_kept ?_
  refine State.setFld_kept ?_
  assumption

theorem State.tryBoot_kept {r₀ : State} {a3 : State} {domain a2} (h₀ : Kept r₀ a3) : Kept r₀ (State.tryBoot domain a2 a3) := by
  induction a2 generalizing domain a3
  · unfold State.tryBoot
    refine State.noImage_kept ?_
    assumption
  · rename_i ih
    unfold State.tryBoot
    extract_lets x1 x2 s3
    clear_value x1
    have h4 : Kept r₀ s3 := by
      unfold s3
      refine Kept.ite ?_ ?_
      · refine Kept.upd rfl ?_
        assumption
      · assumption
    clear_value s3
    refine Kept.ite ?_ ?_
    · refine State.runImage_kept ?_
      assumption
    · refine ih ?_
      refine State.scrubPlaced_kept ?_
      assumption

theorem State.retireSlot_kept {r₀ : State} {s : State} {k} (h₀ : Kept r₀ s) : Kept r₀ (State.retireSlot s k) := by
  unfold State.retireSlot
  extract_lets x1
  clear_value x1
  split
  · refine Kept.ite ?_ ?_
    · refine State.setFld_kept ?_
      assumption
    · assumption
  · assumption

theorem State.bootUp_kept {r₀ : State} {s : State} {domain} (h₀ : Kept r₀ s) : Kept r₀ (State.bootUp s domain) := by
  unfold State.bootUp
  extract_lets s1
  have h2 : Kept r₀ s1 := by
    unfold s1
    refine State.retireSlot_kept ?_
    refine State.retireSlot_kept ?_
    refine State.dramState_kept ?_
    assumption
  clear_value s1
  refine State.tryBoot_kept ?_
  assumption

theorem State.sysReset_kept {r₀ : State} {s : State} {code why} (h₀ : Kept r₀ s) : Kept r₀ (State.sysReset s code why) := by
  unfold State.sysReset
  extract_lets s1 s2
  have h3 : Kept r₀ s1 := by
    unfold s1
    refine State.evrCommit_kept ?_
    assumption
  clear_value s1
  have h4 : Kept r₀ s2 := by
    unfold s2
    refine State.evrCounter_kept ?_
    refine State.logWrite_kept ?_
    assumption
  clear_value s2
  refine State.bootUp_kept ?_
  refine State.setFld_kept ?_
  refine State.sysState_kept ?_
  assumption

theorem State.pinsFall_kept {r₀ : State} {s : State} (h₀ : Kept r₀ s) : Kept r₀ (State.pinsFall s) := by
  unfold State.pinsFall
  extract_lets s1 s2
  have h3 : Kept r₀ s1 := by
    unfold s1
    refine Kept.ite ?_ ?_
    · refine State.send_kept ?_
      assumption
    · assumption
  clear_value s1
  have h4 : Kept r₀ s2 := by
    unfold s2
    refine Kept.ite ?_ ?_
    · refine State.send_kept ?_
      assumption
    · assumption
  clear_value s2
  refine Kept.ite ?_ ?_
  · refine State.send_kept ?_
    assumption
  · assumption

theorem execVinLoss_completes {s : State} : Completes s (execVinLoss s) := by
  unfold execVinLoss
  refine Completes.next ?_
  refine Kept.ite ?_ ?_
  · exact Kept.refl
  · extract_lets s1 x2
    have h3 : Kept s s1 := by
      unfold s1
      refine State.blank_kept ?_
      refine State.pinsFall_kept ?_
      exact Kept.refl
    clear_value s1
    clear_value x2
    refine Kept.upd rfl ?_
    assumption

theorem execVinStart_completes {s : State} : Completes s (execVinStart s) := by
  unfold execVinStart
  refine Completes.next ?_
  refine Kept.ite ?_ ?_
  · exact Kept.refl
  · refine Kept.upd rfl ?_
    exact Kept.refl

theorem execServiceImageBoot_completes {s : State} {image} : Completes s (execServiceImageBoot image s) := by
  unfold execServiceImageBoot
  refine Completes.next ?_
  refine Kept.ite ?_ ?_
  · exact Kept.refl
  · split
    · exact Kept.refl
    · refine Kept.ite ?_ ?_
      · exact Kept.refl
      · extract_lets s1 s2
        have h3 : Kept s s1 := by
          unfold s1
          refine State.evrCounter_kept ?_
          refine State.logWrite_kept ?_
          refine State.evrCommit_kept ?_
          exact Kept.refl
        clear_value s1
        have h4 : Kept s s2 := by
          unfold s2
          refine Kept.ite ?_ ?_
          · refine State.setFld_kept ?_
            exact Kept.refl
          · refine State.dramState_kept ?_
            refine State.setFld_kept ?_
            refine State.sysState_kept ?_
            assumption
        clear_value s2
        refine State.runImage_kept ?_
        assumption

theorem execOosSafeStateFrameTimer_completes {s : State} : Completes s (execOosSafeStateFrameTimer s) := by
  unfold execOosSafeStateFrameTimer
  refine Completes.next ?_
  refine Kept.ite ?_ ?_
  · exact Kept.refl
  · extract_lets s1 s2 x3
    have h4 : Kept s s1 := by
      unfold s1
      refine State.reach_kept ?_
      exact Kept.refl
    clear_value s1
    have h5 : Kept s s2 := by
      unfold s2
      refine State.queueFrame_kept ?_
      assumption
    clear_value s2
    refine Kept.upd rfl ?_
    assumption

theorem State.reloadEvr_kept {r₀ : State} {s : State} (h₀ : Kept r₀ s) : Kept r₀ (State.reloadEvr s) := by
  unfold State.reloadEvr
  refine Kept.foldl (fun s1 x2 h3 => ?_) ?_
  · split
    · assumption
    · refine Kept.upd rfl ?_
      assumption
  · assumption

theorem State.porst_kept {r₀ : State} {s : State} {vin} (h₀ : Kept r₀ s) : Kept r₀ (State.porst s vin) := by
  unfold State.porst
  extract_lets s1 x2 s3 s4
  have h5 : Kept r₀ s1 := by
    unfold s1
    refine State.send_kept ?_
    refine State.pinsFall_kept ?_
    assumption
  clear_value s1
  clear_value x2
  have h6 : Kept r₀ s3 := by
    unfold s3
    refine State.blank_kept ?_
    refine Kept.upd rfl ?_
    assumption
  clear_value s3
  have h7 : Kept r₀ s4 := by
    unfold s4
    refine State.setFld_kept ?_
    refine State.count_kept ?_
    refine State.reloadEvr_kept ?_
    assumption
  clear_value s4
  refine State.bootUp_kept ?_
  refine State.logWrite_kept ?_
  assumption

theorem execPorst_completes {s : State} {release} : Completes s (execPorst release s) := by
  unfold execPorst
  refine Completes.next ?_
  refine Kept.ite ?_ ?_
  · exact Kept.refl
  · refine State.porst_kept ?_
    exact Kept.refl

end Sys2Proof.Machine
end

