-- ==== Sys2Proof/Laws/Kept/Power.lean ====
section
/-! SUPPORT. What the operations of Machine/Power.lean keep. -/

namespace Sys2Proof.Machine

theorem State.modModes_kept {r₀ : State} {s : State} {f} (h₀ : Kept r₀ s) : Kept r₀ (State.modModes s f) := by
  unfold State.modModes
  refine Kept.upd rfl ?_
  assumption

theorem State.handOver_kept {r₀ : State} {s : State} {cause} (h₀ : Kept r₀ s) : Kept r₀ (State.handOver s cause) := by
  unfold State.handOver
  extract_lets s1 s2 s3 s4 s5 s6 s7
  have h8 : Kept r₀ s1 := by
    unfold s1
    refine State.setFld_kept ?_
    refine State.setFld_kept ?_
    refine State.setFld_kept ?_
    assumption
  clear_value s1
  have h9 : Kept r₀ s2 := by
    unfold s2
    refine State.modModes_kept ?_
    refine State.setFld_kept ?_
    assumption
  clear_value s2
  have h10 : Kept r₀ s3 := by
    unfold s3
    refine State.setFld_kept ?_
    refine State.gateOff_kept ?_
    assumption
  clear_value s3
  have h11 : Kept r₀ s4 := by
    unfold s4
    refine Kept.foldl (fun s12 x13 h14 => ?_) ?_
    · refine Kept.ite ?_ ?_
      · assumption
      · refine State.teardownWritten_kept ?_
        refine State.setFld_kept ?_
        assumption
    · assumption
  clear_value s4
  have h15 : Kept r₀ s5 := by
    unfold s5
    refine State.dramState_kept ?_
    assumption
  clear_value s5
  have h16 : Kept r₀ s6 := by
    unfold s6
    refine Kept.ite ?_ ?_
    · refine State.runStop_kept ?_
      refine State.setFld_kept ?_
      assumption
    · assumption
  clear_value s6
  have h17 : Kept r₀ s7 := by
    unfold s7
    refine State.setFld_kept ?_
    assumption
  clear_value s7
  refine Kept.ite ?_ ?_
  · assumption
  · refine State.runStart_kept ?_
    refine State.setFld_kept ?_
    assumption

theorem State.trigger_kept {r₀ : State} {s : State} {cause} (h₀ : Kept r₀ s) : Kept r₀ (State.trigger s cause) := by
  unfold State.trigger
  refine Kept.ite ?_ ?_
  · refine State.handOver_kept ?_
    assumption
  · refine Kept.ite ?_ ?_
    · refine State.modModes_kept ?_
      assumption
    · assumption

theorem State.enterNow_kept {r₀ : State} {s : State} (h₀ : Kept r₀ s) : Kept r₀ (State.enterNow s) := by
  unfold State.enterNow
  refine Kept.ite ?_ ?_
  · refine State.enterDepot_kept ?_
    assumption
  · assumption

theorem State.releaseWakeN_kept {r₀ : State} {s : State} (h₀ : Kept r₀ s) : Kept r₀ (State.releaseWakeN s) := by
  unfold State.releaseWakeN
  refine Kept.ite ?_ ?_
  · refine State.send_kept ?_
    refine State.modModes_kept ?_
    assumption
  · assumption

theorem State.coolReq_kept {r₀ : State} {s : State} {level} (h₀ : Kept r₀ s) : Kept r₀ (State.coolReq s level) := by
  unfold State.coolReq
  refine Kept.ite ?_ ?_
  · assumption
  · refine State.send_kept ?_
    refine State.modModes_kept ?_
    assumption

theorem State.wakeUp_kept {r₀ : State} {s : State} {events kind} (h₀ : Kept r₀ s) : Kept r₀ (State.wakeUp s events kind) := by
  unfold State.wakeUp
  split
  extract_lets x1 s2 s3 s4 s5 s6 s7 s8 s9 s10
  clear_value x1
  have h11 : Kept r₀ s2 := by
    unfold s2
    refine State.wr64_kept ?_
    refine State.releaseWakeN_kept ?_
    refine State.coolReq_kept ?_
    refine Kept.fst ‹_› ?_
    refine State.openQuotient_kept ?_
    assumption
  clear_value s2
  have h12 : Kept r₀ s3 := by
    unfold s3
    refine Kept.upd rfl ?_
    assumption
  clear_value s3
  have h13 : Kept r₀ s4 := by
    unfold s4
    refine State.evrAdd_kept ?_
    assumption
  clear_value s4
  have h14 : Kept r₀ s5 := by
    unfold s5
    refine State.setFld_kept ?_
    refine State.setFld_kept ?_
    assumption
  clear_value s5
  have h15 : Kept r₀ s6 := by
    unfold s6
    refine State.setFld_kept ?_
    refine State.setFld_kept ?_
    assumption
  clear_value s6
  have h16 : Kept r₀ s7 := by
    unfold s7
    refine State.modTime_kept ?_
    refine State.setFld_kept ?_
    assumption
  clear_value s7
  have h17 : Kept r₀ s8 := by
    unfold s8
    refine State.setFld_kept ?_
    refine State.dramState_kept ?_
    assumption
  clear_value s8
  have h18 : Kept r₀ s9 := by
    unfold s9
    refine State.modModes_kept ?_
    refine State.setFld_kept ?_
    assumption
  clear_value s9
  have h19 : Kept r₀ s10 := by
    unfold s10
    refine Kept.ite ?_ ?_
    · assumption
    · refine State.place_kept ?_
      assumption
  clear_value s10
  refine Kept.ite ?_ ?_
  · refine State.sysReset_kept ?_
    assumption
  · refine State.syncAll_kept ?_
    refine State.bellowsSwitched_kept ?_
    refine State.refence_kept ?_
    assumption

theorem State.disarm_kept {r₀ : State} {s : State} (h₀ : Kept r₀ s) : Kept r₀ (State.disarm s) := by
  unfold State.disarm
  extract_lets s1
  have h2 : Kept r₀ s1 := by
    unfold s1
    refine Kept.ite ?_ ?_
    · refine State.setFld_kept ?_
      refine State.setFld_kept ?_
      assumption
    · assumption
  clear_value s1
  refine State.setFld_kept ?_
  assumption

theorem State.powerOff_kept {r₀ : State} {s : State} (h₀ : Kept r₀ s) : Kept r₀ (State.powerOff s) := by
  unfold State.powerOff
  extract_lets s1 s2 s3 s4 x5 x6 s7 s8 s9
  have h10 : Kept r₀ s1 := by
    unfold s1
    refine State.dropWork_kept ?_
    assumption
  clear_value s1
  have h11 : Kept r₀ s2 := by
    unfold s2
    refine Kept.foldl (fun s12 x13 h14 => ?_) ?_
    · refine State.retire_kept ?_
      assumption
    · assumption
  clear_value s2
  have h15 : Kept r₀ s3 := by
    unfold s3
    refine Kept.foldl (fun s16 x17 h18 => ?_) ?_
    · refine State.portLeaves_kept ?_
      assumption
    · assumption
  clear_value s3
  have h19 : Kept r₀ s4 := by
    unfold s4
    refine Kept.foldl (fun s20 x21 h22 => ?_) ?_
    · refine State.setFld_kept ?_
      assumption
    · assumption
  clear_value s4
  clear_value x5 x6
  have h23 : Kept r₀ s7 := by
    unfold s7
    refine Kept.upd rfl ?_
    assumption
  clear_value s7
  have h24 : Kept r₀ s8 := by
    unfold s8
    refine State.setFld_kept ?_
    assumption
  clear_value s8
  have h25 : Kept r₀ s9 := by
    unfold s9
    refine State.resetRegs_kept ?_
    assumption
  clear_value s9
  refine State.zeroRange_kept ?_
  refine State.zeroRange_kept ?_
  refine State.zeroRange_kept ?_
  assumption

theorem State.enterPark_kept {r₀ : State} {s : State} (h₀ : Kept r₀ s) : Kept r₀ (State.enterPark s) := by
  unfold State.enterPark
  extract_lets s1 s2 s3 s4 s5 s6
  have h7 : Kept r₀ s1 := by
    unfold s1
    refine State.evrCommit_kept ?_
    refine State.disarm_kept ?_
    assumption
  clear_value s1
  have h8 : Kept r₀ s2 := by
    unfold s2
    refine Kept.ite ?_ ?_
    · refine State.runStop_kept ?_
      refine State.setFld_kept ?_
      assumption
    · assumption
  clear_value s2
  have h9 : Kept r₀ s3 := by
    unfold s3
    refine State.dramState_kept ?_
    refine State.powerOff_kept ?_
    assumption
  clear_value s3
  have h10 : Kept r₀ s4 := by
    unfold s4
    refine State.modTime_kept ?_
    assumption
  clear_value s4
  have h11 : Kept r₀ s5 := by
    unfold s5
    refine State.setFld_kept ?_
    refine State.setFld_kept ?_
    assumption
  clear_value s5
  have h12 : Kept r₀ s6 := by
    unfold s6
    refine State.modModes_kept ?_
    assumption
  clear_value s6
  refine State.syncAll_kept ?_
  assumption

theorem State.park_kept {r₀ : State} {s : State} (h₀ : Kept r₀ s) : Kept r₀ (State.park s) := by
  unfold State.park
  extract_lets s1
  have h2 : Kept r₀ s1 := by
    unfold s1
    refine State.enterPark_kept ?_
    assumption
  clear_value s1
  refine Kept.ite ?_ ?_
  · refine State.wakeUp_kept ?_
    refine State.modModes_kept ?_
    assumption
  · assumption

theorem State.modeRequest_kept {r₀ : State} {s : State} {req} (h₀ : Kept r₀ s) : Kept r₀ (State.modeRequest s req) := by
  unfold State.modeRequest
  extract_lets s1 x2 s3
  have h4 : Kept r₀ s1 := by
    unfold s1
    refine State.setFld_kept ?_
    assumption
  clear_value s1
  clear_value x2
  have h5 : Kept r₀ s3 := by
    unfold s3
    refine State.setFld_kept ?_
    assumption
  clear_value s3
  split
  · refine Kept.ite ?_ ?_
    · assumption
    · refine Kept.ite ?_ ?_
      · refine State.modModes_kept ?_
        assumption
      · refine State.park_kept ?_
        assumption
  · refine Kept.ite ?_ ?_
    · assumption
    · refine Kept.ite ?_ ?_
      · assumption
      · refine State.enterNow_kept ?_
        refine State.modModes_kept ?_
        assumption
  · refine State.trigger_kept ?_
    assumption
  · assumption

theorem State.latePark_kept {r₀ : State} {s : State} (h₀ : Kept r₀ s) : Kept r₀ (State.latePark s) := by
  unfold State.latePark
  refine Kept.ite ?_ ?_
  · extract_lets s1
    have h2 : Kept r₀ s1 := by
      unfold s1
      refine State.modModes_kept ?_
      assumption
    clear_value s1
    refine Kept.ite ?_ ?_
    · refine State.park_kept ?_
      assumption
    · assumption
  · assumption

theorem State.sntReach_kept {r₀ : State} {s : State} {t} (h₀ : Kept r₀ s) : Kept r₀ (State.sntReach s t) := by
  unfold State.sntReach
  refine Kept.ite ?_ ?_
  · refine State.modModes_kept ?_
    assumption
  · refine State.reach_kept ?_
    assumption

theorem State.sntEvery_kept {r₀ : State} {s : State} {key period} (h₀ : Kept r₀ s) : Kept r₀ (State.sntEvery s key period) := by
  unfold State.sntEvery
  extract_lets s1
  have h2 : Kept r₀ s1 := by
    unfold s1
    refine State.sntReach_kept ?_
    assumption
  clear_value s1
  refine Kept.upd rfl ?_
  assumption

theorem State.wakeVehicle_kept {r₀ : State} {s : State} {bit} (h₀ : Kept r₀ s) : Kept r₀ (State.wakeVehicle s bit) := by
  unfold State.wakeVehicle
  extract_lets s1 s2
  have h3 : Kept r₀ s1 := by
    unfold s1
    refine State.setFld_kept ?_
    assumption
  clear_value s1
  have h4 : Kept r₀ s2 := by
    unfold s2
    refine Kept.ite ?_ ?_
    · refine State.send_kept ?_
      refine State.count_kept ?_
      refine State.modModes_kept ?_
      assumption
    · assumption
  clear_value s2
  refine Kept.ite ?_ ?_
  · refine State.send_kept ?_
    refine State.modModes_kept ?_
    assumption
  · assumption

theorem execAccelSample_completes {s : State} {mg} : Completes s (execAccelSample mg s) := by
  unfold execAccelSample
  refine Completes.next ?_
  refine Kept.ite ?_ ?_
  · exact Kept.refl
  · extract_lets s1 s2
    have h3 : Kept s s1 := by
      unfold s1
      refine State.sntEvery_kept ?_
      exact Kept.refl
    clear_value s1
    have h4 : Kept s s2 := by
      unfold s2
      refine State.modModes_kept ?_
      assumption
    clear_value s2
    refine Kept.ite ?_ ?_
    · refine State.modModes_kept ?_
      assumption
    · refine Kept.ite ?_ ?_
      · refine State.wakeVehicle_kept ?_
        assumption
      · assumption

theorem State.releasePcieWake_kept {r₀ : State} {s : State} (h₀ : Kept r₀ s) : Kept r₀ (State.releasePcieWake s) := by
  unfold State.releasePcieWake
  refine Kept.ite ?_ ?_
  · refine State.send_kept ?_
    refine State.modModes_kept ?_
    assumption
  · assumption

theorem execPcieWakeTimeout_completes {s : State} : Completes s (execPcieWakeTimeout s) := by
  unfold execPcieWakeTimeout
  refine Completes.next ?_
  split
  · exact Kept.refl
  · refine State.releasePcieWake_kept ?_
    refine State.sntReach_kept ?_
    exact Kept.refl

theorem execPoolScrubComplete_completes {s : State} : Completes s (execPoolScrubComplete s) := by
  unfold execPoolScrubComplete
  refine Completes.next ?_
  refine Kept.ite ?_ ?_
  · exact Kept.refl
  · extract_lets s1
    have h2 : Kept s s1 := by
      unfold s1
      refine State.zeroRange_kept ?_
      exact Kept.refl
    clear_value s1
    refine State.setFld_kept ?_
    refine State.setFld_kept ?_
    assumption

theorem execSupplySample_completes {s : State} {x parkOk shorePwr} : Completes s (execSupplySample x parkOk shorePwr s) := by
  unfold execSupplySample
  refine Completes.next ?_
  refine Kept.ite ?_ ?_
  · exact Kept.refl
  · extract_lets s1 x2 x3
    have h4 : Kept s s1 := by
      unfold s1
      refine State.modModes_kept ?_
      refine State.takeSensors_kept ?_
      refine State.sntEvery_kept ?_
      exact Kept.refl
    clear_value s1
    clear_value x2 x3
    refine Kept.ite ?_ ?_
    · assumption
    · refine Kept.ite ?_ ?_
      · refine State.wakeUp_kept ?_
        assumption
      · refine Kept.ite ?_ ?_
        · refine State.wakeUp_kept ?_
          refine State.modModes_kept ?_
          assumption
        · assumption

theorem State.alsoCause_kept {r₀ s : State} {bit} (h₀ : Kept r₀ s) : Kept r₀ (s.alsoCause bit) := by
  unfold State.alsoCause
  exact Kept.ite (State.setFld_kept h₀) h₀

theorem execProofTimer_completes {s : State} : Completes s (execProofTimer s) := by
  unfold execProofTimer
  refine Completes.next ?_
  refine Kept.ite ?_ ?_
  · exact Kept.refl
  · refine Kept.ite ?_ ?_
    · refine State.wakeUp_kept ?_
      exact Kept.refl
    · refine State.modModes_kept ?_
      exact Kept.ite (State.alsoCause_kept Kept.refl) Kept.refl

theorem execShorePwrChange_completes {s : State} {level} : Completes s (execShorePwrChange level s) := by
  unfold execShorePwrChange
  refine Completes.next ?_
  extract_lets s1
  have h2 : Kept s s1 := by
    unfold s1
    refine State.modModes_kept ?_
    exact Kept.refl
  clear_value s1
  refine Kept.ite ?_ ?_
  · assumption
  · refine State.trigger_kept ?_
    assumption

theorem State.vehicleWake_kept {r₀ : State} {s : State} {bit} (h₀ : Kept r₀ s) : Kept r₀ (State.vehicleWake s bit) := by
  unfold State.vehicleWake
  refine Kept.ite ?_ ?_
  · assumption
  · refine Kept.ite ?_ ?_
    · refine State.wakeUp_kept ?_
      assumption
    · extract_lets s1 s2
      have h3 : Kept r₀ s1 := by
        unfold s1
        refine State.setFld_kept ?_
        assumption
      clear_value s1
      have h4 : Kept r₀ s2 := by
        unfold s2
        refine Kept.ite ?_ ?_
        · refine State.modModes_kept ?_
          assumption
        · exact State.alsoCause_kept h₀
      clear_value s2
      refine State.trigger_kept ?_
      assumption

theorem execCameraSample_completes {s : State} {difference} : Completes s (execCameraSample difference s) := by
  unfold execCameraSample
  refine Completes.next ?_
  refine Kept.ite ?_ ?_
  · exact Kept.refl
  · extract_lets s1
    have h2 : Kept s s1 := by
      unfold s1
      refine State.sntEvery_kept ?_
      exact Kept.refl
    clear_value s1
    refine Kept.ite ?_ ?_
    · refine State.wakeVehicle_kept ?_
      assumption
    · assumption

theorem execSupplyMonitorTrip_completes {s : State} {monitor} : Completes s (execSupplyMonitorTrip monitor s) := by
  unfold execSupplyMonitorTrip
  refine Completes.next ?_
  refine Kept.ite ?_ ?_
  · exact Kept.refl
  · refine State.fault_kept ?_
    exact Kept.refl

theorem execParkOkChange_completes {s : State} {level} : Completes s (execParkOkChange level s) := by
  unfold execParkOkChange
  refine Completes.next ?_
  extract_lets s1
  have h2 : Kept s s1 := by
    unfold s1
    refine State.modModes_kept ?_
    exact Kept.refl
  clear_value s1
  refine Kept.ite ?_ ?_
  · assumption
  · refine State.trigger_kept ?_
    assumption

theorem execWakePulseEnd_completes {s : State} : Completes s (execWakePulseEnd s) := by
  unfold execWakePulseEnd
  refine Completes.next ?_
  split
  · exact Kept.refl
  · refine State.releaseWakeN_kept ?_
    refine State.sntReach_kept ?_
    exact Kept.refl

theorem execWakeN_completes {s : State} : Completes s (execWakeN s) := by
  unfold execWakeN
  refine Completes.next ?_
  refine Kept.ite ?_ ?_
  · exact Kept.refl
  · refine State.vehicleWake_kept ?_
    exact Kept.refl

theorem execCanWake_completes {s : State} : Completes s (execCanWake s) := by
  unfold execCanWake
  refine Completes.next ?_
  refine Kept.ite ?_ ?_
  · refine State.vehicleWake_kept ?_
    exact Kept.refl
  · exact Kept.refl

theorem execPowerSample_completes {s : State} {x} : Completes s (execPowerSample x s) := by
  unfold execPowerSample
  refine Completes.next ?_
  refine Kept.ite ?_ ?_
  · exact Kept.refl
  · extract_lets s1 x2 s3 x4 x5
    have h6 : Kept s s1 := by
      unfold s1
      refine State.takeSensors_kept ?_
      refine State.every_kept ?_
      exact Kept.refl
    clear_value s1
    clear_value x2
    have h7 : Kept s s3 := by
      unfold s3
      refine State.setFld_kept ?_
      assumption
    clear_value s3
    clear_value x4 x5
    refine Kept.ite ?_ ?_
    · refine Kept.ite ?_ ?_
      · refine State.modModes_kept ?_
        assumption
      · refine State.evrExtreme_kept ?_
        refine State.count_kept ?_
        refine State.modModes_kept ?_
        assumption
    · refine Kept.ite ?_ ?_
      · refine State.count_kept ?_
        assumption
      · assumption

theorem execCoolReqTimer_completes {s : State} : Completes s (execCoolReqTimer s) := by
  unfold execCoolReqTimer
  refine Completes.next ?_
  refine Kept.ite ?_ ?_
  · exact Kept.refl
  · refine State.coolReq_kept ?_
    refine State.sntReach_kept ?_
    exact Kept.refl

theorem State.idle_kept {r₀ : State} {s : State} (h₀ : Kept r₀ s) : Kept r₀ (State.idle s) := by
  unfold State.idle
  refine Kept.ite ?_ ?_
  · assumption
  · refine Kept.ite ?_ ?_
    · refine State.modModes_kept ?_
      assumption
    · refine State.tick_kept ?_
      refine State.publishEmber_kept ?_
      assumption

end Sys2Proof.Machine
end

