-- ==== Sys2Proof/Laws/Kept/Bus.lean ====
section
/-! SUPPORT. What the operations of Machine/Bus.lean keep. -/

namespace Sys2Proof.Machine

theorem State.resetWritten_kept {r₀ : State} {s : State} {v} (h₀ : Kept r₀ s) : Kept r₀ (State.resetWritten s v) := by
  unfold State.resetWritten
  refine Kept.ite ?_ ?_
  · assumption
  · refine Kept.ite ?_ ?_
    · refine State.sysReset_kept ?_
      assumption
    · refine Kept.ite ?_ ?_
      · refine State.computeReset_kept ?_
        assumption
      · assumption

theorem State.hookPrc_kept {r₀ : State} {s : State} {w} (h₀ : Kept r₀ s) : Kept r₀ (State.hookPrc s w) := by
  unfold State.hookPrc
  extract_lets x1
  clear_value x1
  refine Kept.ite ?_ ?_
  · refine Kept.ite ?_ ?_
    · assumption
    · refine State.modeRequest_kept ?_
      assumption
  · refine Kept.ite ?_ ?_
    · refine State.resetWritten_kept ?_
      assumption
    · refine Kept.ite ?_ ?_
      · refine State.hookBoot_kept ?_
        assumption
      · assumption

theorem State.hook_kept {r₀ : State} {s : State} {before w} (h₀ : Kept r₀ s) : Kept r₀ (State.hook s before w) := by
  unfold State.hook
  refine Kept.ite ?_ ?_
  · refine State.hookPrc_kept ?_
    assumption
  · extract_lets s1
    have h2 : Kept r₀ s1 := by
      unfold s1
      refine State.hookBasic_kept ?_
      assumption
    clear_value s1
    split
    · refine State.enterNow_kept ?_
      assumption
    · refine State.latePark_kept ?_
      assumption
    · assumption

theorem State.writeOne_kept {r₀ : State} {s : State} {f v source} (h₀ : Kept r₀ s) : Kept r₀ (State.writeOne s f v source) := by
  unfold State.writeOne
  split
  · assumption
  · extract_lets x1
    clear_value x1
    split
    refine State.hook_kept ?_
    refine Kept.fst ‹_› ?_
    refine State.writeFields_kept ?_
    assumption

theorem State.poke_kept {r₀ : State} {s : State} {who f v} (h₀ : Kept r₀ s) : Kept r₀ (State.poke s who f v) := by
  unfold State.poke
  refine Kept.ite ?_ ?_
  · assumption
  · refine Kept.ite ?_ ?_
    · refine Kept.ite ?_ ?_
      · assumption
      · refine State.refuseReg_kept ?_
        assumption
    · refine State.writeOne_kept ?_
      assumption

theorem State.writeWord_kept {r₀ : State} {s : State} {a value source} (h₀ : Kept r₀ s) : Kept r₀ (State.writeWord s a value source) := by
  unfold State.writeWord
  split
  · refine State.hook_kept ?_
    refine Kept.fst ‹_› ?_
    refine State.regWrite_kept ?_
    assumption
  · refine Kept.fst ‹_› ?_
    refine State.regWrite_kept ?_
    assumption

theorem State.memLoad_kept {r₀ : State} {s : State} {who a size} (h₀ : Kept r₀ s) : Kept r₀ (State.memLoad s who a size) := by
  unfold State.memLoad
  split
  split
  · refine Kept.ite ?_ ?_
    · refine Kept.ite ?_ ?_
      · refine State.fault_kept ?_
        refine Kept.fst ‹_› ?_
        split
        · split
          refine Kept.pair ?_
          refine Kept.fst ‹_› ?_
          refine State.freeBytes_kept ?_
          refine State.chargeErr_kept ?_
          assumption
        · refine State.read_kept ?_
          assumption
      · refine Kept.fst ‹_› ?_
        split
        · split
          refine Kept.pair ?_
          refine Kept.fst ‹_› ?_
          refine State.freeBytes_kept ?_
          refine State.chargeErr_kept ?_
          assumption
        · refine State.read_kept ?_
          assumption
    · refine State.send_kept ?_
      refine Kept.fst ‹_› ?_
      split
      · split
        refine Kept.pair ?_
        refine Kept.fst ‹_› ?_
        refine State.freeBytes_kept ?_
        refine State.chargeErr_kept ?_
        assumption
      · refine State.read_kept ?_
        assumption
  · refine State.send_kept ?_
    refine Kept.fst ‹_› ?_
    split
    · split
      refine Kept.pair ?_
      refine Kept.fst ‹_› ?_
      refine State.freeBytes_kept ?_
      refine State.chargeErr_kept ?_
      assumption
    · refine State.read_kept ?_
      assumption

theorem State.busRead_kept {r₀ : State} {s : State} {who a size} (h₀ : Kept r₀ s) : Kept r₀ (State.busRead s who a size).1 := by
  unfold State.busRead
  refine Kept.iteFst ?_ ?_
  · refine Kept.pair ?_
    assumption
  · refine Kept.iteFst ?_ ?_
    · refine Kept.pair ?_
      refine State.refuseReg_kept ?_
      assumption
    · refine Kept.iteFst ?_ ?_
      · refine Kept.pair ?_
        assumption
      · split
        · refine Kept.pair ?_
          assumption
        · refine State.fullRead_kept ?_
          assumption

theorem State.readOut_kept {r₀ : State} {s : State} {who a size} (h₀ : Kept r₀ s) : Kept r₀ (State.readOut s who a size) := by
  unfold State.readOut
  extract_lets x1
  clear_value x1
  refine Kept.ite ?_ ?_
  · refine State.memLoad_kept ?_
    assumption
  · refine Kept.ite ?_ ?_
    · split
      refine State.send_kept ?_
      refine Kept.fst ‹_› ?_
      refine State.freeBytes_kept ?_
      refine State.refuseReg_kept ?_
      assumption
    · split
      refine State.send_kept ?_
      refine Kept.fst ‹_› ?_
      refine State.busRead_kept ?_
      assumption

theorem State.memStore_kept {r₀ : State} {s : State} {who a size value} (h₀ : Kept r₀ s) : Kept r₀ (State.memStore s who a size value) := by
  unfold State.memStore
  split
  · refine State.chargeErr_kept ?_
    assumption
  · refine State.write_kept ?_
    assumption

theorem State.busWrite_kept {r₀ : State} {s : State} {who a size value} (h₀ : Kept r₀ s) : Kept r₀ (State.busWrite s who a size value) := by
  unfold State.busWrite
  refine Kept.ite ?_ ?_
  · assumption
  · refine Kept.ite ?_ ?_
    · refine Kept.ite ?_ ?_
      · assumption
      · refine State.memStore_kept ?_
        assumption
    · refine Kept.ite ?_ ?_
      · refine Kept.ite ?_ ?_
        · assumption
        · refine State.refuseReg_kept ?_
          assumption
      · refine Kept.ite ?_ ?_
        · assumption
        · split
          · refine State.doorbellWrite_kept ?_
            assumption
          · refine Kept.ite ?_ ?_
            · assumption
            · refine State.writeWord_kept ?_
              assumption

theorem execComputeResetRelease_completes {s : State} : Completes s (execComputeResetRelease s) := by
  unfold execComputeResetRelease
  refine Completes.next ?_
  refine Kept.ite ?_ ?_
  · exact Kept.refl
  · refine State.latePark_kept ?_
    refine State.computeRelease_kept ?_
    exact Kept.refl

end Sys2Proof.Machine
end

