-- ==== Sys2Proof/Laws/Kept/Commands.lean ====
section
/-! SUPPORT. What the operations of Machine/Commands.lean keep. -/

namespace Sys2Proof.Machine

theorem execBsEccInject_completes {s : State} {who n} : Completes s (execBsEccInject who n s) := by
  unfold execBsEccInject
  refine Completes.next ?_
  refine State.poke_kept ?_
  exact Kept.refl

theorem execBootPending_completes {s : State} {who slotB} : Completes s (execBootPending who slotB s) := by
  unfold execBootPending
  refine Completes.next ?_
  refine State.poke_kept ?_
  exact Kept.refl

theorem execCtxEnable_completes {s : State} {who c value} : Completes s (execCtxEnable who c value s) := by
  unfold execCtxEnable
  refine Completes.next ?_
  refine State.poke_kept ?_
  exact Kept.refl

theorem execSnpTrigger_completes {s : State} {who} : Completes s (execSnpTrigger who s) := by
  unfold execSnpTrigger
  refine Completes.next ?_
  refine State.poke_kept ?_
  exact Kept.refl

theorem execStrikeRunStop_completes {s : State} {who} : Completes s (execStrikeRunStop who s) := by
  unfold execStrikeRunStop
  refine Completes.next ?_
  refine State.poke_kept ?_
  exact Kept.refl

theorem execHicXcomplete_completes {s : State} {who source} : Completes s (execHicXcomplete who source s) := by
  unfold execHicXcomplete
  refine Completes.next ?_
  refine State.poke_kept ?_
  exact Kept.refl

theorem execStrikeRunStart_completes {s : State} {who} : Completes s (execStrikeRunStart who s) := by
  unfold execStrikeRunStart
  refine Completes.next ?_
  refine State.poke_kept ?_
  exact Kept.refl

theorem execPrcResetCompute_completes {s : State} {who key} : Completes s (execPrcResetCompute who key s) := by
  unfold execPrcResetCompute
  refine Completes.next ?_
  refine State.busWrite_kept ?_
  exact Kept.refl

theorem execHicSet_completes {s : State} {who source} : Completes s (execHicSet who source s) := by
  unfold execHicSet
  refine Completes.next ?_
  refine State.poke_kept ?_
  exact Kept.refl

theorem execPairLoRead_completes {s : State} {who addr size} : Completes s (execPairLoRead who addr size s) := by
  unfold execPairLoRead
  refine Completes.next ?_
  refine State.readOut_kept ?_
  exact Kept.refl

theorem execFclCtxNClear_completes {s : State} {who c} : Completes s (execFclCtxNClear who c s) := by
  unfold execFclCtxNClear
  refine Completes.next ?_
  refine State.poke_kept ?_
  exact Kept.refl

theorem execFclInject_completes {s : State} {who cls ctx inst} : Completes s (execFclInject who cls ctx inst s) := by
  unfold execFclInject
  refine Completes.next ?_
  refine State.busWrite_kept ?_
  exact Kept.refl

theorem execLinkTrain_completes {s : State} {who q retrain} : Completes s (execLinkTrain who q retrain s) := by
  unfold execLinkTrain
  refine Completes.next ?_
  refine State.poke_kept ?_
  exact Kept.refl

theorem execMemUeInject_completes {s : State} {who ch} : Completes s (execMemUeInject who ch s) := by
  unfold execMemUeInject
  refine Completes.next ?_
  refine State.poke_kept ?_
  exact Kept.refl

theorem execHicClaim_completes {s : State} {who core} : Completes s (execHicClaim who core s) := by
  unfold execHicClaim
  refine Completes.next ?_
  refine State.readOut_kept ?_
  exact Kept.refl

theorem execLeaveDepotRequest_completes {s : State} {who} : Completes s (execLeaveDepotRequest who s) := by
  unfold execLeaveDepotRequest
  refine Completes.next ?_
  refine State.poke_kept ?_
  exact Kept.refl

theorem execBootConfirm_completes {s : State} {who} : Completes s (execBootConfirm who s) := by
  unfold execBootConfirm
  refine Completes.next ?_
  refine State.poke_kept ?_
  exact Kept.refl

theorem execPrcResetSys_completes {s : State} {who key} : Completes s (execPrcResetSys who key s) := by
  unfold execPrcResetSys
  refine Completes.next ?_
  refine State.busWrite_kept ?_
  exact Kept.refl

theorem execScrubDone_completes {s : State} {who c} : Completes s (execScrubDone who c s) := by
  unfold execScrubDone
  refine Completes.next ?_
  refine State.poke_kept ?_
  exact Kept.refl

theorem execEvrWindowRead_completes {s : State} {who} : Completes s (execEvrWindowRead who s) := by
  unfold execEvrWindowRead
  refine Completes.next ?_
  refine State.readOut_kept ?_
  exact Kept.refl

theorem execInjOut_completes {s : State} {who p} : Completes s (execInjOut who p s) := by
  unfold execInjOut
  refine Completes.next ?_
  refine State.poke_kept ?_
  exact Kept.refl

theorem execInjA_completes {s : State} {who u} : Completes s (execInjA who u s) := by
  unfold execInjA
  refine Completes.next ?_
  refine State.poke_kept ?_
  exact Kept.refl

theorem execHicComplete_completes {s : State} {who core source} : Completes s (execHicComplete who core source s) := by
  unfold execHicComplete
  refine Completes.next ?_
  refine State.poke_kept ?_
  exact Kept.refl

theorem execPairRequest_completes {s : State} {who u req} : Completes s (execPairRequest who u req s) := by
  unfold execPairRequest
  refine Completes.next ?_
  refine State.poke_kept ?_
  exact Kept.refl

theorem execDepotRequest_completes {s : State} {who} : Completes s (execDepotRequest who s) := by
  unfold execDepotRequest
  refine Completes.next ?_
  refine State.poke_kept ?_
  exact Kept.refl

theorem execUnitFence_completes {s : State} {who w} : Completes s (execUnitFence who w s) := by
  unfold execUnitFence
  refine Completes.next ?_
  split
  · refine State.poke_kept ?_
    exact Kept.refl
  · exact Kept.refl

theorem execFclLogWindowRead_completes {s : State} {who} : Completes s (execFclLogWindowRead who s) := by
  unfold execFclLogWindowRead
  refine Completes.next ?_
  refine State.readOut_kept ?_
  exact Kept.refl

theorem execSnpWindowRead_completes {s : State} {who} : Completes s (execSnpWindowRead who s) := by
  unfold execSnpWindowRead
  refine Completes.next ?_
  refine State.readOut_kept ?_
  exact Kept.refl

theorem execEvrClear_completes {s : State} {who} : Completes s (execEvrClear who s) := by
  unfold execEvrClear
  refine Completes.next ?_
  refine State.poke_kept ?_
  exact Kept.refl

theorem execFenceListClear_completes {s : State} {who w} : Completes s (execFenceListClear who w s) := by
  unfold execFenceListClear
  refine Completes.next ?_
  split
  · refine State.poke_kept ?_
    exact Kept.refl
  · exact Kept.refl

theorem execTeardown_completes {s : State} {who c} : Completes s (execTeardown who c s) := by
  unfold execTeardown
  refine Completes.next ?_
  refine State.poke_kept ?_
  exact Kept.refl

theorem execSoftReset_completes {s : State} {who u} : Completes s (execSoftReset who u s) := by
  unfold execSoftReset
  refine Completes.next ?_
  refine State.poke_kept ?_
  exact Kept.refl

theorem execTongsTailWrite_completes {s : State} {who ch tail} : Completes s (execTongsTailWrite who ch tail s) := by
  unfold execTongsTailWrite
  refine Completes.next ?_
  refine State.poke_kept ?_
  exact Kept.refl

theorem execInjPro_completes {s : State} {who n} : Completes s (execInjPro who n s) := by
  unfold execInjPro
  refine Completes.next ?_
  refine State.poke_kept ?_
  exact Kept.refl

theorem execTongsAbort_completes {s : State} {who ch} : Completes s (execTongsAbort who ch s) := by
  unfold execTongsAbort
  refine Completes.next ?_
  refine State.poke_kept ?_
  exact Kept.refl

theorem execInjEpi_completes {s : State} {who n} : Completes s (execInjEpi who n s) := by
  unfold execInjEpi
  refine Completes.next ?_
  refine State.poke_kept ?_
  exact Kept.refl

theorem execResidueInject_completes {s : State} {who u} : Completes s (execResidueInject who u s) := by
  unfold execResidueInject
  refine Completes.next ?_
  refine State.poke_kept ?_
  exact Kept.refl

theorem execTopLockSet_completes {s : State} {who} : Completes s (execTopLockSet who s) := by
  unfold execTopLockSet
  refine Completes.next ?_
  refine State.poke_kept ?_
  exact Kept.refl

theorem execHangKick_completes {s : State} {who cores} : Completes s (execHangKick who cores s) := by
  unfold execHangKick
  refine Completes.next ?_
  refine State.poke_kept ?_
  exact Kept.refl

theorem execRecordTailWrite_completes {s : State} {who r tail} : Completes s (execRecordTailWrite who r tail s) := by
  unfold execRecordTailWrite
  refine Completes.next ?_
  refine State.poke_kept ?_
  exact Kept.refl

theorem execComparatorInject_completes {s : State} {who} : Completes s (execComparatorInject who s) := by
  unfold execComparatorInject
  refine Completes.next ?_
  refine State.poke_kept ?_
  exact Kept.refl

theorem execArm_completes {s : State} {who} : Completes s (execArm who s) := by
  unfold execArm
  refine Completes.next ?_
  refine State.poke_kept ?_
  exact Kept.refl

theorem execTenantKeyWrite_completes {s : State} {who t k word} : Completes s (execTenantKeyWrite who t k word s) := by
  unfold execTenantKeyWrite
  refine Completes.next ?_
  refine Kept.ite ?_ ?_
  · exact Kept.refl
  · refine State.poke_kept ?_
    exact Kept.refl

theorem execFclClearFirst_completes {s : State} {who} : Completes s (execFclClearFirst who s) := by
  unfold execFclClearFirst
  refine Completes.next ?_
  refine State.poke_kept ?_
  exact Kept.refl

theorem execComparatorSelftest_completes {s : State} {who} : Completes s (execComparatorSelftest who s) := by
  unfold execComparatorSelftest
  refine Completes.next ?_
  refine State.poke_kept ?_
  exact Kept.refl

theorem execKeySlotRevoke_completes {s : State} {who slots} : Completes s (execKeySlotRevoke who slots s) := by
  unfold execKeySlotRevoke
  refine Completes.next ?_
  refine State.poke_kept ?_
  exact Kept.refl

theorem execRecordAbort_completes {s : State} {who r} : Completes s (execRecordAbort who r s) := by
  unfold execRecordAbort
  refine Completes.next ?_
  refine State.poke_kept ?_
  exact Kept.refl

theorem execRegisterWrite_completes {s : State} {who addr size value} : Completes s (execRegisterWrite who addr size value s) := by
  unfold execRegisterWrite
  refine Completes.next ?_
  refine State.busWrite_kept ?_
  exact Kept.refl

theorem execInjRope_completes {s : State} {who p} : Completes s (execInjRope who p s) := by
  unfold execInjRope
  refine Completes.next ?_
  refine State.poke_kept ?_
  exact Kept.refl

theorem execMemCeInject_completes {s : State} {who ch} : Completes s (execMemCeInject who ch s) := by
  unfold execMemCeInject
  refine Completes.next ?_
  refine State.poke_kept ?_
  exact Kept.refl

theorem execEvrCommit_completes {s : State} {who} : Completes s (execEvrCommit who s) := by
  unfold execEvrCommit
  refine Completes.next ?_
  refine State.poke_kept ?_
  exact Kept.refl

theorem execParkRequest_completes {s : State} {who} : Completes s (execParkRequest who s) := by
  unfold execParkRequest
  refine Completes.next ?_
  refine State.poke_kept ?_
  exact Kept.refl

theorem execCruInject_completes {s : State} {who} : Completes s (execCruInject who s) := by
  unfold execCruInject
  refine Completes.next ?_
  refine State.poke_kept ?_
  exact Kept.refl

theorem execPoolScrub_completes {s : State} {who} : Completes s (execPoolScrub who s) := by
  unfold execPoolScrub
  refine Completes.next ?_
  refine State.poke_kept ?_
  exact Kept.refl

theorem execInjB_completes {s : State} {who u} : Completes s (execInjB who u s) := by
  unfold execInjB
  refine Completes.next ?_
  refine State.poke_kept ?_
  exact Kept.refl

theorem execFenceListAdd_completes {s : State} {who w} : Completes s (execFenceListAdd who w s) := by
  unfold execFenceListAdd
  refine Completes.next ?_
  split
  · refine State.poke_kept ?_
    exact Kept.refl
  · exact Kept.refl

theorem execSnpDumpStart_completes {s : State} {who} : Completes s (execSnpDumpStart who s) := by
  unfold execSnpDumpStart
  refine Completes.next ?_
  refine State.poke_kept ?_
  exact Kept.refl

end Sys2Proof.Machine
end

