-- ==== Sys2Proof/Laws/Kept/Detect.lean ====
section
/-! SUPPORT. What the operations of Machine/Detect.lean keep. -/

namespace Sys2Proof.Machine

theorem State.selftestFault_kept {r₀ : State} {s : State} {u} (h₀ : Kept r₀ s) : Kept r₀ (State.selftestFault s u) := by
  unfold State.selftestFault
  extract_lets s1 s2
  have h3 : Kept r₀ s1 := by
    unfold s1
    refine State.setFld_kept ?_
    assumption
  clear_value s1
  have h4 : Kept r₀ s2 := by
    unfold s2
    refine Kept.ite ?_ ?_
    · refine State.setFld_kept ?_
      assumption
    · assumption
  clear_value s2
  refine Kept.ite ?_ ?_
  · assumption
  · refine State.fenceUnit_kept ?_
    assumption

theorem State.copySeen_kept {r₀ : State} {s : State} {u} (h₀ : Kept r₀ s) : Kept r₀ (State.copySeen s u) := by
  unfold State.copySeen
  split
  extract_lets x1 s2
  clear_value x1
  have h3 : Kept r₀ s2 := by
    unfold s2
    refine State.arm_kept ?_
    refine Kept.fst ‹_› ?_
    refine State.free_kept ?_
    assumption
  clear_value s2
  refine Kept.ite ?_ ?_
  · refine State.setFld_kept ?_
    refine State.count_kept ?_
    assumption
  · refine State.unitEvent_kept ?_
    refine State.setFld_kept ?_
    refine State.count_kept ?_
    assumption

theorem State.residueSeen_kept {r₀ : State} {s : State} {u} (h₀ : Kept r₀ s) : Kept r₀ (State.residueSeen s u) := by
  unfold State.residueSeen
  extract_lets x1 s2
  clear_value x1
  have h3 : Kept r₀ s2 := by
    unfold s2
    refine State.arm_kept ?_
    refine State.count_kept ?_
    assumption
  clear_value s2
  refine Kept.ite ?_ ?_
  · refine State.event_kept ?_
    assumption
  · refine State.unitEvent_kept ?_
    assumption

theorem State.detector_kept {r₀ : State} {s : State} {g i} (h₀ : Kept r₀ s) : Kept r₀ (State.detector s g i) := by
  unfold State.detector
  split
  · refine Kept.ite ?_ ?_
    · refine Kept.ite ?_ ?_
      · refine State.selftestFault_kept ?_
        assumption
      · assumption
    · refine Kept.ite ?_ ?_
      · refine State.residueSeen_kept ?_
        assumption
      · refine Kept.ite ?_ ?_
        · refine State.copySeen_kept ?_
          assumption
        · assumption
  · refine Kept.ite ?_ ?_
    · refine State.timEvent_kept ?_
      refine State.count_kept ?_
      assumption
    · refine Kept.ite ?_ ?_
      · refine State.setFld_kept ?_
        refine State.setFld_kept ?_
        assumption
      · refine Kept.ite ?_ ?_
        · refine State.spoilFrame_kept ?_
          assumption
        · refine Kept.ite ?_ ?_
          · refine State.streamEvent_kept ?_
            assumption
          · assumption

theorem State.harmSource_kept {r₀ : State} {s : State} {g i safety} (h₀ : Kept r₀ s) : Kept r₀ (State.harmSource s g i safety) := by
  unfold State.harmSource
  split
  · refine Kept.ite ?_ ?_
    · refine State.harm_kept ?_
      assumption
    · assumption
  · assumption

theorem execFaultReport_completes {s : State} {src ctx safety op d0 d1} : Completes s (execFaultReport src ctx safety op d0 d1 s) := by
  unfold execFaultReport
  refine Completes.next ?_
  extract_lets x1 x2
  clear_value x1 x2
  refine Kept.ite ?_ ?_
  · exact Kept.refl
  · refine Kept.ite ?_ ?_
    · refine State.hearthFailed_kept ?_
      exact Kept.refl
    · refine Kept.ite ?_ ?_
      · refine State.proofFailed_kept ?_
        exact Kept.refl
      · refine State.fault_kept ?_
        refine State.harmSource_kept ?_
        refine State.detector_kept ?_
        exact Kept.refl

end Sys2Proof.Machine
end

