-- ==== Sys2Proof/Laws/Kept/Draw.lean ====
section
/-! SUPPORT. What the operations of Machine/Draw.lean keep. -/

namespace Sys2Proof.Machine

theorem State.writeEntry_kept {r₀ : State} {s : State} {u pmap e valid spec fill poison} (h₀ : Kept r₀ s) : Kept r₀ (State.writeEntry s u pmap e valid spec fill poison) := by
  unfold State.writeEntry
  refine State.unitWrite_kept ?_
  assumption

theorem State.copyRow_kept {r₀ : State} {s : State} {u src dst len poison} (h₀ : Kept r₀ s) : Kept r₀ (State.copyRow s u src dst len poison).1 := by
  unfold State.copyRow
  refine Kept.foldlFst (fun p1 x2 h3 => ?_) ?_
  · split
    extract_lets x4
    clear_value x4
    refine Kept.pair ?_
    refine State.unitWrite_kept ?_
    refine Kept.fst ‹_› ?_
    refine State.readUnit_kept ?_
    assumption
  · refine Kept.pair ?_
    assumption

theorem State.rollback_kept {r₀ : State} {s : State} {u b r es poison} (h₀ : Kept r₀ s) : Kept r₀ (State.rollback s u b r es poison) := by
  unfold State.rollback
  extract_lets x1 s2 x3 x4 x5 s6
  clear_value x1
  have h7 : Kept r₀ s2 := by
    unfold s2
    refine Kept.foldl (fun s8 x9 h10 => ?_) ?_
    · split
      refine State.copyRow_kept ?_
      refine Kept.fst ‹_› ?_
      refine State.copyRow_kept ?_
      assumption
    · assumption
  clear_value s2
  clear_value x3 x4 x5
  have h11 : Kept r₀ s6 := by
    unfold s6
    refine Kept.foldl (fun s12 x13 h14 => ?_) ?_
    · refine Kept.ite ?_ ?_
      · refine State.writeEntry_kept ?_
        assumption
      · refine State.writeEntry_kept ?_
        assumption
    · assumption
  clear_value s6
  refine State.unitWrite_kept ?_
  assumption

theorem Pull.entries_kept {r₀ : State} {p : Pull} {u pmap first n} (h₀ : Kept r₀ p.s) : Kept r₀ (Pull.entries p u pmap first n).1.s := by
  unfold Pull.entries
  split
  refine Kept.pairPull ?_
  refine Kept.fstPull ‹_› ?_
  refine Pull.rows_kept ?_
  assumption

theorem Pull.rotate_kept {r₀ : State} {p : Pull} {u b pos x} (h₀ : Kept r₀ p.s) : Kept r₀ (Pull.rotate p u b pos x).1.s := by
  unfold Pull.rotate
  extract_lets x1 x2
  clear_value x1 x2
  split
  split
  refine Kept.pairPull ?_
  refine Kept.fstPull ‹_› ?_
  refine Pull.read_kept ?_
  refine Kept.fstPull ‹_› ?_
  refine Pull.read_kept ?_
  assumption

theorem Pull.scoreRow_kept {r₀ : State} {p : Pull} {u b f rope pos row} (h₀ : Kept r₀ p.s) : Kept r₀ (Pull.scoreRow p u b f rope pos row).1.s := by
  unfold Pull.scoreRow
  extract_lets x1
  clear_value x1
  refine Kept.iteFstPull ?_ ?_
  · split
    refine Kept.pairPull ?_
    refine Kept.fstPull ‹_› ?_
    refine Pull.rotate_kept ?_
    assumption
  · refine Kept.pairPull ?_
    assumption

theorem Pull.attnRead_kept {r₀ : State} {p : Pull} {u b pos es twoPass} (h₀ : Kept r₀ p.s) : Kept r₀ (Pull.attnRead p u b pos es twoPass).1.s := by
  unfold Pull.attnRead
  extract_lets x1 x2 x3
  clear_value x1 x2 x3
  split
  split
  split
  split
  split
  split
  refine Kept.pairPull ?_
  refine Kept.fstPull ‹_› ?_
  refine Pull.rows_kept ?_
  refine Kept.fstPull ‹_› ?_
  refine Kept.foldlFstPull (fun p4 x5 h6 => ?_) ?_
  · split
    refine Kept.pairPull ?_
    refine Kept.fstPull ‹_› ?_
    refine Pull.scoreRow_kept ?_
    assumption
  · refine Kept.pairPull ?_
    refine Kept.fstPull ‹_› ?_
    refine Pull.rows_kept ?_
    refine Kept.fstPull ‹_› ?_
    refine Kept.iteFstPull ?_ ?_
    · refine Pull.rows_kept ?_
      refine Kept.fstPull ‹_› ?_
      refine Kept.foldlFstPull (fun p7 x8 h9 => ?_) ?_
      · split
        refine Kept.pairPull ?_
        refine Kept.fstPull ‹_› ?_
        refine Pull.scoreRow_kept ?_
        assumption
      · refine Kept.pairPull ?_
        refine Kept.fstPull ‹_› ?_
        refine Pull.rows_kept ?_
        assumption
    · refine Kept.pairPull ?_
      refine Kept.fstPull ‹_› ?_
      refine Kept.foldlFstPull (fun p10 x11 h12 => ?_) ?_
      · split
        refine Kept.pairPull ?_
        refine Kept.fstPull ‹_› ?_
        refine Pull.scoreRow_kept ?_
        assumption
      · refine Kept.pairPull ?_
        refine Kept.fstPull ‹_› ?_
        refine Pull.rows_kept ?_
        assumption

theorem State.drwResidue_kept {r₀ : State} {s : State} {u row} (h₀ : Kept r₀ s) : Kept r₀ (State.drwResidue s u row).1 := by
  unfold State.drwResidue
  refine Kept.iteFst ?_ ?_
  · refine Kept.pair ?_
    refine State.setFld_kept ?_
    refine State.spend_kept ?_
    assumption
  · refine Kept.iteFst ?_ ?_
    · extract_lets x1 s2
      clear_value x1
      have h3 : Kept r₀ s2 := by
        unfold s2
        refine State.setFld_kept ?_
        refine State.count_kept ?_
        refine State.spend_kept ?_
        assumption
      clear_value s2
      refine Kept.pair ?_
      refine State.unitFault_kept ?_
      refine State.unitEvent_kept ?_
      assumption
    · refine Kept.pair ?_
      assumption

theorem State.noteRow_kept {r₀ : State} {s : State} {u empty nan} (h₀ : Kept r₀ s) : Kept r₀ (State.noteRow s u empty nan) := by
  unfold State.noteRow
  extract_lets x1 s2
  clear_value x1
  have h3 : Kept r₀ s2 := by
    unfold s2
    refine Kept.ite ?_ ?_
    · refine State.unitEvent_kept ?_
      refine State.count_kept ?_
      assumption
    · assumption
  clear_value s2
  refine Kept.ite ?_ ?_
  · refine State.count_kept ?_
    assumption
  · assumption

theorem State.attnRun_kept {r₀ : State} {s : State} {u b pos masks sq sk x twoPass poison} (h₀ : Kept r₀ s) : Kept r₀ (State.attnRun s u b pos masks sq sk x twoPass poison) := by
  unfold State.attnRun
  extract_lets x1 x2 x3 x4 x5
  clear_value x1 x2 x3 x4 x5
  split
  split
  split
  refine Kept.foldl (fun s6 x7 h8 => ?_) ?_
  · extract_lets x9 x10 x11 s12 s13 x14
    clear_value x9 x10 x11
    have h15 : Kept r₀ s12 := by
      unfold s12
      refine State.noteRow_kept ?_
      assumption
    clear_value s12
    have h16 : Kept r₀ s13 := by
      unfold s13
      refine Kept.foldl (fun s17 x18 h19 => ?_) ?_
      · refine State.emit_kept ?_
        assumption
      · assumption
    clear_value s13
    clear_value x14
    refine State.unitWriteRow_kept ?_
    assumption
  · refine Kept.fst ‹_› ?_
    refine State.spendDup_kept ?_
    refine Kept.fst ‹_› ?_
    refine State.spendDup_kept ?_
    refine Kept.fst ‹_› ?_
    refine State.drwResidue_kept ?_
    assumption

theorem State.drwCycles_kept {r₀ : State} {s : State} {u} (h₀ : Kept r₀ s) : Kept r₀ (State.drwCycles s u) := by
  unfold State.drwCycles
  split
  refine State.spendStall_kept ?_
  refine State.wr64_kept ?_
  refine Kept.fst ‹_› ?_
  refine State.free_kept ?_
  assumption

theorem State.attnIssue_kept {r₀ : State} {s : State} {u d} (h₀ : Kept r₀ s) : IssueKept r₀ (State.attnIssue s u d) := by
  unfold State.attnIssue
  extract_lets x1 x2
  clear_value x1 x2
  split
  refine IssueKept.ite ?_ ?_
  · refine IssueKept.refuse ?_
    refine Kept.fstPull ‹_› ?_
    refine State.blockFetch_kept ?_
    assumption
  · extract_lets x3 x4 x5 x6 x7
    clear_value x3 x4 x5 x6 x7
    split
    split
    extract_lets x8
    clear_value x8
    refine IssueKept.pullCheck ?_ ?_
    · refine Kept.fstPull ‹_› ?_
      refine Kept.iteFstPull ?_ ?_
      · refine Pull.read_kept ?_
        refine Kept.fstPull ‹_› ?_
        refine Kept.iteFstPull ?_ ?_
        · refine Kept.pairPull ?_
          refine Kept.fstPull ‹_› ?_
          refine State.blockFetch_kept ?_
          assumption
        · refine Pull.read_kept ?_
          refine Kept.fstPull ‹_› ?_
          refine State.blockFetch_kept ?_
          assumption
      · refine Kept.pairPull ?_
        refine Kept.fstPull ‹_› ?_
        refine Kept.iteFstPull ?_ ?_
        · refine Kept.pairPull ?_
          refine Kept.fstPull ‹_› ?_
          refine State.blockFetch_kept ?_
          assumption
        · refine Pull.read_kept ?_
          refine Kept.fstPull ‹_› ?_
          refine State.blockFetch_kept ?_
          assumption
    · split
      extract_lets x9
      clear_value x9
      refine IssueKept.pullCheck ?_ ?_
      · refine Kept.fstPull ‹_› ?_
        refine Pull.entries_kept ?_
        refine Kept.fstPull ‹_› ?_
        refine Kept.iteFstPull ?_ ?_
        · refine Pull.read_kept ?_
          refine Kept.fstPull ‹_› ?_
          refine Kept.iteFstPull ?_ ?_
          · refine Kept.pairPull ?_
            refine Kept.fstPull ‹_› ?_
            refine State.blockFetch_kept ?_
            assumption
          · refine Pull.read_kept ?_
            refine Kept.fstPull ‹_› ?_
            refine State.blockFetch_kept ?_
            assumption
        · refine Kept.pairPull ?_
          refine Kept.fstPull ‹_› ?_
          refine Kept.iteFstPull ?_ ?_
          · refine Kept.pairPull ?_
            refine Kept.fstPull ‹_› ?_
            refine State.blockFetch_kept ?_
            assumption
          · refine Pull.read_kept ?_
            refine Kept.fstPull ‹_› ?_
            refine State.blockFetch_kept ?_
            assumption
      · split
        split
        split
        extract_lets s10
        have h11 : Kept r₀ s10 := by
          unfold s10
          refine State.eatIf_kept ?_
          refine Kept.fstPull ‹_› ?_
          refine Pull.attnRead_kept ?_
          refine Kept.fstPull ‹_› ?_
          refine Kept.iteFstPull ?_ ?_
          · refine Pull.read_kept ?_
            refine Kept.fstPull ‹_› ?_
            refine Kept.iteFstPull ?_ ?_
            · refine Pull.read_kept ?_
              refine Kept.fstPull ‹_› ?_
              refine Pull.entries_kept ?_
              refine Kept.fstPull ‹_› ?_
              refine Kept.iteFstPull ?_ ?_
              · refine Pull.read_kept ?_
                refine Kept.fstPull ‹_› ?_
                refine Kept.iteFstPull ?_ ?_
                · refine Kept.pairPull ?_
                  refine Kept.fstPull ‹_› ?_
                  refine State.blockFetch_kept ?_
                  assumption
                · refine Pull.read_kept ?_
                  refine Kept.fstPull ‹_› ?_
                  refine State.blockFetch_kept ?_
                  assumption
              · refine Kept.pairPull ?_
                refine Kept.fstPull ‹_› ?_
                refine Kept.iteFstPull ?_ ?_
                · refine Kept.pairPull ?_
                  refine Kept.fstPull ‹_› ?_
                  refine State.blockFetch_kept ?_
                  assumption
                · refine Pull.read_kept ?_
                  refine Kept.fstPull ‹_› ?_
                  refine State.blockFetch_kept ?_
                  assumption
            · refine Kept.pairPull ?_
              refine Kept.fstPull ‹_› ?_
              refine Pull.entries_kept ?_
              refine Kept.fstPull ‹_› ?_
              refine Kept.iteFstPull ?_ ?_
              · refine Pull.read_kept ?_
                refine Kept.fstPull ‹_› ?_
                refine Kept.iteFstPull ?_ ?_
                · refine Kept.pairPull ?_
                  refine Kept.fstPull ‹_› ?_
                  refine State.blockFetch_kept ?_
                  assumption
                · refine Pull.read_kept ?_
                  refine Kept.fstPull ‹_› ?_
                  refine State.blockFetch_kept ?_
                  assumption
              · refine Kept.pairPull ?_
                refine Kept.fstPull ‹_› ?_
                refine Kept.iteFstPull ?_ ?_
                · refine Kept.pairPull ?_
                  refine Kept.fstPull ‹_› ?_
                  refine State.blockFetch_kept ?_
                  assumption
                · refine Pull.read_kept ?_
                  refine Kept.fstPull ‹_› ?_
                  refine State.blockFetch_kept ?_
                  assumption
          · refine Kept.pairPull ?_
            refine Kept.fstPull ‹_› ?_
            refine Kept.iteFstPull ?_ ?_
            · refine Pull.read_kept ?_
              refine Kept.fstPull ‹_› ?_
              refine Pull.entries_kept ?_
              refine Kept.fstPull ‹_› ?_
              refine Kept.iteFstPull ?_ ?_
              · refine Pull.read_kept ?_
                refine Kept.fstPull ‹_› ?_
                refine Kept.iteFstPull ?_ ?_
                · refine Kept.pairPull ?_
                  refine Kept.fstPull ‹_› ?_
                  refine State.blockFetch_kept ?_
                  assumption
                · refine Pull.read_kept ?_
                  refine Kept.fstPull ‹_› ?_
                  refine State.blockFetch_kept ?_
                  assumption
              · refine Kept.pairPull ?_
                refine Kept.fstPull ‹_› ?_
                refine Kept.iteFstPull ?_ ?_
                · refine Kept.pairPull ?_
                  refine Kept.fstPull ‹_› ?_
                  refine State.blockFetch_kept ?_
                  assumption
                · refine Pull.read_kept ?_
                  refine Kept.fstPull ‹_› ?_
                  refine State.blockFetch_kept ?_
                  assumption
            · refine Kept.pairPull ?_
              refine Kept.fstPull ‹_› ?_
              refine Pull.entries_kept ?_
              refine Kept.fstPull ‹_› ?_
              refine Kept.iteFstPull ?_ ?_
              · refine Pull.read_kept ?_
                refine Kept.fstPull ‹_› ?_
                refine Kept.iteFstPull ?_ ?_
                · refine Kept.pairPull ?_
                  refine Kept.fstPull ‹_› ?_
                  refine State.blockFetch_kept ?_
                  assumption
                · refine Pull.read_kept ?_
                  refine Kept.fstPull ‹_› ?_
                  refine State.blockFetch_kept ?_
                  assumption
              · refine Kept.pairPull ?_
                refine Kept.fstPull ‹_› ?_
                refine Kept.iteFstPull ?_ ?_
                · refine Kept.pairPull ?_
                  refine Kept.fstPull ‹_› ?_
                  refine State.blockFetch_kept ?_
                  assumption
                · refine Pull.read_kept ?_
                  refine Kept.fstPull ‹_› ?_
                  refine State.blockFetch_kept ?_
                  assumption
        clear_value s10
        refine IssueKept.pullCheck ?_ ?_
        · refine Kept.fstPull ‹_› ?_
          refine Pull.attnRead_kept ?_
          refine Kept.fstPull ‹_› ?_
          refine Kept.iteFstPull ?_ ?_
          · refine Pull.read_kept ?_
            refine Kept.fstPull ‹_› ?_
            refine Kept.iteFstPull ?_ ?_
            · refine Pull.read_kept ?_
              refine Kept.fstPull ‹_› ?_
              refine Pull.entries_kept ?_
              refine Kept.fstPull ‹_› ?_
              refine Kept.iteFstPull ?_ ?_
              · refine Pull.read_kept ?_
                refine Kept.fstPull ‹_› ?_
                refine Kept.iteFstPull ?_ ?_
                · refine Kept.pairPull ?_
                  refine Kept.fstPull ‹_› ?_
                  refine State.blockFetch_kept ?_
                  assumption
                · refine Pull.read_kept ?_
                  refine Kept.fstPull ‹_› ?_
                  refine State.blockFetch_kept ?_
                  assumption
              · refine Kept.pairPull ?_
                refine Kept.fstPull ‹_› ?_
                refine Kept.iteFstPull ?_ ?_
                · refine Kept.pairPull ?_
                  refine Kept.fstPull ‹_› ?_
                  refine State.blockFetch_kept ?_
                  assumption
                · refine Pull.read_kept ?_
                  refine Kept.fstPull ‹_› ?_
                  refine State.blockFetch_kept ?_
                  assumption
            · refine Kept.pairPull ?_
              refine Kept.fstPull ‹_› ?_
              refine Pull.entries_kept ?_
              refine Kept.fstPull ‹_› ?_
              refine Kept.iteFstPull ?_ ?_
              · refine Pull.read_kept ?_
                refine Kept.fstPull ‹_› ?_
                refine Kept.iteFstPull ?_ ?_
                · refine Kept.pairPull ?_
                  refine Kept.fstPull ‹_› ?_
                  refine State.blockFetch_kept ?_
                  assumption
                · refine Pull.read_kept ?_
                  refine Kept.fstPull ‹_› ?_
                  refine State.blockFetch_kept ?_
                  assumption
              · refine Kept.pairPull ?_
                refine Kept.fstPull ‹_› ?_
                refine Kept.iteFstPull ?_ ?_
                · refine Kept.pairPull ?_
                  refine Kept.fstPull ‹_› ?_
                  refine State.blockFetch_kept ?_
                  assumption
                · refine Pull.read_kept ?_
                  refine Kept.fstPull ‹_› ?_
                  refine State.blockFetch_kept ?_
                  assumption
          · refine Kept.pairPull ?_
            refine Kept.fstPull ‹_› ?_
            refine Kept.iteFstPull ?_ ?_
            · refine Pull.read_kept ?_
              refine Kept.fstPull ‹_› ?_
              refine Pull.entries_kept ?_
              refine Kept.fstPull ‹_› ?_
              refine Kept.iteFstPull ?_ ?_
              · refine Pull.read_kept ?_
                refine Kept.fstPull ‹_› ?_
                refine Kept.iteFstPull ?_ ?_
                · refine Kept.pairPull ?_
                  refine Kept.fstPull ‹_› ?_
                  refine State.blockFetch_kept ?_
                  assumption
                · refine Pull.read_kept ?_
                  refine Kept.fstPull ‹_› ?_
                  refine State.blockFetch_kept ?_
                  assumption
              · refine Kept.pairPull ?_
                refine Kept.fstPull ‹_› ?_
                refine Kept.iteFstPull ?_ ?_
                · refine Kept.pairPull ?_
                  refine Kept.fstPull ‹_› ?_
                  refine State.blockFetch_kept ?_
                  assumption
                · refine Pull.read_kept ?_
                  refine Kept.fstPull ‹_› ?_
                  refine State.blockFetch_kept ?_
                  assumption
            · refine Kept.pairPull ?_
              refine Kept.fstPull ‹_› ?_
              refine Pull.entries_kept ?_
              refine Kept.fstPull ‹_› ?_
              refine Kept.iteFstPull ?_ ?_
              · refine Pull.read_kept ?_
                refine Kept.fstPull ‹_› ?_
                refine Kept.iteFstPull ?_ ?_
                · refine Kept.pairPull ?_
                  refine Kept.fstPull ‹_› ?_
                  refine State.blockFetch_kept ?_
                  assumption
                · refine Pull.read_kept ?_
                  refine Kept.fstPull ‹_› ?_
                  refine State.blockFetch_kept ?_
                  assumption
              · refine Kept.pairPull ?_
                refine Kept.fstPull ‹_› ?_
                refine Kept.iteFstPull ?_ ?_
                · refine Kept.pairPull ?_
                  refine Kept.fstPull ‹_› ?_
                  refine State.blockFetch_kept ?_
                  assumption
                · refine Pull.read_kept ?_
                  refine Kept.fstPull ‹_› ?_
                  refine State.blockFetch_kept ?_
                  assumption
        · refine IssueKept.done ?_
          refine State.drwCycles_kept ?_
          refine State.attnRun_kept ?_
          assumption

theorem State.rbIssue_kept {r₀ : State} {s : State} {u d} (h₀ : Kept r₀ s) : IssueKept r₀ (State.rbIssue s u d) := by
  unfold State.rbIssue
  split
  extract_lets x1
  clear_value x1
  refine IssueKept.ite ?_ ?_
  · refine IssueKept.refuse ?_
    refine Kept.fstPull ‹_› ?_
    refine State.blockFetch_kept ?_
    assumption
  · refine IssueKept.pullCheck ?_ ?_
    · refine Kept.fstPull ‹_› ?_
      refine State.blockFetch_kept ?_
      assumption
    · split
      refine IssueKept.pullCheck ?_ ?_
      · refine Kept.fstPull ‹_› ?_
        refine Pull.read_kept ?_
        refine Kept.fstPull ‹_› ?_
        refine State.blockFetch_kept ?_
        assumption
      · split
        extract_lets x2 x3 s4
        clear_value x2 x3
        have h5 : Kept r₀ s4 := by
          unfold s4
          refine State.eatIf_kept ?_
          refine Kept.fstPull ‹_› ?_
          refine Pull.entries_kept ?_
          refine Kept.fstPull ‹_› ?_
          refine Pull.read_kept ?_
          refine Kept.fstPull ‹_› ?_
          refine State.blockFetch_kept ?_
          assumption
        clear_value s4
        refine IssueKept.pullCheck ?_ ?_
        · refine Kept.fstPull ‹_› ?_
          refine Pull.entries_kept ?_
          refine Kept.fstPull ‹_› ?_
          refine Pull.read_kept ?_
          refine Kept.fstPull ‹_› ?_
          refine State.blockFetch_kept ?_
          assumption
        · refine IssueKept.done ?_
          refine State.spendStall_kept ?_
          refine State.rollback_kept ?_
          assumption

theorem Pull.kvRow_kept {r₀ : State} {p : Pull} {u b rope pos x} (h₀ : Kept r₀ p.s) : Kept r₀ (Pull.kvRow p u b rope pos x).1.s := by
  unfold Pull.kvRow
  refine Kept.iteFstPull ?_ ?_
  · extract_lets x1 x2
    clear_value x1 x2
    split
    split
    extract_lets x3
    clear_value x3
    refine Kept.pairPull ?_
    refine Kept.fstPull ‹_› ?_
    refine Pull.read_kept ?_
    refine Kept.fstPull ‹_› ?_
    refine Pull.read_kept ?_
    assumption
  · refine Kept.pairPull ?_
    assumption

theorem State.kvPage_kept {r₀ : State} {s : State} {u b page e ks vs poison badK} (h₀ : Kept r₀ s) : Kept r₀ (State.kvPage s u b page e ks vs poison badK) := by
  unfold State.kvPage
  extract_lets x1 x2 x3 s4 x5
  clear_value x1 x2 x3
  have h6 : Kept r₀ s4 := by
    unfold s4
    refine Kept.foldl (fun s7 x8 h9 => ?_) ?_
    · extract_lets x10 x11 x12 x13 s14 s15 s16
      clear_value x10 x11 x12 x13
      have h17 : Kept r₀ s14 := by
        unfold s14
        refine Kept.foldl (fun s18 x19 h20 => ?_) ?_
        · refine State.emit_kept ?_
          assumption
        · assumption
      clear_value s14
      have h21 : Kept r₀ s15 := by
        unfold s15
        refine Kept.foldl (fun s22 x23 h24 => ?_) ?_
        · refine State.emit_kept ?_
          assumption
        · assumption
      clear_value s15
      have h25 : Kept r₀ s16 := by
        unfold s16
        refine State.unitWriteRow_kept ?_
        assumption
      clear_value s16
      refine Kept.ite ?_ ?_
      · assumption
      · refine State.unitWrite_kept ?_
        assumption
    · assumption
  clear_value s4
  clear_value x5
  refine State.writeEntry_kept ?_
  assumption

theorem State.kvIssue_kept {r₀ : State} {s : State} {u d} (h₀ : Kept r₀ s) : IssueKept r₀ (State.kvIssue s u d) := by
  unfold State.kvIssue
  split
  extract_lets x1 x2 x3 x4 x5 x6 x7
  clear_value x1 x2 x3 x4 x5 x6 x7
  refine IssueKept.ite ?_ ?_
  · refine IssueKept.refuse ?_
    refine Kept.fstPull ‹_› ?_
    refine State.blockFetch_kept ?_
    assumption
  · split
    refine IssueKept.pullCheck ?_ ?_
    · refine Kept.fstPull ‹_› ?_
      refine Kept.iteFstPull ?_ ?_
      · refine Kept.pairPull ?_
        refine Kept.fstPull ‹_› ?_
        refine State.blockFetch_kept ?_
        assumption
      · refine Pull.read_kept ?_
        refine Kept.fstPull ‹_› ?_
        refine State.blockFetch_kept ?_
        assumption
    · split
      extract_lets x8
      clear_value x8
      refine IssueKept.pullCheck ?_ ?_
      · refine Kept.fstPull ‹_› ?_
        refine Pull.entries_kept ?_
        refine Kept.fstPull ‹_› ?_
        refine Kept.iteFstPull ?_ ?_
        · refine Kept.pairPull ?_
          refine Kept.fstPull ‹_› ?_
          refine State.blockFetch_kept ?_
          assumption
        · refine Pull.read_kept ?_
          refine Kept.fstPull ‹_› ?_
          refine State.blockFetch_kept ?_
          assumption
      · split
        split
        split
        extract_lets x9 x10 s11
        clear_value x9 x10
        have h12 : Kept r₀ s11 := by
          unfold s11
          refine State.eatIf_kept ?_
          refine Kept.fstPull ‹_› ?_
          refine Kept.foldlFstPull (fun p13 x14 h15 => ?_) ?_
          · split
            refine Kept.pairPull ?_
            refine Kept.fstPull ‹_› ?_
            refine Pull.kvRow_kept ?_
            assumption
          · refine Kept.pairPull ?_
            refine Kept.fstPull ‹_› ?_
            refine Pull.rows_kept ?_
            refine Kept.fstPull ‹_› ?_
            refine Pull.rows_kept ?_
            refine Kept.fstPull ‹_› ?_
            refine Pull.entries_kept ?_
            refine Kept.fstPull ‹_› ?_
            refine Kept.iteFstPull ?_ ?_
            · refine Kept.pairPull ?_
              refine Kept.fstPull ‹_› ?_
              refine State.blockFetch_kept ?_
              assumption
            · refine Pull.read_kept ?_
              refine Kept.fstPull ‹_› ?_
              refine State.blockFetch_kept ?_
              assumption
        clear_value s11
        split
        refine IssueKept.pullCheck ?_ ?_
        · refine Kept.fstPull ‹_› ?_
          refine Kept.foldlFstPull (fun p16 x17 h18 => ?_) ?_
          · split
            refine Kept.pairPull ?_
            refine Kept.fstPull ‹_› ?_
            refine Pull.kvRow_kept ?_
            assumption
          · refine Kept.pairPull ?_
            refine Kept.fstPull ‹_› ?_
            refine Pull.rows_kept ?_
            refine Kept.fstPull ‹_› ?_
            refine Pull.rows_kept ?_
            refine Kept.fstPull ‹_› ?_
            refine Pull.entries_kept ?_
            refine Kept.fstPull ‹_› ?_
            refine Kept.iteFstPull ?_ ?_
            · refine Kept.pairPull ?_
              refine Kept.fstPull ‹_› ?_
              refine State.blockFetch_kept ?_
              assumption
            · refine Pull.read_kept ?_
              refine Kept.fstPull ‹_› ?_
              refine State.blockFetch_kept ?_
              assumption
        · refine IssueKept.done ?_
          refine State.spendStall_kept ?_
          refine Kept.foldl (fun s19 x20 h21 => ?_) ?_
          · refine State.kvPage_kept ?_
            assumption
          · refine Kept.fst ‹_› ?_
            refine State.spendDup_kept ?_
            assumption

theorem execKvappend_completes {s : State} {p} : Completes s (execKvappend p s) := by
  unfold execKvappend
  refine Completes.next ?_
  refine State.issue_kept (fun d3 s1 h2 => ?_) ?_
  · refine State.kvIssue_kept ?_
    assumption
  · exact Kept.refl

theorem execAttn_completes {s : State} {p} : Completes s (execAttn p s) := by
  unfold execAttn
  refine Completes.next ?_
  refine State.issue_kept (fun d3 s1 h2 => ?_) ?_
  · refine State.attnIssue_kept ?_
    assumption
  · exact Kept.refl

theorem execRollback_completes {s : State} {p} : Completes s (execRollback p s) := by
  unfold execRollback
  refine Completes.next ?_
  refine State.issue_kept (fun d3 s1 h2 => ?_) ?_
  · refine State.rbIssue_kept ?_
    assumption
  · exact Kept.refl

end Sys2Proof.Machine
end

