-- ==== Sys2Proof/Laws/Kept/Load.lean ====
section
/-! SUPPORT. What the operations of Machine/Load.lean keep. -/

namespace Sys2Proof.Machine

theorem State.fillAges_kept {r₀ : State} {s : State} {g} (h₀ : Kept r₀ s) : Kept r₀ (State.fillAges s g) := by
  unfold State.fillAges
  refine Kept.foldl (fun s1 x2 h3 => ?_) ?_
  · refine State.setFld_kept ?_
    refine State.setFld_kept ?_
    assumption
  · assumption

theorem State.addModel_kept {r₀ : State} {s : State} {c base handle g image pins} (h₀ : Kept r₀ s) : Kept r₀ (State.addModel s c base handle g image pins) := by
  unfold State.addModel
  extract_lets x1 s2
  clear_value x1
  have h3 : Kept r₀ s2 := by
    unfold s2
    refine Kept.upd rfl ?_
    assumption
  clear_value s2
  refine Kept.ite ?_ ?_
  · refine State.fillAges_kept ?_
    assumption
  · assumption

theorem State.placeImage_kept {r₀ : State} {s : State} {c base image} (h₀ : Kept r₀ s) : Kept r₀ (State.placeImage s c base image).1 := by
  unfold State.placeImage
  refine Kept.iteFst ?_ ?_
  · refine State.write_kept ?_
    assumption
  · refine Kept.pair ?_
    assumption

theorem State.loadGraph_kept {r₀ : State} {s : State} {c base j g image pins} (h₀ : Kept r₀ s) : Kept r₀ (State.loadGraph s c base j g image pins) := by
  unfold State.loadGraph
  extract_lets x1
  clear_value x1
  split
  refine Kept.ite ?_ ?_
  · refine State.enqueueRec_kept ?_
    refine Kept.fst ‹_› ?_
    refine State.placeImage_kept ?_
    assumption
  · split
    refine Kept.ite ?_ ?_
    · refine State.enqueueRec_kept ?_
      refine Kept.fst ‹_› ?_
      refine State.write_kept ?_
      refine Kept.fst ‹_› ?_
      refine State.placeImage_kept ?_
      assumption
    · extract_lets s2
      have h3 : Kept r₀ s2 := by
        unfold s2
        refine State.addModel_kept ?_
        refine Kept.fst ‹_› ?_
        refine State.write_kept ?_
        refine Kept.fst ‹_› ?_
        refine State.placeImage_kept ?_
        assumption
      clear_value s2
      refine State.enqueueRec_kept ?_
      assumption

theorem State.sigAfter_kept {r₀ : State} {s : State} {u d0 gold} (h₀ : Kept r₀ s) : Kept r₀ (State.sigAfter s u d0 gold) := by
  unfold State.sigAfter
  extract_lets x1
  clear_value x1
  refine State.modUnit_kept ?_
  assumption

theorem State.loadFails_kept {r₀ : State} {s : State} {c j ref status} (h₀ : Kept r₀ s) : Kept r₀ (State.loadFails s c j ref status) := by
  unfold State.loadFails
  split
  split
  refine State.enqueueRec_kept ?_
  refine Kept.fst ‹_› ?_
  refine State.write_kept ?_
  assumption

theorem State.staticAfter_kept {r₀ : State} {s : State} {u i d} (h₀ : Kept r₀ s) : Kept r₀ (State.staticAfter s u i d) := by
  unfold State.staticAfter
  refine Kept.ite ?_ ?_
  · split
    · refine State.sigAfter_kept ?_
      assumption
    · refine State.sigAfter_kept ?_
      assumption
    · assumption
  · split
    · refine State.modAnvil_kept ?_
      assumption
    · refine State.modAnvil_kept ?_
      assumption
    · refine State.modAnvil_kept ?_
      assumption
    · refine State.sigAfter_kept ?_
      assumption
    · refine State.sigAfter_kept ?_
      assumption
    · assumption

theorem State.scratch_kept {r₀ : State} {s : State} {l} (h₀ : Kept r₀ s) : Kept r₀ (State.scratch s l) := by
  unfold State.scratch
  refine State.setAnvil_kept ?_
  refine State.modUnit_kept ?_
  assumption

theorem State.openRefusal_kept {r₀ : State} {s : State} (h₀ : Kept r₀ s) : Kept r₀ (State.openRefusal s).1 := by
  unfold State.openRefusal
  split
  split
  split
  split
  split
  refine Kept.pair ?_
  refine Kept.fst ‹_› ?_
  refine State.free_kept ?_
  refine Kept.fst ‹_› ?_
  refine State.free_kept ?_
  refine Kept.fst ‹_› ?_
  refine State.free_kept ?_
  refine Kept.fst ‹_› ?_
  refine State.free_kept ?_
  refine Kept.fst ‹_› ?_
  refine State.free_kept ?_
  assumption

theorem State.loadRefused_kept {r₀ : State} {s : State} {g image} (h₀ : Kept r₀ s) : Kept r₀ (State.loadRefused s g image).1 := by
  unfold State.loadRefused
  split
  · refine Kept.pair ?_
    assumption
  · refine Kept.iteFst ?_ ?_
    · split
      refine Kept.pair ?_
      refine Kept.fst ‹_› ?_
      refine State.openRefusal_kept ?_
      assumption
    · refine Kept.pair ?_
      assumption

theorem State.loadImage_kept {r₀ : State} {s : State} {c input pin j g image} (h₀ : Kept r₀ s) : Kept r₀ (State.loadImage s c input pin j g image) := by
  unfold State.loadImage
  split
  · refine State.loadFails_kept ?_
    refine Kept.fst ‹_› ?_
    refine State.loadRefused_kept ?_
    assumption
  · split
    · refine State.loadFails_kept ?_
      refine Kept.fst ‹_› ?_
      refine State.loadRefused_kept ?_
      assumption
    · extract_lets x1
      clear_value x1
      refine Kept.ite ?_ ?_
      · refine State.loadFails_kept ?_
        refine Kept.fst ‹_› ?_
        refine State.loadRefused_kept ?_
        assumption
      · refine State.loadGraph_kept ?_
        refine Kept.fst ‹_› ?_
        refine State.loadRefused_kept ?_
        assumption

theorem execLoadModel_completes {s : State} {c r image} : Completes s (execLoadModel c r image s) := by
  unfold execLoadModel
  refine Completes.next ?_
  refine State.takeDesc_kept (fun d3 s1 h2 => ?_) ?_
  · extract_lets x4 x5
    clear_value x4 x5
    split
    refine Kept.ite ?_ ?_
    · extract_lets s6
      have h7 : Kept s s6 := by
        unfold s6
        refine Kept.ite ?_ ?_
        · refine State.consumed_kept ?_
          refine Kept.fst ‹_› ?_
          refine State.read_kept ?_
          assumption
        · refine Kept.fst ‹_› ?_
          refine State.read_kept ?_
          assumption
      clear_value s6
      refine State.enqueueRec_kept ?_
      assumption
    · refine State.loadImage_kept ?_
      refine Kept.fst ‹_› ?_
      refine State.read_kept ?_
      assumption
  · exact Kept.refl

end Sys2Proof.Machine
end

