-- ==== Sys2Proof/Laws/Kept/Net.lean ====
section
/-! SUPPORT. What the operations of Machine/Net.lean keep. -/

namespace Sys2Proof.Machine

theorem State.canReceive_kept {r₀ : State} {s : State} {k f} (h₀ : Kept r₀ s) : Kept r₀ (State.canReceive s k f) := by
  unfold State.canReceive
  split
  extract_lets s1
  have h2 : Kept r₀ s1 := by
    unfold s1
    refine Kept.upd rfl ?_
    refine Kept.fst ‹_› ?_
    refine State.free_kept ?_
    assumption
  clear_value s1
  refine Kept.ite ?_ ?_
  · refine State.event_kept ?_
    assumption
  · assumption

theorem State.pciEvent_kept {r₀ : State} {s : State} {i} (h₀ : Kept r₀ s) : Kept r₀ (State.pciEvent s i) := by
  unfold State.pciEvent
  refine State.event_kept ?_
  assumption

theorem State.linkTakes_kept {r₀ : State} {s : State} {link speed width} (h₀ : Kept r₀ s) : Kept r₀ (State.linkTakes s link speed width) := by
  unfold State.linkTakes
  extract_lets x1 s2 s3
  clear_value x1
  have h4 : Kept r₀ s2 := by
    unfold s2
    refine State.setFld_kept ?_
    assumption
  clear_value s2
  have h5 : Kept r₀ s3 := by
    unfold s3
    refine State.setFld_kept ?_
    refine State.setFld_kept ?_
    assumption
  clear_value s3
  refine Kept.ite ?_ ?_
  · refine State.pciEvent_kept ?_
    assumption
  · refine Kept.ite ?_ ?_
    · refine State.pciEvent_kept ?_
      assumption
    · assumption

theorem execParkConfirmationTimeout_completes {s : State} : Completes s (execParkConfirmationTimeout s) := by
  unfold execParkConfirmationTimeout
  refine Completes.next ?_
  refine Kept.ite ?_ ?_
  · exact Kept.refl
  · extract_lets x1 s2
    clear_value x1
    have h3 : Kept s s2 := by
      unfold s2
      refine State.expire_kept ?_
      exact Kept.refl
    clear_value s2
    refine State.trigger_kept ?_
    refine State.event_kept ?_
    refine State.setFld_kept ?_
    assumption

theorem execPcieDstateChange_completes {s : State} {d3} : Completes s (execPcieDstateChange d3 s) := by
  unfold execPcieDstateChange
  refine Completes.next ?_
  extract_lets x1
  clear_value x1
  refine Kept.ite ?_ ?_
  · exact Kept.refl
  · refine State.pciePme_kept ?_
    refine State.pciEvent_kept ?_
    refine State.setFld_kept ?_
    exact Kept.refl

theorem State.ethTransmit_kept {r₀ : State} {s : State} {p bs} (h₀ : Kept r₀ s) : Kept r₀ (State.ethTransmit s p bs) := by
  unfold State.ethTransmit
  refine Kept.ite ?_ ?_
  · refine State.send_kept ?_
    assumption
  · assumption

theorem State.e2Drop_kept {r₀ : State} {s : State} (h₀ : Kept r₀ s) : Kept r₀ (State.e2Drop s) := by
  unfold State.e2Drop
  refine State.event_kept ?_
  refine State.count_kept ?_
  assumption

theorem State.toE2_kept {r₀ : State} {s : State} {f} (h₀ : Kept r₀ s) : Kept r₀ (State.toE2 s f) := by
  unfold State.toE2
  split
  · refine State.e2Drop_kept ?_
    assumption
  · extract_lets x1
    clear_value x1
    refine Kept.ite ?_ ?_
    · refine State.e2Drop_kept ?_
      assumption
    · split
      refine Kept.foldl (fun s2 x3 h4 => ?_) ?_
      · refine Kept.ite ?_ ?_
        · refine State.pointDatagram_kept ?_
          assumption
        · refine State.badDatagram_kept ?_
          assumption
      · refine Kept.fst ‹_› ?_
        refine State.stampNs_kept ?_
        assumption

theorem execEthFrameReceived_completes {s : State} {p f} : Completes s (execEthFrameReceived p f s) := by
  unfold execEthFrameReceived
  refine Completes.next ?_
  refine Kept.ite ?_ ?_
  · exact Kept.refl
  · refine Kept.ite ?_ ?_
    · refine State.count_kept ?_
      exact Kept.refl
    · refine Kept.ite ?_ ?_
      · exact Kept.refl
      · extract_lets s1 x2
        have h3 : Kept s s1 := by
          unfold s1
          refine Kept.upd rfl ?_
          exact Kept.refl
        clear_value s1
        clear_value x2
        refine Kept.ite ?_ ?_
        · assumption
        · split
          · extract_lets s4
            have h5 : Kept s s4 := by
              unfold s4
              refine Kept.ite ?_ ?_
              · refine State.ethTransmit_kept ?_
                assumption
              · assumption
            clear_value s4
            refine Kept.ite ?_ ?_
            · refine State.toE2_kept ?_
              assumption
            · assumption
          · refine Kept.ite ?_ ?_
            · refine State.toE2_kept ?_
              assumption
            · refine State.event_kept ?_
              refine State.count_kept ?_
              assumption

theorem execCanBusOff_completes {s : State} {k} : Completes s (execCanBusOff k s) := by
  unfold execCanBusOff
  refine Completes.next ?_
  refine Kept.ite ?_ ?_
  · refine State.event_kept ?_
    refine State.setFld_kept ?_
    exact Kept.refl
  · exact Kept.refl

theorem execCanFrameReceived_completes {s : State} {k f} : Completes s (execCanFrameReceived k f s) := by
  unfold execCanFrameReceived
  refine Completes.next ?_
  refine Kept.ite ?_ ?_
  · refine State.canReceive_kept ?_
    exact Kept.refl
  · exact Kept.refl

theorem execPcieConfigWrite_completes {s : State} {w} : Completes s (execPcieConfigWrite w s) := by
  unfold execPcieConfigWrite
  refine Completes.next ?_
  refine Kept.ite ?_ ?_
  · exact Kept.refl
  · extract_lets x1 x2
    clear_value x1 x2
    refine State.pciePme_kept ?_
    refine Kept.upd rfl ?_
    exact Kept.refl

theorem State.parkFrame_kept {r₀ : State} {s : State} {k f} (h₀ : Kept r₀ s) : Kept r₀ (State.parkFrame s k f) := by
  unfold State.parkFrame
  extract_lets x1 x2 x3 s4
  clear_value x3
  have h5 : Kept r₀ s4 := by
    unfold s4
    refine State.modModes_kept ?_
    assumption
  clear_value s4
  refine Kept.ite ?_ ?_
  · refine State.count_kept ?_
    assumption
  · refine Kept.ite ?_ ?_
    · assumption
    · refine State.setFld_kept ?_
      assumption

theorem execEthPortLinkChange_completes {s : State} {p up} : Completes s (execEthPortLinkChange p up s) := by
  unfold execEthPortLinkChange
  refine Completes.next ?_
  refine Kept.ite ?_ ?_
  · exact Kept.refl
  · refine State.syncSrc_kept ?_
    refine State.setFlag_kept ?_
    exact Kept.refl

theorem execPcieLinkStateChange_completes {s : State} {link speed width} : Completes s (execPcieLinkStateChange link speed width s) := by
  unfold execPcieLinkStateChange
  refine Completes.next ?_
  refine Kept.ite ?_ ?_
  · exact Kept.refl
  · extract_lets s1
    have h2 : Kept s s1 := by
      unfold s1
      refine State.linkTakes_kept ?_
      exact Kept.refl
    clear_value s1
    refine Kept.ite ?_ ?_
    · refine State.releasePcieWake_kept ?_
      assumption
    · refine State.pciePme_kept ?_
      assumption

theorem State.bar2Write_kept {r₀ : State} {s : State} {o data} (h₀ : Kept r₀ s) : Kept r₀ (State.bar2Write s o data) := by
  unfold State.bar2Write
  extract_lets x1
  clear_value x1
  refine State.pciePme_kept ?_
  refine Kept.upd rfl ?_
  assumption

theorem execBusOffRecovery_completes {s : State} {k} : Completes s (execBusOffRecovery k s) := by
  unfold execBusOffRecovery
  refine Completes.next ?_
  refine Kept.ite ?_ ?_
  · refine State.setFld_kept ?_
    exact Kept.refl
  · exact Kept.refl

theorem State.inboundRefused_kept {r₀ : State} {s : State} (h₀ : Kept r₀ s) : Kept r₀ (State.inboundRefused s) := by
  unfold State.inboundRefused
  refine State.count_kept ?_
  assumption

theorem State.advisory_kept {r₀ : State} {s : State} (h₀ : Kept r₀ s) : Kept r₀ (State.advisory s) := by
  unfold State.advisory
  refine State.syncSrc_kept ?_
  refine State.setFld_kept ?_
  refine State.inboundRefused_kept ?_
  assumption

theorem execPcieMemWrite_completes {s : State} {bar off data} : Completes s (execPcieMemWrite bar off data s) := by
  unfold execPcieMemWrite
  refine Completes.next ?_
  refine Kept.ite ?_ ?_
  · refine State.bar2Write_kept ?_
    exact Kept.refl
  · split
    · exact Kept.refl
    · refine Kept.ite ?_ ?_
      · extract_lets x1 s2
        clear_value x1
        have h3 : Kept s s2 := by
          unfold s2
          refine State.busWrite_kept ?_
          exact Kept.refl
        clear_value s2
        refine Kept.ite ?_ ?_
        · assumption
        · refine State.advisory_kept ?_
          assumption
      · split
        refine Kept.ite ?_ ?_
        · refine State.advisory_kept ?_
          refine Kept.fst ‹_› ?_
          refine State.write_kept ?_
          exact Kept.refl
        · refine Kept.fst ‹_› ?_
          refine State.write_kept ?_
          exact Kept.refl

theorem execParkedConfirmation_completes {s : State} {k f} : Completes s (execParkedConfirmation k f s) := by
  unfold execParkedConfirmation
  refine Completes.next ?_
  refine Kept.ite ?_ ?_
  · exact Kept.refl
  · extract_lets s1
    have h2 : Kept s s1 := by
      unfold s1
      refine State.canReceive_kept ?_
      exact Kept.refl
    clear_value s1
    refine Kept.ite ?_ ?_
    · refine State.parkFrame_kept ?_
      assumption
    · assumption

theorem execPcieMemRead_completes {s : State} {bar off len} : Completes s (execPcieMemRead bar off len s) := by
  unfold execPcieMemRead
  refine Completes.next ?_
  refine Kept.ite ?_ ?_
  · refine State.send_kept ?_
    exact Kept.refl
  · split
    · exact Kept.refl
    · refine Kept.ite ?_ ?_
      · extract_lets x1
        clear_value x1
        split
        refine Kept.ite ?_ ?_
        · refine State.send_kept ?_
          refine Kept.fst ‹_› ?_
          refine State.busRead_kept ?_
          exact Kept.refl
        · refine State.send_kept ?_
          refine State.inboundRefused_kept ?_
          refine Kept.fst ‹_› ?_
          refine State.busRead_kept ?_
          exact Kept.refl
      · split
        refine Kept.ite ?_ ?_
        · refine State.send_kept ?_
          refine State.inboundRefused_kept ?_
          refine Kept.fst ‹_› ?_
          refine State.read_kept ?_
          exact Kept.refl
        · refine State.send_kept ?_
          refine Kept.fst ‹_› ?_
          refine State.read_kept ?_
          exact Kept.refl

theorem execPciePerst_completes {s : State} {level} : Completes s (execPciePerst level s) := by
  unfold execPciePerst
  refine Completes.next ?_
  extract_lets x1 s2 s3 x4 s5
  clear_value x1
  have h6 : Kept s s2 := by
    unfold s2
    refine State.modModes_kept ?_
    exact Kept.refl
  clear_value s2
  have h7 : Kept s s3 := by
    unfold s3
    refine State.pciEvent_kept ?_
    refine State.setFld_kept ?_
    refine State.linkTakes_kept ?_
    assumption
  clear_value s3
  clear_value x4
  have h8 : Kept s s5 := by
    unfold s5
    refine State.releasePcieWake_kept ?_
    assumption
  clear_value s5
  refine Kept.ite ?_ ?_
  · assumption
  · refine Kept.ite ?_ ?_
    · refine Kept.ite ?_ ?_
      · assumption
      · refine Kept.upd rfl ?_
        assumption
    · refine Kept.ite ?_ ?_
      · assumption
      · refine Kept.ite ?_ ?_
        · refine State.vehicleWake_kept ?_
          assumption
        · assumption

end Sys2Proof.Machine
end

