-- ==== Sys2Proof/Laws/Kept/Post.lean ====
section
/-! SUPPORT. What the operations of Machine/Post.lean keep. -/

namespace Sys2Proof.Machine

theorem State.dtWrite_kept {r₀ : State} {s : State} {u b kept entries dropped poison bad} (h₀ : Kept r₀ s) : Kept r₀ (State.dtWrite s u b kept entries dropped poison bad) := by
  unfold State.dtWrite
  extract_lets s1 s2 s3
  have h4 : Kept r₀ s1 := by
    unfold s1
    refine State.emit_kept ?_
    assumption
  clear_value s1
  have h5 : Kept r₀ s2 := by
    unfold s2
    refine Kept.foldl (fun s6 x7 h8 => ?_) ?_
    · refine Kept.foldl (fun s9 x10 h11 => ?_) ?_
      · refine State.emit_kept ?_
        assumption
      · assumption
    · assumption
  clear_value s2
  have h12 : Kept r₀ s3 := by
    unfold s3
    refine State.unitWrite_kept ?_
    assumption
  clear_value s3
  refine Kept.foldl (fun s13 x14 h15 => ?_) ?_
  · refine State.unitWrite_kept ?_
    assumption
  · assumption

theorem State.dtRun_kept {r₀ : State} {s : State} {u b box score anchor poison} (h₀ : Kept r₀ s) : Kept r₀ (State.dtRun s u b box score anchor poison) := by
  unfold State.dtRun
  extract_lets x1 x2 x3 x4 x5 x6 x7 s8 s9 x10
  clear_value x1 x2 x3 x4 x5 x6 x7
  have h11 : Kept r₀ s8 := by
    unfold s8
    refine State.count_kept ?_
    assumption
  clear_value s8
  have h12 : Kept r₀ s9 := by
    unfold s9
    refine Kept.ite ?_ ?_
    · assumption
    · refine State.unitEvent_kept ?_
      refine State.count_kept ?_
      assumption
  clear_value s9
  clear_value x10
  split
  extract_lets x13
  clear_value x13
  split
  refine State.dtWrite_kept ?_
  refine Kept.fst ‹_› ?_
  refine State.spendDup_kept ?_
  refine Kept.fst ‹_› ?_
  refine State.spendDup_kept ?_
  assumption

theorem State.dtIssue_kept {r₀ : State} {s : State} {u d} (h₀ : Kept r₀ s) : IssueKept r₀ (State.dtIssue s u d) := by
  unfold State.dtIssue
  split
  refine IssueKept.ite ?_ ?_
  · refine IssueKept.refuse ?_
    refine Kept.fstPull ‹_› ?_
    refine State.blockFetch_kept ?_
    assumption
  · refine IssueKept.pullCheck ?_ ?_
    · refine Kept.fstPull ‹_› ?_
      refine State.blockFetch_kept ?_
      assumption
    · split
      split
      split
      extract_lets s1
      have h2 : Kept r₀ s1 := by
        unfold s1
        refine State.eatIf_kept ?_
        refine Kept.fstPull ‹_› ?_
        refine Kept.iteFstPull ?_ ?_
        · refine Pull.read_kept ?_
          refine Kept.fstPull ‹_› ?_
          refine Pull.read_kept ?_
          refine Kept.fstPull ‹_› ?_
          refine Pull.read_kept ?_
          refine Kept.fstPull ‹_› ?_
          refine State.blockFetch_kept ?_
          assumption
        · refine Kept.pairPull ?_
          refine Kept.fstPull ‹_› ?_
          refine Pull.read_kept ?_
          refine Kept.fstPull ‹_› ?_
          refine Pull.read_kept ?_
          refine Kept.fstPull ‹_› ?_
          refine State.blockFetch_kept ?_
          assumption
      clear_value s1
      refine IssueKept.done ?_
      refine State.spendStall_kept ?_
      refine State.dtRun_kept ?_
      assumption

theorem execDetect_completes {s : State} {u} : Completes s (execDetect u s) := by
  unfold execDetect
  refine Completes.next ?_
  refine State.issue_kept (fun d3 s1 h2 => ?_) ?_
  · refine State.dtIssue_kept ?_
    assumption
  · exact Kept.refl

end Sys2Proof.Machine
end

