-- ==== Sys2Proof/Laws/Kept/Vector.lean ====
section
/-! SUPPORT. What the operations of Machine/Vector.lean keep. -/

namespace Sys2Proof.Machine

theorem State.freeUnits_kept {r₀ : State} {s : State} {u units poison} (h₀ : Kept r₀ s) : Kept r₀ (State.freeUnits s u units poison) := by
  unfold State.freeUnits
  refine Kept.foldl (fun s1 x2 h3 => ?_) ?_
  · split
    refine State.unitWrite_kept ?_
    refine Kept.fst ‹_› ?_
    refine State.freeBytes_kept ?_
    assumption
  · assumption

theorem Pull.tensor_kept {r₀ : State} {p : Pull} {u t} (h₀ : Kept r₀ p.s) : Kept r₀ (Pull.tensor p u t).1.s := by
  unfold Pull.tensor
  split
  refine Kept.pairPull ?_
  refine Kept.fstPull ‹_› ?_
  refine Pull.rows_kept ?_
  assumption

theorem State.packRow_kept {r₀ : State} {s : State} {f codes} (h₀ : Kept r₀ s) : Kept r₀ (State.packRow s f codes).1 := by
  unfold State.packRow
  refine Kept.iteFst ?_ ?_
  · split
    refine Kept.pair ?_
    refine Kept.fst ‹_› ?_
    refine Kept.iteFst ?_ ?_
    · refine Kept.pair ?_
      assumption
    · split
      refine Kept.pair ?_
      refine Kept.fst ‹_› ?_
      refine State.free_kept ?_
      assumption
  · refine Kept.pair ?_
    assumption

theorem State.writeTensor_kept {r₀ : State} {s : State} {u t code ins poison bad} (h₀ : Kept r₀ s) : Kept r₀ (State.writeTensor s u t code ins poison bad) := by
  unfold State.writeTensor
  extract_lets x1 x2 s3
  clear_value x1 x2
  have h4 : Kept r₀ s3 := by
    unfold s3
    refine Kept.foldl (fun s5 x6 h7 => ?_) ?_
    · extract_lets x8 s9
      clear_value x8
      have h10 : Kept r₀ s9 := by
        unfold s9
        refine Kept.foldl (fun s11 x12 h13 => ?_) ?_
        · refine State.emit_kept ?_
          assumption
        · assumption
      clear_value s9
      split
      refine State.unitWriteRow_kept ?_
      refine Kept.fst ‹_› ?_
      refine State.packRow_kept ?_
      assumption
    · assumption
  clear_value s3
  refine State.freeUnits_kept ?_
  assumption

theorem Pull.vecDone_kept {r₀ : State} {p : Pull} {u b code ins} (h₀ : Kept r₀ p.s) : IssueKept r₀ (Pull.vecDone p u b code ins) := by
  unfold Pull.vecDone
  extract_lets s1
  have h2 : Kept r₀ s1 := by
    unfold s1
    refine State.eatIf_kept ?_
    assumption
  clear_value s1
  split
  refine IssueKept.done ?_
  refine State.spendStall_kept ?_
  refine State.writeTensor_kept ?_
  refine Kept.fst ‹_› ?_
  refine State.spendDup_kept ?_
  assumption

theorem normGo_kept {r₀ : State} {p : Pull} {u b} (h₀ : Kept r₀ p.s) : IssueKept r₀ (normGo u p b) := by
  unfold normGo
  extract_lets x1 x2
  clear_value x1 x2
  split
  extract_lets x3 x4 s5
  clear_value x3 x4
  have h6 : Kept r₀ s5 := by
    unfold s5
    refine State.eatIf_kept ?_
    refine Kept.fstPull ‹_› ?_
    refine Pull.tensor_kept ?_
    assumption
  clear_value s5
  refine IssueKept.ite ?_ ?_
  · split
    extract_lets s7
    have h8 : Kept r₀ s7 := by
      unfold s7
      refine Kept.foldl (fun s9 x10 h11 => ?_) ?_
      · split
        extract_lets x12 s13 s14
        clear_value x12
        have h15 : Kept r₀ s13 := by
          unfold s13
          refine State.emit_kept ?_
          assumption
        clear_value s13
        have h16 : Kept r₀ s14 := by
          unfold s14
          refine State.emit_kept ?_
          assumption
        clear_value s14
        refine State.unitWrite_kept ?_
        assumption
      · refine Kept.fst ‹_› ?_
        refine State.spendDup_kept ?_
        assumption
    clear_value s7
    refine IssueKept.done ?_
    refine State.spendStall_kept ?_
    refine State.freeUnits_kept ?_
    assumption
  · split
    extract_lets x17
    clear_value x17
    refine Pull.vecDone_kept ?_
    refine Kept.fstPull ‹_› ?_
    refine Pull.read_kept ?_
    refine Kept.fstPull ‹_› ?_
    refine Pull.tensor_kept ?_
    assumption

theorem State.vecIssue_kept {r₀ s : State} {u d reasons go} (hgo : ∀ b p, Kept r₀ p.s → IssueKept r₀ (go p b)) (h₀ : Kept r₀ s) :
    IssueKept r₀ (s.vecIssue u d reasons go) := by
  unfold State.vecIssue
  split
  rename_i p b e
  have h1 : Kept r₀ p.s := Kept.fstPull e (State.blockFetch_kept h₀)
  exact IssueKept.ite (IssueKept.refuse h1) (IssueKept.pullCheck h1 (hgo b p h1))

theorem execNorm_completes {s : State} {v} : Completes s (execNorm v s) := by
  unfold execNorm
  refine Completes.next ?_
  refine State.issue_kept (fun d3 s1 h2 => ?_) ?_
  · refine State.vecIssue_kept (fun d6 s4 h5 => ?_) ?_
    · refine normGo_kept ?_
      assumption
    · assumption
  · exact Kept.refl

theorem State.vecResidue_kept {r₀ : State} {s : State} {u} (h₀ : Kept r₀ s) : Kept r₀ (State.vecResidue s u).1 := by
  unfold State.vecResidue
  refine Kept.iteFst ?_ ?_
  · refine Kept.pair ?_
    refine State.spend_kept ?_
    assumption
  · refine Kept.iteFst ?_ ?_
    · extract_lets x1 s2
      clear_value x1
      have h3 : Kept r₀ s2 := by
        unfold s2
        refine State.unitEvent_kept ?_
        refine State.count_kept ?_
        refine State.spend_kept ?_
        assumption
      clear_value s2
      refine Kept.pair ?_
      refine State.unitFault_kept ?_
      assumption
    · refine Kept.pair ?_
      assumption

theorem redGo_kept {r₀ : State} {p : Pull} {u b} (h₀ : Kept r₀ p.s) : IssueKept r₀ (redGo u p b) := by
  unfold redGo
  extract_lets x1 x2
  clear_value x1 x2
  split
  extract_lets x3 x4
  clear_value x3 x4
  refine Pull.vecDone_kept ?_
  refine Kept.fstPull ‹_› ?_
  refine Pull.tensor_kept ?_
  assumption

theorem Pull.tensorIf_kept {r₀ : State} {p : Pull} {u t} (h₀ : Kept r₀ p.s) : Kept r₀ (Pull.tensorIf p u t).1.s := by
  unfold Pull.tensorIf
  refine Kept.iteFstPull ?_ ?_
  · refine Pull.tensor_kept ?_
    assumption
  · refine Kept.pairPull ?_
    assumption

theorem eltGo_kept {r₀ : State} {p : Pull} {u b} (h₀ : Kept r₀ p.s) : IssueKept r₀ (eltGo u p b) := by
  unfold eltGo
  extract_lets x1 x2 x3
  clear_value x1 x2 x3
  split
  split
  split
  split
  extract_lets x4 x5
  clear_value x4 x5
  refine Pull.vecDone_kept ?_
  refine Kept.fstPull ‹_› ?_
  refine Kept.iteFstPull ?_ ?_
  · refine Pull.read_kept ?_
    refine Kept.fstPull ‹_› ?_
    refine Pull.tensorIf_kept ?_
    refine Kept.fstPull ‹_› ?_
    refine Kept.iteFstPull ?_ ?_
    · refine Kept.pairPull ?_
      refine Kept.fstPull ‹_› ?_
      refine Pull.tensor_kept ?_
      assumption
    · refine Pull.tensorIf_kept ?_
      refine Kept.fstPull ‹_› ?_
      refine Pull.tensor_kept ?_
      assumption
  · refine Kept.pairPull ?_
    refine Kept.fstPull ‹_› ?_
    refine Pull.tensorIf_kept ?_
    refine Kept.fstPull ‹_› ?_
    refine Kept.iteFstPull ?_ ?_
    · refine Kept.pairPull ?_
      refine Kept.fstPull ‹_› ?_
      refine Pull.tensor_kept ?_
      assumption
    · refine Pull.tensorIf_kept ?_
      refine Kept.fstPull ‹_› ?_
      refine Pull.tensor_kept ?_
      assumption

theorem State.winWorkspace_kept {r₀ : State} {s : State} {u b x y poison} (h₀ : Kept r₀ s) : Kept r₀ (State.winWorkspace s u b x y poison) := by
  unfold State.winWorkspace
  extract_lets x1 x2
  clear_value x1 x2
  refine Kept.foldl (fun s3 x4 h5 => ?_) ?_
  · refine Kept.foldl (fun s6 x7 h8 => ?_) ?_
    · refine Kept.foldl (fun s9 x10 h11 => ?_) ?_
      · refine State.unitWrite_kept ?_
        assumption
      · assumption
    · assumption
  · assumption

theorem winGo_kept {r₀ : State} {p : Pull} {u b} (h₀ : Kept r₀ p.s) : IssueKept r₀ (winGo u p b) := by
  unfold winGo
  extract_lets x1 x2 x3 x4
  clear_value x1 x2 x3 x4
  split
  split
  split
  extract_lets x5 s6 x7
  clear_value x5
  have h8 : Kept r₀ s6 := by
    unfold s6
    refine State.eatIf_kept ?_
    refine Kept.fstPull ‹_› ?_
    refine Kept.iteFstPull ?_ ?_
    · refine Pull.read_kept ?_
      refine Kept.fstPull ‹_› ?_
      refine Pull.tensorIf_kept ?_
      refine Kept.fstPull ‹_› ?_
      refine Pull.tensor_kept ?_
      assumption
    · refine Kept.pairPull ?_
      refine Kept.fstPull ‹_› ?_
      refine Pull.tensorIf_kept ?_
      refine Kept.fstPull ‹_› ?_
      refine Pull.tensor_kept ?_
      assumption
  clear_value s6
  clear_value x7
  split
  split
  extract_lets s9
  have h10 : Kept r₀ s9 := by
    unfold s9
    refine Kept.ite ?_ ?_
    · refine State.winWorkspace_kept ?_
      refine Kept.fst ‹_› ?_
      refine State.spendDup_kept ?_
      refine Kept.fst ‹_› ?_
      refine Kept.iteFst ?_ ?_
      · refine State.vecResidue_kept ?_
        assumption
      · refine Kept.pair ?_
        assumption
    · refine Kept.fst ‹_› ?_
      refine State.spendDup_kept ?_
      refine Kept.fst ‹_› ?_
      refine Kept.iteFst ?_ ?_
      · refine State.vecResidue_kept ?_
        assumption
      · refine Kept.pair ?_
        assumption
  clear_value s9
  refine IssueKept.done ?_
  refine State.spendStall_kept ?_
  refine State.writeTensor_kept ?_
  assumption

theorem execWin_completes {s : State} {v} : Completes s (execWin v s) := by
  unfold execWin
  refine Completes.next ?_
  refine State.issue_kept (fun d3 s1 h2 => ?_) ?_
  · refine State.vecIssue_kept (fun d6 s4 h5 => ?_) ?_
    · refine winGo_kept ?_
      assumption
    · assumption
  · exact Kept.refl

theorem execElt_completes {s : State} {v} : Completes s (execElt v s) := by
  unfold execElt
  refine Completes.next ?_
  refine State.issue_kept (fun d3 s1 h2 => ?_) ?_
  · refine State.vecIssue_kept (fun d6 s4 h5 => ?_) ?_
    · refine eltGo_kept ?_
      assumption
    · assumption
  · exact Kept.refl

theorem acWalk_kept {r₀ : State} {a6 : Pull} {u b tok par a5 a7 a8 a9} (h₀ : Kept r₀ a6.s) : Kept r₀ (acWalk u b tok par a5 a6 a7 a8 a9).1.s := by
  induction a5 generalizing u b tok par a6 a7 a8 a9
  · unfold acWalk
    refine Kept.pairPull ?_
    assumption
  · rename_i ih
    unfold acWalk
    split
    extract_lets x1
    clear_value x1
    split
    · refine Kept.pairPull ?_
      refine Kept.fstPull ‹_› ?_
      refine Pull.read_kept ?_
      assumption
    · refine ih ?_
      refine Kept.fstPull ‹_› ?_
      refine Pull.read_kept ?_
      assumption

theorem State.acIssue_kept {r₀ : State} {s : State} {u d} (h₀ : Kept r₀ s) : IssueKept r₀ (State.acIssue s u d) := by
  unfold State.acIssue
  refine State.vecIssue_kept (fun d3 s1 h2 => ?_) ?_
  · extract_lets x4
    clear_value x4
    split
    split
    extract_lets x5
    clear_value x5
    refine IssueKept.pullCheck ?_ ?_
    · refine Kept.fstPull ‹_› ?_
      refine Pull.read_kept ?_
      refine Kept.fstPull ‹_› ?_
      refine Pull.read_kept ?_
      assumption
    · split
      extract_lets s6 x7
      have h8 : Kept r₀ s6 := by
        unfold s6
        refine State.eatIf_kept ?_
        refine Kept.fstPull ‹_› ?_
        refine acWalk_kept ?_
        refine Kept.fstPull ‹_› ?_
        refine Pull.read_kept ?_
        refine Kept.fstPull ‹_› ?_
        refine Pull.read_kept ?_
        assumption
      clear_value s6
      clear_value x7
      split
      refine IssueKept.done ?_
      refine State.spendStall_kept ?_
      refine State.unitWrite_kept ?_
      refine Kept.fst ‹_› ?_
      refine State.spendDup_kept ?_
      assumption
  · assumption

theorem execAccept_completes {s : State} {v} : Completes s (execAccept v s) := by
  unfold execAccept
  refine Completes.next ?_
  refine State.issue_kept (fun d3 s1 h2 => ?_) ?_
  · refine State.acIssue_kept ?_
    assumption
  · exact Kept.refl

theorem execRed_completes {s : State} {v} : Completes s (execRed v s) := by
  unfold execRed
  refine Completes.next ?_
  refine State.issue_kept (fun d3 s1 h2 => ?_) ?_
  · refine State.vecIssue_kept (fun d6 s4 h5 => ?_) ?_
    · refine redGo_kept ?_
      assumption
    · assumption
  · exact Kept.refl

end Sys2Proof.Machine
end

