-- ==== Sys2Proof/Laws/Kept/Safety.lean ====
section
/-! SUPPORT. What the operations of Machine/Safety.lean keep. -/

namespace Sys2Proof.Machine

theorem State.stored_kept {r₀ : State} {s : State} {f v} (h₀ : Kept r₀ s) : Kept r₀ (State.stored s f v) := by
  unfold State.stored
  extract_lets x1
  clear_value x1
  refine State.wr_kept ?_
  assumption

theorem State.syncRange_kept {r₀ : State} {s : State} {first n} (h₀ : Kept r₀ s) : Kept r₀ (State.syncRange s first n) := by
  unfold State.syncRange
  refine Kept.foldl (fun s1 x2 h3 => ?_) ?_
  · refine State.syncSrc_kept ?_
    assumption
  · assumption

end Sys2Proof.Machine
end

