-- ==== Sys2Proof/Laws/Lists.lean ====
section
/-! SUPPORT. What the shared gates of commands do when nothing speaks against the command: an instruction at the head of a list, a descriptor at the
head of a ring, a message at a port, at the gate, at a camera receiver. -/

namespace Sys2Proof.Machine

variable {s t u : State}

/-! ### Instructions of a list (R101 to R112) -/

theorem State.issue_done {n op : Nat} {d : Ins} {ops : List Nat} {f : Ins → State → Issue} (h : s.Heads n op d t) (ho : ops.contains op = true)
    (hf : f d t = .done u) : s.issue n ops f = u.advance n := by
  unfold State.issue
  simp only [h.can, Bool.not_true, Bool.false_eq_true, if_false, h.fetch, Option.isSome_none, Bool.or_self, h.form, List.isEmpty_nil, h.op, ho, hf,
    h.list, h.place, if_true]

theorem State.issue_hold {n op : Nat} {d : Ins} {ops : List Nat} {f : Ins → State → Issue} (h : s.Heads n op d t) (ho : ops.contains op = true)
    (hf : f d t = .hold u) : s.issue n ops f = u := by
  unfold State.issue
  simp only [h.can, Bool.not_true, Bool.false_eq_true, if_false, h.fetch, Option.isSome_none, Bool.or_self, h.form, List.isEmpty_nil, h.op, ho, hf,
    h.list, h.place, if_true]

theorem State.issue_refuse {n op i : Nat} {d : Ins} {ops rs : List Nat} {f : Ins → State → Issue} (h : s.Heads n op d t) (ho : ops.contains op = true)
    (hf : f d t = .refuse u rs i) : s.issue n ops f = u.refuseAt n (lowest rs) i := by
  unfold State.issue
  simp only [h.can, Bool.not_true, Bool.false_eq_true, if_false, h.fetch, Option.isSome_none, Bool.or_self, h.form, List.isEmpty_nil, h.op, ho, hf,
    h.list, h.place, List.append_nil]

theorem Issue.check_ok {n : Nat} {rs : List Nat} {go : Issue} (h : rs = []) : Issue.check s n rs go = go := by
  unfold Issue.check; rw [h]; rfl

theorem ifZ1_ok {n : Nat} {go : Issue} (h : s.marmer n = false) : ifZ1 s n go = go := by
  unfold ifZ1; rw [h]; rfl

/-! ### Descriptors of a ring (R303 to R306) -/

theorem State.takeDesc_ok {c r op : Nat} {d : List Byte} {run : State → List Byte → State} (h : s.Takes c r op d t) :
    s.takeDesc c r op run = run t d := by
  unfold State.takeDesc
  rw [h.read]
  simp only [h.fetches, Bool.not_true, Bool.false_eq_true, if_false, Rd.bad, Option.isSome_none, Bool.or_self, h.op, bne_self_eq_false, Bool.false_and,
    h.check, h.turn, h.past]

/-! ### Messages (R432, R451, R270) -/

theorem State.inbound_ok {q ty : Nat} {m : LinkMsg} {run : State → State} (h : s.hears q m ty = true) : s.inbound q m ty run = run (s.linkGot q m) := by
  simp only [State.hears, Bool.and_eq_true, Bool.not_eq_true', beq_iff_eq] at h
  unfold State.inbound
  simp only [h.1.1, h.1.2, h.2, Bool.not_true, Bool.false_eq_true, if_false, bne_self_eq_false]

theorem State.gateTake_ok {n cls : Nat} {b : List Byte} {run : State → List Byte → State} (h : s.Holds n cls b u) : s.gateTake n cls run = run u b := by
  unfold State.gateTake
  rw [h.front]
  simp only [bne_self_eq_false, h.on, Bool.not_true, Bool.or_self, Bool.false_eq_true, if_false, h.past]

theorem State.camPacket_ok {c dt : Nat} {pkt : CamPacket} {run : State → State} (h : s.Receives c pkt dt t) : s.camPacket c pkt dt run = run t := by
  unfold State.camPacket
  simp only [h.on, Bool.not_true, Bool.false_eq_true, if_false, h.header, h.vc, h.dt, bne_self_eq_false, Bool.or_self, State.camBuffer, h.there, if_true]

end Sys2Proof.Machine
end

