-- ==== Sys2Proof/Laws/Registers.lean ====
section
/-! SUPPORT. What the commands that write one register field outside the compute units do, once the write reaches the register. -/

set_option Elab.async false

namespace Sys2Proof.Machine

variable {s : State} {who : Party}

/-- What the register map says of a field: block, offset of its register, index, access, and that every value of it is legal. -/
def siteOk (f : FRef) (b : Blk) (o i : Nat) (a : Access) : Bool :=
  f.is a && (hitAt f.addr).blk == b && (hitAt f.addr).desc.off == o && (hitAt f.addr).i == i

theorem siteOk_parts {f : FRef} {b : Blk} {o i : Nat} {a : Access} (h : siteOk f b o i a = true) :
    f.is a = true ∧ (hitAt f.addr).blk = b ∧ (hitAt f.addr).desc.off = o ∧ (hitAt f.addr).i = i := by
  simp only [siteOk, Bool.and_eq_true, beq_iff_eq] at h
  exact ⟨h.1.1.1, h.1.1.2, h.1.2, h.2⟩

theorem siteOk_reg {f : FRef} {b : Blk} {o i : Nat} {a : Access} (h : siteOk f b o i a = true) : regIs f.addr (hitAt f.addr) = true :=
  (FRef.is_parts (siteOk_parts h).1).1

/-- A field whose register takes every value. -/
theorem legal_any {f : FRef} (h : (fieldOf f).legal = .any) (hh : RegHit) (o v w : Nat) : s.legalValue hh (fieldOf f) o v w = v := by
  unfold State.legalValue; rw [h]; rfl

/-! ### Top block -/

theorem execTopLockSet_does (hr : s.reaches who Reg.TOP_LOCK = true) : execTopLockSet who s = .next (s.stored Reg.TOP_LOCK.LOCK 1) := by
  have h : siteOk Reg.TOP_LOCK.LOCK .top 0x20 0 .w1s = true := by decide +kernel
  obtain ⟨h1, h2, h3, -⟩ := siteOk_parts h
  unfold execTopLockSet
  rw [State.poke_bit (f := Reg.TOP_LOCK.LOCK) hr h1 rfl (by unfold State.shut; simp only [h2, h3]; rfl)
    (fun o w => legal_any (by decide +kernel) _ _ _ _), State.hook_quiet (.inl h2)]

theorem execKeySlotRevoke_does {slots : BitVec 4} (hr : s.reaches who Reg.TOP_SEC = true) (hl : s.locked = false) (hz : slots ≠ 0) :
    execKeySlotRevoke who slots s = .next (s.stored Reg.TOP_SEC.REVOKED (s.fld Reg.TOP_SEC.REVOKED ||| slots.toNat)) := by
  have h : siteOk Reg.TOP_SEC.REVOKED .top 0x34 0 .w1s = true := by decide +kernel
  obtain ⟨h1, h2, h3, -⟩ := siteOk_parts h
  have hv : slots.toNat % 2 ^ 4 = slots.toNat := Nat.mod_eq_of_lt slots.isLt
  have hn : slots.toNat ≠ 0 := fun e => hz (BitVec.eq_of_toNat_eq e)
  have hp : bits (s.plain (hitAt Reg.TOP_SEC.REVOKED.addr) Reg.TOP_SEC.REVOKED.addr) 0 4 = s.fld Reg.TOP_SEC.REVOKED := by
    have : (hitAt Reg.TOP_SEC.REVOKED.addr).desc.fields.all (fun f => f.access != .wo) = true := by decide +kernel
    rw [State.plain_same this]; rfl
  unfold execKeySlotRevoke
  rw [State.poke_w1s (f := Reg.TOP_SEC.REVOKED) hr h1 (by unfold State.shut; simp [h2, h3, hl]) (by rw [show Reg.TOP_SEC.REVOKED.width = 4 from rfl, hv]; exact hn)
    (fun o w => legal_any (by decide +kernel) _ _ _ _), State.hook_quiet (.inl h2)]
  rw [show Reg.TOP_SEC.REVOKED.width = 4 from rfl, show Reg.TOP_SEC.REVOKED.lsb = 0 from rfl, hv, hp]

/-! ### Time -/

/-- Levels of `n` sources from `first` on follow the registers again (R319). -/
theorem foldl_sources (first n : Nat) (t : State) : ((List.range n).map (· + first)).foldl State.syncSrc t = t.syncRange first n := by
  rw [List.foldl_map]; rfl

theorem strikeCtl_ok : siteOk Reg.TIM_STRIKE_CTL.RUN .tim 0x10 0 .rw = true := by decide +kernel

theorem State.poke_run (hr : s.reaches who Reg.TIM_STRIKE_CTL = true) {b : Bool} (hb : s.flag Reg.TIM_STRIKE_CTL.RUN = !b) :
    s.poke who Reg.TIM_STRIKE_CTL.RUN (ofBool b)
      = ((((s.setFld Reg.TIM_STRIKE_CTL.RUN (ofBool b)).when b State.runStart).when (!b) (·.runStop.sweepJobs)).syncRange 272 10).enterNow := by
  obtain ⟨h1, h2, h3, -⟩ := siteOk_parts strikeCtl_ok
  rw [State.poke_rw (f := Reg.TIM_STRIKE_CTL.RUN) hr (.inl h1) (by unfold State.shut; simp [h2, h3])
    (fun o w => legal_any (by decide +kernel) _ _ _ _),
    State.stored_same (by decide +kernel) (siteOk_reg strikeCtl_ok)]
  have e1 : (s.wrote Reg.TIM_STRIKE_CTL.RUN (ofBool b) (ofBool b)).rose 0 = b := by
    rw [show (0 : Nat) = Reg.TIM_STRIKE_CTL.RUN.lsb from rfl, State.wrote_rose _ _ rfl, hb]; cases b <;> rfl
  have e2 : (s.wrote Reg.TIM_STRIKE_CTL.RUN (ofBool b) (ofBool b)).fell 0 = !b := by
    rw [show (0 : Nat) = Reg.TIM_STRIKE_CTL.RUN.lsb from rfl, State.wrote_fell _ _ rfl, hb]; cases b <;> rfl
  have h5 : (s.wrote Reg.TIM_STRIKE_CTL.RUN (ofBool b) (ofBool b)).h.blk = .tim := h2
  have ho : (s.wrote Reg.TIM_STRIKE_CTL.RUN (ofBool b) (ofBool b)).h.desc.off = 0x10 := h3
  have e3 (t : State) : t.when (!b && !!b) State.restrike = t := by cases b <;> rfl
  simp only [State.hook, State.hookBasic, Blk.sources, h5, State.hookTim, ho, if_true, if_false, reduceCtorEq, e1, e2, e3, foldl_sources]

theorem execStrikeRunStart_does (hr : s.reaches who Reg.TIM_STRIKE_CTL = true) (hs : s.flag Reg.TIM_STRIKE_CTL.RUN = false) :
    execStrikeRunStart who s = .next (((s.setFld Reg.TIM_STRIKE_CTL.RUN 1).runStart.syncRange 272 10).enterNow) := by
  unfold execStrikeRunStart
  have := State.poke_run hr (b := true) (by rw [hs]; rfl)
  simp only [ofBool, State.when, if_true, Bool.not_true, Bool.false_eq_true, if_false] at this
  rw [this]

theorem execStrikeRunStop_does (hr : s.reaches who Reg.TIM_STRIKE_CTL = true) (hs : s.flag Reg.TIM_STRIKE_CTL.RUN = true) :
    execStrikeRunStop who s = .next (((s.setFld Reg.TIM_STRIKE_CTL.RUN 0).runStop.sweepJobs.syncRange 272 10).enterNow) := by
  unfold execStrikeRunStop
  have := State.poke_run hr (b := false) (by rw [hs]; rfl)
  simp only [ofBool, State.when, if_true, Bool.not_false, Bool.false_eq_true, if_false] at this
  rw [this]

/-! ### Contexts -/

theorem State.fld_stored_ne {f g : FRef} (v : Nat) (h : f.addr ≠ g.addr) : (s.stored f v).fld g = s.fld g := by
  unfold State.stored State.fld; rw [State.rd_wr_ne _ h]

theorem ctxCtlOk_all : ∀ c : Fin 16, (siteOk (Reg.HRT_CTX_CTL.ENABLE c) .hrt 0x1000 c .rw && siteOk (Reg.HRT_CTX_CTL.TEARDOWN c) .hrt 0x1000 c .w1s
    && siteOk (Reg.HRT_CTX_CTL.SCRUB_DONE c) .hrt 0x1000 c .wo && (hitAt (Reg.HRT_CTX_CTL c)).desc.keepsBit 0
    && (hitAt (Reg.HRT_CTX_CTL c)).desc.keepsBit 1 && (hitAt (Reg.HRT_CTX_CTL c)).desc.hidesBit 2
    && (fieldOf (Reg.HRT_CTX_CTL.ENABLE c)).legal == .dyn .ctxEnable && (fieldOf (Reg.HRT_CTX_CTL.TEARDOWN c)).legal == .dyn .ctxTeardown
    && (fieldOf (Reg.HRT_CTX_CTL.SCRUB_DONE c)).legal == .any) = true := by decide +kernel

theorem ctxCtl_ok (c : Fin 16) : siteOk (Reg.HRT_CTX_CTL.ENABLE c) .hrt 0x1000 c .rw = true ∧ siteOk (Reg.HRT_CTX_CTL.TEARDOWN c) .hrt 0x1000 c .w1s = true
    ∧ siteOk (Reg.HRT_CTX_CTL.SCRUB_DONE c) .hrt 0x1000 c .wo = true ∧ (hitAt (Reg.HRT_CTX_CTL c)).desc.keepsBit 0 = true
    ∧ (hitAt (Reg.HRT_CTX_CTL c)).desc.keepsBit 1 = true ∧ (hitAt (Reg.HRT_CTX_CTL c)).desc.hidesBit 2 = true
    ∧ (fieldOf (Reg.HRT_CTX_CTL.ENABLE c)).legal = .dyn .ctxEnable ∧ (fieldOf (Reg.HRT_CTX_CTL.TEARDOWN c)).legal = .dyn .ctxTeardown
    ∧ (fieldOf (Reg.HRT_CTX_CTL.SCRUB_DONE c)).legal = .any := by
  have h := ctxCtlOk_all c
  simp only [Bool.and_eq_true, beq_iff_eq] at h
  simp only [h, and_self]

theorem ctxCtl_shut {h : RegHit} {f : FieldDesc} (hb : h.blk = .hrt) (ho : h.desc.off = 0x1000) : s.shut h f = false := by
  unfold State.shut; simp [hb, ho]

theorem execCtxEnable_does (c : Fin 16) (hr : s.reaches who (Reg.HRT_CTX_CTL c) = true) (hc : c.val ≠ 0) (hs : s.ctxState c = 0) (hd : s.inDepot = true)
    (he : s.flag (Reg.HRT_CTX_CTL.ENABLE c) = false) :
    execCtxEnable who c true s = .next (((s.stored (Reg.HRT_CTX_CTL.ENABLE c) 1).ctxEnabled c).syncSrc 79) := by
  obtain ⟨k1, -, -, -, b1, b2, hl, -, -⟩ := ctxCtl_ok c
  obtain ⟨h1, h2, h3, h4⟩ := siteOk_parts k1
  unfold execCtxEnable
  rw [State.poke_rw (f := Reg.HRT_CTX_CTL.ENABLE c) hr (.inl h1) (ctxCtl_shut h2 h3)]
  · have e0 : (s.wrote (Reg.HRT_CTX_CTL.ENABLE c) (ofBool true) (ofBool true)).rose 0 = true := by
      rw [show (0 : Nat) = (Reg.HRT_CTX_CTL.ENABLE c).lsb from rfl, State.wrote_rose _ _ rfl, he]; rfl
    have e1 := State.wrote_rose_ne (s := s) (f := Reg.HRT_CTX_CTL.ENABLE c) (ofBool true) (ofBool true) (siteOk_reg k1) b1 (by simp [Reg.HRT_CTX_CTL.ENABLE])
    have e2 := State.wrote_set_hidden (s := s) (f := Reg.HRT_CTX_CTL.ENABLE c) (ofBool true) (ofBool true) (siteOk_reg k1) b2 (by simp [Reg.HRT_CTX_CTL.ENABLE])
    have hb : (s.wrote (Reg.HRT_CTX_CTL.ENABLE c) (ofBool true) (ofBool true)).h.blk = .hrt := h2
    have ho : (s.wrote (Reg.HRT_CTX_CTL.ENABLE c) (ofBool true) (ofBool true)).h.desc.off = 0x1000 := h3
    have hi : (s.wrote (Reg.HRT_CTX_CTL.ENABLE c) (ofBool true) (ofBool true)).h.i = c := h4
    simp only [State.hook, State.hookBasic, Blk.sources, hb, State.hookHrt, ho, hi, e0, e1, e2, State.when, if_true, if_false, reduceCtorEq,
      Nat.reduceEqDiff, Bool.false_eq_true, List.foldl_cons, List.foldl_nil]
    rfl
  · intro o w
    unfold State.legalValue; rw [hl]; simp only [State.dynLegal, h4, hc, hs, hd, if_true, if_false]

theorem execTeardown_does (c : Fin 16) (hr : s.reaches who (Reg.HRT_CTX_CTL c) = true) (hc : c.val ≠ 0) (hs : s.ctxState c = 1)
    (he : s.flag (Reg.HRT_CTX_CTL.TEARDOWN c) = false) :
    execTeardown who c s = .next (((s.stored (Reg.HRT_CTX_CTL.TEARDOWN c) 1).teardown c).syncSrc 79) := by
  obtain ⟨-, k1, -, b1, -, b2, -, hl, -⟩ := ctxCtl_ok c
  obtain ⟨h1, h2, h3, h4⟩ := siteOk_parts k1
  unfold execTeardown
  rw [State.poke_bit (f := Reg.HRT_CTX_CTL.TEARDOWN c) hr h1 rfl (ctxCtl_shut h2 h3)]
  · have e0 : (s.wrote (Reg.HRT_CTX_CTL.TEARDOWN c) 1 1).rose 1 = true := by
      rw [show (1 : Nat) = (Reg.HRT_CTX_CTL.TEARDOWN c).lsb from rfl, State.wrote_rose _ _ rfl, he]; rfl
    have e1 := State.wrote_rose_ne (s := s) (f := Reg.HRT_CTX_CTL.TEARDOWN c) 1 1 (siteOk_reg k1) b1 (by simp [Reg.HRT_CTX_CTL.TEARDOWN])
    have e2 := State.wrote_set_hidden (s := s) (f := Reg.HRT_CTX_CTL.TEARDOWN c) 1 1 (siteOk_reg k1) b2 (by simp [Reg.HRT_CTX_CTL.TEARDOWN])
    have hb : (s.wrote (Reg.HRT_CTX_CTL.TEARDOWN c) 1 1).h.blk = .hrt := h2
    have ho : (s.wrote (Reg.HRT_CTX_CTL.TEARDOWN c) 1 1).h.desc.off = 0x1000 := h3
    have hi : (s.wrote (Reg.HRT_CTX_CTL.TEARDOWN c) 1 1).h.i = c := h4
    have ht : (s.stored (Reg.HRT_CTX_CTL.TEARDOWN c) 1).ctxState c = 1 := by
      unfold State.ctxState at hs ⊢
      rw [State.fld_stored_ne _ (by simp only [Reg.HRT_CTX_CTL.TEARDOWN, Reg.HRT_CTX_STATUS.STATE, Reg.HRT_CTX_CTL, Reg.HRT_CTX_STATUS]; omega)]
      exact hs
    have ht2 : (s.stored (Reg.HRT_CTX_CTL.TEARDOWN c) 1).teardownWritten c = (s.stored (Reg.HRT_CTX_CTL.TEARDOWN c) 1).teardown c := by
      unfold State.teardownWritten; simp only [ht, hc, if_false]
    simp only [State.hook, State.hookBasic, Blk.sources, hb, State.hookHrt, ho, hi, e0, e1, e2, State.when, if_true, if_false, reduceCtorEq,
      Nat.reduceEqDiff, Bool.false_eq_true, List.foldl_cons, List.foldl_nil, ht2]
  · intro o w
    unfold State.legalValue; rw [hl]; simp only [State.dynLegal, h4, hc, if_false]

theorem execScrubDone_does (c : Fin 16) (hr : s.reaches who (Reg.HRT_CTX_CTL c) = true) (hs : s.ctxState c = 3) :
    execScrubDone who c s
      = .next ((((s.stored (Reg.HRT_CTX_CTL.SCRUB_DONE c) 1).setCtxState c 0).setFld (Reg.HRT_CTX_CTL.TEARDOWN c) 0).syncSrc 79) := by
  obtain ⟨-, -, k1, b1, b2, -, -, -, hl⟩ := ctxCtl_ok c
  obtain ⟨h1, h2, h3, h4⟩ := siteOk_parts k1
  unfold execScrubDone
  rw [State.poke_wo (f := Reg.HRT_CTX_CTL.SCRUB_DONE c) hr h1 hl (ctxCtl_shut h2 h3) (by show 1 % 2 ^ 1 ≠ 0; decide)]
  have e0 : (s.wrote (Reg.HRT_CTX_CTL.SCRUB_DONE c) 1 1).set 2 = true := State.wrote_set (f := Reg.HRT_CTX_CTL.SCRUB_DONE c) 1 1 rfl
  have e1 := State.wrote_rose_ne (s := s) (f := Reg.HRT_CTX_CTL.SCRUB_DONE c) 1 1 (siteOk_reg k1) b1 (by simp [Reg.HRT_CTX_CTL.SCRUB_DONE])
  have e2 := State.wrote_rose_ne (s := s) (f := Reg.HRT_CTX_CTL.SCRUB_DONE c) 1 1 (siteOk_reg k1) b2 (by simp [Reg.HRT_CTX_CTL.SCRUB_DONE])
  have hb : (s.wrote (Reg.HRT_CTX_CTL.SCRUB_DONE c) 1 1).h.blk = .hrt := h2
  have ho : (s.wrote (Reg.HRT_CTX_CTL.SCRUB_DONE c) 1 1).h.desc.off = 0x1000 := h3
  have hi : (s.wrote (Reg.HRT_CTX_CTL.SCRUB_DONE c) 1 1).h.i = c := h4
  have ht : (s.stored (Reg.HRT_CTX_CTL.SCRUB_DONE c) 1).ctxState c = 3 := by
    unfold State.ctxState at hs ⊢
    rw [State.fld_stored_ne _ (by simp only [Reg.HRT_CTX_CTL.SCRUB_DONE, Reg.HRT_CTX_STATUS.STATE, Reg.HRT_CTX_CTL, Reg.HRT_CTX_STATUS]; omega)]
    exact hs
  simp only [State.hook, State.hookBasic, Blk.sources, hb, State.hookHrt, ho, hi, e0, e1, e2, State.when, if_true, if_false, reduceCtorEq,
    Nat.reduceEqDiff, Bool.false_eq_true, List.foldl_cons, List.foldl_nil, State.scrubDone, ht]

/-! ### Interrupts -/

/-- A write-only field, whatever is written to it. -/
theorem State.poke_wo_any {f : FRef} {v : Nat} (hr : s.reaches who f.addr = true) (hf : f.is .wo = true)
    (hl : (fieldOf f).legal = .any) (hs : s.shut (hitAt f.addr) (fieldOf f) = false) :
    s.poke who f v = (s.stored f v).hook s (s.wrote f v v) := by
  by_cases hv : v % 2 ^ f.width = 0
  · obtain ⟨h1, h2, h3, h4, h5⟩ := FRef.is_parts hf
    have hi := h1
    simp only [regIs, Bool.and_eq_true] at hi
    have hp := putFold_bits (p := fun f => f.access == .wo) (g := fun _ => 0) (v := (s.rd f.addr).toNat) (RegDesc.sound_pairwise hi.2) h2
    simp only [beq_iff_eq, h5, if_true, h3, h4, Nat.zero_mod] at hp
    have hq : putBits (s.plain (hitAt f.addr) f.addr) f.lsb f.width v = s.plain (hitAt f.addr) f.addr := by
      rw [← putBits_mod, hv, ← hp, ← RegDesc.hideWo_eq]; exact putBits_self _ _ _
    rw [State.poke_acc hr h1 (x := putBits (s.plain (hitAt f.addr) f.addr) f.lsb f.width v), State.stored_eq h1]
    · rfl
    · have hw : bits (putBits 0 f.lsb f.width v) (fieldOf f).lsb (fieldOf f).width = 0 := by rw [h3, h4, bits_poked, hv]
      rw [hq, show (hitAt f.addr).field f = fieldOf f from rfl]; unfold State.writeField; simp [h5, hw]
  · exact State.poke_wo hr hf hl hs hv

/-- What the register map says of a register with one write-only source number. -/
def sourceRegOk (a o i : Nat) : Bool := siteOk ⟨a, 0, 9⟩ .hic o i .wo && (fieldOf ⟨a, 0, 9⟩).legal == .any

theorem State.poke_source {a o i : Nat} {src : BitVec 9} (h : sourceRegOk a o i = true) (hr : s.reaches who a = true) :
    s.poke who ⟨a, 0, 9⟩ src.toNat = (s.stored ⟨a, 0, 9⟩ src.toNat).hook s (s.wrote ⟨a, 0, 9⟩ src.toNat src.toNat)
      ∧ (s.wrote ⟨a, 0, 9⟩ src.toNat src.toNat).value = src.toNat ∧ (s.wrote ⟨a, 0, 9⟩ src.toNat src.toNat).h.blk = .hic
      ∧ (s.wrote ⟨a, 0, 9⟩ src.toNat src.toNat).h.desc.off = o ∧ (s.wrote ⟨a, 0, 9⟩ src.toNat src.toNat).h.i = i := by
  simp only [sourceRegOk, Bool.and_eq_true, beq_iff_eq] at h
  obtain ⟨h1, h2, h3, h4⟩ := siteOk_parts h.1
  have hv : putBits 0 0 9 src.toNat = src.toNat := by
    have hlt := src.isLt
    simp only [putBits, bits]; omega
  exact ⟨State.poke_wo_any (f := ⟨a, 0, 9⟩) hr h1 h.2 (by unfold State.shut; simp only [h2]), hv, h2, h3, h4⟩

theorem execHicComplete_does (core : Fin 8) (src : BitVec 9) (hr : s.reaches who (Reg.HIC_COMPLETE core) = true) :
    execHicComplete who core src s = .next ((s.stored ⟨Reg.HIC_COMPLETE core, 0, 9⟩ src.toNat).hicCompleteBy core src.toNat) := by
  have h : ∀ core : Fin 8, sourceRegOk (Reg.HIC_COMPLETE core) 0x104 core = true := by decide +kernel
  obtain ⟨e, hv, hb, ho, hi⟩ := State.poke_source (src := src) (h core) hr
  have hm : src.toNat % 512 = src.toNat := Nat.mod_eq_of_lt src.isLt
  unfold execHicComplete
  rw [e]
  simp only [State.hook, State.hookBasic, Blk.sources, hb, State.hookHic, ho, hi, hv, hm, if_true, if_false, reduceCtorEq, List.foldl_nil]

theorem execHicXcomplete_does (src : BitVec 9) (hr : s.reaches who Reg.HIC_XCOMPLETE = true) :
    execHicXcomplete who src s = .next ((s.stored ⟨Reg.HIC_XCOMPLETE, 0, 9⟩ src.toNat).hicXComplete src.toNat) := by
  have h : sourceRegOk Reg.HIC_XCOMPLETE 0x200 0 = true := by decide +kernel
  obtain ⟨e, hv, hb, ho, hi⟩ := State.poke_source (src := src) h hr
  have hm : src.toNat % 512 = src.toNat := Nat.mod_eq_of_lt src.isLt
  unfold execHicXcomplete
  rw [e]
  simp only [State.hook, State.hookBasic, Blk.sources, hb, State.hookHic, ho, hv, hm, if_true, if_false, reduceCtorEq, List.foldl_nil,
    Nat.reduceEqDiff]

theorem execHicSet_does (src : BitVec 9) (hr : s.reaches who Reg.HIC_SET = true) :
    execHicSet who src s = .next ((s.stored ⟨Reg.HIC_SET, 0, 9⟩ src.toNat).hicEvent src.toNat) := by
  have h : sourceRegOk Reg.HIC_SET 0x204 0 = true := by decide +kernel
  obtain ⟨e, hv, hb, ho, hi⟩ := State.poke_source (src := src) h hr
  have hm : src.toNat % 512 = src.toNat := Nat.mod_eq_of_lt src.isLt
  unfold execHicSet
  rw [e]
  simp only [State.hook, State.hookBasic, Blk.sources, hb, State.hookHic, ho, hv, hm, if_true, if_false, reduceCtorEq, List.foldl_nil,
    Nat.reduceEqDiff]

/-! ### Reads that do more than return a word -/

theorem State.gives_parts {a : Nat} (h : s.gives who a = true) :
    s.partyOn who = true ∧ s.inParked = false ∧ s.windowAllows who a false = true ∧ (s.liveReg a).isSome = true := by
  simp only [State.gives, Bool.and_eq_true, Bool.not_eq_true'] at h
  exact ⟨h.1.1.1, h.1.1.2, h.1.2, h.2⟩

theorem State.readOut_full {a : Nat} (hr : s.gives who a = true) (hi : regIs a (hitAt a) = true) :
    s.readOut who a 4 = (s.fullRead a).1.send (.readData a (s.fullRead a).2) := by
  obtain ⟨h1, h2, h3, -⟩ := State.gives_parts hr
  have hi' := hi
  simp only [regIs, Bool.and_eq_true, beq_iff_eq, Option.isNone_iff_eq_none] at hi'
  unfold State.readOut State.busRead
  simp [h1, h2, h3, hi'.1.1.2, hi'.1.2.1, hi'.1.2.2]

theorem State.liveReg_gives {a : Nat} (hr : s.gives who a = true) (hi : regIs a (hitAt a) = true) : s.liveReg a = some (hitAt a) :=
  State.liveReg_of (State.gives_parts hr).2.2.2 (regIs_regAt hi)

theorem execHicClaim_does (core : Fin 8) (hr : s.gives who (Reg.HIC_CLAIM core) = true) :
    execHicClaim who core s = .next ((s.claimRead core).1.send (.readData (Reg.HIC_CLAIM core) (s.claimRead core).2)) := by
  have h : ∀ core : Fin 8, (regIs (Reg.HIC_CLAIM core) (hitAt (Reg.HIC_CLAIM core)) && (hitAt (Reg.HIC_CLAIM core)).blk == .hic
      && (hitAt (Reg.HIC_CLAIM core)).desc.off == 0x100 && (hitAt (Reg.HIC_CLAIM core)).i == core) = true := by decide +kernel
  have h := h core
  simp only [Bool.and_eq_true, beq_iff_eq] at h
  obtain ⟨⟨⟨h1, h2⟩, h3⟩, h4⟩ := h
  unfold execHicClaim
  rw [State.readOut_full hr h1]
  unfold State.fullRead
  rw [State.liveReg_gives hr h1]
  simp only [h2, h3, h4, and_self, if_true]

theorem State.fullRead_window {a o : Nat} {b : Blk} (hr : s.gives who a = true)
    (h : (regIs a (hitAt a) && (hitAt a).blk == b && (hitAt a).desc.off == o) = true) :
    s.readOut who a 4 = (s.fullRead a).1.send (.readData a (s.fullRead a).2) ∧ s.liveReg a = some (hitAt a) ∧ (hitAt a).blk = b ∧ (hitAt a).desc.off = o := by
  simp only [Bool.and_eq_true, beq_iff_eq] at h
  exact ⟨State.readOut_full hr h.1.1, State.liveReg_gives hr h.1.1, h.1.2, h.2⟩

theorem execFclLogWindowRead_does (hr : s.gives who Reg.FCL_LOG_WINDOW = true) :
    execFclLogWindowRead who s = .next (s.logWindow.1.send (.readData Reg.FCL_LOG_WINDOW s.logWindow.2)) := by
  obtain ⟨e, hl, hb, ho⟩ := State.fullRead_window (b := .fcl) (o := 0x34) hr (by decide +kernel)
  unfold execFclLogWindowRead; rw [e]; unfold State.fullRead; rw [hl]; simp [hb, ho]

theorem execEvrWindowRead_does (hr : s.gives who Reg.EVR_WINDOW = true) :
    execEvrWindowRead who s = .next (s.evrWindow.1.send (.readData Reg.EVR_WINDOW s.evrWindow.2)) := by
  obtain ⟨e, hl, hb, ho⟩ := State.fullRead_window (b := .evr) (o := 0x18) hr (by decide +kernel)
  unfold execEvrWindowRead; rw [e]; unfold State.fullRead; rw [hl]; simp [hb, ho]

theorem execSnpWindowRead_does (hr : s.gives who Reg.SNP_WINDOW = true) :
    execSnpWindowRead who s = .next (s.snpWindow.1.send (.readData Reg.SNP_WINDOW s.snpWindow.2)) := by
  obtain ⟨e, hl, hb, ho⟩ := State.fullRead_window (b := .snp) (o := 0x24) hr (by decide +kernel)
  unfold execSnpWindowRead; rw [e]; unfold State.fullRead; rw [hl]; simp [hb, ho]

/-! ### Memories and movers -/

theorem cruCtl_ok : siteOk Reg.CRU_CTL.INJECT .cru 0x10 0 .wo = true := by decide +kernel

theorem execCruInject_does (hr : s.reaches who Reg.CRU_CTL = true) :
    execCruInject who s = .next { s.stored Reg.CRU_CTL.INJECT 1 with arms := { s.arms with cru := true } } := by
  obtain ⟨h1, h2, h3, -⟩ := siteOk_parts cruCtl_ok
  unfold execCruInject
  rw [State.poke_wo_any (f := Reg.CRU_CTL.INJECT) hr h1 (by decide +kernel) (by unfold State.shut; simp only [h2])]
  have e8 : (s.wrote Reg.CRU_CTL.INJECT 1 1).set 8 = true := State.wrote_set (f := Reg.CRU_CTL.INJECT) 1 1 rfl
  have hb : (s.wrote Reg.CRU_CTL.INJECT 1 1).h.blk = .cru := h2
  have ho : (s.wrote Reg.CRU_CTL.INJECT 1 1).h.desc.off = 0x10 := h3
  simp only [State.hook, State.hookBasic, Blk.sources, hb, ho, e8, State.when, BEq.rfl, Bool.and_self, if_true, if_false, reduceCtorEq, List.foldl_nil]
  rfl

theorem memInjectOk_all : ∀ ch : Fin 8, (siteOk (Reg.MEM_CH_INJECT.CE ch) .mem 0x1018 ch .wo && siteOk (Reg.MEM_CH_INJECT.UE ch) .mem 0x1018 ch .wo
    && (fieldOf (Reg.MEM_CH_INJECT.CE ch)).legal == .any && (fieldOf (Reg.MEM_CH_INJECT.UE ch)).legal == .any
    && (hitAt (Reg.MEM_CH_INJECT ch)).desc.hidesBit 0 && (hitAt (Reg.MEM_CH_INJECT ch)).desc.hidesBit 1) = true := by decide +kernel

theorem memInject_ok (ch : Fin 8) : siteOk (Reg.MEM_CH_INJECT.CE ch) .mem 0x1018 ch .wo = true ∧ siteOk (Reg.MEM_CH_INJECT.UE ch) .mem 0x1018 ch .wo = true
    ∧ (fieldOf (Reg.MEM_CH_INJECT.CE ch)).legal = .any ∧ (fieldOf (Reg.MEM_CH_INJECT.UE ch)).legal = .any
    ∧ (hitAt (Reg.MEM_CH_INJECT ch)).desc.hidesBit 0 = true ∧ (hitAt (Reg.MEM_CH_INJECT ch)).desc.hidesBit 1 = true := by
  have h := memInjectOk_all ch
  simp only [Bool.and_eq_true, beq_iff_eq] at h
  simp only [h, and_self]

theorem execMemCeInject_does (ch : Fin 8) (hr : s.reaches who (Reg.MEM_CH_INJECT ch) = true) :
    execMemCeInject who ch s
      = .next { s.stored (Reg.MEM_CH_INJECT.CE ch) 1 with arms := { s.arms with memCe := setInsert s.arms.memCe ch } } := by
  obtain ⟨k, -, hl, -, -, b1⟩ := memInject_ok ch
  obtain ⟨h1, h2, h3, h4⟩ := siteOk_parts k
  unfold execMemCeInject
  rw [State.poke_wo_any (f := Reg.MEM_CH_INJECT.CE ch) hr h1 hl (by unfold State.shut; simp only [h2])]
  have e0 : (s.wrote (Reg.MEM_CH_INJECT.CE ch) 1 1).set 0 = true := State.wrote_set (f := Reg.MEM_CH_INJECT.CE ch) 1 1 rfl
  have e1 := State.wrote_set_hidden (s := s) (f := Reg.MEM_CH_INJECT.CE ch) 1 1 (siteOk_reg k) b1 (by simp [Reg.MEM_CH_INJECT.CE])
  have hb : (s.wrote (Reg.MEM_CH_INJECT.CE ch) 1 1).h.blk = .mem := h2
  have ho : (s.wrote (Reg.MEM_CH_INJECT.CE ch) 1 1).h.desc.off = 0x1018 := h3
  have hi : (s.wrote (Reg.MEM_CH_INJECT.CE ch) 1 1).h.i = ch := h4
  simp only [State.hook, State.hookBasic, Blk.sources, hb, State.hookMem, ho, hi, e0, e1, State.when, if_true, if_false, reduceCtorEq, List.foldl_nil,
    Bool.false_eq_true]
  rfl

theorem execMemUeInject_does (ch : Fin 8) (hr : s.reaches who (Reg.MEM_CH_INJECT ch) = true) :
    execMemUeInject who ch s
      = .next { s.stored (Reg.MEM_CH_INJECT.UE ch) 1 with arms := { s.arms with memUe := setInsert s.arms.memUe ch } } := by
  obtain ⟨-, k, -, hl, b0, -⟩ := memInject_ok ch
  obtain ⟨h1, h2, h3, h4⟩ := siteOk_parts k
  unfold execMemUeInject
  rw [State.poke_wo_any (f := Reg.MEM_CH_INJECT.UE ch) hr h1 hl (by unfold State.shut; simp only [h2])]
  have e1 : (s.wrote (Reg.MEM_CH_INJECT.UE ch) 1 1).set 1 = true := State.wrote_set (f := Reg.MEM_CH_INJECT.UE ch) 1 1 rfl
  have e0 := State.wrote_set_hidden (s := s) (f := Reg.MEM_CH_INJECT.UE ch) 1 1 (siteOk_reg k) b0 (by simp [Reg.MEM_CH_INJECT.UE])
  have hb : (s.wrote (Reg.MEM_CH_INJECT.UE ch) 1 1).h.blk = .mem := h2
  have ho : (s.wrote (Reg.MEM_CH_INJECT.UE ch) 1 1).h.desc.off = 0x1018 := h3
  have hi : (s.wrote (Reg.MEM_CH_INJECT.UE ch) 1 1).h.i = ch := h4
  simp only [State.hook, State.hookBasic, Blk.sources, hb, State.hookMem, ho, hi, e0, e1, State.when, if_true, if_false, reduceCtorEq, List.foldl_nil,
    Bool.false_eq_true]
  rfl

/-- What the register map says of the TAIL and ABORT fields of a channel. -/
theorem chanFieldsOk_all : (∀ c : Fin 32, (siteOk (Reg.TNG_CH_TAIL.TAIL c) .tng 0x1014 c .rw && siteOk (Reg.TNG_CH_CTL.ABORT c) .tng 0x1000 c .w1s
      && (fieldOf (Reg.TNG_CH_TAIL.TAIL c)).legal == .dyn .chTail && (fieldOf (Reg.TNG_CH_CTL.ABORT c)).legal == .any
      && (hitAt (Reg.TNG_CH_TAIL c)).desc.fields.all (fun f => f.access != .wo) && (hitAt (Reg.TNG_CH_CTL c)).desc.fields.all (fun f => f.access != .wo)) = true)
    ∧ (∀ c : Fin 4, (siteOk (Reg.BLW_REC_TAIL.TAIL c) .blw 0x3014 c .rw && siteOk (Reg.BLW_REC_CTL.ABORT c) .blw 0x3000 c .w1s
      && (fieldOf (Reg.BLW_REC_TAIL.TAIL c)).legal == .dyn .chTail && (fieldOf (Reg.BLW_REC_CTL.ABORT c)).legal == .any
      && (hitAt (Reg.BLW_REC_TAIL c)).desc.fields.all (fun f => f.access != .wo) && (hitAt (Reg.BLW_REC_CTL c)).desc.fields.all (fun f => f.access != .wo)) = true) := by
  constructor <;> decide +kernel

theorem execTongsTailWrite_does (ch : Fin 32) (tail : BitVec 16) (hr : s.reaches who (Reg.TNG_CH_TAIL ch) = true)
    (ht : (tail.toNat + 65536 - s.fld (Reg.TNG_CH_HEAD.HEAD ch)) % 65536 ≤ 2 ^ s.fld (Reg.TNG_CH_RING_SIZE.LOG2 ch) - 1) :
    execTongsTailWrite who ch tail s = .next (s.setFld (Reg.TNG_CH_TAIL.TAIL ch) tail.toNat) := by
  have h := chanFieldsOk_all.1 ch
  simp only [Bool.and_eq_true, beq_iff_eq] at h
  obtain ⟨⟨⟨⟨⟨k, -⟩, hl⟩, -⟩, hw⟩, -⟩ := h
  obtain ⟨h1, h2, h3, h4⟩ := siteOk_parts k
  have hv : tail.toNat % 2 ^ 16 = tail.toNat := Nat.mod_eq_of_lt tail.isLt
  unfold execTongsTailWrite
  rw [State.poke_rw (f := Reg.TNG_CH_TAIL.TAIL ch) hr (.inl h1) (by unfold State.shut; simp [h2, h3]), State.stored_same hw (siteOk_reg k)]
  · have hb : (s.wrote (Reg.TNG_CH_TAIL.TAIL ch) tail.toNat tail.toNat).h.blk = .tng := h2
    have ho : (s.wrote (Reg.TNG_CH_TAIL.TAIL ch) tail.toNat tail.toNat).h.desc.off = 0x1014 := h3
    simp only [State.hook, State.hookBasic, Blk.sources, hb, State.hookTng, ho, if_false, reduceCtorEq, List.foldl_nil, Nat.reduceEqDiff]
  · intro o w
    rw [show (Reg.TNG_CH_TAIL.TAIL ch).width = 16 from rfl, hv]
    unfold State.legalValue; rw [hl]; simp only [State.dynLegal, h2, h4, if_true, ht]

theorem execRecordTailWrite_does (r : Fin 4) (tail : BitVec 16) (hr : s.reaches who (Reg.BLW_REC_TAIL r) = true)
    (ht : (tail.toNat + 65536 - s.fld (Reg.BLW_REC_HEAD.HEAD r)) % 65536 ≤ 2 ^ s.fld (Reg.BLW_REC_RING_SIZE.LOG2 r) - 1) :
    execRecordTailWrite who r tail s = .next (((s.setFld (Reg.BLW_REC_TAIL.TAIL r) tail.toNat).syncRange 112 24).syncSrc 141) := by
  have h := chanFieldsOk_all.2 r
  simp only [Bool.and_eq_true, beq_iff_eq] at h
  obtain ⟨⟨⟨⟨⟨k, -⟩, hl⟩, -⟩, hw⟩, -⟩ := h
  obtain ⟨h1, h2, h3, h4⟩ := siteOk_parts k
  have hv : tail.toNat % 2 ^ 16 = tail.toNat := Nat.mod_eq_of_lt tail.isLt
  unfold execRecordTailWrite
  rw [State.poke_rw (f := Reg.BLW_REC_TAIL.TAIL r) hr (.inl h1) (by unfold State.shut; simp [h2, h3]), State.stored_same hw (siteOk_reg k)]
  · have hb : (s.wrote (Reg.BLW_REC_TAIL.TAIL r) tail.toNat tail.toNat).h.blk = .blw := h2
    have ho : (s.wrote (Reg.BLW_REC_TAIL.TAIL r) tail.toNat tail.toNat).h.desc.off = 0x3014 := h3
    simp only [State.hook, State.hookBasic, Blk.sources, hb, State.hookBlw, ho, if_false, reduceCtorEq, List.foldl_nil, List.foldl_cons,
      List.foldl_append, foldl_sources, Nat.reduceEqDiff]
  · intro o w
    rw [show (Reg.BLW_REC_TAIL.TAIL r).width = 16 from rfl, hv]
    unfold State.legalValue; rw [hl]
    simp only [State.dynLegal, h2, h4, reduceCtorEq, if_false, ht, if_true]

theorem execTongsAbort_does (ch : Fin 32) (hr : s.reaches who (Reg.TNG_CH_CTL ch) = true) (ha : s.flag (Reg.TNG_CH_CTL.ABORT ch) = false) :
    execTongsAbort who ch s = .next (((s.setFld (Reg.TNG_CH_CTL.ABORT ch) 1).chanSwitched ch).chanAbortNow ch) := by
  have h := chanFieldsOk_all.1 ch
  simp only [Bool.and_eq_true, beq_iff_eq] at h
  obtain ⟨⟨⟨⟨⟨-, k⟩, -⟩, hl⟩, -⟩, hw⟩ := h
  obtain ⟨h1, h2, h3, h4⟩ := siteOk_parts k
  unfold execTongsAbort
  rw [State.poke_bit (f := Reg.TNG_CH_CTL.ABORT ch) hr h1 rfl (by unfold State.shut; simp [h2, h3]) (fun o w => legal_any hl _ _ _ _),
    State.stored_same hw (siteOk_reg k)]
  have e1 : (s.wrote (Reg.TNG_CH_CTL.ABORT ch) 1 1).rose 1 = true := by
    rw [show (1 : Nat) = (Reg.TNG_CH_CTL.ABORT ch).lsb from rfl, State.wrote_rose _ _ rfl, ha]; rfl
  have hb : (s.wrote (Reg.TNG_CH_CTL.ABORT ch) 1 1).h.blk = .tng := h2
  have ho : (s.wrote (Reg.TNG_CH_CTL.ABORT ch) 1 1).h.desc.off = 0x1000 := h3
  have hi : (s.wrote (Reg.TNG_CH_CTL.ABORT ch) 1 1).h.i = ch := h4
  simp only [State.hook, State.hookBasic, Blk.sources, hb, State.hookTng, ho, hi, e1, State.when, if_true, if_false, reduceCtorEq, List.foldl_nil,
    Nat.reduceEqDiff]

theorem execRecordAbort_does (r : Fin 4) (hr : s.reaches who (Reg.BLW_REC_CTL r) = true) (ha : s.flag (Reg.BLW_REC_CTL.ABORT r) = false) :
    execRecordAbort who r s
      = .next (((((s.setFld (Reg.BLW_REC_CTL.ABORT r) 1).chanSwitched (32 + r)).chanAbortNow (32 + r)).syncRange 112 24).syncSrc 141) := by
  have h := chanFieldsOk_all.2 r
  simp only [Bool.and_eq_true, beq_iff_eq] at h
  obtain ⟨⟨⟨⟨⟨-, k⟩, -⟩, hl⟩, -⟩, hw⟩ := h
  obtain ⟨h1, h2, h3, h4⟩ := siteOk_parts k
  unfold execRecordAbort
  rw [State.poke_bit (f := Reg.BLW_REC_CTL.ABORT r) hr h1 rfl (by unfold State.shut; simp [h2, h3]) (fun o w => legal_any hl _ _ _ _),
    State.stored_same hw (siteOk_reg k)]
  have e1 : (s.wrote (Reg.BLW_REC_CTL.ABORT r) 1 1).rose 1 = true := by
    rw [show (1 : Nat) = (Reg.BLW_REC_CTL.ABORT r).lsb from rfl, State.wrote_rose _ _ rfl, ha]; rfl
  have hb : (s.wrote (Reg.BLW_REC_CTL.ABORT r) 1 1).h.blk = .blw := h2
  have ho : (s.wrote (Reg.BLW_REC_CTL.ABORT r) 1 1).h.desc.off = 0x3000 := h3
  have hi : (s.wrote (Reg.BLW_REC_CTL.ABORT r) 1 1).h.i = r := h4
  simp only [State.hook, State.hookBasic, Blk.sources, hb, State.hookBlw, ho, hi, e1, State.when, if_true, if_false, reduceCtorEq, List.foldl_nil,
    List.foldl_cons, List.foldl_append, foldl_sources, Nat.reduceEqDiff]

/-! ### Safety island -/

theorem sfi_ok : siteOk Reg.SFI_CMP_CTL.ST_RUN .sfi 0x30 0 .wo = true ∧ siteOk Reg.SFI_CMP_CTL.INJ .sfi 0x30 0 .wo = true
    ∧ (fieldOf Reg.SFI_CMP_CTL.ST_RUN).legal = .any ∧ (fieldOf Reg.SFI_CMP_CTL.INJ).legal = .any
    ∧ (hitAt Reg.SFI_CMP_CTL).desc.hidesBit 0 = true ∧ (hitAt Reg.SFI_CMP_CTL).desc.hidesBit 2 = true
    ∧ siteOk Reg.SFI_CTL.ARM .sfi 0x10 0 .w1s = true ∧ (fieldOf Reg.SFI_CTL.ARM).legal = .dyn .arm
    ∧ (hitAt Reg.SFI_CTL).desc.fields.all (fun f => f.access != .wo) = true := by
  refine ⟨?_, ?_, ?_, ?_, ?_, ?_, ?_, ?_, ?_⟩ <;> decide +kernel

theorem execComparatorSelftest_does (hr : s.reaches who Reg.SFI_CMP_CTL = true) :
    execComparatorSelftest who s = .next ((((s.stored Reg.SFI_CMP_CTL.ST_RUN 1).startSelftest).syncRange 320 8).latePark) := by
  obtain ⟨k, -, hl, -, -, b2, -⟩ := sfi_ok
  obtain ⟨h1, h2, h3, -⟩ := siteOk_parts k
  unfold execComparatorSelftest
  rw [State.poke_wo_any (f := Reg.SFI_CMP_CTL.ST_RUN) hr h1 hl (by unfold State.shut; simp only [h2])]
  have e0 : (s.wrote Reg.SFI_CMP_CTL.ST_RUN 1 1).set 0 = true := State.wrote_set (f := Reg.SFI_CMP_CTL.ST_RUN) 1 1 rfl
  have e2 := State.wrote_set_hidden (s := s) (f := Reg.SFI_CMP_CTL.ST_RUN) 1 1 (siteOk_reg k) b2 (by simp [Reg.SFI_CMP_CTL.ST_RUN])
  have hb : (s.wrote Reg.SFI_CMP_CTL.ST_RUN 1 1).h.blk = .sfi := h2
  have ho : (s.wrote Reg.SFI_CMP_CTL.ST_RUN 1 1).h.desc.off = 0x30 := h3
  simp only [State.hook, State.hookBasic, Blk.sources, hb, State.hookSfi, ho, e0, e2, State.when, if_true, if_false, reduceCtorEq, foldl_sources,
    Nat.reduceEqDiff, Bool.false_eq_true]

theorem execComparatorInject_does (hr : s.reaches who Reg.SFI_CMP_CTL = true) :
    execComparatorInject who s = .next ((((s.stored Reg.SFI_CMP_CTL.INJ 1).cmpInject).syncRange 320 8).latePark) := by
  obtain ⟨-, k, -, hl, b0, -, -⟩ := sfi_ok
  obtain ⟨h1, h2, h3, -⟩ := siteOk_parts k
  unfold execComparatorInject
  rw [State.poke_wo_any (f := Reg.SFI_CMP_CTL.INJ) hr h1 hl (by unfold State.shut; simp only [h2])]
  have e2 : (s.wrote Reg.SFI_CMP_CTL.INJ 1 1).set 2 = true := State.wrote_set (f := Reg.SFI_CMP_CTL.INJ) 1 1 rfl
  have e0 := State.wrote_set_hidden (s := s) (f := Reg.SFI_CMP_CTL.INJ) 1 1 (siteOk_reg k) b0 (by simp [Reg.SFI_CMP_CTL.INJ])
  have hb : (s.wrote Reg.SFI_CMP_CTL.INJ 1 1).h.blk = .sfi := h2
  have ho : (s.wrote Reg.SFI_CMP_CTL.INJ 1 1).h.desc.off = 0x30 := h3
  simp only [State.hook, State.hookBasic, Blk.sources, hb, State.hookSfi, ho, e0, e2, State.when, if_true, if_false, reduceCtorEq, foldl_sources,
    Nat.reduceEqDiff, Bool.false_eq_true]

theorem State.fld_syncSrc_ne (n : Nat) {f : FRef} (h : Reg.HIC_SRC_STATE n ≠ f.addr) : (s.syncSrc n).fld f = s.fld f := by
  unfold State.fld; rw [State.rd_syncSrc_ne n h]

/-- Arming where ARM is not clamped (R390): the island is ARMED. -/
theorem State.armWritten_armed (hw : s.safeInit = true) (hc : SMap.wf s.regs = true) (b : Nat) : (s.armWritten b true).armed = true := by
  have hb : (s.setFld Reg.SFI_STATUS.ARM_BLOCK b).armed = false := by
    unfold State.armed State.safeInit State.island at *
    rw [State.fld_setFld_apart (f := Reg.SFI_STATUS.ARM_BLOCK) (g := Reg.SFI_STATUS.STATE) _ hc (by decide) rfl (by decide)]
    simp only [beq_iff_eq] at hw; rw [hw]; rfl
  have h1 := State.wf_setFld (s := s) Reg.SFI_STATUS.ARM_BLOCK b hc
  have h2 := State.wf_setFld Reg.SFI_STATUS.STATE 1 h1
  unfold State.armWritten
  simp only [hb, Bool.not_true, Bool.or_self, Bool.false_eq_true, if_false]
  have key : ∀ t : State, t.regs = (((s.setFld Reg.SFI_STATUS.ARM_BLOCK b).setFld Reg.SFI_STATUS.STATE 1).setFld Reg.SFI_STATUS.FAULT_PIN 1).regs →
      (t.sfiEvent 1).armed = true := by
    intro t ht
    unfold State.armed State.island State.sfiEvent State.event
    rw [State.fld_syncSrc_ne _ (by decide), State.fld_setFld_ne _ (by decide)]
    have : t.fld Reg.SFI_STATUS.STATE
        = (((s.setFld Reg.SFI_STATUS.ARM_BLOCK b).setFld Reg.SFI_STATUS.STATE 1).setFld Reg.SFI_STATUS.FAULT_PIN 1).fld Reg.SFI_STATUS.STATE := by
      unfold State.fld State.rd; rw [ht]
    rw [this, State.fld_setFld_apart (f := Reg.SFI_STATUS.FAULT_PIN) (g := Reg.SFI_STATUS.STATE) _ h2 (by decide) rfl (by decide),
      State.fld_setFld_same _ _ h1 (by decide)]
    rfl
  apply key
  dsimp only

theorem execArm_does (hr : s.reaches who Reg.SFI_CTL = true) (ha : s.armBlock = 0) (hi : s.safeInit = true) (hc : SMap.wf s.regs = true) :
    execArm who s = .next ((((((s.setFld Reg.SFI_CTL.ARM 1).armWritten 0 true).handoverDone).setFlag Reg.SFI_CTL.ARM
      ((s.setFld Reg.SFI_CTL.ARM 1).armWritten 0 true).handoverDone.armed).syncRange 320 8).latePark) := by
  obtain ⟨-, -, -, -, -, -, k, hl, hw⟩ := sfi_ok
  obtain ⟨h1, h2, h3, -⟩ := siteOk_parts k
  have hm : s.mayArm = true := by unfold State.mayArm; rw [ha, hi]; rfl
  have hsafe : (s.setFld Reg.SFI_CTL.ARM 1).safeInit = true := by
    unfold State.safeInit State.island at *
    rw [State.fld_setFld_ne _ (by decide)]; exact hi
  have hna : s.armed = false := by
    unfold State.armed State.safeInit at *; simp only [beq_iff_eq] at hi; rw [hi]; rfl
  have harm := State.armWritten_armed hsafe (State.wf_setFld _ _ hc) 0
  unfold execArm
  rw [State.poke_bit (f := Reg.SFI_CTL.ARM) hr h1 rfl (by unfold State.shut; simp only [h2]), State.stored_same hw (siteOk_reg k)]
  · have hv : bitAt (s.wrote Reg.SFI_CTL.ARM 1 1).value 0 = true := by
      show bitAt (putBits _ 0 1 1) 0 = true
      rw [bitAt_putBits_one]; rfl
    have hb : (s.wrote Reg.SFI_CTL.ARM 1 1).h.blk = .sfi := h2
    have ho : (s.wrote Reg.SFI_CTL.ARM 1 1).h.desc.off = 0x10 := h3
    simp only [State.hook, State.hookBasic, Blk.sources, hb, State.hookSfi, ho, hv, ha, hm, hna, harm, if_true, if_false, reduceCtorEq, foldl_sources,
      Bool.not_false, Bool.and_self]
  · intro o w
    unfold State.legalValue; rw [hl]; simp only [State.dynLegal, hm, if_true]

/-! ### Fault collector -/

theorem fcl_ok : siteOk Reg.FCL_CLEAR.FIRST .fcl 0x20 0 .wo = true ∧ (fieldOf Reg.FCL_CLEAR.FIRST).legal = .any
    ∧ siteOk Reg.FCL_HANG_KICK.CORE .fcl 0x50 0 .wo = true ∧ (fieldOf Reg.FCL_HANG_KICK.CORE).legal = .any := by
  refine ⟨?_, ?_, ?_, ?_⟩ <;> decide +kernel

theorem execFclClearFirst_does (hr : s.reaches who Reg.FCL_CLEAR = true) (hi : s.safeInit = true) :
    execFclClearFirst who s = .next ((s.stored Reg.FCL_CLEAR.FIRST 1).clearFirst.syncRange 336 7) := by
  obtain ⟨k, hl, -, -⟩ := fcl_ok
  obtain ⟨h1, h2, h3, -⟩ := siteOk_parts k
  unfold execFclClearFirst
  rw [State.poke_wo_any (f := Reg.FCL_CLEAR.FIRST) hr h1 hl (by unfold State.shut; simp [h2, h3, hi])]
  have e0 : (s.wrote Reg.FCL_CLEAR.FIRST 1 1).set 0 = true := State.wrote_set (f := Reg.FCL_CLEAR.FIRST) 1 1 rfl
  have hb : (s.wrote Reg.FCL_CLEAR.FIRST 1 1).h.blk = .fcl := h2
  have ho : (s.wrote Reg.FCL_CLEAR.FIRST 1 1).h.desc.off = 0x20 := h3
  simp only [State.hook, State.hookBasic, Blk.sources, hb, State.hookFcl, ho, e0, State.when, if_true, if_false, reduceCtorEq, foldl_sources]

/-- A bit of a field at the bottom of a register. -/
theorem bitAt_putBits_in {v w x k : Nat} (h : k < w) : bitAt (putBits v 0 w x) k = bitAt x k := by
  have e (u : Nat) : bitAt u k = bitAt (bits u 0 w) k := by
    have : (u % 2 ^ w) / 2 ^ k % 2 = u / 2 ^ k % 2 := by
      obtain ⟨d, rfl⟩ := Nat.exists_eq_add_of_lt h
      rw [show k + d + 1 = k + (d + 1) from by omega, Nat.pow_add, Nat.mod_mul_right_div_self, Nat.pow_succ, Nat.mod_mul_left_mod]
    simp only [bitAt, bits, Nat.shiftRight_eq_div_pow, Nat.pow_zero, Nat.div_one, this]
  rw [e, bits_putBits, e x]
  simp only [bits, Nat.shiftRight_zero]

theorem foldl_same {α β : Type} {f g : α → β → α} {l : List β} (h : ∀ a, ∀ b ∈ l, f a b = g a b) {a : α} : l.foldl f a = l.foldl g a := by
  induction l generalizing a with
  | nil => rfl
  | cons b t ih =>
    rw [List.foldl_cons, List.foldl_cons, h a b (List.mem_cons_self ..)]
    exact ih (fun x y hy => h x y (List.mem_cons_of_mem _ hy))

theorem execHangKick_does (cores : Byte) (hr : s.reaches who Reg.FCL_HANG_KICK = true) :
    execHangKick who cores s = .next (({ s.stored Reg.FCL_HANG_KICK.CORE cores.toNat with
      hearth := { s.hearth with
        kicked := (List.range 8).foldl (fun l k => if bitAt cores.toNat k then setInsert l k else l) s.hearth.kicked } } : State).syncRange 336 7) := by
  obtain ⟨-, -, k, hl⟩ := fcl_ok
  obtain ⟨h1, h2, h3, -⟩ := siteOk_parts k
  unfold execHangKick
  rw [State.poke_wo_any (f := Reg.FCL_HANG_KICK.CORE) hr h1 hl (by unfold State.shut; simp [h2, h3])]
  have e (k : Nat) (h : k < 8) : (s.wrote Reg.FCL_HANG_KICK.CORE cores.toNat cores.toNat).set k = bitAt cores.toNat k := bitAt_putBits_in h
  have hb : (s.wrote Reg.FCL_HANG_KICK.CORE cores.toNat cores.toNat).h.blk = .fcl := h2
  have ho : (s.wrote Reg.FCL_HANG_KICK.CORE cores.toNat cores.toNat).h.desc.off = 0x50 := h3
  have hf (l : List Nat) : (List.range 8).foldl (fun l k => if (s.wrote Reg.FCL_HANG_KICK.CORE cores.toNat cores.toNat).set k then setInsert l k else l) l
      = (List.range 8).foldl (fun l k => if bitAt cores.toNat k then setInsert l k else l) l := by
    exact foldl_same (fun l k hk => by rw [e k (List.mem_range.mp hk)])
  simp only [State.hook, State.hookBasic, Blk.sources, hb, State.hookFcl, ho, if_true, if_false, reduceCtorEq, foldl_sources, Nat.reduceEqDiff, hf]
  rfl

theorem ctxNOk_all : ∀ c : Fin 16, (siteOk (Reg.FCL_CTX_N.VALID c) .fcl 0x100 c .w1c
    && (hitAt (Reg.FCL_CTX_N c)).desc.fields.all (fun f => f.access != .wo && f.access != .rw && f.access != .rwl)) = true := by decide +kernel

theorem execFclCtxNClear_does (c : Fin 16) (hr : s.reaches who (Reg.FCL_CTX_N c) = true) (hv : s.flag (Reg.FCL_CTX_N.VALID c) = true) :
    execFclCtxNClear who c s
      = .next ((((s.setFld (Reg.FCL_CTX_N.VALID c) 0).setFld (Reg.FCL_CTX_N.OVERFLOW c) 0).setFld (Reg.FCL_CTX_N.SOURCE c) 0).syncRange 336 7) := by
  have h := ctxNOk_all c
  simp only [Bool.and_eq_true] at h
  obtain ⟨k, hw⟩ := h
  have hw' : (hitAt (Reg.FCL_CTX_N c)).desc.fields.all (fun f => f.access != .wo) = true := by
    rw [List.all_eq_true] at hw ⊢
    intro f hf; have := hw f hf; simp only [Bool.and_eq_true] at this; exact this.1.1
  obtain ⟨h1, h2, h3, h4⟩ := siteOk_parts k
  have hp : bits (s.plain (hitAt (Reg.FCL_CTX_N.VALID c).addr) (Reg.FCL_CTX_N.VALID c).addr) 31 1 = 1 := by
    rw [State.plain_same (h := hitAt (Reg.FCL_CTX_N.VALID c).addr) hw']
    simp only [State.flag, State.fld, beq_iff_eq] at hv
    exact hv
  unfold execFclCtxNClear
  rw [State.poke_w1c (f := Reg.FCL_CTX_N.VALID c) hr h1 (by unfold State.shut; simp [h2, h3]) (by show 1 % 2 ^ 1 ≠ 0; decide)]
  rw [show (Reg.FCL_CTX_N.VALID c).width = 1 from rfl, show (Reg.FCL_CTX_N.VALID c).lsb = 31 from rfl, hp, State.stored_same hw' (siteOk_reg k)]
  have hval : bitAt (s.wrote (Reg.FCL_CTX_N.VALID c) (1 - (1 &&& 1 % 2 ^ 1)) 1).value 31 = true := by
    show bitAt (putBits _ 31 1 1) 31 = true
    rw [bitAt_putBits_one]; rfl
  have hold : bitAt (s.wrote (Reg.FCL_CTX_N.VALID c) (1 - (1 &&& 1 % 2 ^ 1)) 1).old 31 = true := by
    rw [show (31 : Nat) = (Reg.FCL_CTX_N.VALID c).lsb from rfl, State.wrote_old _ _ rfl, hv]
  have hb : (s.wrote (Reg.FCL_CTX_N.VALID c) (1 - (1 &&& 1 % 2 ^ 1)) 1).h.blk = .fcl := h2
  have ho : (s.wrote (Reg.FCL_CTX_N.VALID c) (1 - (1 &&& 1 % 2 ^ 1)) 1).h.desc.off = 0x100 := h3
  have hi : (s.wrote (Reg.FCL_CTX_N.VALID c) (1 - (1 &&& 1 % 2 ^ 1)) 1).h.i = c := h4
  simp only [State.hook, State.hookBasic, Blk.sources, hb, State.hookFcl, ho, hi, hval, hold, State.when, Bool.and_self, if_true, if_false, reduceCtorEq,
    foldl_sources, Nat.reduceEqDiff, Nat.reduceLeDiff, and_false]
  rfl

/-! ### Registers of write-only fields: what a write of the whole word leaves -/

theorem State.writeField_wo_at {h : RegHit} {total : Nat} {acc : WrAcc} {fd : FieldDesc} (ha : fd.access = .wo) (hl : fd.legal = .any)
    (hs : s.shut h fd = false) (h0 : bits acc.value fd.lsb fd.width = 0) :
    s.writeField h total acc fd = { acc with value := putBits acc.value fd.lsb fd.width (bits total fd.lsb fd.width) } := by
  by_cases hz : bits total fd.lsb fd.width = 0
  · have : putBits acc.value fd.lsb fd.width 0 = acc.value := by
      have := putBits_self acc.value fd.lsb fd.width; rwa [h0] at this
    unfold State.writeField
    simp [ha, hz, this]
  · unfold State.writeField
    simp [ha, hs, hz, State.legalValue, hl, Legal.fixed]

/-- A register of write-only and reserved fields only. -/
def RegDesc.woOnly (d : RegDesc) : Bool :=
  d.fields.all (fun f => (f.access == .wo && f.legal == .any) || f.access == .rsvd)

theorem State.writeFields_wo {h : RegHit} {total : Nat} {l : List FieldDesc}
    (hw : l.all (fun f => (f.access == .wo && f.legal == .any) || f.access == .rsvd) = true)
    (hp : l.Pairwise (fun f g => f.apart g = true)) (hs : ∀ f ∈ l, s.shut h f = false)
    (hr : ∀ f ∈ l, f.access = .rsvd → bits total f.lsb f.width = 0) {acc : WrAcc} (h0 : ∀ f ∈ l, bits acc.value f.lsb f.width = 0) :
    l.foldl (s.writeField h total) acc
      = { acc with value := putFold (fun f => f.access == .wo) (fun f => bits total f.lsb f.width) l acc.value } := by
  induction l generalizing acc with
  | nil => rfl
  | cons f t ih =>
    rw [List.all_cons, Bool.and_eq_true] at hw
    rw [List.pairwise_cons] at hp
    have hf := hw.1
    have step : s.writeField h total acc f
        = { acc with value := if f.access == .wo then putBits acc.value f.lsb f.width (bits total f.lsb f.width) else acc.value } := by
      simp only [Bool.or_eq_true, Bool.and_eq_true, beq_iff_eq] at hf
      rcases hf with ⟨ha, hl⟩ | ha
      · rw [State.writeField_wo_at ha hl (hs f (List.mem_cons_self ..)) (h0 f (List.mem_cons_self ..))]
        simp [ha]
      · have := hr f (List.mem_cons_self ..) ha
        unfold State.writeField; simp [ha, this]
    rw [List.foldl_cons, step, putFold_cons]
    apply ih hw.2 hp.2 (fun g hg => hs g (List.mem_cons_of_mem _ hg)) (fun g hg => hr g (List.mem_cons_of_mem _ hg))
    intro g hg
    show bits (if f.access == .wo then putBits acc.value f.lsb f.width (bits total f.lsb f.width) else acc.value) g.lsb g.width = 0
    split
    · rw [bits_putBits_apart _ _ (hp.1 g hg)]; exact h0 g (List.mem_cons_of_mem _ hg)
    · exact h0 g (List.mem_cons_of_mem _ hg)

/-- A whole-word write to such a register that reads 0: it is 0 again, and the hooks see the word. -/
theorem State.busWrite_wo {a total : Nat} (hr : s.reaches who a = true) (hi : regIs a (hitAt a) = true) (hw : (hitAt a).desc.woOnly = true)
    (hs : ∀ f ∈ (hitAt a).desc.fields, s.shut (hitAt a) f = false) (hh : ∀ f ∈ (hitAt a).desc.fields, s.holdsBack (hitAt a) f = false)
    (hz : s.rd a = 0) (ht : total < 2 ^ 32)
    (hrs : ∀ f ∈ (hitAt a).desc.fields, f.access = .rsvd → bits total f.lsb f.width = 0)
    (hx : putFold (fun f => f.access == .wo) (fun f => bits total f.lsb f.width) (hitAt a).desc.fields 0 = total)
    (hy : (hitAt a).desc.hideWo total = 0) :
    s.busWrite who a 4 total = (s.wr a 0).hook s ⟨hitAt a, 0, total, total⟩ := by
  have hi' := hi
  simp only [regIs, Bool.and_eq_true] at hi'
  have hp0 : s.plain (hitAt a) a = 0 := by
    unfold State.plain
    rw [hz]
    have : ∀ l : List FieldDesc, putFold (fun f => f.access == .wo) (fun _ => 0) l 0 = 0 := by
      intro l
      induction l with
      | nil => rfl
      | cons f t ih => rw [putFold_cons]; split <;> simp [putBits, ih]
    exact this _
  rw [State.busWrite_acc (x := total) hr hi ht hh]
  · rw [hy, hz]; rfl
  · rw [hp0, State.writeFields_wo hw (RegDesc.sound_pairwise hi'.2) hs hrs (by intro f _; exact bits_zero _ _)]
    simp only [hx]

/-- What the register map says of a register that takes one write of write-only fields. -/
def commandRegOk (a : Nat) (b : Blk) (o : Nat) : Bool :=
  regIs a (hitAt a) && (hitAt a).desc.woOnly && (hitAt a).blk == b && (hitAt a).desc.off == o

theorem commandRegOk_parts {a o : Nat} {b : Blk} (h : commandRegOk a b o = true) :
    regIs a (hitAt a) = true ∧ (hitAt a).desc.woOnly = true ∧ (hitAt a).blk = b ∧ (hitAt a).desc.off = o := by
  simp only [commandRegOk, Bool.and_eq_true, beq_iff_eq] at h
  exact ⟨h.1.1.1, h.1.1.2, h.1.2, h.2⟩

/-- The word of an FCL_INJECT write. -/
theorem injectWord_put {c x b : Nat} (hc : c < 4) (hx : x < 16) (hb : b < 256) :
    putBits (putBits (putBits 0 30 2 c) 16 4 x) 0 8 b = c * 2 ^ 30 + x * 2 ^ 16 + b := by
  have h1 : putBits 0 30 2 c = c * 2 ^ 30 := by rw [putBits_eq]; omega
  have h2 : putBits (c * 2 ^ 30) 16 4 x = c * 2 ^ 30 + x * 2 ^ 16 := by rw [putBits_eq]; omega
  rw [h1, h2, putBits_eq]; omega

theorem injectWord_gone {c x b : Nat} (hc : c < 4) (hx : x < 16) (hb : b < 256) :
    putBits (putBits (putBits (c * 2 ^ 30 + x * 2 ^ 16 + b) 30 2 0) 16 4 0) 0 8 0 = 0 := by
  have h1 : putBits (c * 2 ^ 30 + x * 2 ^ 16 + b) 30 2 0 = x * 2 ^ 16 + b := by rw [putBits_eq]; omega
  have h2 : putBits (x * 2 ^ 16 + b) 16 4 0 = b := by rw [putBits_eq]; omega
  rw [h1, h2, putBits_eq]; omega

theorem injectFields : (hitAt Reg.FCL_INJECT).desc.fields = [⟨30, 2, .wo, .val 0, .any⟩, ⟨20, 10, .rsvd, .val 0, .any⟩, ⟨16, 4, .wo, .val 0, .any⟩,
      ⟨8, 8, .rsvd, .val 0, .any⟩, ⟨0, 8, .wo, .val 0, .any⟩] := by decide +kernel

theorem injectHide (v : Nat) : (hitAt Reg.FCL_INJECT).desc.hideWo v = putBits (putBits (putBits v 30 2 0) 16 4 0) 0 8 0 := by
  rw [RegDesc.hideWo_eq, injectFields]
  simp only [putFold, List.foldl_cons, List.foldl_nil, beq_self_eq_true, show (Access.rsvd == Access.wo) = false from rfl, if_true, if_false,
    Bool.false_eq_true]

theorem execFclInject_does (cls : Fin 4) (ctx : Fin 16) (inst : Byte) (hr : s.reaches who Reg.FCL_INJECT = true) (hi : s.safeInit = true)
    (hz : s.rd Reg.FCL_INJECT = 0) :
    execFclInject who cls ctx inst s = .next (
      let k := if cls.val = 2 ∧ s.fld Reg.PRC_MODE.MODE = 2 then 0 else cls.val
      ((s.wr Reg.FCL_INJECT 0).report ⟨0x5F, inst.toNat, k, if k = 1 then some ctx.val else none, none, 0, 0⟩).syncRange 336 7) := by
  obtain ⟨h1, h2, h3, h4⟩ := commandRegOk_parts (a := Reg.FCL_INJECT) (b := .fcl) (o := 0x80) (by decide +kernel)
  have hc := cls.isLt
  have hx := ctx.isLt
  have hb := inst.isLt
  have b30 : bits (cls.val * 2 ^ 30 + ctx.val * 2 ^ 16 + inst.toNat) 30 2 = cls.val := by
    simp only [bits, Nat.shiftRight_eq_div_pow]; omega
  have b16 : bits (cls.val * 2 ^ 30 + ctx.val * 2 ^ 16 + inst.toNat) 16 4 = ctx.val := by
    simp only [bits, Nat.shiftRight_eq_div_pow]; omega
  have b0 : bits (cls.val * 2 ^ 30 + ctx.val * 2 ^ 16 + inst.toNat) 0 8 = inst.toNat := by
    simp only [bits, Nat.shiftRight_eq_div_pow]; omega
  have hm : (s.wr Reg.FCL_INJECT 0).fld Reg.PRC_MODE.MODE = s.fld Reg.PRC_MODE.MODE := by
    rw [State.fld, State.rd_wr_ne _ (by decide)]; rfl
  unfold execFclInject
  rw [State.busWrite_wo hr h1 h2 (by intro f _; unfold State.shut; simp [h3, h4, hi])
    (by intro f _; simp [State.holdsBack, RegHit.holder, h3]) hz (by omega)]
  · simp only [State.hook, State.hookBasic, Blk.sources, h3, State.hookFcl, h4, hi, State.when, if_true, if_false, reduceCtorEq, foldl_sources,
      Nat.reduceEqDiff, State.injectFault, b30, b16, b0, hm]
  · rw [injectFields]
    simp only [List.mem_cons, List.not_mem_nil, or_false, forall_eq_or_imp, forall_eq, reduceCtorEq, false_implies, true_implies, true_and, and_true]
    simp only [bits, Nat.shiftRight_eq_div_pow]
    omega
  · rw [injectFields]
    simp only [putFold, List.foldl_cons, List.foldl_nil, beq_self_eq_true, show (Access.rsvd == Access.wo) = false from rfl, if_true, if_false,
      Bool.false_eq_true, b30, b16, b0]
    exact injectWord_put hc hx hb
  · rw [injectHide]; exact injectWord_gone hc hx hb

/-! ### The fence list: one bit of a wider field -/

theorem putBits_testBit (v l w x i : Nat) : (putBits v l w x).testBit i = if l ≤ i ∧ i < l + w then x.testBit (i - l) else v.testBit i := by
  have bt (u j k n : Nat) : (bits u j n).testBit k = (decide (k < n) && u.testBit (j + k)) := by
    unfold bits; rw [Nat.testBit_mod_two_pow, Nat.testBit_shiftRight]
  have one (u j : Nat) : u.testBit j = (bits u j 1).testBit 0 := by rw [bt]; simp
  split
  · next h =>
    obtain ⟨k, rfl⟩ := Nat.exists_eq_add_of_le h.1
    have hk : k < w := by omega
    have := bt (putBits v l w x) l k w
    rw [bits_putBits, Nat.testBit_mod_two_pow] at this
    simp only [hk, decide_true, Bool.true_and] at this
    rw [← this, Nat.add_sub_cancel_left]
  · next h =>
    rw [one, one v]
    rcases (by omega : i + 1 ≤ l ∨ l + w ≤ i) with h | h
    · rw [bits_putBits_low _ _ _ h]
    · rw [bits_putBits_high _ _ _ h]

/-- Setting one bit of a field sets that bit of the word. -/
theorem putBits_or_bit {v l w i : Nat} (h : l ≤ i) (h' : i < l + w) :
    putBits v l w (bits v l w ||| bits (putBits 0 i 1 1) l w) = putBits v i 1 1 := by
  apply Nat.eq_of_testBit_eq
  intro j
  have bt (u j k n : Nat) : (bits u j n).testBit k = (decide (k < n) && u.testBit (j + k)) := by
    unfold bits; rw [Nat.testBit_mod_two_pow, Nat.testBit_shiftRight]
  rw [putBits_testBit, putBits_testBit, Nat.testBit_or, bt, bt, putBits_testBit]
  by_cases hj : l ≤ j ∧ j < l + w
  · obtain ⟨k, rfl⟩ := Nat.exists_eq_add_of_le hj.1
    have hk : k < w := by omega
    simp only [hj, and_self, if_true, Nat.add_sub_cancel_left, hk, decide_true, Bool.true_and]
    by_cases e : i ≤ l + k ∧ l + k < i + 1
    · have : l + k = i := by omega
      rw [if_pos e, if_pos e, this, Nat.sub_self]; simp
    · rw [if_neg e, if_neg e]; simp
  · rw [if_neg hj, if_neg (by omega)]

/-- A reference names a bit of a field with this access, every value of which is legal. -/
def FRef.bitOf (f : FRef) (a : Access) : Bool :=
  regIs f.addr (hitAt f.addr) && decide ((fieldOf f).lsb ≤ f.lsb)
    && decide (f.lsb < (fieldOf f).lsb + (fieldOf f).width) && (fieldOf f).access == a && (fieldOf f).legal == .any && f.width == 1

theorem bits_bit_in {l w i : Nat} (h : l ≤ i) (h' : i < l + w) : bits (putBits 0 i 1 1) l w ≠ 0 := by
  intro e
  have : (bits (putBits 0 i 1 1) l w).testBit (i - l) = true := by
    unfold bits
    rw [Nat.testBit_mod_two_pow, Nat.testBit_shiftRight, putBits_testBit]
    have : l + (i - l) = i := by omega
    simp [this]; omega
  rw [e] at this; simp at this

theorem State.poke_one {f : FRef} {a : Access} (hr : s.reaches who f.addr = true) (hf : f.bitOf a = true) (ha : a = .w1s ∨ a = .wo)
    (h0 : a = .wo → bits (s.plain (hitAt f.addr) f.addr) (fieldOf f).lsb (fieldOf f).width = 0)
    (hs : s.shut (hitAt f.addr) (fieldOf f) = false) :
    s.poke who f 1 = (s.stored f 1).hook s ⟨hitAt f.addr, (s.rd f.addr).toNat, putBits (s.plain (hitAt f.addr) f.addr) f.lsb 1 1, putBits 0 f.lsb 1 1⟩ := by
  simp only [FRef.bitOf, Bool.and_eq_true, beq_iff_eq, decide_eq_true_eq] at hf
  obtain ⟨⟨⟨⟨⟨h1, h3⟩, h4⟩, h5⟩, h6⟩, h7⟩ := hf
  have hne := bits_bit_in h3 h4
  rw [State.poke_acc (x := putBits (s.plain (hitAt f.addr) f.addr) f.lsb 1 1) hr h1, State.stored_eq h1, h7]
  rw [h7, show (hitAt f.addr).field f = fieldOf f from rfl]
  have hor := putBits_or_bit (v := s.plain (hitAt f.addr) f.addr) h3 h4
  rcases ha with rfl | rfl
  · rw [State.writeField_w1s h5 hs hne (by unfold State.legalValue; rw [h6]; rfl), hor]
  · rw [State.writeField_wo h5 h6 hs hne]
    have := h0 rfl
    rw [this, Nat.zero_or] at hor
    rw [hor]

theorem and_bit (r i : Nat) : r &&& putBits 0 i 1 1 = putBits 0 i 1 (bits r i 1) := by
  apply Nat.eq_of_testBit_eq
  intro j
  rw [Nat.testBit_and, putBits_testBit, putBits_testBit]
  by_cases h : i ≤ j ∧ j < i + 1
  · have : j = i := by omega
    subst this
    rw [if_pos h, if_pos h, Nat.sub_self]
    unfold bits
    rw [Nat.testBit_mod_two_pow, Nat.testBit_shiftRight]
    simp
  · rw [if_neg h, if_neg h]; simp

theorem sub_and_bit (r i : Nat) : r - (r &&& putBits 0 i 1 1) = putBits r i 1 0 := by
  rw [and_bit]
  have e : bits r i 1 % 2 ^ 1 = bits r i 1 := Nat.mod_eq_of_lt (bits_lt r i 1)
  unfold putBits
  rw [e]
  simp

/-- What the register map says of a unit's bit in FCL_FENCE_LIST and FCL_FENCE_CLR. -/
def fenceBitOk (c : Nat) : Bool :=
  match fenceBit c with
  | none => false
  | some f => f.bitOf .w1s && (hitAt f.addr).blk == .fcl && (hitAt f.addr).desc.fields.all (fun f => f.access != .wo)
      && decide (0x60 ≤ (hitAt f.addr).desc.off) && decide ((hitAt f.addr).desc.off ≤ 0x6C)
      && (⟨f.addr + 0x40, f.lsb, 1⟩ : FRef).bitOf .wo && (hitAt (f.addr + 0x40)).blk == .fcl
      && decide (0xA0 ≤ (hitAt (f.addr + 0x40)).desc.off) && decide ((hitAt (f.addr + 0x40)).desc.off ≤ 0xAC)
      && Reg.FCL_FENCE_LIST0 + ((hitAt (f.addr + 0x40)).desc.off - 0xA0) == f.addr && f.width == 1

theorem fenceBitOk_all (w : FenceUnit) : fenceBitOk (fenceUnitCode w) = true := by
  cases w with
  | unit u => exact (show ∀ u : Fin 78, fenceBitOk (fenceUnitCode (.unit u)) = true by decide +kernel) u
  | camera c => exact (show ∀ c : Fin 16, fenceBitOk (fenceUnitCode (.camera c)) = true by decide +kernel) c
  | point j => exact (show ∀ j : Fin 8, fenceBitOk (fenceUnitCode (.point j)) = true by decide +kernel) j
  | core k => exact (show ∀ k : Fin 8, fenceBitOk (fenceUnitCode (.core k)) = true by decide +kernel) k

theorem fenceBit_some (w : FenceUnit) : ∃ f, fenceBit (fenceUnitCode w) = some f := by
  have := fenceBitOk_all w
  unfold fenceBitOk at this
  cases h : fenceBit (fenceUnitCode w) with
  | none => rw [h] at this; cases this
  | some f => exact ⟨f, rfl⟩

theorem execFenceListAdd_does (w : FenceUnit) {f : FRef} (hf : fenceBit (fenceUnitCode w) = some f) (hr : s.reaches who f.addr = true) :
    execFenceListAdd who w s = .next ((s.setFld f 1).syncRange 336 7) := by
  have k := fenceBitOk_all w
  unfold fenceBitOk at k
  rw [hf] at k
  simp only [Bool.and_eq_true, beq_iff_eq, decide_eq_true_eq] at k
  obtain ⟨⟨⟨⟨⟨⟨⟨⟨⟨⟨k1, k2⟩, k3⟩, k4⟩, k5⟩, -⟩, -⟩, -⟩, -⟩, -⟩, kw⟩ := k
  have hi : regIs f.addr (hitAt f.addr) = true := by
    simp only [FRef.bitOf, Bool.and_eq_true] at k1; exact k1.1.1.1.1.1
  unfold execFenceListAdd
  simp only [hf]
  rw [State.poke_one hr k1 (.inl rfl) (fun h => nomatch h)
    (by unfold State.shut; simp only [k2]; simp; constructor <;> omega), State.stored_same k3 hi]
  have o1 : (hitAt f.addr).desc.off ≠ 0x20 := by omega
  have o2 : (hitAt f.addr).desc.off ≠ 0x50 := by omega
  have o3 : (hitAt f.addr).desc.off ≠ 0x80 := by omega
  have o4 : ¬ (0xA0 ≤ (hitAt f.addr).desc.off ∧ (hitAt f.addr).desc.off ≤ 0xAC) := by omega
  have o5 : (hitAt f.addr).desc.off ≠ 0x100 := by omega
  simp only [State.hook, State.hookBasic, Blk.sources, k2, State.hookFcl, o1, o2, o3, o4, o5, if_false, reduceCtorEq, foldl_sources]

theorem execFenceListClear_does (w : FenceUnit) {f : FRef} (hf : fenceBit (fenceUnitCode w) = some f) (hr : s.reaches who (f.addr + 0x40) = true)
    (hl : s.locked = false) (hz : s.rd (f.addr + 0x40) = 0) :
    execFenceListClear who w s = .next (((s.stored ⟨f.addr + 0x40, f.lsb, 1⟩ 1).setFld f 0).syncRange 336 7) := by
  have k := fenceBitOk_all w
  unfold fenceBitOk at k
  rw [hf] at k
  simp only [Bool.and_eq_true, beq_iff_eq, decide_eq_true_eq] at k
  obtain ⟨⟨⟨⟨⟨⟨⟨⟨⟨⟨-, -⟩, -⟩, -⟩, -⟩, k1⟩, k2⟩, k4⟩, k5⟩, k6⟩, kw⟩ := k
  have hi : regIs (f.addr + 0x40) (hitAt (f.addr + 0x40)) = true := by
    simp only [FRef.bitOf, Bool.and_eq_true] at k1; exact k1.1.1.1.1.1
  have hp0 : s.plain (hitAt (f.addr + 0x40)) (f.addr + 0x40) = 0 := by
    unfold State.plain
    rw [hz]
    have : ∀ l : List FieldDesc, putFold (fun f => f.access == .wo) (fun _ => 0) l 0 = 0 := by
      intro l
      induction l with
      | nil => rfl
      | cons f t ih => rw [putFold_cons]; split <;> simp [putBits, ih]
    exact this _
  unfold execFenceListClear
  simp only [hf]
  rw [State.poke_one (f := ⟨f.addr + 0x40, f.lsb, 1⟩) hr k1 (.inr rfl) (fun _ => by rw [hp0, bits_zero])
    (by unfold State.shut; simp only [k2, hl]; simp; omega)]
  have o1 : (hitAt (f.addr + 0x40)).desc.off ≠ 0x20 := by omega
  have o2 : (hitAt (f.addr + 0x40)).desc.off ≠ 0x50 := by omega
  have o3 : (hitAt (f.addr + 0x40)).desc.off ≠ 0x80 := by omega
  have o4 : 0xA0 ≤ (hitAt (f.addr + 0x40)).desc.off ∧ (hitAt (f.addr + 0x40)).desc.off ≤ 0xAC := by omega
  have hset : ∀ t : State, t.wr f.addr (BitVec.ofNat 32 ((t.rd f.addr).toNat - ((t.rd f.addr).toNat &&& putBits 0 f.lsb 1 1))) = t.setFld f 0 := by
    intro t; rw [sub_and_bit]; unfold State.setFld; rw [kw]
  simp only [State.hook, State.hookBasic, Blk.sources, k2, State.hookFcl, o1, o2, o3, o4, and_self, if_true, if_false, reduceCtorEq, foldl_sources, hp0,
    k6, hset]

/-! ### Resets, snapshots, recorder -/

theorem resetFields : (hitAt Reg.PRC_RESET).desc.fields = [⟨16, 16, .rsvd, .val 0, .any⟩, ⟨8, 8, .wo, .val 0, .any⟩, ⟨2, 6, .rsvd, .val 0, .any⟩,
      ⟨1, 1, .wo, .val 0, .any⟩, ⟨0, 1, .wo, .val 0, .any⟩] := by decide +kernel

theorem resetHide (v : Nat) : (hitAt Reg.PRC_RESET).desc.hideWo v = putBits (putBits (putBits v 8 8 0) 1 1 0) 0 1 0 := by
  rw [RegDesc.hideWo_eq, resetFields]
  simp only [putFold, List.foldl_cons, List.foldl_nil, beq_self_eq_true, show (Access.rsvd == Access.wo) = false from rfl, if_true, if_false,
    Bool.false_eq_true]

/-- A keyed word with one of the two request bits. -/
theorem State.busWrite_reset {key n : Nat} (hk : key < 256) (hn : n = 1 ∨ n = 2) (hr : s.reaches who Reg.PRC_RESET = true) (hz : s.rd Reg.PRC_RESET = 0) :
    s.busWrite who Reg.PRC_RESET 4 (key * 256 + n)
      = if key = 0xC3 then (if n = 2 then (s.wr Reg.PRC_RESET 0).sysReset 4 2 else (s.wr Reg.PRC_RESET 0).computeReset 0 4) else s.wr Reg.PRC_RESET 0 := by
  obtain ⟨h1, h2, h3, h4⟩ := commandRegOk_parts (a := Reg.PRC_RESET) (b := .prc) (o := 0x14) (by decide +kernel)
  have b8 : bits (key * 256 + n) 8 8 = key := by
    simp only [bits, Nat.shiftRight_eq_div_pow]; omega
  have b1 : bits (key * 256 + n) 1 1 = n / 2 := by
    simp only [bits, Nat.shiftRight_eq_div_pow]; omega
  have b0 : bits (key * 256 + n) 0 1 = n % 2 := by
    simp only [bits, Nat.shiftRight_eq_div_pow]; omega
  rw [State.busWrite_wo hr h1 h2 (by intro f _; unfold State.shut; simp only [h3])
    (by intro f _; simp [State.holdsBack, RegHit.holder, h3]) hz (by omega)]
  · simp only [State.hook, State.hookPrc, h3, h4, if_true, if_false, Nat.reduceEqDiff, State.resetWritten, b8, bitAt_eq, b1, b0]
    rcases hn with rfl | rfl
    · by_cases e : key = 0xC3 <;> simp [e]
    · by_cases e : key = 0xC3 <;> simp [e]
  · rw [resetFields]
    simp only [List.mem_cons, List.not_mem_nil, or_false, forall_eq_or_imp, forall_eq, reduceCtorEq, false_implies, true_implies, true_and, and_true]
    simp only [bits, Nat.shiftRight_eq_div_pow]
    omega
  · rw [resetFields]
    simp only [putFold, List.foldl_cons, List.foldl_nil, beq_self_eq_true, show (Access.rsvd == Access.wo) = false from rfl, if_true, if_false,
      Bool.false_eq_true, b8, b1, b0]
    rcases hn with rfl | rfl
    · have e1 : putBits 0 8 8 key = key * 256 := by rw [putBits_eq]; omega
      have e2 : putBits (key * 256) 1 1 (1 / 2) = key * 256 := by rw [putBits_eq]; omega
      rw [e1, e2, putBits_eq]; omega
    · have e1 : putBits 0 8 8 key = key * 256 := by rw [putBits_eq]; omega
      have e2 : putBits (key * 256) 1 1 (2 / 2) = key * 256 + 2 := by rw [putBits_eq]; omega
      rw [e1, e2, putBits_eq]; omega
  · rw [resetHide]
    have e1 : putBits (key * 256 + n) 8 8 0 = n := by rw [putBits_eq]; omega
    have e2 : putBits n 1 1 0 = n % 2 := by rw [putBits_eq]; omega
    rw [e1, e2, putBits_eq]; omega

theorem execPrcResetCompute_does (hr : s.reaches who Reg.PRC_RESET = true) (hz : s.rd Reg.PRC_RESET = 0) :
    execPrcResetCompute who 0xC3 s = .next ((s.wr Reg.PRC_RESET 0).computeReset 0 4) := by
  unfold execPrcResetCompute
  rw [State.busWrite_reset (by decide) (.inl rfl) hr hz, if_pos (by decide), if_neg (by decide)]

theorem execPrcResetSys_does (hr : s.reaches who Reg.PRC_RESET = true) (hz : s.rd Reg.PRC_RESET = 0) :
    execPrcResetSys who 0xC3 s = .next ((s.wr Reg.PRC_RESET 0).sysReset 4 2) := by
  unfold execPrcResetSys
  rw [State.busWrite_reset (by decide) (.inr rfl) hr hz, if_pos (by decide), if_pos (by decide)]

/-- Without the key nothing is reset (R415). -/
theorem execPrcReset_unkeyed {key : Byte} (hk : key ≠ 0xC3) (hr : s.reaches who Reg.PRC_RESET = true) (hz : s.rd Reg.PRC_RESET = 0) :
    execPrcResetCompute who key s = .next (s.wr Reg.PRC_RESET 0) ∧ execPrcResetSys who key s = .next (s.wr Reg.PRC_RESET 0) := by
  have hn : key.toNat ≠ 0xC3 := fun e => hk (BitVec.eq_of_toNat_eq e)
  unfold execPrcResetCompute execPrcResetSys
  rw [State.busWrite_reset key.isLt (.inl rfl) hr hz, State.busWrite_reset key.isLt (.inr rfl) hr hz, if_neg hn, if_neg hn]
  exact ⟨rfl, rfl⟩

theorem execSnpDumpStart_does (hr : s.reaches who Reg.SNP_DUMP = true) :
    execSnpDumpStart who s = .next ((s.stored Reg.SNP_DUMP.START 1).dumpStart) := by
  have k : siteOk Reg.SNP_DUMP.START .snp 0x30 0 .wo = true := by decide +kernel
  obtain ⟨h1, h2, h3, -⟩ := siteOk_parts k
  unfold execSnpDumpStart
  rw [State.poke_wo_any (f := Reg.SNP_DUMP.START) hr h1 (by decide +kernel) (by unfold State.shut; simp only [h2])]
  have e0 : (s.wrote Reg.SNP_DUMP.START 1 1).set 0 = true := State.wrote_set (f := Reg.SNP_DUMP.START) 1 1 rfl
  have hb : (s.wrote Reg.SNP_DUMP.START 1 1).h.blk = .snp := h2
  have ho : (s.wrote Reg.SNP_DUMP.START 1 1).h.desc.off = 0x30 := h3
  simp only [State.hook, State.hookBasic, Blk.sources, hb, State.hookSnp, ho, e0, State.when, if_true, if_false, reduceCtorEq, List.foldl_nil,
    Nat.reduceEqDiff]

theorem execSnpTrigger_does (hr : s.reaches who Reg.SNP_CTL = true) :
    execSnpTrigger who s = .next ((s.stored Reg.SNP_CTL.TRIGGER 1).snapTrigger 0) := by
  have k : siteOk Reg.SNP_CTL.TRIGGER .snp 0x10 0 .wo = true := by decide +kernel
  obtain ⟨h1, h2, h3, -⟩ := siteOk_parts k
  unfold execSnpTrigger
  rw [State.poke_wo_any (f := Reg.SNP_CTL.TRIGGER) hr h1 (by decide +kernel) (by unfold State.shut; simp only [h2])]
  have e0 : (s.wrote Reg.SNP_CTL.TRIGGER 1 1).set 1 = true := State.wrote_set (f := Reg.SNP_CTL.TRIGGER) 1 1 rfl
  have hb : (s.wrote Reg.SNP_CTL.TRIGGER 1 1).h.blk = .snp := h2
  have ho : (s.wrote Reg.SNP_CTL.TRIGGER 1 1).h.desc.off = 0x10 := h3
  simp only [State.hook, State.hookBasic, Blk.sources, hb, State.hookSnp, ho, e0, State.when, if_true, if_false, reduceCtorEq, List.foldl_nil]

theorem evr_ok : siteOk Reg.EVR_CTL.COMMIT .evr 0x10 0 .wo = true ∧ siteOk Reg.EVR_CTL.CLEAR .evr 0x10 0 .wo = true
    ∧ (fieldOf Reg.EVR_CTL.COMMIT).legal = .any ∧ (fieldOf Reg.EVR_CTL.CLEAR).legal = .any ∧ (hitAt Reg.EVR_CTL).desc.hidesBit 8 = true
    ∧ (hitAt Reg.EVR_CTL).desc.hidesBit 9 = true ∧ (fieldOf Reg.EVR_CTL.COMMIT).lsb = 8 := by
  refine ⟨?_, ?_, ?_, ?_, ?_, ?_, ?_⟩ <;> decide +kernel

theorem execEvrCommit_does (hr : s.reaches who Reg.EVR_CTL = true) : execEvrCommit who s = .next ((s.stored Reg.EVR_CTL.COMMIT 1).evrCommit) := by
  obtain ⟨k, -, hl, -, -, b9, h8⟩ := evr_ok
  obtain ⟨h1, h2, h3, -⟩ := siteOk_parts k
  unfold execEvrCommit
  rw [State.poke_wo_any (f := Reg.EVR_CTL.COMMIT) hr h1 hl (by unfold State.shut; simp [h2, h8])]
  have e8 : (s.wrote Reg.EVR_CTL.COMMIT 1 1).set 8 = true := State.wrote_set (f := Reg.EVR_CTL.COMMIT) 1 1 rfl
  have e9 := State.wrote_set_hidden (s := s) (f := Reg.EVR_CTL.COMMIT) 1 1 (siteOk_reg k) b9 (by simp [Reg.EVR_CTL.COMMIT])
  have hb : (s.wrote Reg.EVR_CTL.COMMIT 1 1).h.blk = .evr := h2
  have ho : (s.wrote Reg.EVR_CTL.COMMIT 1 1).h.desc.off = 0x10 := h3
  simp only [State.hook, State.hookBasic, Blk.sources, hb, State.hookEvr, ho, e8, e9, State.when, if_true, if_false, reduceCtorEq, List.foldl_nil,
    Bool.false_eq_true]

theorem execEvrClear_does (hr : s.reaches who Reg.EVR_CTL = true) (hlk : s.locked = false) :
    execEvrClear who s = .next ((s.stored Reg.EVR_CTL.CLEAR 1).evrClear) := by
  obtain ⟨-, k, -, hl, b8, -, -⟩ := evr_ok
  obtain ⟨h1, h2, h3, -⟩ := siteOk_parts k
  unfold execEvrClear
  rw [State.poke_wo_any (f := Reg.EVR_CTL.CLEAR) hr h1 hl (by unfold State.shut; simp [h2, hlk])]
  have e9 : (s.wrote Reg.EVR_CTL.CLEAR 1 1).set 9 = true := State.wrote_set (f := Reg.EVR_CTL.CLEAR) 1 1 rfl
  have e8 := State.wrote_set_hidden (s := s) (f := Reg.EVR_CTL.CLEAR) 1 1 (siteOk_reg k) b8 (by simp [Reg.EVR_CTL.CLEAR])
  have hb : (s.wrote Reg.EVR_CTL.CLEAR 1 1).h.blk = .evr := h2
  have ho : (s.wrote Reg.EVR_CTL.CLEAR 1 1).h.desc.off = 0x10 := h3
  simp only [State.hook, State.hookBasic, Blk.sources, hb, State.hookEvr, ho, e8, e9, State.when, if_true, if_false, reduceCtorEq, List.foldl_nil,
    Bool.false_eq_true]

/-! ### Links and the gate -/

theorem portCtlOk_all : ∀ q : Fin 4, (siteOk (Reg.NLK_PORT_CTL.ENABLE q) .nlk 0x1000 q .rw && siteOk (Reg.NLK_PORT_CTL.RETRAIN q) .nlk 0x1000 q .w1s
    && (fieldOf (Reg.NLK_PORT_CTL.ENABLE q)).legal == .any && (fieldOf (Reg.NLK_PORT_CTL.RETRAIN q)).legal == .any
    && (hitAt (Reg.NLK_PORT_CTL q)).desc.keepsBit 0 && (hitAt (Reg.NLK_PORT_CTL q)).desc.fields.all (fun f => f.access != .wo)
    && (fieldOf (Reg.NLK_PORT_CTL.ENABLE q)).lsb == 0 && (fieldOf (Reg.NLK_PORT_CTL.RETRAIN q)).lsb == 1) = true := by decide +kernel

theorem execLinkTrain_does (q : Fin 4) (hr : s.reaches who (Reg.NLK_PORT_CTL q) = true) (he : s.flag (Reg.NLK_PORT_CTL.ENABLE q) = false) :
    execLinkTrain who q false s = .next (((s.setFld (Reg.NLK_PORT_CTL.ENABLE q) 1).startTraining q).syncRange 288 9) := by
  have k := portCtlOk_all q
  simp only [Bool.and_eq_true, beq_iff_eq] at k
  obtain ⟨⟨⟨⟨⟨⟨⟨k, -⟩, hl⟩, -⟩, -⟩, hw⟩, h0⟩, -⟩ := k
  obtain ⟨h1, h2, h3, h4⟩ := siteOk_parts k
  unfold execLinkTrain
  simp only [Bool.false_eq_true, if_false]
  rw [State.poke_rw (f := Reg.NLK_PORT_CTL.ENABLE q) hr (.inl h1) (by unfold State.shut; simp [h2, h3, h0]) (fun o w => legal_any hl _ _ _ _),
    State.stored_same hw (siteOk_reg k)]
  have e0 : (s.wrote (Reg.NLK_PORT_CTL.ENABLE q) 1 1).rose 0 = true := by
    rw [show (0 : Nat) = (Reg.NLK_PORT_CTL.ENABLE q).lsb from rfl, State.wrote_rose _ _ rfl, he]; rfl
  have hb : (s.wrote (Reg.NLK_PORT_CTL.ENABLE q) 1 1).h.blk = .nlk := h2
  have ho : (s.wrote (Reg.NLK_PORT_CTL.ENABLE q) 1 1).h.desc.off = 0x1000 := h3
  have hi : (s.wrote (Reg.NLK_PORT_CTL.ENABLE q) 1 1).h.i = q := h4
  simp only [State.hook, State.hookBasic, Blk.sources, hb, State.hookNlk, ho, hi, e0, if_true, if_false, reduceCtorEq, foldl_sources]

theorem execLinkTrain_again (q : Fin 4) (hr : s.reaches who (Reg.NLK_PORT_CTL q) = true) (he : s.flag (Reg.NLK_PORT_CTL.ENABLE q) = true)
    (ht : s.flag (Reg.NLK_PORT_CTL.RETRAIN q) = false) :
    execLinkTrain who q true s = .next (((s.setFld (Reg.NLK_PORT_CTL.RETRAIN q) 1).startTraining q).syncRange 288 9) := by
  have k := portCtlOk_all q
  simp only [Bool.and_eq_true, beq_iff_eq] at k
  obtain ⟨⟨⟨⟨⟨⟨⟨-, k⟩, -⟩, hl⟩, b0⟩, hw⟩, -⟩, hlsb⟩ := k
  obtain ⟨h1, h2, h3, h4⟩ := siteOk_parts k
  unfold execLinkTrain
  simp only [if_true]
  rw [State.poke_bit (f := Reg.NLK_PORT_CTL.RETRAIN q) hr h1 rfl (by unfold State.shut; simp [h2, h3, hlsb]) (fun o w => legal_any hl _ _ _ _),
    State.stored_same hw (siteOk_reg k)]
  have r0 := State.wrote_rose_ne (s := s) (f := Reg.NLK_PORT_CTL.RETRAIN q) 1 1 (siteOk_reg k) b0 (by simp [Reg.NLK_PORT_CTL.RETRAIN])
  have f0 := State.wrote_fell_ne (s := s) (f := Reg.NLK_PORT_CTL.RETRAIN q) 1 1 (siteOk_reg k) b0 (by simp [Reg.NLK_PORT_CTL.RETRAIN])
  have s0 : (s.wrote (Reg.NLK_PORT_CTL.RETRAIN q) 1 1).set 0 = true := by
    rw [State.wrote_set_kept 1 1 (siteOk_reg k) b0 (by simp [Reg.NLK_PORT_CTL.RETRAIN]), bitAt_eq]
    exact he
  have r1 : (s.wrote (Reg.NLK_PORT_CTL.RETRAIN q) 1 1).rose 1 = true := by
    rw [show (1 : Nat) = (Reg.NLK_PORT_CTL.RETRAIN q).lsb from rfl, State.wrote_rose _ _ rfl, ht]; rfl
  have hb : (s.wrote (Reg.NLK_PORT_CTL.RETRAIN q) 1 1).h.blk = .nlk := h2
  have ho : (s.wrote (Reg.NLK_PORT_CTL.RETRAIN q) 1 1).h.desc.off = 0x1000 := h3
  have hi : (s.wrote (Reg.NLK_PORT_CTL.RETRAIN q) 1 1).h.i = q := h4
  simp only [State.hook, State.hookBasic, Blk.sources, hb, State.hookNlk, ho, hi, r0, f0, s0, r1, State.when, if_true, if_false, reduceCtorEq,
    foldl_sources, Bool.not_true, Bool.false_eq_true]

theorem tenKeyOk_all : ∀ t : Fin 15, ∀ k : Fin 8, (siteOk ⟨Reg.DGT_TEN_KEY0 t + 4 * k, 0, 32⟩ .dgt (0x1110 + 4 * k) t .wo
    && (fieldOf ⟨Reg.DGT_TEN_KEY0 t + 4 * k, 0, 32⟩).legal == .any) = true := by decide +kernel

theorem execTenantKeyWrite_does (t : Fin 16) (k : Fin 8) (word : Word) (ht : t.val ≠ 0)
    (hr : s.reaches who (Reg.DGT_TEN_KEY0 (t.val - 1) + 4 * k) = true) :
    execTenantKeyWrite who t k word s
      = .next (((s.stored ⟨Reg.DGT_TEN_KEY0 (t.val - 1) + 4 * k, 0, 32⟩ word.toNat).keyWord t k word.toNat).syncRange 301 16) := by
  have h := tenKeyOk_all ⟨t.val - 1, by omega⟩ k
  simp only [Bool.and_eq_true, beq_iff_eq] at h
  obtain ⟨hs, hl⟩ := h
  obtain ⟨h1, h2, h3, h4⟩ := siteOk_parts hs
  have hw := word.isLt
  have hk := k.isLt
  have hv : putBits 0 0 32 word.toNat = word.toNat := by rw [putBits_eq]; omega
  have hp := State.poke_wo_any (f := ⟨Reg.DGT_TEN_KEY0 (t.val - 1) + 4 * k, 0, 32⟩) (v := word.toNat) hr h1 hl
    (by unfold State.shut; simp only [h2, h3]; simp; omega)
  unfold execTenantKeyWrite
  rw [if_neg ht, hp]
  have hb : (s.wrote ⟨Reg.DGT_TEN_KEY0 (t.val - 1) + 4 * k, 0, 32⟩ word.toNat word.toNat).h.blk = .dgt := h2
  have ho : (s.wrote ⟨Reg.DGT_TEN_KEY0 (t.val - 1) + 4 * k, 0, 32⟩ word.toNat word.toNat).h.desc.off = 0x1110 + 4 * k := h3
  have hi : (s.wrote ⟨Reg.DGT_TEN_KEY0 (t.val - 1) + 4 * k, 0, 32⟩ word.toNat word.toNat).h.i = t.val - 1 := h4
  have hval : (s.wrote ⟨Reg.DGT_TEN_KEY0 (t.val - 1) + 4 * k, 0, 32⟩ word.toNat word.toNat).value = word.toNat := hv
  have c1 : 0x1110 ≤ 0x1110 + 4 * k.val ∧ 0x1110 + 4 * k.val ≤ 0x112C := by omega
  have c2 : (0x1110 + 4 * k.val - 0x1110) / 4 = k.val := by omega
  have c3 : t.val - 1 + 1 = t.val := by omega
  simp only [State.hook, State.hookBasic, Blk.sources, hb, State.hookDgt, ho, hi, hval, c1, c2, c3, and_self, if_true, if_false, reduceCtorEq, foldl_sources]

/-! ### Boot record and modes -/

theorem boot_ok : siteOk Reg.PRC_BOOT.CONFIRM .prc 0x28 0 .w1s = true ∧ siteOk Reg.PRC_BOOT.PENDING_A .prc 0x28 0 .w1s = true
    ∧ siteOk Reg.PRC_BOOT.PENDING_B .prc 0x28 0 .w1s = true ∧ (fieldOf Reg.PRC_BOOT.CONFIRM).legal = .any
    ∧ (fieldOf Reg.PRC_BOOT.PENDING_A).legal = .any ∧ (fieldOf Reg.PRC_BOOT.PENDING_B).legal = .any
    ∧ (hitAt Reg.PRC_BOOT).desc.fields.all (fun f => f.access != .wo) = true := by
  refine ⟨?_, ?_, ?_, ?_, ?_, ?_, ?_⟩ <;> decide +kernel

theorem execBootConfirm_does (hr : s.reaches who Reg.PRC_BOOT = true) (hsv : s.boot.service = false) (hwt : s.boot.waiting = false) :
    execBootConfirm who s = .next (
      let t := s.setFld Reg.PRC_BOOT.CONFIRM 1
      let u := t.setFld (if t.fld Reg.TOP_BOOT.SLOT = 0 then Reg.PRC_BOOT.STATE_A else Reg.PRC_BOOT.STATE_B) 1
      u.setFld Reg.TOP_SEC.MIN_SECVER (max (u.fld Reg.TOP_SEC.MIN_SECVER) (u.fld Reg.TOP_BOOT.SECVER))) := by
  obtain ⟨k, -, -, hl, -, -, hw⟩ := boot_ok
  obtain ⟨h1, h2, h3, -⟩ := siteOk_parts k
  unfold execBootConfirm
  rw [State.poke_bit (f := Reg.PRC_BOOT.CONFIRM) hr h1 rfl (by unfold State.shut; simp only [h2]) (fun o w => legal_any hl _ _ _ _),
    State.stored_same hw (siteOk_reg k)]
  have hv : (s.wrote Reg.PRC_BOOT.CONFIRM 1 1).value = 1 := rfl
  have hb : (s.wrote Reg.PRC_BOOT.CONFIRM 1 1).h.blk = .prc := h2
  have ho : (s.wrote Reg.PRC_BOOT.CONFIRM 1 1).h.desc.off = 0x28 := h3
  have b0 : bitAt 1 0 = true := rfl
  have b3 : bitAt 1 3 = false := rfl
  have b4 : bitAt 1 4 = false := rfl
  have d1 : (s.setFld Reg.PRC_BOOT.CONFIRM 1).boot.service = false := hsv
  have d2 : (s.setFld Reg.PRC_BOOT.CONFIRM 1).boot.waiting = false := hwt
  simp only [State.hook, State.hookPrc, hb, ho, if_true, if_false, Nat.reduceEqDiff, State.hookBoot, hv, b0, b3, b4, d1, d2, Bool.not_false, Bool.and_self,
    Bool.false_eq_true]

theorem execBootPending_does (slotB : Bool) (hr : s.reaches who Reg.PRC_BOOT = true) :
    execBootPending who slotB s = .next (
      let t := (s.setFld (if slotB then Reg.PRC_BOOT.PENDING_B else Reg.PRC_BOOT.PENDING_A) 1).setFld
        (if slotB then Reg.PRC_BOOT.STATE_B else Reg.PRC_BOOT.STATE_A) 2
      { t with boot := { t.boot with tries := t.boot.tries.set (ofBool slotB) 0 } }) := by
  obtain ⟨-, kA, kB, -, hA, hB, hw⟩ := boot_ok
  unfold execBootPending
  cases slotB
  · obtain ⟨h1, h2, h3, -⟩ := siteOk_parts kA
    simp only [Bool.false_eq_true, if_false]
    rw [State.poke_bit (f := Reg.PRC_BOOT.PENDING_A) hr h1 rfl (by unfold State.shut; simp only [h2]) (fun o w => legal_any hA _ _ _ _),
      State.stored_same hw (siteOk_reg kA)]
    have hv : (s.wrote Reg.PRC_BOOT.PENDING_A 1 1).value = 8 := rfl
    have hb : (s.wrote Reg.PRC_BOOT.PENDING_A 1 1).h.blk = .prc := h2
    have ho : (s.wrote Reg.PRC_BOOT.PENDING_A 1 1).h.desc.off = 0x28 := h3
    have b0 : bitAt 8 0 = false := rfl
    have b3 : bitAt 8 3 = true := rfl
    have b4 : bitAt 8 4 = false := rfl
    simp only [State.hook, State.hookPrc, hb, ho, if_true, if_false, Nat.reduceEqDiff, State.hookBoot, hv, b0, b3, b4, Bool.false_and, Bool.false_eq_true, ofBool]
  · obtain ⟨h1, h2, h3, -⟩ := siteOk_parts kB
    simp only [if_true]
    rw [State.poke_bit (f := Reg.PRC_BOOT.PENDING_B) hr h1 rfl (by unfold State.shut; simp only [h2]) (fun o w => legal_any hB _ _ _ _),
      State.stored_same hw (siteOk_reg kB)]
    have hv : (s.wrote Reg.PRC_BOOT.PENDING_B 1 1).value = 16 := rfl
    have hb : (s.wrote Reg.PRC_BOOT.PENDING_B 1 1).h.blk = .prc := h2
    have ho : (s.wrote Reg.PRC_BOOT.PENDING_B 1 1).h.desc.off = 0x28 := h3
    have b0 : bitAt 16 0 = false := rfl
    have b3 : bitAt 16 3 = false := rfl
    have b4 : bitAt 16 4 = true := rfl
    simp only [State.hook, State.hookPrc, hb, ho, if_true, if_false, Nat.reduceEqDiff, State.hookBoot, hv, b0, b3, b4, Bool.false_and, Bool.false_eq_true, ofBool,
      Nat.one_ne_zero]

theorem mode_ok : siteOk Reg.PRC_MODE.REQ .prc 0x10 0 .rw = true ∧ (fieldOf Reg.PRC_MODE.REQ).legal = .any
    ∧ siteOk Reg.PRC_MODE.POOL_SCRUB .prc 0x10 0 .w1s = true ∧ (fieldOf Reg.PRC_MODE.POOL_SCRUB).legal = .dyn .poolScrub
    ∧ (hitAt Reg.PRC_MODE).desc.fields.all (fun f => f.access != .wo) = true := by
  refine ⟨?_, ?_, ?_, ?_, ?_⟩ <;> decide +kernel

/-- A request value 1 to 3 written to REQ (R483). -/
theorem State.poke_req {v : Nat} (hr : s.reaches who Reg.PRC_MODE = true) (h0 : 0 < v) (h4 : v < 4) :
    s.poke who Reg.PRC_MODE.REQ v = (s.setFld Reg.PRC_MODE.REQ v).modeRequest v := by
  obtain ⟨k, hl, -, -, hw⟩ := mode_ok
  obtain ⟨h1, h2, h3, -⟩ := siteOk_parts k
  have hm : v % 2 ^ 2 = v := Nat.mod_eq_of_lt h4
  rw [State.poke_rw (f := Reg.PRC_MODE.REQ) hr (.inl h1) (by unfold State.shut; simp only [h2]) (fun o w => legal_any hl _ _ _ _),
    State.stored_same hw (siteOk_reg k)]
  have hb : (s.wrote Reg.PRC_MODE.REQ v v).h.blk = .prc := h2
  have ho : (s.wrote Reg.PRC_MODE.REQ v v).h.desc.off = 0x10 := h3
  have he : bits (s.wrote Reg.PRC_MODE.REQ v v).eff 0 2 = v := by
    show bits (putBits _ 0 2 v) 0 2 = v
    rw [bits_putBits, hm]
  have hn : v ≠ 0 := by omega
  simp only [State.hook, State.hookPrc, hb, ho, he, hn, if_true, if_false]

theorem State.flag_setReq_ne {f : FRef} (v : Nat) (h : f.addr ≠ Reg.PRC_MODE) : (s.setFld Reg.PRC_MODE.REQ v).flag f = s.flag f :=
  State.flag_setFld_ne v (fun e => h e.symm)

/-- Writing REQ and clearing it again leaves the other fields of PRC_MODE. -/
theorem State.fld_setReq (v w : Nat) (hc : SMap.wf s.regs = true) {f : FRef} (hf : f.addr = Reg.PRC_MODE) (hl : 2 ≤ f.lsb) :
    ((s.setFld Reg.PRC_MODE.REQ v).setFld Reg.PRC_MODE.REQ w).fld f = s.fld f := by
  rw [State.fld_setFld_apart (f := Reg.PRC_MODE.REQ) (g := f) _ (State.wf_setFld _ _ hc) (by decide) hf.symm (.inl hl),
    State.fld_setFld_apart (f := Reg.PRC_MODE.REQ) (g := f) _ hc (by decide) hf.symm (.inl hl)]

theorem execParkRequest_does (hr : s.reaches who Reg.PRC_MODE = true) (hc : SMap.wf s.regs = true) (hd : s.inDrive = true)
    (hh : s.flag Reg.PRC_MODE.HANDOVER = false) :
    execParkRequest who s = .next (((s.setFld Reg.PRC_MODE.REQ 1).setFld Reg.PRC_MODE.REQ 0).park) := by
  unfold execParkRequest
  rw [State.poke_req hr (by decide) (by decide)]
  have e1 : ((s.setFld Reg.PRC_MODE.REQ 1).setFld Reg.PRC_MODE.REQ 0).inDrive = true := by
    unfold State.inDrive State.mode at *; rw [State.fld_setReq _ _ hc rfl (by decide)]; exact hd
  have e2 : ((s.setFld Reg.PRC_MODE.REQ 1).setFld Reg.PRC_MODE.REQ 0).flag Reg.PRC_MODE.HANDOVER = false := by
    unfold State.flag at *; rw [State.fld_setReq _ _ hc rfl (by decide)]; exact hh
  simp only [State.modeRequest, e1, e2, Bool.not_true, Bool.false_eq_true, if_false]

theorem execDepotRequest_does (hr : s.reaches who Reg.PRC_MODE = true) : execDepotRequest who s = .next ((s.setFld Reg.PRC_MODE.REQ 2).modeRequest 2) := by
  unfold execDepotRequest; rw [State.poke_req hr (by decide) (by decide)]

theorem execLeaveDepotRequest_does (hr : s.reaches who Reg.PRC_MODE = true) (hc : SMap.wf s.regs = true) (hd : s.inDepot = true) :
    execLeaveDepotRequest who s = .next (((s.setFld Reg.PRC_MODE.REQ 3).setFld Reg.PRC_MODE.REQ 0).handOver 5) := by
  unfold execLeaveDepotRequest
  rw [State.poke_req hr (by decide) (by decide)]
  have e1 : ((s.setFld Reg.PRC_MODE.REQ 3).setFld Reg.PRC_MODE.REQ 0).inDepot = true := by
    unfold State.inDepot State.mode at *; rw [State.fld_setReq _ _ hc rfl (by decide)]; exact hd
  simp only [State.modeRequest, State.trigger, e1, if_true]

theorem execPoolScrub_does (hr : s.reaches who Reg.PRC_MODE = true) (hd : s.inDrive = true) (hf : s.tenantsFree = true) (hq : s.fld Reg.PRC_MODE.REQ = 0) :
    execPoolScrub who s = .next (s.setFld Reg.PRC_MODE.POOL_SCRUB 1) := by
  obtain ⟨-, -, k, hl, hw⟩ := mode_ok
  obtain ⟨h1, h2, h3, -⟩ := siteOk_parts k
  unfold execPoolScrub
  rw [State.poke_bit (f := Reg.PRC_MODE.POOL_SCRUB) hr h1 rfl (by unfold State.shut; simp only [h2]), State.stored_same hw (siteOk_reg k)]
  · have hb : (s.wrote Reg.PRC_MODE.POOL_SCRUB 1 1).h.blk = .prc := h2
    have ho : (s.wrote Reg.PRC_MODE.POOL_SCRUB 1 1).h.desc.off = 0x10 := h3
    have he : bits (s.wrote Reg.PRC_MODE.POOL_SCRUB 1 1).eff 0 2 = 0 := by
      show bits (putBits (s.plain (hitAt Reg.PRC_MODE) Reg.PRC_MODE) 5 1 1) 0 2 = 0
      rw [bits_putBits_low _ _ _ (by decide), State.plain_same hw]; exact hq
    simp only [State.hook, State.hookPrc, hb, ho, he, if_true]
  · intro o w
    unfold State.legalValue; rw [hl]; simp only [State.dynLegal, hd, hf, Bool.and_self, if_true]

/-! ### Fences of Bellows streams (R412) -/

theorem streamFenceOk_all : (∀ c : Fin 16, (siteOk (Reg.BLW_CAM_CTL.FENCE c) .blw 0x1000 c .w1s && (fieldOf (Reg.BLW_CAM_CTL.FENCE c)).legal == .any
      && (hitAt (Reg.BLW_CAM_CTL c)).desc.keepsBit 0 && (hitAt (Reg.BLW_CAM_CTL c)).desc.fields.all (fun f => f.access != .wo)
      && (fieldOf (Reg.BLW_CAM_CTL.FENCE c)).lsb == 12) = true)
    ∧ (∀ j : Fin 8, (siteOk (Reg.BLW_PT_CTL.FENCE j) .blw 0x2000 j .w1s && (fieldOf (Reg.BLW_PT_CTL.FENCE j)).legal == .any
      && (hitAt (Reg.BLW_PT_CTL j)).desc.keepsBit 0 && (hitAt (Reg.BLW_PT_CTL j)).desc.fields.all (fun f => f.access != .wo)
      && (fieldOf (Reg.BLW_PT_CTL.FENCE j)).lsb == 12) = true) := by
  constructor <;> decide +kernel

theorem execUnitFence_camera (c : Fin 16) (hr : s.reaches who (Reg.BLW_CAM_CTL c) = true) (hb : s.flag (Reg.BLW_CAM_CTL.FENCE c) = false) :
    execUnitFence who (.camera c) s
      = .next ((((s.setFld (Reg.BLW_CAM_CTL.FENCE c) 1).fenceStream c 1).syncRange 112 24).syncSrc 141) := by
  have k := streamFenceOk_all.1 c
  simp only [Bool.and_eq_true, beq_iff_eq] at k
  obtain ⟨⟨⟨⟨k, hl⟩, b0⟩, hw⟩, hlsb⟩ := k
  obtain ⟨h1, h2, h3, h4⟩ := siteOk_parts k
  unfold execUnitFence
  simp only [fenceField]
  rw [State.poke_bit (f := Reg.BLW_CAM_CTL.FENCE c) hr h1 rfl (by unfold State.shut; simp [h2, h3, hlsb]) (fun o w => legal_any hl _ _ _ _),
    State.stored_same hw (siteOk_reg k)]
  have r0 := State.wrote_rose_ne (s := s) (f := Reg.BLW_CAM_CTL.FENCE c) 1 1 (siteOk_reg k) b0 (by simp [Reg.BLW_CAM_CTL.FENCE])
  have f0 := State.wrote_fell_ne (s := s) (f := Reg.BLW_CAM_CTL.FENCE c) 1 1 (siteOk_reg k) b0 (by simp [Reg.BLW_CAM_CTL.FENCE])
  have r12 : (s.wrote (Reg.BLW_CAM_CTL.FENCE c) 1 1).rose 12 = true := by
    rw [show (12 : Nat) = (Reg.BLW_CAM_CTL.FENCE c).lsb from rfl, State.wrote_rose _ _ rfl, hb]; rfl
  have hb : (s.wrote (Reg.BLW_CAM_CTL.FENCE c) 1 1).h.blk = .blw := h2
  have ho : (s.wrote (Reg.BLW_CAM_CTL.FENCE c) 1 1).h.desc.off = 0x1000 := h3
  have hi : (s.wrote (Reg.BLW_CAM_CTL.FENCE c) 1 1).h.i = c := h4
  simp only [State.hook, State.hookBasic, Blk.sources, hb, State.hookBlw, ho, hi, r0, f0, r12, State.when, Bool.or_self, Bool.false_eq_true, if_true, if_false,
    reduceCtorEq, List.foldl_nil, List.foldl_cons, List.foldl_append, foldl_sources, Nat.reduceEqDiff]

theorem execUnitFence_point (j : Fin 8) (hr : s.reaches who (Reg.BLW_PT_CTL j) = true) (hb : s.flag (Reg.BLW_PT_CTL.FENCE j) = false) :
    execUnitFence who (.point j) s
      = .next ((((s.setFld (Reg.BLW_PT_CTL.FENCE j) 1).fenceStream (16 + j) 1).syncRange 112 24).syncSrc 141) := by
  have k := streamFenceOk_all.2 j
  simp only [Bool.and_eq_true, beq_iff_eq] at k
  obtain ⟨⟨⟨⟨k, hl⟩, b0⟩, hw⟩, hlsb⟩ := k
  obtain ⟨h1, h2, h3, h4⟩ := siteOk_parts k
  unfold execUnitFence
  simp only [fenceField]
  rw [State.poke_bit (f := Reg.BLW_PT_CTL.FENCE j) hr h1 rfl (by unfold State.shut; simp [h2, h3, hlsb]) (fun o w => legal_any hl _ _ _ _),
    State.stored_same hw (siteOk_reg k)]
  have r0 := State.wrote_rose_ne (s := s) (f := Reg.BLW_PT_CTL.FENCE j) 1 1 (siteOk_reg k) b0 (by simp [Reg.BLW_PT_CTL.FENCE])
  have f0 := State.wrote_fell_ne (s := s) (f := Reg.BLW_PT_CTL.FENCE j) 1 1 (siteOk_reg k) b0 (by simp [Reg.BLW_PT_CTL.FENCE])
  have r12 : (s.wrote (Reg.BLW_PT_CTL.FENCE j) 1 1).rose 12 = true := by
    rw [show (12 : Nat) = (Reg.BLW_PT_CTL.FENCE j).lsb from rfl, State.wrote_rose _ _ rfl, hb]; rfl
  have hb : (s.wrote (Reg.BLW_PT_CTL.FENCE j) 1 1).h.blk = .blw := h2
  have ho : (s.wrote (Reg.BLW_PT_CTL.FENCE j) 1 1).h.desc.off = 0x2000 := h3
  have hi : (s.wrote (Reg.BLW_PT_CTL.FENCE j) 1 1).h.i = j := h4
  simp only [State.hook, State.hookBasic, Blk.sources, hb, State.hookBlw, ho, hi, r0, f0, r12, State.when, Bool.or_self, Bool.false_eq_true, if_true, if_false,
    reduceCtorEq, List.foldl_nil, List.foldl_cons, List.foldl_append, foldl_sources, Nat.reduceEqDiff]

end Sys2Proof.Machine
end

