-- ==== Sys2Proof/Tests/Slice0.lean ====
section
/-! SUPPORT. Tests: ill-formed commands are refused, each statement's hypotheses are met by a concrete state and operands, and the signature check
accepts a published vector. -/

set_option Elab.async false

namespace Sys2Proof.Tests

open Sys2Proof Sys2Proof.Machine

/-! ### Well-formedness: each check refuses an ill-formed term -/

/-- An access of 3 bytes, one past the 40-bit addresses, and one whose data is too wide. -/
theorem test_wf_access :
    Instr.WellFormed (.registerWrite .island 0x3000000010 4 0) = true ∧ Instr.WellFormed (.registerWrite .island 0 3 0) = false
    ∧ Instr.WellFormed (.pairLoRead .island (2 ^ 40) 4) = false ∧ Instr.WellFormed (.registerWrite .island 0 1 256) = false := by decide

/-- A data unit of 31 bytes, eleven data units, a header of 31 bytes. -/
theorem test_wf_link :
    Instr.WellFormed (.memWr 0 ⟨List.replicate 32 0, [⟨List.replicate 32 0, false⟩]⟩) = true
    ∧ Instr.WellFormed (.memWr 0 ⟨List.replicate 32 0, [⟨List.replicate 31 0, false⟩]⟩) = false
    ∧ Instr.WellFormed (.memWr 0 ⟨List.replicate 32 0, List.replicate 11 ⟨List.replicate 32 0, false⟩⟩) = false
    ∧ Instr.WellFormed (.ready 0 ⟨List.replicate 31 0, []⟩) = false := by decide +kernel

/-- Fields of a Sync, each too wide in turn. -/
theorem test_wf_sync :
    SyncMsg.wf ⟨0, 0, false, 0, 0, 0⟩ = true ∧ SyncMsg.wf ⟨2 ^ 8, 0, false, 0, 0, 0⟩ = false ∧ SyncMsg.wf ⟨0, 2 ^ 16, false, 0, 0, 0⟩ = false
    ∧ SyncMsg.wf ⟨0, 0, false, 2 ^ 48 * 10 ^ 9, 0, 0⟩ = false ∧ SyncMsg.wf ⟨0, 0, false, 0, 2 ^ 63, 0⟩ = false
    ∧ SyncMsg.wf ⟨0, 0, false, 0, -(2 ^ 63) - 1, 0⟩ = false ∧ SyncMsg.wf ⟨0, 0, false, 0, 0, 2 ^ 31⟩ = false := by decide

/-- A data type of 64, a short packet with a payload, a payload and a port of 17 bits. -/
theorem test_wf_streams :
    CamPacket.wf ⟨0, 0, 0, [], .clean, true, .clean⟩ = true ∧ CamPacket.wf ⟨0, 64, 0, [], .clean, true, .clean⟩ = false
    ∧ CamPacket.wf ⟨0, 15, 0, [0], .clean, true, .clean⟩ = false
    ∧ CamPacket.wf ⟨0, 16, 0, List.replicate (2 ^ 16) 0, .clean, true, .clean⟩ = false
    ∧ PointDatagram.wf ⟨2 ^ 16, [], 0⟩ = false ∧ PointDatagram.wf ⟨0, List.replicate (2 ^ 16) 0, 0⟩ = false := by
  simp [-List.reduceReplicate, CamPacket.wf, PointDatagram.wf]

/-- A result of 64 KiB and a byte, a summary of 35 bytes, three lanes, a version of 9 bits, fifteen generations. -/
theorem test_wf_runs :
    EmberRun.wf ⟨0, [], List.replicate 36 0⟩ = true ∧ EmberRun.wf ⟨0, List.replicate 65537 0, List.replicate 36 0⟩ = false
    ∧ EmberRun.wf ⟨0, [], List.replicate 35 0⟩ = false ∧ TrainResult.wf ⟨8, 1, 0, 0, List.replicate 16 1⟩ = true
    ∧ TrainResult.wf ⟨3, 1, 0, 0, List.replicate 16 1⟩ = false ∧ TrainResult.wf ⟨8, 256, 0, 0, List.replicate 16 1⟩ = false
    ∧ TrainResult.wf ⟨8, 1, 0, 0, List.replicate 15 1⟩ = false := by
  simp [-List.reduceReplicate, EmberRun.wf, TrainResult.wf]

/-- A frame of 13 bytes; a standard identifier of 12 bits; 9 bytes in a classic frame; 65 in an FD frame. -/
theorem test_wf_frames :
    EthFrame.wf ⟨List.replicate 14 0, true⟩ = true ∧ EthFrame.wf ⟨List.replicate 13 0, true⟩ = false
    ∧ CanFrame.wf ⟨false, 2047, false, []⟩ = true ∧ CanFrame.wf ⟨false, 2048, false, []⟩ = false ∧ CanFrame.wf ⟨true, 2 ^ 29, false, []⟩ = false
    ∧ CanFrame.wf ⟨false, 0, false, List.replicate 9 0⟩ = false ∧ CanFrame.wf ⟨false, 0, true, List.replicate 65 0⟩ = false := by decide

/-- Addresses of 33 and 129 bits, ports and a payload of 17 bits. -/
theorem test_wf_others :
    DepotFragment.wf ⟨false, 0, 0, 0, 0, [], true⟩ = true ∧ DepotFragment.wf ⟨false, 2 ^ 32, 0, 0, 0, [], true⟩ = false
    ∧ DepotFragment.wf ⟨true, 0, 0, 2 ^ 128, 0, [], true⟩ = false ∧ DepotFragment.wf ⟨false, 0, 2 ^ 16, 0, 0, [], true⟩ = false
    ∧ DepotFragment.wf ⟨false, 0, 0, 0, 2 ^ 16, [], true⟩ = false ∧ DepotFragment.wf ⟨false, 0, 0, 0, 0, List.replicate (2 ^ 16) 0, true⟩ = false := by
  simp [-List.reduceReplicate, DepotFragment.wf]

/-- Of an image of 64 bytes: a list and a split record past its end, a Marmer list of a Draw pipe, a result, a configuration, an age mask and a
slice's unit that do not exist. -/
theorem test_wf_images :
    GraphImage.wf ⟨64, [⟨63, true, 32, 2, 1⟩], [⟨56, 0, 0⟩], [63], [(1, 1)], 0, [2], [[77]]⟩ = true
    ∧ GraphImage.wf ⟨64, [⟨63, false, 32, 2, 1⟩], [], [], [], 0, [], []⟩ = false ∧ GraphImage.wf ⟨64, [⟨64, true, 32, 2, 1⟩], [], [], [], 0, [], []⟩ = false
    ∧ GraphImage.wf ⟨64, [], [⟨57, 0, 0⟩], [], [], 0, [], []⟩ = false ∧ GraphImage.wf ⟨64, [], [], [64], [], 0, [], []⟩ = false
    ∧ GraphImage.wf ⟨64, [], [], [], [], 0, [3], []⟩ = false ∧ GraphImage.wf ⟨64, [], [], [], [(2 ^ 24, 0)], 0, [], []⟩ = false
    ∧ GraphImage.wf ⟨64, [], [], [], [], 0, [], [[78]]⟩ = false := by decide

/-- Sequence numbers of 13 bits; PCIe requests of no byte, too long, and past the end; a hardware address of 5 bytes. -/
theorem test_wf_operands :
    Instr.WellFormed (.linkAck 0 4095) = true ∧ Instr.WellFormed (.linkAck 0 4096) = false ∧ Instr.WellFormed (.nak 0 4096) = false
    ∧ Instr.WellFormed (.uncorrectableCodeword 0 4096) = false ∧ Instr.WellFormed (.pcieMemRead .bar0 0 0) = false
    ∧ Instr.WellFormed (.pcieMemRead .bar0 0 4097) = false ∧ Instr.WellFormed (.pcieMemRead .bar0 (2 ^ 64 - 1) 2) = false
    ∧ Instr.WellFormed (.pcieMemWrite .bar0 0 []) = false ∧ Instr.WellFormed (.pcieMemWrite .bar0 (2 ^ 64) [0]) = false
    ∧ Instr.WellFormed (.arpRequest [0, 0, 0, 0, 0] 0 0) = false ∧ Instr.WellFormed (.neighborSolicitation [] [] []) = false := by decide +kernel

/-- A service image longer than a part's 48 MiB. -/
theorem test_wf_service_image : Instr.WellFormed (.serviceImageBoot (List.replicate (48 * 2 ^ 20 + 1) 0)) = false := by
  simp only [Instr.WellFormed, List.length_replicate]; decide

/-- The table gives no command a word, so no word spells one. -/
theorem test_no_word_spells_a_command : decodeTableWord 32 0xFFFFFFFF = none ∧ State.reset.withFetchWord 32 1 = State.reset := ⟨rfl, rfl⟩

/-! ### Lists: states in which an instruction is at the head -/

/-- A firmware list of unit `u` runs at 0x3_0000_0000 in DRAM, and its instruction is `d`. -/
def busy (u : Nat) (d : List Byte) : State :=
  ((State.reset.setFld (unitBusy u) 1).setBytes 0x300000000 d).modUnit u
    (fun x => { x with config := 2, ctx := 0, gen := 1, base := 0x300000000, count := 1 })

/-- An instruction of 32 bytes, zero but for the bytes given. -/
def ins (m : List (Nat × Nat)) : List Byte := m.foldl (fun d p => d.set p.1 (BitVec.ofNat 8 p.2)) (List.replicate 32 0)

/-- The conditions of `State.Heads` on a state whose fetch leaves `(s.fetch u).1`. -/
def headsOk (s : State) (u op : Nat) (d : Ins) : Bool :=
  let t := (s.fetch u).1
  s.canIssue u && (s.fetch u).2 == ⟨d, false, none⟩ && (t.formReasons u d).isEmpty && t.opOf u d == op && (t.listReasons u).isEmpty && !t.breaksPass u d

theorem heads_of {s : State} {u op : Nat} {d : Ins} (h : headsOk s u op d = true) : s.Heads u op d (s.fetch u).1 := by
  simp only [headsOk, Bool.and_eq_true, List.isEmpty_iff, beq_iff_eq, Bool.not_eq_true'] at h
  obtain ⟨⟨⟨⟨⟨h1, h2⟩, h3⟩, h4⟩, h5⟩, h6⟩ := h
  exact ⟨h1, by rw [← h2], h3, h4, h5, h6⟩

theorem heads_with {s : State} {u op : Nat} {d : Ins} {p : State → Prop} (h : headsOk s u op d = true ∧ p (s.fetch u).1) :
    ∃ t, s.Heads u op d t ∧ p t := ⟨_, heads_of h.1, h.2⟩

theorem headsZ1_with {s : State} {u op : Nat} {d : Ins} {p : State → Prop}
    (h : headsOk s u op d = true ∧ (s.fetch u).1.marmer u = false ∧ p (s.fetch u).1) : ∃ t, s.HeadsZ1 u op d t ∧ p t :=
  ⟨_, ⟨heads_of h.1, h.2.1⟩, h.2.2⟩

def loadsIns : Ins := ins [(0, 1), (1, 1), (8, 1), (9, 1), (10, 1)]
def swapIns : Ins := ins [(0, 1), (1, 2)]
/-- One INT8 product: A at 0, B at 32, C (INT8) at 64. -/
def mmaIns (op : Nat) : Ins := ins [(0, 1), (1, op), (4, 1), (6, 1), (8, 1), (10, 0x11), (11, 6), (16, 1), (18, 2)]
def storeIns : Ins := ins [(0, 1), (1, 6), (6, 1), (8, 1), (10, 1), (20, 2), (12, 32)]

/-! ### Witnesses: every hypothesis of every clause of a statement holds together somewhere -/

theorem test_heads_loads : ∃ t, (busy 63 loadsIns).HeadsZ1 63 1 loadsIns t
    ∧ (loadsReasons loadsIns = [] ∧ insFlag loadsIns 2 7 = false ∧ t.mustWait 63 (loadsRegion loadsIns).ranges [] = false) :=
  headsZ1_with (by decide +kernel)

theorem test_heads_swap : ∃ t, (busy 63 swapIns).HeadsZ1 63 2 swapIns t
    ∧ (zeroAt swapIns 2 30 = true ∧ (t.anvil 63).filling = false ∧ SMap.wf t.anvils = true) :=
  headsZ1_with (by decide +kernel)

/-- The clause of SWAP for an operand byte that is not zero. -/
theorem test_heads_swap_growth : ∃ t, (busy 0 (swapIns.set 31 1)).HeadsZ1 0 2 (swapIns.set 31 1) t
    ∧ (zeroAt (swapIns.set 31 1) 2 30 = false ∧ SMap.wf t.anvils = true) :=
  headsZ1_with (by decide +kernel)

/-- The clause of SWAP for a fill that runs, and that of a SWAP that waits. -/
theorem test_heads_swap_waits :
    (∃ t, ((busy 63 swapIns).modAnvil 63 (fun x => { x with filling := true })).HeadsZ1 63 2 swapIns t
      ∧ (zeroAt swapIns 2 30 = true ∧ (t.anvil 63).filling = true))
    ∧ (((busy 63 swapIns).modAnvil 63 (fun x => { x with swapWait := true })).anvil 63).swapWait = true :=
  ⟨headsZ1_with (by decide +kernel), by decide +kernel⟩

theorem test_heads_mma_p : ∃ t, (busy 0 (mmaIns 4)).HeadsZ1 0 4 (mmaIns 4) t ∧ True := headsZ1_with (by decide +kernel)

theorem test_heads_mma : ∃ t, (busy 63 (mmaIns 3)).HeadsZ1 63 3 (mmaIns 3) t ∧
    (let ds := (t.anvil 63).pend ++ [mmaIns 3]
     t.passReasons 63 ds = []
     ∧ t.mustWait 63 (ds.flatMap (fun o => (readRegions o (t.proOf 63 o) (t.epiOf 63 o)).flatMap Region.ranges)) [] = false) :=
  headsZ1_with (by decide +kernel)

def epiIns : Ins := ins [(0, 1), (1, 5)]

theorem test_heads_epi : ∃ t, (busy 0 epiIns).HeadsZ1 0 5 epiIns t ∧ epiReasons epiIns = [] := headsZ1_with (by decide +kernel)

theorem test_heads_store : ∃ t, (busy 63 storeIns).HeadsZ1 63 6 storeIns t
    ∧ (t.storeReasons 63 storeIns = [] ∧ t.mustWait 63 (storeSrc storeIns) (storeOwn 63 storeIns) = false) :=
  headsZ1_with (by decide +kernel)

/-- 32 bytes to Anvil 1, and the same to module 1. -/
def sendIns : Ins := ins [(0, 1), (1, 7), (3, 1), (6, 1), (8, 4)]
def peerIns : Ins := ins [(0, 1), (1, 7), (2, 0x40), (3, 0x41), (6, 1), (8, 4)]

theorem test_heads_send : ∃ t, (busy 0 sendIns).HeadsZ1 0 7 sendIns t
    ∧ (t.sendReasons 0 sendIns = [] ∧ (t.anvil 0).sends.length < 32
      ∧ (let own := if !insFlag sendIns 2 6 && sendDst sendIns == 0 then [(32 * insH sendIns 8, 32 * insH sendIns 8 + sendLen sendIns)] else []
         t.mustWait 0 [(32 * insH sendIns 4, 32 * insH sendIns 4 + sendLen sendIns)] own = false)) :=
  headsZ1_with (by decide +kernel)

/-- The hypotheses of the statement about a SEND to a module without a route: no port is up after reset. -/
theorem test_heads_send_unrouted : ∃ t, (busy 63 peerIns).HeadsZ1 63 7 peerIns t
    ∧ (t.sendReasons 63 peerIns = [] ∧ (t.anvil 63).sends.length < 32 ∧ insFlag peerIns 2 6 = true
      ∧ t.mustWait 63 [(32 * insH peerIns 4, 32 * insH peerIns 4 + sendLen peerIns)] [] = false
      ∧ (let e := t.effectRecord 63 7 (insH peerIns 4) (insH peerIns 8 + 65536 * sendDst peerIns) (insH peerIns 6)
         e.isChecker 63 = false ∧ e.routeTo (insBits peerIns 3 6 2) = none
         ∧ (let x : SendSt := ⟨none, 0, nextSend (e.anvil 63).sends, insBits peerIns 10 4 4, insB peerIns 11, 1, true⟩
            let v := (e.pushSend 63 x)
            (v.anvil 63).sends.find? (v.sendReady 63) = some x))) :=
  headsZ1_with (by decide +kernel)

def scrubIns : Ins := ins [(0, 1), (1, 13), (6, 1)]

theorem test_heads_scrub : ∃ t, (busy 63 scrubIns).HeadsZ1 63 13 scrubIns t
    ∧ (insB scrubIns 2 = 0 ∧ insB scrubIns 3 = 0 ∧ zeroAt scrubIns 8 24 = true ∧ 32 * insH scrubIns 4 + scrubLen scrubIns ≤ storeBytes
      ∧ t.mustWait 63 [] [(32 * insH scrubIns 4, 32 * insH scrubIns 4 + scrubLen scrubIns)] = false ∧ (t.anvil 63).wb = []) :=
  headsZ1_with (by decide +kernel)

/-- An Anvil whose engines have something to do: a pass with one block left, a write, a STORE and a SEND on their way, a fill. -/
def working (n : Nat) (wait : Bool) : State := State.reset.modAnvil n (fun x => { x with
  passes := [⟨0, 0, [⟨mmaIns 3, [], false⟩], [], false, true, []⟩], h0 := some ⟨0, [⟨0, 0, 0, 0, 0, .zero, none, [], false⟩]⟩
  filling := true, swapWait := wait, wb := [⟨0, [(0, 1)], []⟩], stores := [⟨true, 63, false, false⟩], sends := [⟨some 1, 0, 0, 0, 0, 0, true⟩] })

theorem test_anvil_engines :
    ((working 0 false).anvil 0).filling = true ∧ ((working 0 false).anvil 0).swapWait = false
    ∧ ((working 63 true).anvil 63).filling = true ∧ ((working 63 true).anvil 63).swapWait = true
    ∧ (working 63 false).marmer 63 = false ∧ (∃ h p w g q, ((working 63 false).anvil 63).oldest = some h
      ∧ ((working 63 false).anvil 63).passes.find? (fun p => p.no == h.pass) = some p ∧ (working 63 false).await 63 p = some w
      ∧ (w.anvil 63).oldest = some g ∧ (w.anvil 63).passes.find? (fun q => q.no == p.no) = some q)
    ∧ (∃ e rest, ((working 63 false).anvil 63).wb = e :: rest) ∧ (∃ x rest, ((working 63 false).anvil 63).stores = x :: rest)
    ∧ ((working 63 false).anvil 63).sends.find? ((working 63 false).sendReady 63) = some ⟨some 1, 0, 0, 0, 0, 0, true⟩ := by
  refine ⟨?_, ?_, ?_, ?_, ?_, ⟨_, _, _, _, _, rfl, rfl, rfl, rfl, rfl⟩, ⟨_, _, rfl⟩, ⟨_, _, rfl⟩, ?_⟩ <;> decide +kernel

/-- Something is there and has a property. -/
theorem some_with {α : Type} {o : Option α} {p : α → Prop} [DecidablePred p] (h : o.any (fun x => decide (p x)) = true) : ∃ x, o = some x ∧ p x := by
  cases o with
  | none => cases h
  | some x => exact ⟨x, rfl, of_decide_eq_true h⟩

/-- Core 0 of Hearth, which the firewall lets through to every register. -/
abbrev core0 : Party := .hearth 0

/-- A register that is no pair; the low and the high word of a pair, the high one with a word captured. -/
theorem test_register_accesses :
    (Reg.ANV_CTL 63 % 4 = 0 ∧ inRegs (Reg.ANV_CTL 63) = true ∧ inRegs (unitListBase 63 + 4) = true ∧ doorbellAt (Reg.ANV_CTL 63) = none ∧ unitListBase 63 % 4 = 0 ∧ doorbellAt (unitListBase 63) = none)
    ∧ (∃ h, State.reset.liveReg (Reg.ANV_CTL 63) = some h
        ∧ (State.reset.reaches core0 (Reg.ANV_CTL 63) = true ∧ State.reset.gives core0 (Reg.ANV_CTL 63) = true ∧ h.desc.pair = false))
    ∧ (∃ h, State.reset.liveReg (unitListBase 63) = some h
        ∧ (State.reset.reaches core0 (unitListBase 63) = true ∧ State.reset.gives core0 (unitListBase 63) = true
        ∧ h.desc.pair = true ∧ h.hi = false ∧ h.blk ∉ [.hic, .fcl, .evr, .snp, .tim] ∧ h.desc.off ≠ 0x1008))
    ∧ (∃ h, State.reset.liveReg (unitListBase 63 + 4) = some h
        ∧ (doorbellAt (unitListBase 63 + 4) = none ∧ State.reset.reaches core0 (unitListBase 63 + 4) = true
        ∧ State.reset.gives core0 (unitListBase 63 + 4) = true ∧ h.desc.pair = true ∧ h.hi = true ∧ h.blk ∉ [.hic, .fcl, .evr, .snp, .hrt])) :=
  ⟨by decide +kernel, some_with (by decide +kernel), some_with (by decide +kernel), some_with (by decide +kernel)⟩

/-- The rest of the statement on high words: a word captured, or none. Accesses of another size, and off a multiple of four. -/
theorem test_wrong_accesses :
    SMap.find? ({ State.reset with capHi := [(unitListBase 63 + 4, 7)] } : State).capHi (unitListBase 63 + 4) = some 7
    ∧ SMap.find? State.reset.capHi (unitListBase 63 + 4) = none
    ∧ inRegs (Reg.ANV_CTL 63 + 2) = true ∧ State.reset.windowAllows core0 (Reg.ANV_CTL 63) true = true ∧ State.reset.windowAllows core0 (Reg.ANV_CTL 63 + 2) false = true := by
  decide +kernel

/-- Each register of the register commands is reached at both ends of its range. -/
theorem test_unit_registers :
    (∀ u ∈ [0, 77], State.reset.reaches core0 (unitBase u + 0x10) = true ∧ State.reset.flag (unitFence u) = false)
    ∧ (∀ c ∈ [0, 15], State.reset.reaches core0 (Reg.BLW_CAM_CTL c) = true ∧ State.reset.flag (Reg.BLW_CAM_CTL.FENCE c) = false)
    ∧ (∀ j ∈ [0, 7], State.reset.reaches core0 (Reg.BLW_PT_CTL j) = true ∧ State.reset.flag (Reg.BLW_PT_CTL.FENCE j) = false)
    ∧ (∀ u ∈ [0, 76], State.reset.reaches core0 (unitBase u + 0x14) = true)
    ∧ (∀ u ∈ [0, 75], State.reset.reaches core0 (unitBase u + 0x40) = true)
    ∧ (∀ n ∈ [0, 63], State.reset.reaches core0 (Reg.ANV_FUS_CTL n) = true ∧ State.reset.reaches core0 (Reg.ANV_BS_ECC n) = true)
    ∧ (∀ p ∈ [0, 3], State.reset.reaches core0 (Reg.DRW_DUP_CTL p) = true)
    ∧ (∀ u ∈ [0, 9], State.reset.reaches core0 (unitBase (68 + u) + 0xA0) = true)
    ∧ (∀ u ∈ [0, 1], State.reset.reaches core0 (Reg.PPU_DUP u) = true) := by decide +kernel

theorem test_memory_maintenance :
    State.reset.reaches core0 Reg.CRU_CTL = true
    ∧ (∀ ch ∈ [0, 7], State.reset.reaches core0 (Reg.MEM_CH_INJECT ch) = true ∧ State.reset.fld (Reg.MEM_CH_STATUS.STATE ch) ≠ 3)
    ∧ (State.reset.setFld Reg.CRU_CTL.PATROL_EN 1).flag Reg.CRU_CTL.PATROL_EN = true
    ∧ (State.reset.setFld Reg.MEM_CTL.PATROL_EN 1).flag Reg.MEM_CTL.PATROL_EN = true
    ∧ (State.reset.setFld Reg.MEM_CTL.PATROL_EN 1).fld (Reg.MEM_CH_STATUS.STATE 7) ≠ 3
    ∧ (State.reset.setFld Reg.MEM_CTL.PATROL_EN 1).fld (Reg.MEM_CH_STATUS.STATE 7) ≠ 1 ∧ State.reset.inParked = false := by decide +kernel

/-- The state after reset with fields set. -/
def fields (l : List (FRef × Nat)) : State := l.foldl (fun s f => s.setFld f.1 f.2) State.reset

/-- A source that is pending and enabled with interrupts on: `kind` 0 to core or vector `target`, 1 to the host, 2 to the gate. -/
def interrupt (src kind target : Nat) : State :=
  fields [(Reg.HIC_CTL.ENABLE, 1), (Reg.HIC_SRC_CFG.KIND src, kind), (Reg.HIC_SRC_CFG.TARGET src, target), (Reg.HIC_SRC_CFG.ENABLE src, 1),
    (Reg.HIC_SRC_CFG.PRIORITY src, 1), (Reg.HIC_SRC_STATE.COUNT src, 1)]

/-- The depot gate is on and tenant `t` has a key. -/
def depot (t : Nat) : List (FRef × Nat) :=
  [(Reg.PRC_MODE.MODE, 2), (Reg.DGT_CFG.ENABLE, 1), (Reg.HRT_CTX_STATUS.STATE t, 1), (Reg.DGT_TEN_STATUS.KEY_SET (t - 1), 1)]

theorem test_interrupts :
    (∀ k ∈ [0, 7], State.reset.gives core0 (Reg.HIC_CLAIM k) = true ∧ State.reset.reaches core0 (Reg.HIC_COMPLETE k) = true)
    ∧ State.reset.reaches core0 Reg.HIC_XCOMPLETE = true ∧ State.reset.reaches core0 Reg.HIC_SET = true
    ∧ (let s := interrupt 342 1 5
       s.flag Reg.HIC_CTL.ENABLE = true ∧ s.fld (Reg.HIC_SRC_CFG.KIND 342) = 1 ∧ s.deliverable 342 = true ∧ s.msixReady 5 = false)
    ∧ (let s : State := { (interrupt 342 1 5).setFld Reg.PCI_STATUS.LINK 2 with msix := ⟨true, false, [5], [], false, false⟩ }
       s.flag Reg.HIC_CTL.ENABLE = true ∧ s.fld (Reg.HIC_SRC_CFG.KIND 342) = 1 ∧ s.deliverable 342 = true
       ∧ s.msixReady (s.fld (Reg.HIC_SRC_CFG.TARGET 342)) = true)
    ∧ (let s := (depot 15).foldl (fun s f => s.setFld f.1 f.2) (interrupt 271 2 0)
       s.tenantOn 15 = true ∧ s.flag Reg.HIC_CTL.ENABLE = true ∧ s.fld (Reg.HIC_SRC_CFG.KIND 271) = 2 ∧ s.deliverable 271 = true
       ∧ (s.tenant 15).outbox.length < 256 ∧ 144 + 8 * 15 + 7 = 271) := by decide +kernel

/-- The hypotheses of the statement on claims: source 342 is the only one that can be delivered, and to core 6. -/
theorem test_claims :
    (interrupt 342 0 6).gives core0 (Reg.HIC_CLAIM 6) = true ∧ SMap.wf (interrupt 342 0 6).regs = true
    ∧ (interrupt 342 0 6).flag Reg.HIC_CTL.ENABLE = true ∧ (interrupt 342 0 6).shadowed 6 = false
    ∧ (interrupt 342 0 6).fld (Reg.HIC_SRC_CFG.KIND 342) = 0
    ∧ (interrupt 342 0 6).coreFor ((interrupt 342 0 6).fld (Reg.HIC_SRC_CFG.TARGET 342)) = 6
    ∧ (List.range 343).all (fun src => (interrupt 342 0 6).deliverable src == (src == 342)) = true
    ∧ State.reset.flag Reg.HIC_CTL.ENABLE = false ∧ SMap.wf State.reset.regs = true := by decide +kernel

theorem test_contexts :
    (let s := fields [(Reg.PRC_MODE.MODE, 2)]
     s.reaches core0 (Reg.HRT_CTX_CTL 15) = true ∧ s.ctxState 15 = 0 ∧ s.inDepot = true ∧ s.flag (Reg.HRT_CTX_CTL.ENABLE 15) = false)
    ∧ (let s := fields [(Reg.HRT_CTX_STATUS.STATE 15, 1)]
       s.reaches core0 (Reg.HRT_CTX_CTL 15) = true ∧ s.ctxState 15 = 1 ∧ s.flag (Reg.HRT_CTX_CTL.TEARDOWN 15) = false)
    ∧ (let s := fields [(Reg.HRT_CTX_STATUS.STATE 15, 2)]; s.ctxState 15 = 2 ∧ s.inflight 15 = 0)
    ∧ (let s := fields [(Reg.HRT_CTX_STATUS.STATE 15, 3)]; s.reaches core0 (Reg.HRT_CTX_CTL 15) = true ∧ s.ctxState 15 = 3) := by decide +kernel

/-- A comparator that has tested itself, with the lock set: nothing speaks against arming. -/
theorem test_comparison :
    (State.reset.reaches core0 Reg.SFI_CMP_CTL = true)
    ∧ (let s : State := { State.reset with cmp := { State.reset.cmp with testing := true } }; s.cmp.testing = true ∧ s.cmp.skipped = false)
    ∧ (let s := fields [(Reg.SFI_CMP_STATUS.ST_DONE, 1), (Reg.TOP_LOCK.LOCK, 1)]
       s.reaches core0 Reg.SFI_CTL = true ∧ s.armBlock = 0 ∧ s.safeInit = true ∧ SMap.wf s.regs = true) := by decide +kernel


/-- Unit 77 runs a list since strike 0 and strike 2 has fallen. -/
def hung : State := { (busy 77 (ins [(0, 1), (1, 8)])).setFld Reg.TIM_STRIKE_NUM.NUM 2 with time := { TimeSt.fresh with live := true } }

theorem test_faults :
    (State.reset.reaches core0 Reg.FCL_CLEAR = true ∧ State.reset.safeInit = true)
    ∧ (State.reset.reaches core0 Reg.FCL_INJECT = true ∧ State.reset.rd Reg.FCL_INJECT = 0)
    ∧ (State.reset.reaches core0 (Reg.FCL_CTX_N 15) = true ∧ (fields [(Reg.FCL_CTX_N.VALID 15, 1)]).flag (Reg.FCL_CTX_N.VALID 15) = true
      ∧ (fields [(Reg.FCL_CTX_N.VALID 15, 1)]).reaches core0 (Reg.FCL_CTX_N 15) = true)
    ∧ State.reset.reaches core0 Reg.FCL_HANG_KICK = true
    ∧ (∀ w ∈ [FenceUnit.unit 77, .camera 15, .point 7, .core 7], (fenceBit (fenceUnitCode w)).any (fun f =>
        State.reset.reaches core0 f.addr && State.reset.reaches core0 (f.addr + 0x40) && !State.reset.locked && State.reset.rd (f.addr + 0x40) == 0) = true)
    ∧ (knownGroup 1 = true ∧ knownGroup 0x53 = true ∧ knownGroup 0 = false)
    ∧ (let s : State := { State.reset with hearth := { HearthSt.fresh with missed := [0, 0, 0, 0, 0, 0, 15, 0] } }
       s.kicksDue 6 = true ∧ s.fld Reg.FCL_HANG_CFG.STRIKES ≤ s.hearth.missed.getD 6 0 ∧ s.hearth.hung.contains 6 = false)
    ∧ (hung.flag (unitBusy 77) = true ∧ (hung.unit 77).window = none ∧ hung.time.live = true
      ∧ 2 ≤ serialDiff 32 hung.strikeNo (hung.unit 77).startStrike)
    ∧ (fields [(chanState 35, 1)]).fld (chanState 35) = 1
    ∧ (State.reset.reaches core0 Reg.PRC_RESET = true ∧ State.reset.rd Reg.PRC_RESET = 0)
    ∧ (let s : State := { fields [(Reg.FCL_RECOVER.AUTO, 1)] with recover := ⟨[], true, 0, 0⟩ }
       s.flag Reg.FCL_RECOVER.AUTO = true ∧ s.recover.hangReset = true)
    ∧ (let s : State := { fields [(Reg.FCL_RECOVER.AUTO, 1), (Reg.SFI_STATUS.STATE, 2), (Reg.TIM_STRIKE_NUM.NUM, 255)] with
         quench := { QuenchSt.fresh with cls := 2 } }
       s.flag Reg.FCL_RECOVER.AUTO = true ∧ s.recover.hangReset = false ∧ s.quenched = true ∧ s.quench.cls = 2
       ∧ 0 ≤ serialDiff 32 s.strikeNo (s.quench.strike + s.fld Reg.FCL_RECOVER.DELAY))
    ∧ (let s := fields [(Reg.PCI_STATUS.COMPUTE_RESET, 1)]; s.flag Reg.PCI_STATUS.COMPUTE_RESET = true ∧ s.outOfService = false) := by
  decide +kernel

theorem test_recorders :
    (∀ a ∈ [Reg.FCL_LOG_WINDOW, Reg.EVR_WINDOW, Reg.SNP_WINDOW], State.reset.gives core0 a = true)
    ∧ (∀ a ∈ [Reg.SNP_DUMP, Reg.SNP_CTL, Reg.EVR_CTL], State.reset.reaches core0 a = true)
    ∧ State.reset.locked = false ∧ State.reset.inParked = false ∧ State.reset.operates = true := by decide +kernel

theorem test_control :
    (∀ a ∈ [Reg.TOP_LOCK, Reg.TOP_SEC, Reg.PRC_BOOT, Reg.PRC_MODE], State.reset.reaches core0 a = true)
    ∧ (State.reset.locked = false ∧ (8 : BitVec 4) ≠ 0)
    ∧ (State.reset.boot.service = false ∧ State.reset.boot.waiting = false)
    ∧ (SMap.wf State.reset.regs = true ∧ State.reset.inDrive = true ∧ State.reset.flag Reg.PRC_MODE.HANDOVER = false)
    ∧ (let s := fields [(Reg.PRC_MODE.MODE, 2)]; s.reaches core0 Reg.PRC_MODE = true ∧ SMap.wf s.regs = true ∧ s.inDepot = true)
    ∧ (State.reset.tenantsFree = true ∧ State.reset.fld Reg.PRC_MODE.REQ = 0)
    ∧ (fields [(Reg.PRC_MODE.POOL_SCRUB, 1)]).flag Reg.PRC_MODE.POOL_SCRUB = true := by decide +kernel

def waitIns : Ins := ins [(0, 1), (1, 8)]
/-- A WAIT for one increment of counter 15, with a time limit. -/
def waitOneIns : Ins := ins [(0, 1), (1, 8), (3, 15), (4, 1), (8, 1)]
def sigIns (op : Nat) : Ins := ins [(0, 1), (1, 9), (2, op)]
def goldIns : Ins := ins [(0, 1), (1, 10)]
def syncIns : Ins := ins [(0, 1), (1, 12), (5, 1)]

/-- `busy` with a signature window open. -/
def busySig (u : Nat) (d : Ins) : State := (busy u d).modUnit u (fun x => { x with sig := some (0, 0) })

theorem test_heads_wait : ∃ t, (busy 77 waitIns).Heads 77 ((busy 77 waitIns).sharedOp 77 8 4) waitIns t
    ∧ t.waitReasons (t.shared 77 waitIns (m2Ins 8)) = [] := heads_with (by decide +kernel)

theorem test_heads_wait_timeout :
    ∃ t, ((busy 63 waitOneIns).modUnit 63 (fun x => { x with waitFrom := some 0 })).Heads 63
        (((busy 63 waitOneIns).modUnit 63 (fun x => { x with waitFrom := some 0 })).sharedOp 63 8 4) waitOneIns t
    ∧ ((t.unit 63).waitFrom = some 0 ∧ waitTimeout (t.shared 63 waitOneIns (m2Ins 8)) ≠ 0
      ∧ t.waitMet 63 (t.shared 63 waitOneIns (m2Ins 8)) = false) := heads_with (by decide +kernel)

theorem test_heads_sig_open : ∃ t, (busy 0 (sigIns 0)).Heads 0 ((busy 0 (sigIns 0)).sharedOp 0 9 7) (sigIns 0) t
    ∧ (t.sigForm 0 (sigIns 0) 9 = (sigIns 0, false) ∧ sigGrowth (sigIns 0) = false ∧ insFlag (sigIns 0) 2 0 = false ∧ (t.unit 0).sig = none) :=
  heads_with (by decide +kernel)

theorem test_heads_sig_close : ∃ t, (busySig 77 (sigIns 1)).Heads 77 ((busySig 77 (sigIns 1)).sharedOp 77 9 7) (sigIns 1) t
    ∧ (t.sigForm 77 (sigIns 1) 9 = (sigIns 1, false) ∧ sigGrowth (sigIns 1) = false ∧ insFlag (sigIns 1) 2 0 = true
      ∧ t.openNumber 77 = some (sigWindow (sigIns 1)) ∧ t.windowDrained 77 = true) := heads_with (by decide +kernel)

theorem test_heads_gold : ∃ t, (busySig 63 goldIns).Heads 63 ((busySig 63 goldIns).sharedOp 63 10 8) goldIns t
    ∧ (t.sigForm 63 goldIns 10 = (goldIns, false) ∧ goldGrowth goldIns = false ∧ t.openNumber 63 = some (sigWindow goldIns)
      ∧ t.windowDrained 63 = true) := heads_with (by decide +kernel)

def fenceIns : Ins := ins [(0, 1), (1, 11)]

theorem test_heads_fence : ∃ t, (busy 77 fenceIns).Heads 77 11 fenceIns t ∧ (t.marmer 77 = false ∧ zeroAt fenceIns 2 30 = true) :=
  heads_with (by decide +kernel)

theorem test_heads_sync : ∃ t, (busy 0 syncIns).Heads 0 12 syncIns t ∧ (t.marmer 0 = false ∧ syncReasons syncIns = [] ∧ t.quiet 0 = true) :=
  heads_with (by decide +kernel)

/-- A unit whose list has stopped, one that is past its last instruction, and golden lists that are over; an increment on its way. -/
theorem test_list_ends :
    (let s := (busy 77 waitIns).modUnit 77 (fun x => { x with stopping := some 2 })
     s.flag (unitBusy 77) = true ∧ s.quiet 77 = true ∧ (s.unit 77).goldRun = false ∧ (s.unit 77).stopping = some 2)
    ∧ (let s := (busy 0 waitIns).setFld (unitPc 0) 1
       s.flag (unitBusy 0) = true ∧ s.quiet 0 = true ∧ (s.unit 0).goldRun = false ∧ (s.unit 0).stopping = none ∧ s.issuedAll 0 = (s, true))
    ∧ (let s := (busy 77 waitIns).modUnit 77 (fun x => { x with goldRun := true, stopping := some 0 })
       s.flag (unitBusy 77) = true ∧ s.quiet 77 = true ∧ (s.unit 77).goldRun = true ∧ (s.unit 77).stopping ≠ none ∧ (s.unit 77).goldTried = false)
    ∧ (let s := ((busy 64 waitIns).setFld (unitPc 64) 1).modUnit 64 (fun x => { x with goldRun := true, goldTried := true })
       s.flag (unitBusy 64) = true ∧ s.quiet 64 = true ∧ (s.unit 64).goldRun = true ∧ s.pc 64 = s.listCount 64 ∧ (s.unit 64).goldTried = true) := by
  decide +kernel

/-- One increment on its way to counter 15 of a unit that runs, with room and without, and of one that is idle. -/
theorem test_increments :
    (let i : Inc := ⟨255, some 77, unitCode 77, 15, 1, 0, none⟩
     let s : State := { busy 77 waitIns with incs := [i] }
     s.incs[0]? = some i ∧ i.unit = some 77 ∧ s.present 77 = true ∧ (s.unit 77).sc.length = 16 ∧ SMap.wf s.units = true
     ∧ s.flag (unitBusy 77) = true ∧ (77 % 2 = 1 ∨ s.isPaired 77 = false) ∧ (s.unit 77).sc.getD i.sc 0 + i.amount ≤ 0xFFFF)
    ∧ (let i : Inc := ⟨255, some 77, unitCode 77, 15, 0x10000, 0, none⟩
       let s : State := { busy 77 waitIns with incs := [i] }
       s.flag (unitBusy 77) = true ∧ 0xFFFF < (s.unit 77).sc.getD i.sc 0 + i.amount)
    ∧ (let i : Inc := ⟨255, some 0, unitCode 0, 0, 1, 0, none⟩
       let s : State := { State.reset with incs := [i] }
       s.present 0 = true ∧ (s.unit 0).sc.length = 16 ∧ SMap.wf s.units = true ∧ s.flag (unitBusy 0) = false) := by decide +kernel

/-- Marmer lists. The manual leaves the places of the fields of M2_LDW and M2_MAC open (`m2Ins`), so their clauses are met by a word `d` whose
fields, wherever they stand, are those of the Z1 form given; M2_OUT has no operand that matters here. -/
def busyM2 (n : Nat) (d : Ins) : State := (busy n d).modUnit n (fun x => { x with m2 := true })

theorem test_marmer :
    (let e := loadsIns.set 2 (BitVec.ofNat 8 (insB loadsIns 2 % 128))
     m2Format (insBits e 8 0 4) = true ∧ loadsReasons e = [] ∧ insFlag e 2 7 = false ∧ (busyM2 63 loadsIns).mustWait 63 (loadsRegion e).ranges [] = false)
    ∧ (∃ t, (busyM2 63 ((ins [(0, 1)]).take 16)).Heads 63 1 ((ins [(0, 1)]).take 16) t ∧ t.marmer 63 = true)
    ∧ (∃ t, (busyM2 0 ((ins [(0, 2)]).take 16)).Heads 0 2 ((ins [(0, 2)]).take 16) t ∧ (t.marmer 0 = true ∧ insB ((ins [(0, 2)]).take 16) 0 = 2))
    ∧ ((busyM2 63 []).marmer 63 = true ∧ ((busyM2 63 []).anvil 63).passes = []) :=
  ⟨by decide +kernel, heads_with (by decide +kernel), heads_with (by decide +kernel), by decide +kernel⟩

/-! Draw pipes, Swages, post-processing units: an instruction at the head, its block at 0x3_0000_1000 and data behind it. -/

/-- Bytes at an address of 0x3_0000_0000 on. -/
def blockIns (op : Nat) : Ins := ins [(0, 1), (1, op), (9, 0x10), (12, 3)]
def block (m : List (Nat × Nat)) : List Byte := m.foldl (fun d p => d.set p.1 (BitVec.ofNat 8 p.2)) (List.replicate 128 0)
/-- The bytes of 0x3_0000_0000 + `k` × 0x1000 as a 5-byte field at `i`. -/
def at5 (i k : Nat) : List (Nat × Nat) := [(i + 1, 16 * k), (i + 4, 3)]
def busyBlock (u op : Nat) (b : List Byte) (data : List (Nat × List Byte)) : State :=
  data.foldl (fun s p => s.setBytes (0x300000000 + 0x1000 * p.1) p.2) ((busy u (blockIns op)).setBytes 0x300001000 b)

/-- A page entry: filled rows, K at page 5, V at page 6. -/
def entryBytes (fill : Nat) : List Byte := [1, 1, BitVec.ofNat 8 fill, 0, 0, 0x50, 0, 0, 3, 0, 0x60, 0, 0, 3, 0, 0]

/-- One query row of 32 E4M3 elements over one cached slot. -/
def attnBlock : List Byte :=
  block ([(0, 1), (1, 1), (2, 0x22), (3, 0x22), (6, 1), (7, 1), (8, 1), (9, 4), (12, 1), (24, 1), (26, 1)] ++ at5 32 2 ++ at5 40 3 ++ at5 48 4)

/-- The premises of the clause of ATTN on the state `t` after the fetch. -/
def attnPremises (t : State) (u : Nat) (d : Ins) : Bool :=
  let (q, b) := t.blockFetch u d
  let (p1, pos) := if atPos b = 0 then (q, []) else q.read u (atPos b) (4 * atTokens b)
  let (p2, masks) := if atTree b then p1.read u (atTreeAddr b) (8 * atTokens b) else (p1, [])
  let (p3, es) := p2.entries u (atPmap b) 0 (ceilDiv (atL b + atC b) (2 ^ atPage b))
  let (p4, _) := if atSegment b then p3.read u (atSegQ b) (2 * atTokens b) else (p3, [])
  let (p5, _) := if atSegment b then p4.read u (atSegK b) (2 * atL b) else (p4, [])
  let (p6, _) := p5.attnRead u b pos es (insFlag d 2 7)
  !b.isEmpty && (blockWord u d 0x80 ++ blockHead b 1 ++ attnReasons t u b pos masks).isEmpty && !p2.stop
    && es.zipIdx.all (fun e =>
      let need := min (2 ^ atPage b) (atL b + atC b - e.2 * 2 ^ atPage b)
      (entryReasons u e.1 (e.1.fill < need) need (cacheRow (atFmtK b) (atDim b)) (cacheRow (atFmtV b) (atDim b))).isEmpty)
    && !p3.stop && !p6.stop

theorem test_heads_attn : ∃ t, (busyBlock 67 0x20 attnBlock [(4, entryBytes 1)]).Heads 67 0x20 (blockIns 0x20) t
    ∧ attnPremises t 67 (blockIns 0x20) = true := heads_with (by decide +kernel)

/-- One token appended to an empty page. -/
def kvBlock : List Byte :=
  block ([(0, 1), (1, 2), (2, 0x22), (3, 0x22), (6, 1), (8, 1), (9, 4), (16, 1), (18, 1)] ++ at5 32 2 ++ at5 40 3 ++ at5 48 4)

/-- The premises of the clause of KVAPPEND. -/
def kvPremises (t : State) (u : Nat) (d : Ins) : Bool :=
  let (q, b) := t.blockFetch u d
  let (p1, pos) := if atPos b = 0 || !kvRope b then (q, []) else q.read u (atPos b) (4 * atTokens b)
  let (p2, es) := p1.entries u (atPmap b) (kvS0 b / 2 ^ atPage b)
    ((kvS0 b + atTokens b - 1) / 2 ^ atPage b + 1 - kvS0 b / 2 ^ atPage b)
  let (p3, kr) := p2.rows u (rowBytes (kvFmtKs b) (atDim b)) ((List.range (atTokens b)).map (fun i => kvKSrc b + i * kvKStride b))
  let (p4, _) := p3.rows u (rowBytes (kvFmtVs b) (atDim b)) ((List.range (atTokens b)).map (fun i => kvVSrc b + i * kvVStride b))
  let (p5, _) := kr.zipIdx.foldl (fun (acc : Pull × List (List Machine.Num)) e =>
    let (p, x) := acc.1.kvRow u b (kvRope b) (kvPos b pos e.2) (valuesOf (kvFmtKs b) (atDim b) e.1)
    (p, acc.2 ++ [x])) (p4, [])
  !b.isEmpty && (blockWord u d 0 ++ blockHead b 2 ++ kvReasons b pos).isEmpty && !p1.stop && !t.kvConfig u b
    && es.zipIdx.all (fun e => (entryReasons u e.1 (e.1.fill != (if e.2 = 0 then kvS0 b % 2 ^ atPage b else 0))
        (min (2 ^ atPage b) (kvS0 b + atTokens b - (kvS0 b / 2 ^ atPage b + e.2) * 2 ^ atPage b))
        (cacheRow (kvFmtK b) (atDim b)) (cacheRow (kvFmtV b) (atDim b))).isEmpty)
    && !p2.stop && !p5.stop

theorem test_heads_kvappend : ∃ t, (busyBlock 64 0x21 kvBlock [(4, entryBytes 0)]).Heads 64 0x21 (blockIns 0x21) t
    ∧ kvPremises t 64 (blockIns 0x21) = true := heads_with (by decide +kernel)

/-- Two candidates after one slot, of which the second is accepted and moves to the place of the first. -/
def rbBlock : List Byte :=
  block ([(0, 1), (1, 3), (2, 0x22), (8, 1), (9, 4), (11, 2), (12, 1)] ++ at5 32 4 ++ at5 40 2 ++ at5 48 3)

/-- The premises of the clause of ROLLBACK. -/
def rbPremises (t : State) (u : Nat) (d : Ins) : Bool :=
  let (q, b) := t.blockFetch u d
  let (p1, r) := q.read u (rbAccept b) 96
  let (p2, es) := p1.entries u (rbPmap b) (rbFirst b) (rbPages b)
  !b.isEmpty && (blockWord u d 0 ++ blockHead b 3 ++ rbReasons b).isEmpty && !q.stop && !t.safetyWork u && (recReasons r (atC b)).isEmpty && !p1.stop && !p2.stop
    && !(rbMoves b r).isEmpty && ((rbMoves b r).flatMap (fun m => [m.1, m.2])).all (fun m =>
      cachePlace u (slotRows b es m).1 (cacheRow (rbFmtK b) (atDim b)) && cachePlace u (slotRows b es m).2 (cacheRow (rbFmtV b) (atDim b)))

theorem test_heads_rollback : ∃ t, (busyBlock 67 0x22 rbBlock [(4, entryBytes 3), (2, [1, 1, 0, 0, 0, 0, 0, 0, 1])]).Heads 67 0x22 (blockIns 0x22) t
    ∧ rbPremises t 67 (blockIns 0x22) = true := heads_with (by decide +kernel)

/-- An INT8 tensor of one element at `k` pages behind 0x3_0000_0000. -/
def tensor1 (i k : Nat) : List (Nat × Nat) := at5 i k ++ [(i + 5, 0x10), (i + 6, 1), (i + 8, 1), (i + 10, 1), (i + 12, 1), (i + 14, 1)]
/-- A pair table there: its descriptor is present, FP32. -/
def table1 (i k : Nat) : List (Nat × Nat) := at5 i k ++ [(i + 5, 0x60), (i + 6, 1), (i + 8, 1), (i + 10, 1), (i + 12, 1), (i + 14, 1)]

def eltBlock : List Byte := block ([(0, 1), (1, 0x40)] ++ tensor1 16 2 ++ tensor1 64 3)
def normBlock : List Byte := block ([(0, 1), (1, 0x41)] ++ tensor1 16 2 ++ table1 32 4 ++ tensor1 64 3)
def redBlock : List Byte := block ([(0, 1), (1, 0x42)] ++ tensor1 16 2 ++ tensor1 64 3)
def winBlock : List Byte :=
  block ([(0, 1), (1, 0x43), (4, 1), (5, 1), (6, 0x11), (7, 0x11), (10, 1), (12, 1), (14, 1)] ++ tensor1 16 2 ++ tensor1 32 4 ++ tensor1 64 3)
def acBlock : List Byte :=
  block ([(0, 1), (1, 0x44), (4, 1), (5, 4), (8, 2), (12, 1)] ++ at5 16 2 ++ at5 24 3 ++ at5 32 4 ++ at5 40 5 ++ at5 48 6)

/-- The block is fetched, the instruction word is legal, and a block has no refusal reason. -/
def vecPremises (t : State) (u : Nat) (d : Ins) (reasons : List Byte → List Nat) : Bool :=
  let (_, b) := t.blockFetch u d
  !b.isEmpty && (blockWord u d 0).isEmpty && (reasons b).isEmpty


theorem test_heads_elt : ∃ t, (busyBlock 75 0x40 eltBlock []).Heads 75 0x40 (blockIns 0x40) t ∧ vecPremises t 75 (blockIns 0x40) eltReasons = true :=
  heads_with (by decide +kernel)
theorem test_heads_norm : ∃ t, (busyBlock 68 0x41 normBlock []).Heads 68 0x41 (blockIns 0x41) t ∧ vecPremises t 68 (blockIns 0x41) normReasons = true :=
  heads_with (by decide +kernel)
theorem test_heads_red : ∃ t, (busyBlock 75 0x42 redBlock []).Heads 75 0x42 (blockIns 0x42) t ∧ vecPremises t 75 (blockIns 0x42) redReasons = true :=
  heads_with (by decide +kernel)
theorem test_heads_win : ∃ t, (busyBlock 68 0x43 winBlock []).Heads 68 0x43 (blockIns 0x43) t ∧ vecPremises t 68 (blockIns 0x43) winReasons = true :=
  heads_with (by decide +kernel)
/-- ACCEPT with one candidate, a child of the prior. -/
theorem test_heads_accept : ∃ t, (busyBlock 75 0x44 acBlock [(3, [0xFF])]).Heads 75 0x44 (blockIns 0x44) t
    ∧ (vecPremises t 75 (blockIns 0x44) acReasons = true ∧ t.safetyWork 75 = false
      ∧ (let q := (t.blockFetch 75 (blockIns 0x44)).1
         let p1 := (q.read 75 (acTok acBlock) (4 * acC acBlock)).1
         ∀ i < acC acBlock, fieldAt (p1.read 75 (acPar acBlock) (acC acBlock)).2 i 1 = 0xFF
           ∨ fieldAt (p1.read 75 (acPar acBlock) (acC acBlock)).2 i 1 < i)) := heads_with (by decide +kernel)

def dtBlock : List Byte :=
  block ([(0, 1), (1, 0x50), (3, 0x44), (4, 1), (6, 1), (8, 1), (10, 4), (14, 0x80), (15, 0x3F)] ++ at5 48 2 ++ at5 56 3 ++ at5 64 4 ++ at5 72 5)
theorem test_heads_detect : ∃ t, (busyBlock 77 0x50 dtBlock []).Heads 77 0x50 (blockIns 0x50) t
    ∧ (let b := (t.blockFetch 77 (blockIns 0x50)).2
       b ≠ [] ∧ blockWord 77 (blockIns 0x50) 0 ++ dtReasons b = []) := heads_with (by decide +kernel)

/-! Movers -/

/-- A descriptor of 64 bytes, zero but for the bytes given. -/
def desc (m : List (Nat × Nat)) : List Byte := m.foldl (fun d p => d.set p.1 (BitVec.ofNat 8 p.2)) (List.replicate 64 0)

/-- Channel `n` holds a descriptor that a submission queue gave it, and its engine runs. -/
def channel (n : Nat) (d : List Byte) : State :=
  (fields [(Reg.TNG_CTL.ENABLE, 1), (Reg.BLW_CTL.ENABLE, 1)]).setChan n { ChanSt.idle with desc := d }

/-- One row of 32 bytes from 0x3_0000_0000 to 0x3_0000_1000. -/
def tongsIns (op : Nat) : List Byte :=
  desc [(0, 1), (1, op), (2, if op = 1 then 0x10 else if op = 4 ∨ op = 5 then 0x20 else 0), (12, 3), (17, 0x10), (20, 3), (24, if op = 2 then 1 else 32), (28, 1), (30, 1), (49, 0x20), (52, 3)]


theorem test_tongs :
    (∀ o ∈ [1, 2, 3, 4, 5], ((channel 31 (tongsIns o)).chanTake 31 = (channel 31 (tongsIns o), some (tongsIns o, false)))
      ∧ fieldAt (tongsIns o) 1 1 = o ∧ ((channel 31 (tongsIns o)).chan 31).started = false
      ∧ tongsRefusal (mapRanges State.reset.rawTop) (tongsIns o) [(0, false, false)] false = none
      ∧ tongsRefusal (mapRanges State.reset.rawTop) ((tongsIns o).set 63 1) [] false = some 0x03)
    ∧ (let s := (channel 31 (tongsIns 1)).setChan 31 { ChanSt.idle with desc := tongsIns 1, started := true }
       s.chanTake 31 = (s, some (tongsIns 1, false)) ∧ (s.chan 31).started = true ∧ (s.chan 31).moved = false)
    ∧ (let s := (channel 0 (tongsIns 1)).setChan 0 { ChanSt.idle with desc := tongsIns 1, moved := true }
       (s.chan 0).desc ≠ [] ∧ ((s.chan 0).moved || (s.chan 0).aborted) = true)
    ∧ (∀ ch ∈ [0, 31], State.reset.reaches core0 (Reg.TNG_CH_TAIL ch) = true ∧ State.reset.reaches core0 (Reg.TNG_CH_CTL ch) = true
      ∧ State.reset.flag (Reg.TNG_CH_CTL.ABORT ch) = false
      ∧ (1 + 65536 - State.reset.fld (Reg.TNG_CH_HEAD.HEAD ch)) % 65536 ≤ 2 ^ State.reset.fld (Reg.TNG_CH_RING_SIZE.LOG2 ch) - 1) := by
  decide +kernel

/-- At most one record from 0x3_0000_0000, with a schema of no field at 0x3_0000_1000. -/
def recordIns : List Byte :=
  desc [(0, 1), (1, 1), (12, 3), (16, 1), (20, 1), (25, 0x10), (28, 3), (33, 0x20), (36, 3), (41, 0x30), (44, 3)]

theorem test_record :
    ((channel 35 recordIns).chanTake 35 = (channel 35 recordIns, some (recordIns, false)))
    ∧ (let s := (channel 35 recordIns).chanRunning 35 true
       let ranges := mapRanges s.rawTop
       let u := s.read (s.chanReq 35) (RDesc.ofBytes recordIns).schema 128
       let v := u.1.read (s.chanReq 35) (RDesc.ofBytes recordIns).outTab 256
       recordRefusal ranges recordIns [] [] false = none ∧ recordRefusal ranges recordIns u.2.bytes v.2.bytes (u.2.bad || v.2.bad) = none
       ∧ recordRefusal ranges (recordIns.set 20 0) [] [] false = some 0x30
       ∧ recordRefusal ranges (recordIns.set 20 0) u.2.bytes v.2.bytes (u.2.bad || v.2.bad) = some 0x30
       ∧ recordRefusal ranges (recordIns.set 1 2) [] [] false = some 0x02)
    ∧ (channel 32 (recordIns.set 1 2)).chanTake 32 = (channel 32 (recordIns.set 1 2), some (recordIns.set 1 2, false))
    ∧ (let s := (channel 32 recordIns).setChan 32 { ChanSt.idle with desc := recordIns, aborted := true }
       (s.chan 32).desc ≠ [] ∧ ((s.chan 32).moved || (s.chan 32).aborted) = true)
    ∧ (∀ r ∈ [0, 3], State.reset.reaches core0 (Reg.BLW_REC_TAIL r) = true ∧ State.reset.reaches core0 (Reg.BLW_REC_CTL r) = true
      ∧ State.reset.flag (Reg.BLW_REC_CTL.ABORT r) = false
      ∧ (1 + 65536 - State.reset.fld (Reg.BLW_REC_HEAD.HEAD r)) % 65536 ≤ 2 ^ State.reset.fld (Reg.BLW_REC_RING_SIZE.LOG2 r) - 1) := by
  decide +kernel

/-- Bellows runs, and its stream `k` receives. -/
def intake (k : Nat) : State := fields [(Reg.BLW_CTL.ENABLE, 1), (streamEnable k, 1)]

/-- A short packet of type `dt`; with `dt` RAW, a long one without payload. -/
def packet (dt : Nat) : CamPacket := ⟨0, dt, 1, [], .clean, true, .clean⟩

/-- A frame in progress. -/
def frame0 (lines : List (List Byte)) (faulty : Bool) : OpenFrame := ⟨0, 1, 0, faulty, [], [], [], lines, 0⟩

/-- A template of one point of one byte on port 7. -/
def template : List Byte := [1, 0, 7, 0, 0, 0, 1, 0, 1] ++ List.replicate 87 0

/-- Camera 15 with that frame in progress. -/
def framed (lines : List (List Byte)) (faulty : Bool) : State := (intake 15).modStream 15 (fun x => { x with frame := some (frame0 lines faulty) })

theorem test_camera :
    (intake 15).Receives 15 (packet 0) 0 (intake 15)
    ∧ ((framed [] false).Receives 15 (packet ((framed [] false).camGeo 15).dt) ((framed [] false).camGeo 15).dt (framed [] false)
      ∧ ((framed [] false).stream 15).frame = some (frame0 [] false))
    ∧ (∀ faulty, (framed [] faulty).Receives 15 (packet 1) 1 (framed [] faulty)
      ∧ (frame0 [] faulty).lines.length ≠ (framed [] faulty).fld (Reg.BLW_CAM_SIZE.HEIGHT 15))
    ∧ (∀ faulty, (framed (List.replicate 16 []) faulty).Receives 15 (packet 1) 1 (framed (List.replicate 16 []) faulty)
      ∧ (frame0 (List.replicate 16 []) faulty).lines.length = (framed (List.replicate 16 []) faulty).fld (Reg.BLW_CAM_SIZE.HEIGHT 15)
      ∧ (frame0 (List.replicate 16 []) faulty).faulty = faulty) := by
  refine ⟨⟨?_, rfl, ?_, rfl, rfl⟩, ⟨⟨?_, rfl, ?_, rfl, rfl⟩, ?_⟩, fun f => ⟨⟨?_, rfl, ?_, rfl, rfl⟩, ?_⟩, fun f => ⟨⟨?_, rfl, ?_, rfl, rfl⟩, ?_, rfl⟩⟩
    <;> first | (cases f <;> decide +kernel) | decide +kernel

theorem test_intake :
    (let s := (intake 0).modStream 0 (fun x => { x with ended := [⟨0, 1, 0, 0, false, false⟩] })
     (s.stream 0).ended = ⟨0, 1, 0, 0, false, false⟩ :: [])
    ∧ (let s := (intake 23).modStream 23 (fun x => { x with tmpl := template, sweep := some ⟨0, 0x300000000, 1, 0, 0, 0, 0⟩ })
       s.streamOn 23 = true ∧ (s.stream 23).tmpl ≠ [] ∧ tmplPort (s.stream 23).tmpl = 7 ∧ (s.stream 23).sweep ≠ none)
    ∧ (let s := ((intake 16).modStream 16 (fun x => { x with tmpl := template })).setBytes ((intake 16).rd64 (Reg.BLW_PT_TMPL_LO 0)) template
       s.streamOn 16 = true ∧ (s.stream 16).tmpl ≠ [] ∧ tmplPort (s.stream 16).tmpl = 7 ∧ (s.stream 16).sweep = none
       ∧ (s.readTemplate 0).2 = true ∧ tmplPort ((s.readTemplate 0).1.stream 16).tmpl = 7)
    ∧ (let s : State := { (intake 16).modStream 16 (fun x => { x with tmpl := template }) with time := { TimeSt.fresh with live := true } }
       let s := s.setBytes (s.rd64 (Reg.BLW_PT_TMPL_LO 0)) template
       s.flag (Reg.BLW_PT_CTL.MODE 0) = false ∧ 0 ≤ s.strikeTime ∧ (s.stream 16).sweep = none ∧ (s.stream 16).closed = none
       ∧ (s.readTemplate 0).2 = true ∧ tmplPort ((s.readTemplate 0).1.stream 16).tmpl = 7)
    ∧ (let s : State := { (intake 23).modStream 23 (fun x => { x with tmpl := template, closed := some ⟨0, 0x300000000, 1, 0, 0, 0, 0⟩ }) with
         time := { TimeSt.fresh with live := true } }
       s.flag (Reg.BLW_PT_CTL.MODE 7) = false ∧ 0 ≤ s.strikeTime ∧ (s.stream 23).sweep = none ∧ (s.stream 23).closed ≠ none ∧ SMap.wf s.intake = true)
    ∧ (let s := (intake 23).modStream 23 (fun x => { x with ended := [⟨0, 1, 0, 0, false, false⟩] })
       (s.stream 23).ended = ⟨0, 1, 0, 0, false, false⟩ :: [])
    ∧ (let s : State := { intake 0 with ftab := some (1, 0) }; s.ftab = some (1, 0) ∧ s.bellowsOn = true)
    ∧ (let s := ((intake 15).setFld Reg.BLW_GOLD_CTL.EN 1).modStream 15 (fun x => { x with goldDue := true })
       s.streamOn 15 = true ∧ s.goldWaits 15 = true) := by
  decide +kernel

/-! Rings and jobs -/

/-- Ring 7 of context 0 holds the descriptor `d`. -/
def ring (d : List Byte) : State :=
  ((fields [(Reg.HRT_CTL.ENABLE, 1), (Reg.HRT_SQ_CFG.ENABLE 0 7, 1), (Reg.HRT_SQ_CFG.LOG2 0 7, 4), (Reg.HRT_SQ_IDX.TAIL 0 7, 1)]).wr64
    (Reg.HRT_SQ_BASE_LO 0 7) 0x300000000).setBytes 0x300000000 d

/-- The conditions of `State.Takes`. -/
def takesOk (s : State) (c r op : Nat) (d : List Byte) : Bool :=
  s.fetches c r && (s.readDesc c r).2 == ⟨d, false, none⟩ && fieldAt d 1 1 == op && (s.readDesc c r).1.descCheck c d == none
    && !(bitAt (fieldAt d 2 2) 2 && s.jobs.any (fun j => j.ctx == c && j.ring == r))

theorem takes_of {s : State} {c r op : Nat} {d : List Byte} (h : takesOk s c r op d = true) :
    s.Takes c r op d ((s.readDesc c r).1.advanceHead c r) := by
  simp only [takesOk, Bool.and_eq_true, beq_iff_eq, Bool.not_eq_true'] at h
  obtain ⟨⟨⟨⟨h1, h2⟩, h3⟩, h4⟩, h5⟩ := h
  exact ⟨h1, by rw [← h2], h3, h4, h5, rfl⟩

theorem takes_with {s : State} {c r op : Nat} {d : List Byte} {p : State → Prop}
    (h : takesOk s c r op d = true ∧ p ((s.readDesc c r).1.advanceHead c r)) : ∃ t, s.Takes c r op d t ∧ p t := ⟨_, takes_of h.1, h.2⟩

def nopDesc : List Byte := desc [(0, 1)]
/-- A descriptor with handle 1 of context 0's first generation; configuration SUPERVISED. -/
def graphDesc (op : Nat) : List Byte := desc [(0, 1), (1, op), (8, 1), (14, 1), (36, if op = 1 then 1 else 0)]
/-- A descriptor with INPUT at 0x3_0000_1000. -/
def inputDesc (op : Nat) : List Byte := desc [(0, 1), (1, op), (17, 0x10), (20, 3), (25, 0x20), (28, 3)]
/-- An image of 64 bytes: one list of Anvil 63 of one instruction, which it asks to pin, and result 0. -/
def image0 : GraphImage := ⟨64, [⟨63, false, 0, 1, 1⟩], [], [0], [(1, 1)], 0, [2], [[63]]⟩
def loaded (op : Nat) : State := { ring (graphDesc op) with models := [⟨0x0001000000000001, 0x40000000, image0, [], [], false⟩] }

theorem test_takes_nop : ∃ t, (ring nopDesc).Takes 0 7 0 nopDesc t ∧ True := takes_with (by decide +kernel)
theorem test_takes_run_graph : ∃ t, (loaded 1).Takes 0 7 1 (graphDesc 1) t ∧ True := takes_with (by decide +kernel)
theorem test_takes_unload : ∃ t, (loaded 3).Takes 0 7 3 (graphDesc 3) t ∧ True := takes_with (by decide +kernel)

/-- LOAD_MODEL: the ring's memory, and at INPUT an image whose instruction is `d`. Anvil 63 is enabled. -/
def loading (d : List Byte) : State := ((ring (inputDesc 2)).setFld (unitEnable 63) 1).setBytes 0x300001000 d

/-- An image that is accepted and one that is refused, VERSION in its first instruction. -/
theorem test_takes_load_model :
    (∃ t, (loading swapIns).Takes 0 7 2 (inputDesc 2) t
      ∧ (let x := t.read (t.req 0x60 0) (fieldAt (inputDesc 2) 16 5) image0.bytes
         let v := x.1.loadRefused image0 x.2.bytes
         let p := v.1.placeImage 0 0x40000000 x.2.bytes
         x.2.bad = false ∧ v.2 = none ∧ v.1.modelBase 0 0x300001000 image0 = some 0x40000000
         ∧ v.1.noRoom 0 image0 (graphPins image0 0x40000000 x.2.bytes) = false ∧ p.2 = none))
    ∧ (∃ t, (loading []).Takes 0 7 2 (inputDesc 2) t
      ∧ (let x := t.read (t.req 0x60 0) (fieldAt (inputDesc 2) 16 5) image0.bytes
         x.2.bad = false ∧ (x.1.loadRefused image0 x.2.bytes).2 = some (0, 63, 0, 0, 1))) :=
  ⟨takes_with (by decide +kernel), takes_with (by decide +kernel)⟩

/-- LOAD_MODEL with no serial left; of an image longer than the region; with the image poisoned. -/
theorem test_load_model_fails :
    (∃ t, ({ loading swapIns with serials := [(0, 0xFFFFFFFF)] } : State).Takes 0 7 2 (inputDesc 2) t
      ∧ (let x := t.read (t.req 0x60 0) (fieldAt (inputDesc 2) 16 5) image0.bytes
         let v := x.1.loadRefused image0 x.2.bytes
         x.2.bad = false ∧ v.2 = none ∧ v.1.modelBase 0 0x300001000 image0 = some 0x40000000
         ∧ v.1.noRoom 0 image0 (graphPins image0 0x40000000 x.2.bytes) = true))
    ∧ State.reset.modelBase 0 0 ⟨0x200000001, [], [], [], [], 0, [], []⟩ = none
    ∧ (∃ t, ({ loading swapIns with poison := [0x300001000 / 32] } : State).Takes 0 7 2 (inputDesc 2) t
      ∧ (t.read (t.req 0x60 0) (fieldAt (inputDesc 2) 16 5) image0.bytes).2.bad = true) :=
  ⟨takes_with (by decide +kernel), by decide +kernel, takes_with (by decide +kernel)⟩

theorem test_takes_copy : ∃ t, ((ring (inputDesc 4)).setFld Reg.TNG_CTL.ENABLE 1).Takes 0 7 4 (inputDesc 4) t
    ∧ (let s := (ring (inputDesc 4)).setFld Reg.TNG_CTL.ENABLE 1
       s.fld (chanCtx 31) = 0 ∧ (s.chan 31).desc = [] ∧ s.engineOn 31 = true
       ∧ (let v := t.setFld (chanGen 31) (t.gen 0); (v.read (v.chanReq 31) (fieldAt (inputDesc 4) 16 5) 64 false).2.bad = false)) :=
  takes_with (by decide +kernel)

theorem test_takes_fence : ∃ t, (ring (nopDesc.set 1 5)).Takes 0 7 5 (nopDesc.set 1 5) t ∧ True := takes_with (by decide +kernel)
theorem test_takes_barrier : ∃ t, (ring (nopDesc.set 1 6)).Takes 0 7 6 (nopDesc.set 1 6) t ∧ (ring (nopDesc.set 1 6)).jobs = [] :=
  takes_with (by decide +kernel)

theorem test_descriptor_read_error :
    (let s : State := { ring nopDesc with poison := [0x18000000] }; s.fetches 0 7 = true ∧ (s.readDesc 0 7).2.bad = true) := by decide +kernel

/-- A strike-bound job on Anvil 0 with a deadline of 1 strike, launched at strike 0. -/
def job1 : Job :=
  { State.reset.jobOf 0 0 [] (.runGraph 1) with
    id := 1, config := 2, immediate := false, dlUs := false, deadline := 1, units := [0], launchStrike := some 0 }

def cqRec0 : CqRec := ⟨0, 0, 0, 0, some 0, 0, 0, 0, 0, 0, 0, 0, false, false, 1⟩

theorem test_rings :
    (State.reset.partyOn core0 = true ∧ State.reset.mayRing core0 15 = true
      ∧ State.reset.partyOn .jtag = true ∧ State.reset.mayRing .jtag 0 = false ∧ State.reset.inParked = false)
    ∧ (State.reset.partyOn (.gate 1) = false)
    ∧ (let s : State := { fields [(Reg.HRT_CQ_CFG.ENABLE 15 7, 1), (Reg.HRT_CQ_CFG.LOG2 15 7, 4)] with waiting := [(127, [cqRec0])] }
       s.waitingOf 15 7 = cqRec0 :: [] ∧ s.cqReady 15 7 = true)
    ∧ (let s : State := { fields [(Reg.HRT_CQ_MOD.TIME_US 15 7, 1)] with moder := [(127, ⟨1, 0⟩)] }
       s.fld (Reg.HRT_CQ_MOD.TIME_US 15 7) ≠ 0 ∧ (s.moderOf 15 7).u ≠ 0)
    ∧ (let s : State := { fields [(Reg.TIM_STRIKE_NUM.NUM, 1)] with jobs := [job1] }
       s.jobById 1 = some job1 ∧ s.deadlineDue job1 = true) := by decide +kernel

/-! Time, strikes, the island, Hearth -/

/-- gPTP runs with port 0 a slave and port 1 a master. -/
def gptp : State := fields [(Reg.TIM_GPTP_CTL.ENABLE, 1), (Reg.TIM_GPTP_CTL.PORT0_ROLE, 1), (Reg.TIM_GPTP_CTL.PORT1_ROLE, 2)]
def sync7 : SyncMsg := ⟨0, 7, true, 0, 0, 0⟩

theorem test_time_protocol :
    (gptp.gptpOn = true ∧ gptp.portRole 0 = 1 ∧ gptp.portRole 1 ≠ 0 ∧ gptp.portRole 1 ≠ 1)
    ∧ (let s := gptp.modTime (fun t => { t with twoStep := SMap.insert t.twoStep 0 ⟨sync7, 0, 0⟩ })
       s.gptpOn = true ∧ s.portRole 0 = 1 ∧ sync7.domain = 0 ∧ SMap.find? s.time.twoStep 0 = some ⟨sync7, 0, 0⟩ ∧ sync7.seq = 7)
    ∧ (let s := fields [(Reg.TIM_GPTP_CTL.ENABLE, 1), (Reg.TIM_GPTP_CTL.GM, 1), (Reg.TIM_GPTP_CTL.PORT0_ROLE, 2)]
       s.gptpOn = true ∧ s.flag Reg.TIM_GPTP_CTL.GM = true)
    ∧ (gptp.setFld Reg.TIM_GPTP_STATUS.STATE 2).gptpOn = true ∧ (gptp.setFld Reg.TIM_GPTP_STATUS.STATE 2).fld Reg.TIM_GPTP_STATUS.STATE = 2 := by
  decide +kernel

/-- Strikes run, one has fallen and the next is due in one period. -/
def striking (l : List (FRef × Nat)) : State :=
  { fields ((Reg.TIM_STRIKE_CTL.RUN, 1) :: l) with time := { TimeSt.fresh with live := true, next := some (ofNs 33333000), nextNum := 1 } }

theorem test_strikes :
    (State.reset.reaches core0 Reg.TIM_STRIKE_CTL = true ∧ State.reset.flag Reg.TIM_STRIKE_CTL.RUN = false)
    ∧ ((striking []).reaches core0 Reg.TIM_STRIKE_CTL = true ∧ (striking []).flag Reg.TIM_STRIKE_CTL.RUN = true)
    ∧ (striking []).strikeDue = some (ofNs 33333000)
    ∧ (let s := striking [(Reg.TIM_ST_CTRL.VALID 0 127, 1)]; s.entryReady 127 = true ∧ s.inParked = false)
    ∧ (let s : State := { striking [] with winForce := [((Reg.SFI_WIN_CTRL.VALID 31).addr, 0xFFFFFFFF)] }
       s.openStages.contains 31 = true ∧ s.winFld (Reg.SFI_WIN_CLOSE.NS 31) < s.periodNs)
    ∧ ({ striking [] with ageDue := some 1 } : State).ageDue = some 1 := by decide +kernel

def mark0 : MarkMsg := ⟨0, 0, 0, 0, false⟩

theorem test_marks :
    (let s := striking [(Reg.TIM_BAR_CTL.ROLE, 1)]
     let k := (s.now - s.time.strikeAt) / ofNs 1000000 + 1
     s.barRole = 1 ∧ s.time.live = true ∧ s.time.strikeAt + k * ofNs 1000000 < s.time.next.getD 0)
    ∧ (let s := striking [(Reg.TIM_BAR_CTL.ROLE, 2), (Reg.TIM_BAR_CTL.PORT, 3)]
       s.barRole = 2 ∧ s.fld Reg.TIM_BAR_CTL.PORT = 3 ∧ s.flag Reg.TIM_STRIKE_CTL.RUN = true ∧ s.inParked = false)
    ∧ (fields [(Reg.TIM_BAR_STATUS.STATE, 2)]).fld Reg.TIM_BAR_STATUS.STATE = 2
    ∧ (fields [(Reg.TIM_BAR_STATUS.STATE, 3)]).fld Reg.TIM_BAR_STATUS.STATE = 3 := by decide +kernel

/-- Ember is enabled in this strike. -/
def ember : State := { striking [] with embForce := [(Reg.EMB_CTL.ENABLE.addr, 1)] }

theorem test_island :
    (ember.embOn = true ∧ ember.emb.running = false ∧ ember.emb.started = false)
    ∧ (let s : State := { ember with emb := { EmbSt.fresh with running := true } }
       s.emb.running = true ∧ s.time.next = some (ofNs 33333000) ∧ ({ s with time := TimeSt.fresh } : State).time.next = none)
    ∧ (let s : State := { State.reset with quench := { QuenchSt.fresh with frames := [(1, [0])] } }
       s.publishEmber.quench.frames.find? (fun f => f.1 == 1) = some (1, [0])
       ∧ s.publishEmber.fld (Reg.ETH_CAN_STATUS.STATE 1) ≠ 2) := by decide +kernel

theorem test_hearth :
    (let s : State := { State.reset with hearth := { HearthSt.fresh with joins := [(3, 0)] } }; SMap.find? s.hearth.joins 3 = some 0)
    ∧ (let s : State := { State.reset with hearth := { HearthSt.fresh with halted := [6] } }; s.hearth.halted.contains 6 = true) := by decide +kernel

/-! Links -/

/-- Port 3 is up with credit, and its peer's context 0 has generation 1. -/
def linked (l : List (FRef × Nat)) : State :=
  (fields ((Reg.NLK_PORT_STATUS.STATE 3, 2) :: l)).setLink 3 { LinkSt.fresh with gens := 1 :: List.replicate 15 0, reads := [0] }

/-- A message of a type and its two arguments, of context 0 and generation 1, in version 0. -/
def msg (ty arg0 arg1 : Nat) (data : List DataUnit) : LinkMsg := (linked []).mkMsg 3 ty 0 1 0 arg0 arg1 data

theorem test_link_control :
    (State.reset.reaches core0 (Reg.NLK_PORT_CTL 3) = true ∧ State.reset.flag (Reg.NLK_PORT_CTL.ENABLE 3) = false)
    ∧ (let s := fields [(Reg.NLK_PORT_CTL.ENABLE 3, 1)]
       s.reaches core0 (Reg.NLK_PORT_CTL 3) = true ∧ s.flag (Reg.NLK_PORT_CTL.ENABLE 3) = true ∧ s.flag (Reg.NLK_PORT_CTL.RETRAIN 3) = false)
    ∧ (fields [(Reg.NLK_PORT_STATUS.STATE 3, 1)]).fld (Reg.NLK_PORT_STATUS.STATE 3) = 1
    ∧ (let s := (linked []).modLink 3 (fun l => { l with owed := 1, inflight := [⟨4095, 0, msg 0x1A 0 0 []⟩, ⟨0, 3, msg 0x1A 0 0 []⟩] })
       s.linkUp 3 = true ∧ (s.link 3).owed ≠ 0 ∧ (s.link 3).inflight.filter (fun f => seqUpTo 4095 f.seq) ≠ [])
    ∧ (linked []).hears 3 (msg 0x22 1 2 []) 0x22 = true := by decide +kernel

/-- Each message arrives; the state after its acknowledgement meets what its clause asks. -/
theorem test_link_messages :
    ((linked []).hears 3 (msg 0x01 0 0 []) 0x01 = true ∧ (linked []).hears 3 (msg 0x02 0 0 []) 0x02 = true)
    ∧ ((linked []).hears 3 (msg 0x03 1 0 []) 0x03 = true ∧ ((linked []).linkGot 3 (msg 0x03 1 0 [])).peerCurrent 3 (msg 0x03 1 0 []) = true)
    ∧ (let s : State := { linked [(Reg.NLK_PORT_CTX.ALLOW 3, 1)] with jobs := [job1] }
       let m := msg 0x04 0x100 0 []
       s.hears 3 m 0x04 = true ∧ (s.linkGot 3 m).peerCurrent 3 m = true ∧ (s.linkGot 3 m).linkAllows 3 m = true)
    ∧ (let m := msg 0x05 0x300000000 0 [⟨List.replicate 32 0, false⟩]
       (linked []).hears 3 m 0x05 = true ∧ ((linked []).linkGot 3 m).peerCurrent 3 m = true)
    ∧ (let s := linked [(Reg.NLK_PORT_RWIN_SIZE.GRANULES 3, 1)]
       let m := msg 0x06 (s.rd64 (Reg.NLK_PORT_RWIN_LO 3)) 10 []
       s.hears 3 m 0x06 = true ∧ (s.linkGot 3 m).peerCurrent 3 m = true ∧ m.ctx = 0 ∧ m.arg1 ≠ 0 ∧ m.arg1 ≤ 10
       ∧ (s.linkGot 3 m).inWindow 3 m.arg0 (32 * m.arg1) = true)
    ∧ (let m := msg 0x07 0 0 []
       (linked []).hears 3 m 0x07 = true ∧ ((linked []).linkGot 3 m).peerCurrent 3 m = true
       ∧ (((linked []).linkGot 3 m).link 3).reads.contains m.tag = true)
    ∧ (let s := linked [(Reg.FWL_DB.NLK, 1)]
       let m := msg 0x08 0 0 []
       s.hears 3 m 0x08 = true ∧ (s.linkGot 3 m).peerCurrent 3 m = true ∧ m.ctx = 0 ∧ (s.linkGot 3 m).mayRing (.narultil 3) 0 = true)
    ∧ (∀ ty ∈ [0x18, 0x19, 0x1B, 0x1C], (linked []).hears 3 (msg ty 0 0 []) ty = true)
    ∧ ((linked []).hears 3 (msg 0x1A 0 0 []) 0x1A = true ∧ ((linked []).linkGot 3 (msg 0x1A 0 0 [])).peerCurrent 3 (msg 0x1A 0 0 []) = true) := by
  decide +kernel

/-! The depot gate -/

/-- The gate is on, tenant `t` is active with a key, ring 7 of its context is enabled; it holds the messages of `inbox`. -/
def gate (t : Nat) (l : List (FRef × Nat)) (f : TenSt → TenSt) : State :=
  (fields (depot t ++ [(Reg.HRT_SQ_CFG.ENABLE t 7, 1), (Reg.HRT_SQ_CFG.LOG2 t 7, 4)] ++ l)).modTenant t f

/-- A fragment of a message of tenant 15 in one part of 80 bytes, from 192.0.2.1 to address 1 and the gate's port. -/
def fragment : DepotFragment :=
  ⟨false, 0xC0000201, 7, 1, (gate 15 [] id).fld Reg.DGT_CFG.UDP_PORT,
    [1, 0, 15, 0, 0, 0, 0, 0, 80, 0, 0, 0, 0, 0, 0, 0, 1, 0, 0, 0, 80, 0, 0, 0, 0, 0, 0, 0, 0, 0, 0, 0] ++ List.replicate 80 0, true⟩

theorem test_gate_intake :
    (gate 15 [(Reg.DGT_IP4.ADDR, 1)] id).forGate fragment = true
    ∧ (let r : Reasm := ⟨false, 0, 0, 15, 0, 0, 80, []⟩; ({ State.reset with reasm := [r] } : State).reasm[0]? = some r)
    ∧ (let s := gate 15 [(Reg.DGT_IP4.ADDR, 1)] id; s.gateOn = true ∧ s.fld Reg.DGT_IP4.ADDR ≠ 0 ∧ (1 : Word).toNat = s.fld Reg.DGT_IP4.ADDR)
    ∧ ((gate 1 [] id).tenantOn 1 = true ∧ (gate 15 [] id).tenantOn 15 = true)
    ∧ (∀ k ∈ [0, 7], State.reset.reaches core0 (Reg.DGT_TEN_KEY0 0 + 4 * k) = true ∧ State.reset.reaches core0 (Reg.DGT_TEN_KEY0 14 + 4 * k) = true)
    ∧ ((gate 1 [] id).inDepot = true ∧ (gate 1 [] id).depotUp ≠ true) := by decide +kernel

/-- The message at the front of tenant 15's buffer, for ring 7. -/
def holding (cls : Nat) (b : List Byte) : State := gate 15 [] (fun x => { x with inbox := [(cls, b)] })
def body48 (m : List (Nat × Nat)) : List Byte := m.foldl (fun d p => d.set p.1 (BitVec.ofNat 8 p.2)) (List.replicate 48 0)

theorem holds_of {s : State} {t cls : Nat} {b : List Byte}
    (h : (s.tenant t).inbox = (cls, b) :: (s.tenant t).inbox.tail ∧ s.tenantOn t = true) :
    ∃ u, s.Holds t cls b u := ⟨_, ⟨h.1, h.2, rfl⟩⟩

theorem test_gate_holds :
    (∃ u, (holding 1 (body48 [(4, 7)])).Holds 15 1 (body48 [(4, 7)]) u) ∧ (∃ u, (holding 3 (body48 [])).Holds 15 3 (body48 []) u)
    ∧ (∃ u, (holding 4 (body48 [(4, 7)])).Holds 15 4 (body48 [(4, 7)]) u) ∧ (∃ u, (holding 5 (body48 [])).Holds 15 5 (body48 []) u)
    ∧ (∃ u, (holding 8 (body48 [])).Holds 15 8 (body48 []) u) :=
  ⟨holds_of (by decide +kernel), holds_of (by decide +kernel), holds_of (by decide +kernel), holds_of (by decide +kernel),
    holds_of (by decide +kernel)⟩

/-- One sequenced message, sent or not. -/
def out1 (sent : Option Nat) : DepotOut := ⟨1, 2, [], 0, 0, sent⟩

theorem test_gate_messages :
    ((holding 1 (body48 [(4, 7)])).ringReady 15 1 = true ∧ (holding 4 (body48 [(4, 7)])).ringReady 15 4 = true)
    ∧ 0 ≤ serialDiff 64 (fieldAt (body48 []) 0 8) ((holding 8 (body48 [])).tenant 15).peerAck
    ∧ (let s := gate 15 [] (fun x => { x with loads := [body48 [(13, 7)]] })
       (s.tenant 15).loads = body48 [(13, 7)] :: [] ∧ s.tenantOn 15 = true ∧ s.ringFree 15 (fieldAt (body48 [(13, 7)]) 13 1) ≠ 0)
    ∧ (let s := gate 15 [] (fun x => { x with outbox := [out1 none], peer := some (false, 0, 0), window := 1 })
       (s.tenant 15).outbox.find? (·.sent.isNone) = some (out1 none) ∧ s.tenantOn 15 = true ∧ (s.tenant 15).peer ≠ none
       ∧ (out1 none).seq ≤ (s.tenant 15).peerAck + (s.tenant 15).window)
    ∧ (let s := gate 15 [] (fun x => { x with outbox := [out1 (some 0)] })
       (s.tenant 15).outbox.find? (·.sent.isSome) = some (out1 (some 0)) ∧ s.tenantOn 15 = true
       ∧ (s.tenant 15).outbox.any (·.sent.isSome) = true ∧ s.flag (Reg.DGT_TEN_STATUS.STALLED 14) = false) := by decide +kernel

/-- The three modes in which the gate is silent. -/
theorem test_gate_silent :
    State.reset.inDrive = true ∧ (fields [(Reg.PRC_MODE.MODE, 1)]).inParked = true ∧ (fields [(Reg.PRC_MODE.MODE, 3)]).outOfService = true := by
  decide +kernel

/-! PCIe, networks -/

/-- A frame to the address 00:00:00:00:00:05 without a tag, and the gPTP type to the reserved address. -/
def frame5 : EthFrame := ⟨[0, 0, 0, 0, 0, 5] ++ List.replicate 6 0 ++ [8, 0] ++ List.replicate 46 0, true⟩

theorem test_pcie :
    (State.reset.operates = true ∧ State.reset.inParked = false)
    ∧ (State.reset.barAddress .bar0 0 4 = some 0x3000000000 ∧ inRegs 0x3000000000 = true)
    ∧ (State.reset.barAddress .bar4 0 4 = some 0 ∧ inRegs 0 = false)
    ∧ (let s := State.reset.modModes (fun m => { m with perst := true }); s.operates = true ∧ s.inParked = false ∧ s.modes.perst = true)
    ∧ State.reset.fld Reg.PCI_STATUS.DSTATE ≠ 3 := by decide +kernel

theorem test_network :
    (let s := fields [(Reg.ETH_PORT_CTL.ENABLE 1, 1)]
     s.operates = true ∧ s.inParked = false ∧ s.flag (Reg.ETH_PORT_CTL.ENABLE 1) = true ∧ s.forwardPorts (parseEth frame5.bytes) = none)
    ∧ (frame5.fcsOk = true ∧ frame5.bytes.length + 4 ≤ 1522
      ∧ ¬((parseEth frame5.bytes).type = 0x88F7 ∧ (parseEth frame5.bytes).dest = 0x0180C200000E) ∧ ({ frame5 with fcsOk := false } : EthFrame).fcsOk = false)
    ∧ (let s := fields [(Reg.ETH_PORT_CTL.ENABLE 1, 1), (Reg.ETH_FWD.VALID 63, 1), (Reg.ETH_FWD_MAC.MAC_LO 63, 5), (Reg.ETH_FWD.PORTS 63, 1)]
       s.operates = true ∧ s.inParked = false ∧ s.flag (Reg.ETH_PORT_CTL.ENABLE 1) = true ∧ (s.forwardPorts (parseEth frame5.bytes)).isSome = true)
    ∧ (fields [(Reg.ETH_CAN_CTL.ENABLE 1, 1)]).canOn 1 = true
    ∧ (fields [(Reg.ETH_CAN_STATUS.STATE 1, 2)]).fld (Reg.ETH_CAN_STATUS.STATE 1) = 2
    ∧ (let s := fields [(Reg.ETH_CAN_STATUS.PARK_VALID 0, 1)]; s.parkValid = true ∧ s.inParked = false) := by decide +kernel

/-! Power and modes -/

/-- PARKED, with fields of the sentinel set and a supply of 40 V. -/
def parked (l : List (FRef × Nat)) (f : ModeSt → ModeSt) : State :=
  ({ fields ((Reg.PRC_MODE.MODE, 1) :: l) with sensors := ⟨0, 0, 4000, 0, 0⟩ } : State).modModes f

theorem test_wakes :
    (let s := parked [(Reg.SNT_CTL.PIN_EN, 1), (Reg.SNT_CTL.CANW_EN, 1)] id
     s.modes.wakeAt = none ∧ s.flag Reg.SNT_CTL.PIN_EN = true ∧ s.flag Reg.SNT_CTL.CANW_EN = true)
    ∧ (let s := parked [(Reg.SNT_CTL.CAM_EN, 1), (Reg.SNT_CTL.ACC_EN, 1), (Reg.SNT_CTL.PROOF_EN, 1)] (fun m => { m with perst := false, coolReq := true })
       s.operates = true ∧ s.inParked = true ∧ s.flag Reg.SNT_CTL.CAM_EN = true ∧ s.fld Reg.SNT_CAM_CFG.THRESH < 2 ^ 32
       ∧ s.supplyOk = true ∧ s.flag Reg.SNT_CTL.ACC_EN = true ∧ s.flag Reg.SNT_CTL.PROOF_EN = true ∧ s.modes.coolReq = true ∧ s.modes.perst = false)
    ∧ (parked [] (fun m => { m with pcieWakeAt := some 0, wakeAt := some 0 })).modes.pcieWakeAt = some 0
    ∧ (parked [] (fun m => { m with pcieWakeAt := some 0, wakeAt := some 0 })).modes.wakeAt = some 0 := by decide +kernel

theorem test_power :
    (State.reset.modModes (fun m => { m with powered := false })).modes.powered = false
    ∧ (State.reset.modes.powered = true ∧ State.reset.operates = true ∧ State.reset.inParked = false)
    ∧ (fields [(Reg.PRC_MODE.MODE, 2)]).inDepot = true
    ∧ (let s : State := { State.reset with boot := { BootSt.fresh with waiting := true } }; s.boot.waiting = true ∧ s.operates = true) := by decide +kernel

/-! Rules -/

/-- The premises on a chain: FP8 E4M3 operands from the zero accumulator, and one of an INT8 pair whose products are zero. -/
theorem test_chains :
    pairOk 2 2 = true ∧ pairBf16 2 2 = false ∧ AccSt.zero.fp = none ∧ AccSt.zero.checks false = true
    ∧ (AccSt.zero.flags = ⟨false, false, false, false⟩ ∧ AccSt.zero.value = 0)
    ∧ (pairBf16 1 1 = false ∧ pairZb 1 1 = false ∧ ((decode 1 0).mul (decode 1 0x80)).isZero = true) := by decide +kernel

/-- A block's instruction at the head of a list of configuration `config` whose unit checks its residues. -/
def guarded (u op config : Nat) (b : List Byte) : State :=
  (((busyBlock u op b []).modUnit u (fun x => { x with config := config })).setFld ⟨unitBase u + 0x40, 0, 2⟩ 3).setFld
    ⟨unitBase u + (if u < 68 then 0xBC else 0xB8), 0, 1⟩ 1

/-- A BF16 problem in SUPERVISED work on an Anvil with its residue plane on; safety work of the units with blocks. -/
def bf16Ins : Ins := (mmaIns 3).set 10 0x55
theorem test_safety_work :
    (∃ t, (((busy 63 bf16Ins).modUnit 63 (fun x => { x with config := 1 })).setFld ⟨unitBase 63 + 0x40, 0, 2⟩ 3).HeadsZ1 63 3 bf16Ins t
      ∧ ((t.unit 63).config = 1 ∧ bf16Ins ∈ (t.anvil 63).pend ++ [bf16Ins] ∧ pairBf16 (mmaFmtA bf16Ins) (mmaFmtB bf16Ins) = true))
    ∧ (∃ t, (guarded 67 0x20 0 (attnBlock.set 11 1)).Heads 67 0x20 (blockIns 0x20) t
      ∧ (t.safetyWork 67 = true ∧ (t.blockFetch 67 (blockIns 0x20)).2 = attnBlock.set 11 1 ∧ atC (attnBlock.set 11 1) ≠ 0))
    ∧ (∃ t, (guarded 64 0x21 0 kvBlock).Heads 64 0x21 (blockIns 0x21) t
      ∧ (t.safetyWork 64 = true ∧ (t.blockFetch 64 (blockIns 0x21)).2 = kvBlock ∧ (t.unit 64).config = 0))
    ∧ (∃ t, (guarded 64 0x21 1 (kvBlock.set 4 0x80)).Heads 64 0x21 (blockIns 0x21) t ∧ (t.safetyWork 64 = true ∧ kvSpec (kvBlock.set 4 0x80) = true))
    ∧ (∃ t, (guarded 67 0x22 1 rbBlock).Heads 67 0x22 (blockIns 0x22) t ∧ (t.safetyWork 67 = true ∧ (t.blockFetch 67 (blockIns 0x22)).2 = rbBlock))
    ∧ (∃ t, (guarded 75 0x44 1 acBlock).Heads 75 0x44 (blockIns 0x44) t ∧ (t.safetyWork 75 = true ∧ (t.blockFetch 75 (blockIns 0x44)).2 = acBlock)) :=
  ⟨headsZ1_with (by decide +kernel), heads_with (by decide +kernel), heads_with (by decide +kernel), heads_with (by decide +kernel),
    heads_with (by decide +kernel), heads_with (by decide +kernel)⟩

/-- Accesses of a field: every premise of the statement on them. FCL_CLEAR is shut for good once the island is armed, TOP_LOCK's fields lock. -/
theorem test_field_accesses :
    (∀ a ∈ [Access.ro, .rc, .rsvd, .rw, .rwl, .w1s, .w1c, .wo], ∃ f : FieldDesc, f.access = a ∧ f.legal = .any)
    ∧ (∃ h, regAt Reg.FCL_CLEAR = some h ∧ (fields [(Reg.SFI_STATUS.STATE, 1)]).shut h (h.field Reg.FCL_CLEAR.FIRST) = true
        ∧ State.reset.shut h (h.field Reg.FCL_CLEAR.FIRST) = false)
    ∧ (fields [(Reg.TOP_LOCK.LOCK, 1)]).locked = true := by
  refine ⟨?_, ?_, by decide +kernel⟩
  · intro a _; exact ⟨⟨0, 1, a, .val 0, .any⟩, rfl, rfl⟩
  · exact some_with (by decide +kernel)

/-- A write of a whole unit and of part of one at the top of a unit of DRAM, and a pool scrub that is under way. -/
theorem test_memory_rules :
    State.reset.access ⟨0x60, 0, 1⟩ 0x300000000 true true = (State.reset, none)
    ∧ State.reset.target 0x300000000 = .dram ∧ (State.reset.arms.cru = false ∧ State.reset.arms.memUe = [] ∧ State.reset.arms.memCe = [])
    ∧ (SMap.find? State.reset.damage (0x300000000 / 32) = none ∧ State.reset.channelFailed 0x300000000 = false)
    ∧ (0x300000000 % 32 + (List.replicate 32 (0 : Byte)).length ≤ 32) := by decide +kernel

theorem test_canonical_reset : State.reset.Canonical :=
  ⟨⟨by decide, by decide⟩, ⟨by decide, by decide⟩, ⟨by decide, by decide⟩, by decide, by decide, by decide⟩

/-- Canonical with a pool scrub under way. -/
theorem test_pool_scrub : ({ State.reset with regs := (fields [(Reg.PRC_MODE.POOL_SCRUB, 1)]).regs } : State).Canonical
    ∧ ({ State.reset with regs := (fields [(Reg.PRC_MODE.POOL_SCRUB, 1)]).regs } : State).flag Reg.PRC_MODE.POOL_SCRUB = true :=
  ⟨⟨⟨by decide, by decide⟩, ⟨by decide, by decide⟩, ⟨by decide, by decide⟩, by decide +kernel, by decide, by decide⟩, by decide +kernel⟩

/-! Images -/

/-- The signature of "sample" under SHA-384 and the key of RFC 6979, A.2.6. -/
theorem test_p384_vector :
    p384Verify
      (0xEC3A4E415B4E19A4568618029F427FA5DA9A8BC4AE92E02E06AAE5286B300C64DEF8F0EA9055866064A254515480BC13,
        0x8015D9B72D7D57244EA8EF9AC0C621896708A59367F9DFB9F54CA84B3F1C9DB1288B231C3AE0D4FE7344FD2533264720)
      (sha384 [0x73, 0x61, 0x6D, 0x70, 0x6C, 0x65])
      0x94EDBB92A5ECB8AAD4736E56C691916B3F88140666CE9FA73D64C4EA95AD133C81A648152E44ACF96E36DD1E80FABE46
      0x99EF4AEB15F178CEA1FE40DB2603138F130E740A19624526203B6351D0A3A94FA329C145786E679E7B82C71A38628AC8 = true := by decide +kernel

/-- The key pair whose secret is 1, its hash, and the hash of an empty body. -/
def key1 : List Byte := beBytes 48 p384G.1 ++ beBytes 48 p384G.2
def hash1 : List Byte := beBytes 48 0xa19d4db171b582eb8052b0cfe555e17894aa22d1c8a9770950697dd8f796d2fa4bf0a56ad80006b7ea08e1191f814b65
def hash0 : List Byte := beBytes 48 0x38b060a751ac96384cd9327eb1b1e36a21fdb71114be07434c0cc7bf63f6e1da274edebfe76f65fbd51ad2f14898b95b
/-- A service image without records, signed with it. -/
def service1 : List Byte :=
  leBytes 4 0x59524331 ++ [1, 2, 0, 0] ++ List.replicate 8 0 ++ hash0 ++ key1
    ++ beBytes 48 0x8d999057ba3d2d969260045c55b97f089025959a6f434d651d207d19fb96e9e4fe0e86ebe0e64f85b96a9c75295df61
    ++ beBytes 48 0x486ea6b8bf5eefcd2d0ffc866c8d3b488e8cc0d7bead261b34bd2fcaa32fe84dc67d00a777467febaf04b20034eb7ccc

/-- A device that waits for an image and accepts that key. -/
def waits1 : State := { State.reset with boot := { BootSt.fresh with waiting := true, keyHashes := [hash1] } }

/-- The same device with no such wait: it takes the image as well. -/
def waits0 : State := { waits1 with boot := { waits1.boot with waiting := false } }

theorem test_service_image :
    (waits0.locked = false ∧ waits0.operates = true ∧ waits0.inParked = false ∧ waits0.boot.waiting = false)
    ∧ waits0.acceptImage 2 (service1.take 256) (service1.drop 256) = waits1.acceptImage 2 (service1.take 256) (service1.drop 256)
    ∧ (waits1.locked = false ∧ waits1.operates = true ∧ waits1.inParked = false ∧ waits1.boot.waiting = true)
    ∧ ∃ img, waits1.acceptImage 2 (service1.take 256) (service1.drop 256) = some img ∧ sha384 img.body = img.digest :=
  ⟨by decide +kernel, rfl, by decide +kernel, some_with (by decide +kernel)⟩

end Sys2Proof.Tests
end

/-! PROOFS. The obligations on scope: what every step keeps, accesses to registers, fields of a write, legal values, the gate, writes to memory. -/

namespace Sys2Proof.Machine

/-! ### Every command completes and keeps the canonical form -/

/-- Command by command, in the order of the dispatch. -/
theorem exec_completes (s : State) : ∀ c : Instr, Completes s (exec c s)
  | .registerWrite .. => execRegisterWrite_completes
  | .pairLoRead .. => execPairLoRead_completes
  | .topLockSet .. => execTopLockSet_completes
  | .keySlotRevoke .. => execKeySlotRevoke_completes
  | .strike => execStrike_completes
  | .strikeTableEntryFire .. => execStrikeTableEntryFire_completes
  | .goldenRunEnd .. => execGoldenRunEnd_completes
  | .strikeRunStart .. => execStrikeRunStart_completes
  | .strikeRunStop .. => execStrikeRunStop_completes
  | .syncReceived .. => execSyncReceived_completes
  | .followUpReceived .. => execFollowUpReceived_completes
  | .pdelayExchange .. => execPdelayExchange_completes
  | .gmSyncTransmit => execGmSyncTransmit_completes
  | .syncTimeout => execSyncTimeout_completes
  | .strikeMarkTimer => execStrikeMarkTimer_completes
  | .strikeMark .. => execStrikeMark_completes
  | .markCoastTimeout => execMarkCoastTimeout_completes
  | .markLostTimeout => execMarkLostTimeout_completes
  | .arrive .. => execArrive_completes
  | .release .. => execRelease_completes
  | .sqTailDoorbell .. => execSqTailDoorbell_completes
  | .cqHeadDoorbell .. => execCqHeadDoorbell_completes
  | .descriptorReadError .. => execDescriptorReadError_completes
  | .nop .. => execNop_completes
  | .runGraph .. => execRunGraph_completes
  | .loadModel .. => execLoadModel_completes
  | .unloadModel .. => execUnloadModel_completes
  | .copy .. => execCopy_completes
  | .descriptorFence .. => execDescriptorFence_completes
  | .barrier .. => execBarrier_completes
  | .deadlineExpire .. => execDeadlineExpire_completes
  | .completionRecordWrite .. => execCompletionRecordWrite_completes
  | .moderationTimer .. => execModerationTimer_completes
  | .ctxEnable .. => execCtxEnable_completes
  | .teardown .. => execTeardown_completes
  | .teardownQuiesced .. => execTeardownQuiesced_completes
  | .quiesceTimeout .. => execQuiesceTimeout_completes
  | .scrubDone .. => execScrubDone_completes
  | .hicClaim .. => execHicClaim_completes
  | .hicComplete .. => execHicComplete_completes
  | .hicXcomplete .. => execHicXcomplete_completes
  | .hicSet .. => execHicSet_completes
  | .msixSend .. => execMsixSend_completes
  | .loads .. => execLoads_completes
  | .swap .. => execSwap_completes
  | .mmaP .. => execMmaP_completes
  | .mma .. => execMma_completes
  | .epi .. => execEpi_completes
  | .store .. => execStore_completes
  | .send .. => execSend_completes
  | .wait .. => execWait_completes
  | .sigOpen .. => execSigOpen_completes
  | .sigClose .. => execSigClose_completes
  | .gold .. => execGold_completes
  | .fence .. => execFence_completes
  | .sync .. => execSync_completes
  | .scrub .. => execScrub_completes
  | .shadowFillComplete .. => execShadowFillComplete_completes
  | .blockDrain .. => execBlockDrain_completes
  | .writeBufferDrain .. => execWriteBufferDrain_completes
  | .sendComplete .. => execSendComplete_completes
  | .syncCounterIncrement .. => execSyncCounterIncrement_completes
  | .waitTimeout .. => execWaitTimeout_completes
  | .storeComplete .. => execStoreComplete_completes
  | .tileListEnd .. => execTileListEnd_completes
  | .softReset .. => execSoftReset_completes
  | .unitFence .. => execUnitFence_completes
  | .pairRequest .. => execPairRequest_completes
  | .residueInject .. => execResidueInject_completes
  | .injPro .. => execInjPro_completes
  | .injEpi .. => execInjEpi_completes
  | .injRope .. => execInjRope_completes
  | .injOut .. => execInjOut_completes
  | .injA .. => execInjA_completes
  | .injB .. => execInjB_completes
  | .bsEccInject .. => execBsEccInject_completes
  | .cruInject .. => execCruInject_completes
  | .memCeInject .. => execMemCeInject_completes
  | .memUeInject .. => execMemUeInject_completes
  | .attn .. => execAttn_completes
  | .kvappend .. => execKvappend_completes
  | .rollback .. => execRollback_completes
  | .elt .. => execElt_completes
  | .norm .. => execNorm_completes
  | .red .. => execRed_completes
  | .win .. => execWin_completes
  | .accept .. => execAccept_completes
  | .detect .. => execDetect_completes
  | .tongsTailWrite .. => execTongsTailWrite_completes
  | .tongsCopy .. => execTongsCopy_completes
  | .tongsTranspose .. => execTongsTranspose_completes
  | .tongsGather .. => execTongsGather_completes
  | .tongsFill .. => execTongsFill_completes
  | .tongsScrub .. => execTongsScrub_completes
  | .tongsDescriptorComplete .. => execTongsDescriptorComplete_completes
  | .tongsAbort .. => execTongsAbort_completes
  | .channelHang .. => execChannelHang_completes
  | .cruciblePatrol => execCruciblePatrol_completes
  | .dramPatrol .. => execDramPatrol_completes
  | .frameStart .. => execFrameStart_completes
  | .linePacket .. => execLinePacket_completes
  | .frameEnd .. => execFrameEnd_completes
  | .frameComplete .. => execFrameComplete_completes
  | .frameTablePublish => execFrameTablePublish_completes
  | .pointDatagram .. => execPointDatagram_completes
  | .sweepComplete .. => execSweepComplete_completes
  | .goldenFrameRun .. => execGoldenFrameRun_completes
  | .recordTailWrite .. => execRecordTailWrite_completes
  | .recordDecode .. => execRecordDecode_completes
  | .recordDescriptorComplete .. => execRecordDescriptorComplete_completes
  | .recordAbort .. => execRecordAbort_completes
  | .signatureClose .. => execSignatureClose_completes
  | .comparatorSelftest .. => execComparatorSelftest_completes
  | .comparatorSelftestDone .. => execComparatorSelftestDone_completes
  | .comparatorInject .. => execComparatorInject_completes
  | .windowClose .. => execWindowClose_completes
  | .ageFrameTableRead => execAgeFrameTableRead_completes
  | .emberRunStart .. => execEmberRunStart_completes
  | .emberRunComplete .. => execEmberRunComplete_completes
  | .emberDeadline => execEmberDeadline_completes
  | .safeStateFrameSent .. => execSafeStateFrameSent_completes
  | .arm .. => execArm_completes
  | .faultReport .. => execFaultReport_completes
  | .hearthJoinCsr .. => execHearthJoinCsr_completes
  | .hearthJoinTimeout .. => execHearthJoinTimeout_completes
  | .debugHalt .. => execDebugHalt_completes
  | .debugRegWrite .. => execDebugRegWrite_completes
  | .fclClearFirst .. => execFclClearFirst_completes
  | .fclInject .. => execFclInject_completes
  | .fclCtxNClear .. => execFclCtxNClear_completes
  | .hangKick .. => execHangKick_completes
  | .hearthHang .. => execHearthHang_completes
  | .unitHangStop .. => execUnitHangStop_completes
  | .fenceListAdd .. => execFenceListAdd_completes
  | .fenceListClear .. => execFenceListClear_completes
  | .autoComputeReset => execAutoComputeReset_completes
  | .prcResetCompute .. => execPrcResetCompute_completes
  | .computeResetRelease => execComputeResetRelease_completes
  | .prcResetSys .. => execPrcResetSys_completes
  | .snpDumpStart .. => execSnpDumpStart_completes
  | .snpTrigger .. => execSnpTrigger_completes
  | .fclLogWindowRead .. => execFclLogWindowRead_completes
  | .evrWindowRead .. => execEvrWindowRead_completes
  | .snpWindowRead .. => execSnpWindowRead_completes
  | .evrCommit .. => execEvrCommit_completes
  | .evrCommitTimer => execEvrCommitTimer_completes
  | .evrSample .. => execEvrSample_completes
  | .evrClear .. => execEvrClear_completes
  | .resetNotice .. => execResetNotice_completes
  | .genAnnounce .. => execGenAnnounce_completes
  | .ready .. => execReady_completes
  | .linkTrain .. => execLinkTrain_completes
  | .linkTrainingComplete .. => execLinkTrainingComplete_completes
  | .sendData .. => execSendData_completes
  | .sendInc .. => execSendInc_completes
  | .sendDone .. => execSendDone_completes
  | .linkSync .. => execLinkSync_completes
  | .memWr .. => execMemWr_completes
  | .memRd .. => execMemRd_completes
  | .memRdResp .. => execMemRdResp_completes
  | .linkDoorbell .. => execLinkDoorbell_completes
  | .fmBarCfg .. => execFmBarCfg_completes
  | .fmRelay .. => execFmRelay_completes
  | .linkAck .. => execLinkAck_completes
  | .nak .. => execNak_completes
  | .linkCredit .. => execLinkCredit_completes
  | .pcieMemRead .. => execPcieMemRead_completes
  | .pcieMemWrite .. => execPcieMemWrite_completes
  | .pciePerst .. => execPciePerst_completes
  | .pcieDstateChange .. => execPcieDstateChange_completes
  | .ethFrameReceived .. => execEthFrameReceived_completes
  | .canFrameReceived .. => execCanFrameReceived_completes
  | .parkedConfirmation .. => execParkedConfirmation_completes
  | .parkConfirmationTimeout => execParkConfirmationTimeout_completes
  | .depotDatagram .. => execDepotDatagram_completes
  | .arpRequest .. => execArpRequest_completes
  | .neighborSolicitation .. => execNeighborSolicitation_completes
  | .reassemblyTimeout .. => execReassemblyTimeout_completes
  | .jobSubmit .. => execJobSubmit_completes
  | .modelPut .. => execModelPut_completes
  | .modelPutWriteComplete .. => execModelPutWriteComplete_completes
  | .modelDrop .. => execModelDrop_completes
  | .statusQuery .. => execStatusQuery_completes
  | .credit .. => execCredit_completes
  | .gateCompletionClaim .. => execGateCompletionClaim_completes
  | .gateOutboundSend .. => execGateOutboundSend_completes
  | .timeHint => execTimeHint_completes
  | .gateCreditTimer .. => execGateCreditTimer_completes
  | .rtoResend .. => execRtoResend_completes
  | .stallTimeout .. => execStallTimeout_completes
  | .tenantKeyWrite .. => execTenantKeyWrite_completes
  | .porst .. => execPorst_completes
  | .vinStart => execVinStart_completes
  | .vinLoss => execVinLoss_completes
  | .supplyMonitorTrip .. => execSupplyMonitorTrip_completes
  | .powerSample .. => execPowerSample_completes
  | .bootConfirm .. => execBootConfirm_completes
  | .bootPending .. => execBootPending_completes
  | .parkRequest .. => execParkRequest_completes
  | .depotRequest .. => execDepotRequest_completes
  | .leaveDepotRequest .. => execLeaveDepotRequest_completes
  | .parkOkChange .. => execParkOkChange_completes
  | .shorePwrChange .. => execShorePwrChange_completes
  | .poolScrub .. => execPoolScrub_completes
  | .poolScrubComplete => execPoolScrubComplete_completes
  | .wakeN => execWakeN_completes
  | .canWake => execCanWake_completes
  | .cameraSample .. => execCameraSample_completes
  | .accelSample .. => execAccelSample_completes
  | .supplySample .. => execSupplySample_completes
  | .proofTimer => execProofTimer_completes
  | .coolReqTimer => execCoolReqTimer_completes
  | .uncorrectableCodeword .. => execUncorrectableCodeword_completes
  | .ackCoalesceTimer .. => execAckCoalesceTimer_completes
  | .narultilPortDown .. => execNarultilPortDown_completes
  | .pcieLinkStateChange .. => execPcieLinkStateChange_completes
  | .pcieConfigWrite .. => execPcieConfigWrite_completes
  | .pcieWakeTimeout => execPcieWakeTimeout_completes
  | .wakePulseEnd => execWakePulseEnd_completes
  | .ethPortLinkChange .. => execEthPortLinkChange_completes
  | .depotLinkChange .. => execDepotLinkChange_completes
  | .canBusOff .. => execCanBusOff_completes
  | .busOffRecovery .. => execBusOffRecovery_completes
  | .dramChannelFailed .. => execDramChannelFailed_completes
  | .serviceImageBoot .. => execServiceImageBoot_completes
  | .oosSafeStateFrameTimer => execOosSafeStateFrameTimer_completes
  | .debugResume .. => execDebugResume_completes

theorem step_keeps_canonical {s t : State} (h : step s = .next t) (hc : s.Canonical) : t.Canonical := by
  unfold step at h
  split at h
  · cases h
    exact (State.idle_kept Kept.refl).canon hc
  · next c rest _ =>
    obtain ⟨u, hu, k⟩ := exec_completes { s with pending := rest } c
    rw [hu] at h
    cases h
    exact k.canon ⟨hc.mem, hc.mram, hc.flash, hc.regs, hc.poison, hc.damage⟩

/-- Settles O4: an idle step and every command keep the canonical form, and the queue is no part of it. -/
theorem everyStepKeepsCanonical : Obligations.EveryStepKeepsCanonical := by
  intro s t hc h
  exact step_keeps_canonical h hc

/-! ### Accesses to the register window by address (R13, R16) -/

section Bus

variable {s : State} {who : Party} {a : Nat}

theorem exec_registerWrite (who : Party) (a size value : Nat) (s : State) :
    exec (.registerWrite who a size value) s = .next (s.busWrite who a size value) := rfl

theorem exec_pairLoRead (who : Party) (a size : Nat) (s : State) : exec (.pairLoRead who a size) s = .next (s.readOut who a size) := rfl

/-- R13: an access of another width or alignment writes nothing. -/
theorem State.busWrite_of_wrong {size : Nat} (value : Nat) (hin : inRegs a = true) (hw : size ≠ 4 ∨ a % 4 ≠ 0)
    (hal : s.windowAllows who a true = true) : s.busWrite who a size value = s := by
  unfold State.busWrite
  cases hp : s.partyOn who <;> simp [hin, hal, hw]

/-- R13: an access of another width or alignment reads 0. -/
theorem State.busRead_of_wrong {size : Nat} (hw : size ≠ 4 ∨ a % 4 ≠ 0) (hal : s.windowAllows who a false = true) :
    s.busRead who a size = (s, 0) := by
  unfold State.busRead
  cases hp : s.partyOn who <;> cases hk : s.inParked <;> simp [hal, hw]

/-- A read of the window that the firewall lets through answers with what the bus reads. -/
theorem State.readOut_eq_busRead (size : Nat) (hin : inRegs a = true) (hal : s.windowAllows who a false = true) :
    s.readOut who a size = (s.busRead who a size).1.send (.readData a (s.busRead who a size).2) := by
  unfold State.readOut
  simp [hin, hal]

theorem State.busWrite_of_reaches (value : Nat) (ha : a % 4 = 0) (hin : inRegs a = true) (hd : doorbellAt a = none)
    (hr : s.reaches who a = true) : s.busWrite who a 4 value = s.writeWord a value (sourceOf who) := by
  obtain ⟨hon, hpark, hal, -⟩ := State.reaches_parts hr
  simp [State.busWrite, hon, hpark, hal, hin, ha, hd]

theorem State.busRead_of_gives (ha : a % 4 = 0) (hd : doorbellAt a = none) (hg : s.gives who a = true) :
    s.busRead who a 4 = s.fullRead a := by
  obtain ⟨hon, hpark, hal, -⟩ := State.gives_parts hg
  simp [State.busRead, hon, hpark, hal, ha, hd]

/-! What one word of a register does, by the kind of the register: alone, `_LO`, `_HI`. -/

variable {h : RegHit}

theorem State.writeWord_single (value source : Nat) (hl : s.liveReg a = some h) (hp : h.desc.pair = false) :
    let r := s.applyValue h a (value % 2 ^ 32) source none
    s.writeWord a value source = r.1.hook s ⟨h, (s.rd a).toNat, r.2, value % 2 ^ 32⟩ := by
  simp [State.writeWord, State.regWrite, hl, hp]

theorem State.writeWord_lo (value source : Nat) (hl : s.liveReg a = some h) (hp : h.desc.pair = true) (hh : h.hi = false) :
    s.writeWord a value source = { s with heldLo := SMap.insert s.heldLo a (BitVec.ofNat 32 (value % 2 ^ 32)) } := by
  simp [State.writeWord, State.regWrite, hl, hp, hh]

theorem State.writeWord_hi (value source : Nat) (hl : s.liveReg a = some h) (hp : h.desc.pair = true) (hh : h.hi = true) :
    let low := ((SMap.find? s.heldLo (a - 4)).getD (s.rd (a - 4))).toNat
    let r := ({ s with heldLo := SMap.erase s.heldLo (a - 4) } : State).applyValue h (a - 4) (low + 2 ^ 32 * (value % 2 ^ 32)) source none
    s.writeWord a value source = r.1.hook s ⟨h, s.rd64 (a - 4), r.2, value % 2 ^ 32⟩ := by
  simp [State.writeWord, State.regWrite, hl, hp, hh]

/-- A read that is neither a claim, nor the count of a context's work, nor that of a cursor window. -/
theorem State.fullRead_eq_regRead (hl : s.liveReg a = some h) (hb : h.blk ∉ [.hic, .fcl, .evr, .snp])
    (ho : h.blk = .hrt → h.desc.off ≠ 0x1008) : s.fullRead a = s.regRead a := by
  simp only [List.mem_cons, List.not_mem_nil, or_false, not_or] at hb
  obtain ⟨h1, h2, h3, h4⟩ := hb
  have h5 : ¬(h.blk = .hrt ∧ h.desc.off = 0x1008) := fun e => ho e.1 e.2
  simp only [State.fullRead, hl, h1, h2, h3, h4, h5, false_and, if_false]

theorem State.regAt_of_liveReg (hl : s.liveReg a = some h) : regAt a = some h := by
  unfold State.liveReg at hl
  split at hl
  · cases hl
  · next g hg =>
    split at hl
    · cases hl
    · exact hg.trans hl

/-- Only the registers of device time capture a third word (R330). -/
theorem not_timeWord (hr : regAt a = some h) (hb : h.blk ≠ .tim) : a ≠ Reg.TIM_NOW_LO ∧ a ≠ Reg.TIM_NOW_FRAC := by
  have lo : (regAt Reg.TIM_NOW_LO).map (·.blk) = some .tim := by decide
  have frac : (regAt Reg.TIM_NOW_FRAC).map (·.blk) = some .tim := by decide
  constructor <;> rintro rfl <;> simp_all

theorem State.regRead_lo (hl : s.liveReg a = some h) (hp : h.desc.pair = true) (hh : h.hi = false) (hb : h.blk ≠ .tim) :
    let t := (s.clearRc h a).clearRc { h with hi := true } (a + 4)
    s.regRead a = ({ t with capHi := SMap.insert (s.clearRc h a).capHi (a + 4) (s.derived { h with hi := true } (a + 4)) }, s.derived h a) := by
  obtain ⟨h1, h2⟩ := not_timeWord (State.regAt_of_liveReg hl) hb
  simp [State.regRead, hl, hp, hh, h1, h2]

theorem State.regRead_hi_captured {v : Word} (hl : s.liveReg a = some h) (hh : h.hi = true) (hv : SMap.find? s.capHi a = some v) :
    s.regRead a = ({ s with capHi := SMap.erase s.capHi a }, v) := by
  simp [State.regRead, hl, hh, hv]

theorem State.regRead_hi_fresh (hl : s.liveReg a = some h) (hh : h.hi = true) (hv : SMap.find? s.capHi a = none) :
    s.regRead a = (s.clearRc h a, s.derived h a) := by
  simp [State.regRead, hl, hh, hv]

end Bus

/-- Settles O42: the width and the alignment are looked at before the register, once the firewall has let the access through. -/
theorem wrongAccessesHaveNoEffect : Obligations.WrongAccessesHaveNoEffect := by
  intro s who a size value hin hw
  constructor
  · intro hal
    rw [exec_registerWrite, State.busWrite_of_wrong value hin hw hal]
  · intro hal
    rw [exec_pairLoRead, State.readOut_eq_busRead size hin hal, State.busRead_of_wrong hw hal]

/-- Settles O43: a `_HI` word answers from what was captured for it, and from its register when nothing was. -/
theorem highWordsAreReadAsCaptured : Obligations.HighWordsAreReadAsCaptured := by
  intro s who a h ha hin hd hl hh hb hg
  have hread : s.readOut who a 4 = (s.regRead a).1.send (.readData a (s.regRead a).2) := by
    rw [State.readOut_eq_busRead 4 hin (State.gives_parts hg).2.2.1, State.busRead_of_gives ha hd hg, State.fullRead_eq_regRead hl]
    · simp_all
    · simp_all
  constructor
  · intro v hv
    rw [exec_pairLoRead, hread, State.regRead_hi_captured hl hh hv]
  · intro hv
    rw [exec_pairLoRead, hread, State.regRead_hi_fresh hl hh hv]

/-- Settles O9, register by register: one that is no pair, the `_LO` word of a pair, its `_HI` word. -/
theorem registerAccessesComplete : Obligations.RegisterAccessesComplete := by
  intro s who a value h ha hin hd hl
  refine ⟨fun hr hp => ?_, fun hr hp hh => ?_, fun hr hp hh => ?_, fun hg hp hh hb ho => ?_, fun size hg hs => ?_⟩
  · rw [exec_registerWrite, State.busWrite_of_reaches value ha hin hd hr, State.writeWord_single value _ hl hp]
  · rw [exec_registerWrite, State.busWrite_of_reaches value ha hin hd hr, State.writeWord_lo value _ hl hp hh]
  · intro low u
    rw [exec_registerWrite, State.busWrite_of_reaches value ha hin hd hr, State.writeWord_hi value _ hl hp hh]
  · simp only [List.mem_cons, List.not_mem_nil, or_false, not_or] at hb
    obtain ⟨h1, h2, h3, h4, h5⟩ := hb
    rw [exec_pairLoRead, State.readOut_eq_busRead 4 hin (State.gives_parts hg).2.2.1, State.busRead_of_gives ha hd hg,
      State.fullRead_eq_regRead hl (by simp [h1, h2, h3, h4]) (fun _ => ho), State.regRead_lo hl hp hh h5]
  · have hal := (State.gives_parts hg).2.2.1
    rw [exec_pairLoRead, State.readOut_eq_busRead size hin hal, State.busRead_of_wrong (.inl hs) hal]

/-! ### The gate outside DEPOT (R3, R447) -/

section Gate

variable {s : State}

theorem State.inDepot_of_otherMode (h : s.inDrive = true ∨ s.inParked = true ∨ s.outOfService = true) : s.inDepot = false := by
  simp only [State.inDrive, State.inParked, State.outOfService, State.inDepot, beq_iff_eq, beq_eq_false_iff_ne] at *
  omega

theorem State.gateOn_outside (h : s.inDepot = false) : s.gateOn = false := by simp [State.gateOn, h]

theorem State.tenantOn_outside (h : s.inDepot = false) (t : Nat) : s.tenantOn t = false := by
  simp [State.tenantOn, State.gateOn_outside h]

theorem State.forGate_outside (h : s.inDepot = false) (f : DepotFragment) : s.forGate f = false := by
  simp [State.forGate, State.gateOn_outside h]

/-- The gate takes no message of a tenant that is not served. -/
theorem State.gateTake_off {t : Nat} (h : s.tenantOn t = false) (cls : Nat) (run : State → List Byte → State) : s.gateTake t cls run = s := by
  unfold State.gateTake
  split
  · simp [h]
  · rfl

end Gate

/-- Settles O47: outside DEPOT the gate is off, so no tenant is served, and each of these commands asks for one or the other first. -/
theorem gateIsSilentOutsideDepot : Obligations.GateIsSilentOutsideDepot := by
  intro s hm
  have hd := State.inDepot_of_otherMode hm
  have hg := State.gateOn_outside hd
  have ht (t : Fin 16) := State.tenantOn_outside hd t.val
  have take (t : Fin 16) := State.gateTake_off (ht t)
  refine ⟨fun t r => ⟨?_, ?_, ?_, ?_, ?_, ?_, ?_, ?_, ?_, ?_, ?_⟩, fun f => ?_, fun mac ip target => ?_, fun mac ip target => ?_, ?_, fun up => ?_⟩
  · simp [exec, execJobSubmit, take]
  · simp [exec, execModelPut, take]
  · simp [exec, execModelDrop, take]
  · simp [exec, execStatusQuery, take]
  · simp [exec, execCredit, take]
  · simp only [exec, execModelPutWriteComplete]
    split <;> simp [ht]
  · simp [exec, execGateCompletionClaim, ht]
  · simp only [exec, execGateOutboundSend]
    split <;> simp [ht]
  · simp [exec, execGateCreditTimer, ht]
  · simp only [exec, execRtoResend]
    split <;> simp [ht]
  · simp [exec, execStallTimeout, ht]
  · simp [exec, execDepotDatagram, State.forGate_outside hd]
  · simp [exec, execArpRequest, hg]
  · simp [exec, execNeighborSolicitation, hg]
  · simp [exec, execTimeHint, hd]
  · simp [exec, execDepotLinkChange, hd]

/-! ### The nearest legal value (R17) -/

/-- `x` is nearer to `v` than `y`, or as near and not above it. -/
def Nearer (v x y : Nat) : Prop := distance x v < distance y v ∨ (distance x v = distance y v ∧ x ≤ y)

theorem Nearer.refl (v x : Nat) : Nearer v x x := .inr ⟨rfl, Nat.le_refl x⟩

theorem Nearer.trans {v x y z : Nat} (h : Nearer v x y) (k : Nearer v y z) : Nearer v x z := by
  unfold Nearer at *; omega

/-- The value itself is nearest to it. -/
theorem Nearer.eq_self {v x : Nat} (h : Nearer v x v) : x = v := by
  have h0 : distance v v = 0 := by simp [distance]
  rw [Nearer, h0] at h
  have hx : distance x v = 0 := by omega
  unfold distance at hx
  split at hx <;> omega

/-- The better of the best so far and the next value of a legal set. -/
def nearerOf (v best x : Nat) : Nat := if distance x v < distance best v || (distance x v == distance best v && x < best) then x else best

theorem nearest_eq (vs : List Nat) (v : Nat) : nearest vs v = vs.foldl (nearerOf v) (vs.headD 0) := rfl

theorem nearerOf_mem (v best x : Nat) : nearerOf v best x = best ∨ nearerOf v best x = x := by
  unfold nearerOf; split <;> simp

theorem nearerOf_nearer (v best x : Nat) : Nearer v (nearerOf v best x) best ∧ Nearer v (nearerOf v best x) x := by
  unfold nearerOf
  split
  · next h =>
    simp only [Bool.or_eq_true, Bool.and_eq_true, decide_eq_true_eq, beq_iff_eq] at h
    exact ⟨by unfold Nearer; omega, Nearer.refl v x⟩
  · next h =>
    simp only [Bool.or_eq_true, Bool.and_eq_true, decide_eq_true_eq, beq_iff_eq] at h
    exact ⟨Nearer.refl v best, by unfold Nearer; omega⟩

theorem foldl_nearerOf_mem (v : Nat) (vs : List Nat) (best : Nat) : vs.foldl (nearerOf v) best ∈ best :: vs := by
  induction vs generalizing best with
  | nil => simp
  | cons x xs ih =>
    have := ih (nearerOf v best x)
    rw [List.foldl_cons]
    rcases List.mem_cons.1 this with e | e
    · rw [e]
      rcases nearerOf_mem v best x with e | e <;> simp [e]
    · simp [e]

theorem foldl_nearerOf_nearer (v : Nat) (vs : List Nat) (best : Nat) : ∀ y ∈ best :: vs, Nearer v (vs.foldl (nearerOf v) best) y := by
  induction vs generalizing best with
  | nil => simp [Nearer.refl]
  | cons x xs ih =>
    intro y hy
    have hstep := ih (nearerOf v best x) _ (List.mem_cons_self ..)
    obtain ⟨hbest, hx⟩ := nearerOf_nearer v best x
    simp only [List.mem_cons] at hy
    rcases hy with rfl | rfl | hy
    · exact hstep.trans hbest
    · exact hstep.trans hx
    · exact ih _ y (List.mem_cons_of_mem _ hy)

theorem nearest_mem {vs : List Nat} (h : vs ≠ []) (v : Nat) : nearest vs v ∈ vs := by
  cases vs with
  | nil => exact absurd rfl h
  | cons x xs => simpa [nearest_eq] using foldl_nearerOf_mem v (x :: xs) x

theorem nearest_nearer (vs : List Nat) (v : Nat) : ∀ y ∈ vs, Nearer v (nearest vs v) y :=
  fun y hy => foldl_nearerOf_nearer v vs _ y (List.mem_cons_of_mem _ hy)

/-- Every other value of a range is farther. -/
theorem distance_clampNat_lt {lo hi v y : Nat} (h1 : lo ≤ y) (h2 : y ≤ hi) (hy : y ≠ clampNat lo hi v) :
    distance (clampNat lo hi v) v < distance y v := by
  unfold clampNat distance at *
  grind

/-- Settles O45, one legal set after the other: a range, a list, an alignment. -/
theorem clampTakesTheNearest : Obligations.ClampTakesTheNearest := by
  intro width old v
  refine ⟨fun lo hi hle => ?_, fun vs hne => ?_, fun k => ?_⟩
  · have hin : lo ≤ clampNat lo hi v ∧ clampNat lo hi v ≤ hi := by unfold clampNat; grind
    exact ⟨hin.1, hin.2, fun y h1 h2 hy => distance_clampNat_lt h1 h2 hy⟩
  · exact ⟨nearest_mem hne v, fun hv => (nearest_nearer vs v v hv).eq_self, nearest_nearer vs v⟩
  · have hk : v % 2 ^ k < 2 ^ k := Nat.mod_lt _ (Nat.two_pow_pos k)
    have hv : v % 2 ^ k ≤ v := Nat.mod_le v _
    exact ⟨Nat.dvd_sub_mod v, Nat.sub_le _ _, by show v < v - v % 2 ^ k + 2 ^ k; omega⟩

/-! ### One field of a write (R14, R15, R17, R18) -/

/-- A number less the bits it shares with another has the bits that the other lacks. -/
theorem testBit_sub_and (a b i : Nat) : (a - (a &&& b)).testBit i = (a.testBit i && !b.testBit i) := by
  induction i generalizing a b with
  | zero =>
    have hle : a &&& b ≤ a := Nat.and_le_left
    have hmod := @Nat.and_mod_two_eq_one a b
    simp only [Nat.testBit_zero]
    grind
  | succ i ih =>
    have hle : a &&& b ≤ a := Nat.and_le_left
    have hmod := @Nat.and_mod_two_eq_one a b
    have hdiv : (a - (a &&& b)) / 2 = a / 2 - (a / 2 &&& b / 2) := by
      rw [← Nat.and_div_two]
      grind
    rw [Nat.testBit_succ, Nat.testBit_succ, Nat.testBit_succ, hdiv, ih]

section Field

variable {s : State} {h : RegHit} {f : FieldDesc}

/-- A field that nobody writes. -/
theorem State.writeField_readOnly (total : Nat) (acc : WrAcc) (ha : f.access = .ro ∨ f.access = .rc) :
    s.writeField h total acc f = acc := by
  rcases ha with ha | ha <;> simp [State.writeField, ha]

theorem State.writeField_reserved (total : Nat) (acc : WrAcc) (ha : f.access = .rsvd) :
    s.writeField h total acc f = if bits total f.lsb f.width = 0 then acc
      else { acc with notes := acc.notes ++ [⟨f.lsb, f.width, 2, bits total f.lsb f.width, 0⟩] } := by
  simp [State.writeField, ha]

/-- A field in which ones count, with none written. -/
theorem State.writeField_noOnes {total : Nat} (acc : WrAcc) (ha : f.access = .w1s ∨ f.access = .w1c ∨ f.access = .wo)
    (hw : bits total f.lsb f.width = 0) : s.writeField h total acc f = acc := by
  rcases ha with ha | ha | ha <;> simp [State.writeField, ha, hw]

theorem State.writeField_shutOnes {total : Nat} (acc : WrAcc) (ha : f.access = .w1s ∨ f.access = .w1c ∨ f.access = .wo)
    (hs : s.shut h f = true) (hw : bits total f.lsb f.width ≠ 0) :
    s.writeField h total acc f
      = { acc with notes := acc.notes ++ [⟨f.lsb, f.width, 1, bits total f.lsb f.width, bits acc.value f.lsb f.width⟩] } := by
  rcases ha with ha | ha | ha <;> simp [State.writeField, ha, hs, hw]

/-- A field that is locked, or that another rule shuts. -/
theorem State.writeField_barred (total : Nat) (acc : WrAcc) (ha : f.access = .rw ∨ f.access = .rwl)
    (hb : s.shut h f = true ∨ f.access = .rwl ∧ s.locked = true) :
    s.writeField h total acc f = if bits total f.lsb f.width = bits acc.value f.lsb f.width then acc
      else { acc with notes := acc.notes ++ [⟨f.lsb, f.width, 1, bits total f.lsb f.width, bits acc.value f.lsb f.width⟩] } := by
  rcases hb with hs | ⟨hlock, hl⟩
  · rcases ha with ha | ha <;> simp [State.writeField, ha, hs]
  · simp [State.writeField, hlock, hl]

/-- A field that takes what is written, as the legal set has it. -/
theorem State.writeField_open (total : Nat) (acc : WrAcc) (ha : f.access = .rw ∨ f.access = .rwl)
    (hb : ¬(s.shut h f = true ∨ f.access = .rwl ∧ s.locked = true)) :
    let w := bits total f.lsb f.width
    let old := bits acc.value f.lsb f.width
    let legal := s.legalValue h f old w total
    s.writeField h total acc f = ⟨putBits acc.value f.lsb f.width legal,
      if legal = w ∨ w = old then acc.notes else acc.notes ++ [⟨f.lsb, f.width, 0, w, legal⟩]⟩ := by
  intro w old legal
  have hopen : (s.shut h f || (f.access == .rwl && s.locked)) = false := by
    rw [← Bool.not_eq_true]; simpa using hb
  have hvalue : s.writeField h total acc f
      = ⟨putBits acc.value f.lsb f.width legal, if legal != w && w != old then acc.notes ++ [⟨f.lsb, f.width, 0, w, legal⟩] else acc.notes⟩ := by
    rcases ha with ha | ha <;> rw [ha] at hopen <;> simp only [State.writeField, ha, hopen] <;> rfl
  rw [hvalue]
  have hnote : (legal != w && w != old) = true ↔ ¬(legal = w ∨ w = old) := by
    simp only [Bool.and_eq_true, bne_iff_ne, ne_eq, not_or]
  by_cases hc : legal = w ∨ w = old
  · rw [if_pos hc, if_neg (fun e => hnote.1 e hc)]
  · rw [if_neg hc, if_pos (hnote.2 hc)]

theorem State.writeField_clear (total : Nat) (acc : WrAcc) (ha : f.access = .w1c) (hs : s.shut h f = false) :
    let w := bits total f.lsb f.width
    let old := bits acc.value f.lsb f.width
    s.writeField h total acc f = { acc with value := putBits acc.value f.lsb f.width (old - (old &&& w)) } := by
  intro w old
  by_cases hw : w = 0
  · rw [State.writeField_noOnes acc (.inr (.inl ha)) hw, hw, Nat.and_zero, Nat.sub_zero, putBits_self]
  · simp [State.writeField, ha, hs, show bits total f.lsb f.width ≠ 0 from hw, w, old]

theorem State.writeField_set (total : Nat) (acc : WrAcc) (ha : f.access = .w1s) (hs : s.shut h f = false) (hl : f.legal = .any) :
    let w := bits total f.lsb f.width
    let old := bits acc.value f.lsb f.width
    s.writeField h total acc f = { acc with value := putBits acc.value f.lsb f.width (old ||| w) } := by
  intro w old
  by_cases hw : w = 0
  · rw [State.writeField_noOnes acc (.inl ha) hw, hw, Nat.or_zero, putBits_self]
  · simp [State.writeField, ha, hs, State.legalValue, Legal.fixed, hl, show bits total f.lsb f.width ≠ 0 from hw, w, old]

/-- A write of a field leaves the word's value alone or stores into that field. -/
theorem State.writeField_value (total : Nat) (acc : WrAcc) :
    (s.writeField h total acc f).value = acc.value ∨ ∃ x, (s.writeField h total acc f).value = putBits acc.value f.lsb f.width x := by
  unfold State.writeField
  extract_lets w old note ones changes
  split
  · split <;> exact .inl rfl
  · exact .inl rfl
  · exact .inl rfl
  · split
    · exact .inl rfl
    · split
      · split <;> exact .inl rfl
      · split <;> exact .inr ⟨_, rfl⟩

theorem State.writeField_otherBits (total : Nat) (acc : WrAcc) {g : FieldDesc} (hg : f.lsb + f.width ≤ g.lsb ∨ g.lsb + g.width ≤ f.lsb) :
    bits (s.writeField h total acc f).value g.lsb g.width = bits acc.value g.lsb g.width := by
  rcases State.writeField_value (s := s) (h := h) (f := f) total acc with e | ⟨x, e⟩
  · rw [e]
  · rw [e]
    exact bits_putBits_apart acc.value x (by simpa [FieldDesc.apart] using hg)

end Field

/-- Settles O44: one lemma for each access says what the whole write of the field is. -/
theorem fieldsFollowTheirAccess : Obligations.FieldsFollowTheirAccess := by
  intro s h total acc f w old r plain barred
  refine ⟨fun g hg => State.writeField_otherBits total acc hg, State.writeField_readOnly total acc, fun ha hw => ?_, fun ha hw => ?_,
    fun ha hw => State.writeField_noOnes acc ha hw, fun hp hw => ?_, State.writeField_barred total acc,
    fun ha hs hw => State.writeField_shutOnes acc ha hs hw, fun ha hs => ?_, fun ha hs hl => ?_, fun hp hb => ?_⟩
  · exact (State.writeField_reserved total acc ha).trans (if_pos hw)
  · exact (State.writeField_reserved total acc ha).trans (if_neg hw)
  · by_cases hb : barred
    · exact congrArg WrAcc.notes ((State.writeField_barred total acc hp hb).trans (if_pos hw))
    · exact (congrArg WrAcc.notes (State.writeField_open total acc hp hb)).trans (if_pos (.inr hw))
  · have e : r = _ := State.writeField_clear total acc ha hs
    rw [e]
    refine ⟨rfl, fun i => ?_⟩
    have hlt : old - (old &&& w) < 2 ^ f.width := Nat.lt_of_le_of_lt (Nat.sub_le ..) (bits_lt ..)
    rw [bits_putBits, Nat.mod_eq_of_lt hlt, testBit_sub_and]
  · have e : r = _ := State.writeField_set total acc ha hs hl
    rw [e]
    have hlt : old ||| w < 2 ^ f.width := Nat.or_lt_two_pow (bits_lt ..) (bits_lt ..)
    exact ⟨rfl, (bits_putBits ..).trans (Nat.mod_eq_of_lt hlt)⟩
  · have e : r = _ := State.writeField_open total acc hp hb
    rw [e]
    exact ⟨bits_putBits .., rfl⟩

/-! ### What a write stores in a unit of memory (R11, R240) -/

section Stores

variable {s : State} {a : Nat} {bs : List Byte} {poison : Bool}

/-- Bytes put one after the other from `a + k` on. -/
theorem SMap.getD_foldPut {m : SMap Byte} (hm : SMap.wf m = true) (bs : List Byte) (a k b : Nat) :
    SMap.getD ((bs.zipIdx k).foldl (fun m p => SMap.put m (a + p.2) 0 p.1) m) b 0
      = if a + k ≤ b ∧ b < a + k + bs.length then bs.getD (b - (a + k)) 0 else SMap.getD m b 0 := by
  induction bs generalizing m k with
  | nil => rw [if_neg (by rw [List.length_nil]; omega)]; rfl
  | cons x xs ih =>
    rw [List.zipIdx_cons, List.foldl_cons, ih (SMap.wf_put _ _ _ hm) (k + 1), SMap.getD_put m _ _ 0 x 0 hm (fun _ => rfl), List.length_cons]
    by_cases hb : a + k = b
    · subst hb
      rw [if_neg (by omega), if_pos rfl, if_pos (by omega), Nat.sub_self, List.getD_cons_zero]
    · rw [if_neg hb]
      by_cases hr : a + (k + 1) ≤ b ∧ b < a + (k + 1) + xs.length
      · rw [if_pos hr, if_pos (by omega), show b - (a + k) = b - (a + (k + 1)) + 1 by omega, List.getD_cons_succ]
      · rw [if_neg hr, if_neg (by omega)]

/-- The bytes of memory after bytes were stored. -/
theorem State.byte_setBytes (hm : SMap.wf s.mem = true) (b : Nat) :
    (s.setBytes a bs).byte b = if a ≤ b ∧ b < a + bs.length then bs.getD (b - a) 0 else s.byte b :=
  SMap.getD_foldPut hm bs a 0 b

theorem mem_setErase {l : List Nat} {k x : Nat} : x ∈ setErase l k ↔ x ∈ l ∧ x ≠ k := by simp [setErase]

/-! A DRAM channel counts the bytes it transfers (R268); nothing else follows from the count. -/

@[simp] theorem State.countBytes_mem (n : Nat) : (s.countBytes a n).mem = s.mem := by unfold State.countBytes; split <;> rfl
@[simp] theorem State.countBytes_poison (n : Nat) : (s.countBytes a n).poison = s.poison := by unfold State.countBytes; split <;> rfl
@[simp] theorem State.countBytes_damage (n : Nat) : (s.countBytes a n).damage = s.damage := by unfold State.countBytes; split <;> rfl
@[simp] theorem State.countBytes_arms (n : Nat) : (s.countBytes a n).arms = s.arms := by unfold State.countBytes; split <;> rfl

theorem State.rd_countBytes {b : Nat} (n : Nat) (h : ∀ c, Reg.MEM_CH_BYTES_LO c ≠ b ∧ Reg.MEM_CH_BYTES_LO c + 4 ≠ b) :
    (s.countBytes a n).rd b = s.rd b := by
  unfold State.countBytes
  split
  · exact State.rd_wr64_ne _ (h _).1 (h _).2
  · rfl

/-- Where an address lies is a matter of the ordering code and the fuse mask (R5, R6, R33). -/
theorem State.target_congr {t : State} (hcode : t.rd Reg.TOP_IDENT = s.rd Reg.TOP_IDENT)
    (hlo : t.rd Reg.TOP_ANV_MASK_LO = s.rd Reg.TOP_ANV_MASK_LO) (hhi : t.rd (Reg.TOP_ANV_MASK_LO + 4) = s.rd (Reg.TOP_ANV_MASK_LO + 4)) (a : Nat) :
    t.target a = s.target a := by
  have hmb : t.isMB = s.isMB := congrArg (fun w : Word => bits w.toNat 24 4 == 2) hcode
  have hfuse : t.fusedIn = s.fusedIn := by
    funext n
    unfold State.fusedIn State.rd64
    rw [hlo, hhi]
  have htop : t.usableTop = s.usableTop := by unfold State.usableTop; rw [hmb]
  unfold State.target
  rw [htop, hfuse]

theorem State.target_countBytes (n b : Nat) : (s.countBytes a n).target b = s.target b := by
  apply State.target_congr <;> apply State.rd_countBytes <;> intro c <;>
    simp only [Reg.MEM_CH_BYTES_LO, Reg.TOP_IDENT, Reg.TOP_ANV_MASK_LO] <;> omega

theorem State.channelFailed_countBytes (n b : Nat) : (s.countBytes a n).channelFailed b = s.channelFailed b := by
  have hst (c : Nat) : (s.countBytes a n).fld (Reg.MEM_CH_STATUS.STATE c) = s.fld (Reg.MEM_CH_STATUS.STATE c) := by
    unfold State.fld
    rw [State.rd_countBytes]
    intro d
    simp only [Reg.MEM_CH_BYTES_LO, Reg.MEM_CH_STATUS.STATE, Reg.MEM_CH_STATUS]
    omega
  unfold State.channelFailed
  rw [State.target_countBytes]
  split <;> simp only [hst]

/-- The unit's poison mark after a store: a clean store of a whole unit clears it, a clean one of a part keeps it (R240). -/
def State.badAfter (s : State) (a : Nat) (bs : List Byte) (poison : Bool) : Bool := poison || (bs.length != 32 && s.isPoisoned a)

/-- A store into a unit whose channel works and whose stored code has no error. -/
theorem State.storeUnit_sound (hf : s.channelFailed a = false) (hd : SMap.find? s.damage (a / 32) = none) :
    s.storeUnit a bs poison = { (s.countBytes a bs.length).setBytes a bs with
      poison := if s.badAfter a bs poison then setInsert s.poison (a / 32) else setErase s.poison (a / 32)
      damage := SMap.erase s.damage (a / 32) } := by
  unfold State.storeUnit State.badAfter
  by_cases hw : bs.length = 32 <;>
    simp [State.channelFailed_countBytes, hf, hd, hw, State.isPoisoned, State.setBytes]

theorem State.spendInject_unarmed (hcru : s.arms.cru = false) (hue : s.arms.memUe = []) (hce : s.arms.memCe = []) : s.spendInject a = s := by
  unfold State.spendInject
  split <;> simp [hcru, hue, hce]

/-- No mirrored store outside the billet stores (R246). -/
theorem State.putUnit_noMirror (ht : ∀ n, (s.storeUnit a bs poison).target a ≠ .billet n)
    (hi : (s.storeUnit a bs poison).spendInject a = s.storeUnit a bs poison) : s.putUnit a bs poison = s.storeUnit a bs poison := by
  unfold State.putUnit
  rw [hi]
  dsimp only
  split
  · next n h => exact absurd h (ht n)
  · rfl

/-- A poison mark is a unit's own. -/
theorem State.isPoisoned_marked {t : State} {u : Nat} {bad : Bool} (ht : t.poison = if bad then setInsert s.poison u else setErase s.poison u) (b : Nat) :
    t.isPoisoned b = if b / 32 = u then bad else s.isPoisoned b := by
  unfold State.isPoisoned
  rw [ht, Bool.eq_iff_iff, List.contains_iff_mem]
  by_cases hb : b / 32 = u <;> cases bad <;> simp [mem_setInsert, mem_setErase, hb]

end Stores

/-- Settles O57: with the checks passed and nothing armed, the write is one store into a unit without errors. -/
theorem fabricWritesStoreTheirBytes : Obligations.FabricWritesStoreTheirBytes := by
  intro s rq a bs poison charge hc hacc hbil hcru hue hce hdam hch _ _
  have hstore := State.storeUnit_sound (bs := bs) (poison := poison) hch hdam
  have hput : s.putUnit a bs poison = s.storeUnit a bs poison := by
    apply State.putUnit_noMirror
    · intro n hn
      rw [hstore] at hn
      exact hbil n ((State.target_countBytes bs.length a).symm.trans hn)
    · apply State.spendInject_unarmed <;> rw [hstore] <;> simpa [State.setBytes]
  have hpoison : (s.storeUnit a bs poison).poison
      = if s.badAfter a bs poison then setInsert s.poison (a / 32) else setErase s.poison (a / 32) := by rw [hstore]
  refine ⟨s.storeUnit a bs poison, ?_, fun b => ?_, ?_, fun b hb => ?_⟩
  · simp only [State.writeUnit, hacc, hput]
  · have hb := State.byte_setBytes (s := s.countBytes a bs.length) (a := a) (bs := bs) (by simpa using hc.mem.1) b
    rw [hstore]
    exact hb.trans (by simp only [State.byte, State.countBytes_mem])
  · rw [State.isPoisoned_marked hpoison, if_pos rfl, State.badAfter]
  · rw [State.isPoisoned_marked hpoison, if_neg hb]

end Sys2Proof.Machine

/-! PROOFS. The obligations on the block's architecture: control of the Narultil ports, wakes and the sentinel's timers. -/

namespace Sys2Proof.Machine

/-! Most meanings begin with a guard: a command whose event cannot occur leaves the state as it is (log 2). Past a guard that is false, the rest of the
meaning is what the command does. -/

theorem next_if_neg {s t : State} {c : Prop} [Decidable c] (h : ¬c) :
    (.next (if c then s else t) : Host.Outcome State Fault Refusal) = .next t :=
  congrArg Host.Outcome.next (if_neg h)

theorem next_if_pos {s t : State} {c : Prop} [Decidable c] (h : c) :
    (.next (if c then s else t) : Host.Outcome State Fault Refusal) = .next s :=
  congrArg Host.Outcome.next (if_pos h)

/-! ### Narultil ports (R42, R430, R431, R433, R457) -/

/-- A message is heard on a port that is up, when nothing is wrong with it and its type is the command's (R432). -/
theorem State.hears_iff {s : State} {n ty : Nat} {m : LinkMsg} :
    s.hears n m ty = true ↔ s.linkUp n = true ∧ s.badMsg n m = false ∧ m.type = ty := by
  simp [State.hears, and_assoc]

/-- Settles O34: LINK_TRAIN is a write of ENABLE or RETRAIN that reaches its register; the other meanings are the claimed effects, past guards that ask
for a port in training, a port that is up, an acknowledgement owed, a codeword to send again, a message that is heard. -/
theorem linkControlCommandsComplete : Obligations.LinkControlCommandsComplete := by
  intro s who q seq
  refine ⟨execLinkTrain_does q, execLinkTrain_again q, fun r htraining => ?_, fun hup => ⟨?_, ?_, ?_, fun howed => ?_, ?_⟩, fun m hm => ?_⟩
  · exact next_if_neg (by simp [htraining])
  · exact next_if_neg (by simp [hup])
  · exact next_if_neg (by simp [hup])
  · exact next_if_neg (by simp [hup])
  · exact next_if_neg (by simp [hup, howed])
  · intro again t u hagain
    have hsome : again.isEmpty = false := List.isEmpty_eq_false_iff.2 hagain
    have hguard : ¬((!s.linkUp q || again.isEmpty) = true) := by simp [hup, hsome]
    exact next_if_neg hguard
  · obtain ⟨hup, hgood, htype⟩ := State.hears_iff.1 hm
    exact (next_if_neg (by simp [hup])).trans <| (next_if_neg (by simp [hgood])).trans <| next_if_neg (by simp [htype])

/-! ### The sentinel's timers and pins (R331, R472, R473, R480) -/

section Sentinel

variable {s : State}

/-- Power and reset alone decide whether the block operates. -/
theorem State.operates_modModes {f : ModeSt → ModeSt} (hp : ∀ m, (f m).powered = m.powered) (hr : ∀ m, (f m).inReset = m.inReset) :
    (s.modModes f).operates = s.operates := by
  simp [State.operates, State.modModes, hp, hr]

/-- In PARKED the sentinel's count alone moves with time. -/
theorem State.sntReach_parked (h : s.inParked = true) (t : Nat) :
    s.sntReach t = s.modModes (fun m => { m with sentinel := max m.sentinel (((t - s.parkedNs) * 6 + 124) / 125) }) :=
  if_pos h

/-! A periodic event of the sentinel in PARKED leaves the registers and the sensor readings alone. -/

theorem State.sntEvery_regs (h : s.inParked = true) (key period : Nat) : (s.sntEvery key period).regs = s.regs := by
  unfold State.sntEvery
  rw [State.sntReach_parked h, State.modModes_regs]

theorem State.sntEvery_sensors (h : s.inParked = true) (key period : Nat) : (s.sntEvery key period).sensors = s.sensors := by
  unfold State.sntEvery
  rw [State.sntReach_parked h, State.modModes_sensors]

theorem State.sntEvery_fld (h : s.inParked = true) (key period : Nat) (f : FRef) : (s.sntEvery key period).fld f = s.fld f := by
  unfold State.fld State.rd
  rw [State.sntEvery_regs h]

theorem State.sntEvery_supplyOk (h : s.inParked = true) (key period : Nat) : (s.sntEvery key period).supplyOk = s.supplyOk := by
  unfold State.supplyOk
  rw [State.sntEvery_fld h, State.sntEvery_sensors h]

/-! The mode is a register's field (R29), which no pin is part of. -/

@[simp] theorem State.inParked_modModes (f : ModeSt → ModeSt) : (s.modModes f).inParked = s.inParked := rfl

@[simp] theorem State.inParked_releasePcieWake : s.releasePcieWake.inParked = s.inParked := by
  unfold State.releasePcieWake
  split <;> rfl

end Sentinel

/-- Settles O40: past the guards each meaning is the claimed effect. A camera or accelerometer sample compares after its period has passed, with the
threshold and the supply of the state before it: in PARKED that time moves the sentinel's count alone. -/
theorem wakeCommandsComplete : Obligations.WakeCommandsComplete := by
  intro s
  refine ⟨fun hfree hpin => ?_, fun hcan => ?_, fun hop hpark => ⟨fun difference hcam hfar hsup => ?_, fun mg hacc => ?_, fun x parkOk shorePwr => ?_,
    fun hproof hsup => ?_, fun hcool => ?_, fun hlow => ?_⟩, fun at_ hat => ?_, fun at_ hat => ?_, ⟨rfl, rfl⟩, fun hop => ⟨?_, ?_⟩⟩
  · exact next_if_neg (by simp [hfree, hpin])
  · exact next_if_pos hcan
  · exact (next_if_neg (by simp [hop, hpark, hcam])).trans <|
      next_if_pos (by simp [State.sntEvery_fld hpark, State.sntEvery_supplyOk hpark, hfar, hsup])
  · intro u t
    have hthresh : u.fld Reg.SNT_ACC_CFG.THRESH_MG = s.fld Reg.SNT_ACC_CFG.THRESH_MG := State.sntEvery_fld hpark ..
    rw [← hthresh]
    exact next_if_neg (by simp [hop, hpark, hacc])
  · exact next_if_neg (by simp [hop, hpark])
  · exact (next_if_neg (by simp [hop])).trans <| next_if_pos (by simp [hpark, hproof, hsup])
  · exact next_if_neg (by simp [hop, hpark, hcool])
  · exact (next_if_neg (by simp [State.operates_modModes, hop])).trans <| (next_if_neg (by simp)).trans <|
      (next_if_neg (by simp [hlow])).trans <| next_if_pos (by simp [hpark])
  · simp only [exec, execPcieWakeTimeout, hat]
  · simp only [exec, execWakePulseEnd, hat]
  · exact next_if_neg (by simp [State.operates_modModes, hop])
  · exact next_if_neg (by simp [State.operates_modModes, hop])

end Sys2Proof.Machine

/-! PROOFS. The obligations on arithmetic: rounding, conversion, read-out of zero sums, the residue plane. -/

namespace Sys2Proof.Machine

/-! ### Rounding (R59) -/

section Rounding

variable {num den : Nat}

/-! Each mode keeps the whole units or takes one more, by the part of a unit that is left over. -/

theorem roundMag_nearestEven (neg : Bool) (hden : 0 < den) : roundMag 0 neg num den
    = if 2 * (num % den) < den then num / den else if den < 2 * (num % den) then num / den + 1 else num / den + num / den % 2 := by
  simp only [roundMag]
  by_cases hexact : num % den = 0
  · rw [if_pos hexact, hexact, if_pos (by omega)]
  · rw [if_neg hexact]

theorem roundMag_nearestAway (neg : Bool) (hden : 0 < den) :
    roundMag 1 neg num den = if 2 * (num % den) < den then num / den else num / den + 1 := by
  simp only [roundMag]
  by_cases hexact : num % den = 0
  · rw [if_pos hexact, hexact, if_pos (by omega)]
  · rw [if_neg hexact]

theorem roundMag_toward {rm : Nat} {neg : Bool} (h : rm = 2 ∨ rm = 3 ∧ neg = false ∨ rm = 4 ∧ neg = true) :
    roundMag rm neg num den = num / den := by
  rcases h with rfl | ⟨rfl, rfl⟩ | ⟨rfl, rfl⟩ <;> exact ite_self _

theorem roundMag_away {rm : Nat} {neg : Bool} (h : rm = 3 ∧ neg = true ∨ rm = 4 ∧ neg = false) :
    roundMag rm neg num den = if num % den = 0 then num / den else num / den + 1 := by
  rcases h with ⟨rfl, rfl⟩ | ⟨rfl, rfl⟩ <;> rfl

theorem roundMag_zero (rm : Nat) (neg : Bool) (den : Nat) : roundMag rm neg 0 den = 0 := by simp [roundMag]

/-- The magnitude in whole units and a rest, and the next unit above. -/
theorem units_and_rest (num : Nat) (hden : 0 < den) :
    num = num / den * den + num % den ∧ num % den < den ∧ (num / den + 1) * den = num / den * den + den :=
  ⟨(Nat.div_add_mod' num den).symm, Nat.mod_lt _ hden, Nat.succ_mul ..⟩

theorem roundMag_nearest {rm : Nat} (h : rm = 0 ∨ rm = 1) (neg : Bool) (hden : 0 < den) :
    2 * (roundMag rm neg num den * den) ≤ 2 * num + den ∧ 2 * num ≤ 2 * (roundMag rm neg num den * den) + den := by
  obtain ⟨hnum, hrest, hup⟩ := units_and_rest num hden
  rcases h with rfl | rfl
  · rw [roundMag_nearestEven neg hden]
    split
    · omega
    · split
      · omega
      · rcases Nat.mod_two_eq_zero_or_one (num / den) with hq | hq
        · rw [hq, Nat.add_zero]; omega
        · rw [hq]; omega
  · rw [roundMag_nearestAway neg hden]
    split <;> omega

theorem roundMag_tie_even (neg : Bool) (hden : 0 < den)
    (htie : 2 * num = 2 * (roundMag 0 neg num den * den) + den ∨ 2 * num + den = 2 * (roundMag 0 neg num den * den)) :
    roundMag 0 neg num den % 2 = 0 := by
  obtain ⟨hnum, hrest, hup⟩ := units_and_rest num hden
  rw [roundMag_nearestEven neg hden] at htie ⊢
  by_cases hbelow : 2 * (num % den) < den
  · rw [if_pos hbelow] at htie
    omega
  · rw [if_neg hbelow] at htie ⊢
    by_cases habove : den < 2 * (num % den)
    · rw [if_pos habove] at htie
      omega
    · rw [if_neg habove]
      omega

theorem roundMag_tie_away (neg : Bool) (hden : 0 < den) : 2 * num < 2 * (roundMag 1 neg num den * den) + den := by
  obtain ⟨hnum, hrest, hup⟩ := units_and_rest num hden
  rw [roundMag_nearestAway neg hden]
  split <;> omega

theorem roundMag_below {rm : Nat} {neg : Bool} (h : rm = 2 ∨ rm = 3 ∧ neg = false ∨ rm = 4 ∧ neg = true) (hden : 0 < den) :
    roundMag rm neg num den * den ≤ num ∧ num < roundMag rm neg num den * den + den := by
  rw [roundMag_toward h]
  exact ⟨Nat.div_mul_le_self .., Nat.lt_div_mul_add hden⟩

theorem roundMag_above {rm : Nat} {neg : Bool} (h : rm = 3 ∧ neg = true ∨ rm = 4 ∧ neg = false) (hden : 0 < den) :
    num ≤ roundMag rm neg num den * den ∧ roundMag rm neg num den * den < num + den := by
  obtain ⟨hnum, hrest, hup⟩ := units_and_rest num hden
  rw [roundMag_away h]
  split <;> omega

end Rounding

/-! ### Two's complement and conversion to the integer formats (R45, R61) -/

theorem unsign_zero (w : Nat) : unsign w 0 = 0 := by simp [unsign]

theorem signed_unsign {w : Nat} (hw : 0 < w) {x : Int} (hlo : -(2 ^ (w - 1) : Nat) ≤ x) (hhi : x ≤ (2 ^ (w - 1) : Nat) - 1) :
    signed w (unsign w x) = x := by
  have h2 : 2 ^ w = 2 * 2 ^ (w - 1) := by rw [← Nat.pow_succ', Nat.succ_eq_add_one, Nat.sub_add_cancel hw]
  unfold signed unsign
  rw [if_neg (Nat.ne_of_gt hw), h2]
  generalize 2 ^ (w - 1) = b at *
  by_cases hx : x < 0
  · rw [← Int.add_emod_right, Int.emod_eq_of_lt (by omega) (by omega), Nat.mod_eq_of_lt (by omega), if_neg (by omega)]
    omega
  · rw [Int.emod_eq_of_lt (by omega) (by omega), Nat.mod_eq_of_lt (by omega), if_pos (by omega)]
    omega

theorem clampInt_mem {lo hi : Int} (h : lo ≤ hi) (x : Int) : lo ≤ clampInt lo hi x ∧ clampInt lo hi x ≤ hi := by
  unfold clampInt
  split
  · omega
  · split <;> omega

/-- The integer that a conversion to an integer format writes (R61). -/
def intValue (f rm : Nat) : Num → Int
  | .nan => 0
  | .inf neg => if neg then (intRange f).1 else (intRange f).2
  | .fin neg m e => clampInt (intRange f).1 (intRange f).2 (Num.round rm (.fin neg m e))

theorem encode_int {f : Nat} (hf : isFp f = false) (rm : Nat) (sat : Bool) (v : Num) : encode f rm sat v = unsign (fmtBits f) (intValue f rm v) := by
  unfold encode
  rw [hf]
  cases v <;> rfl

theorem fmtBits_pos (f : Nat) : 0 < fmtBits f := by
  unfold fmtBits
  repeat' split
  all_goals decide

theorem intRange_zero (f : Nat) : (intRange f).1 ≤ 0 ∧ 0 ≤ (intRange f).2 := by
  have h : 0 < 2 ^ (fmtBits f - 1) := Nat.two_pow_pos _
  simp only [intRange]
  omega

theorem intValue_mem (f rm : Nat) (v : Num) : (intRange f).1 ≤ intValue f rm v ∧ intValue f rm v ≤ (intRange f).2 := by
  obtain ⟨hlo, hhi⟩ := intRange_zero f
  cases v with
  | nan => exact ⟨hlo, hhi⟩
  | inf neg =>
    cases neg with
    | false => exact ⟨Int.le_trans hlo hhi, Int.le_refl _⟩
    | true => exact ⟨Int.le_refl _, Int.le_trans hlo hhi⟩
  | fin neg m e => exact clampInt_mem (Int.le_trans hlo hhi) _

/-- The code of an integer format is read back as the integer that was written. -/
theorem signed_encode {f : Nat} (hf : isFp f = false) (rm : Nat) (sat : Bool) (v : Num) :
    signed (fmtBits f) (encode f rm sat v) = intValue f rm v := by
  obtain ⟨hlo, hhi⟩ := intValue_mem f rm v
  rw [encode_int hf]
  exact signed_unsign (fmtBits_pos f) hlo hhi

/-- Settles O52: a rounding keeps the whole units or takes one more; a conversion clamps the rounded value into the range, where a code is read back
as it was written. -/
theorem conversionsRoundAndSaturate : Obligations.ConversionsRoundAndSaturate := by
  refine ⟨fun neg num den hden => ⟨fun rm hrm => roundMag_nearest hrm neg hden, roundMag_tie_even neg hden, roundMag_tie_away neg hden,
    roundMag_below (.inl rfl) hden, ?_, ?_⟩, fun f hf rm sat => ?_⟩
  · rintro rfl
    obtain ⟨hge, hlt⟩ := roundMag_above (num := num) (.inl ⟨rfl, rfl⟩) hden
    exact ⟨hge, hlt, (roundMag_toward (.inr (.inr ⟨rfl, rfl⟩))).trans (roundMag_toward (.inl rfl)).symm⟩
  · rintro rfl
    obtain ⟨hge, hlt⟩ := roundMag_above (num := num) (.inr ⟨rfl, rfl⟩) hden
    exact ⟨hge, hlt, (roundMag_toward (.inr (.inl ⟨rfl, rfl⟩))).trans (roundMag_toward (.inl rfl)).symm⟩
  · have hint : isFp f = false := (show ∀ f ∈ [fmtInt4, fmtInt8, fmtInt32], isFp f = false by decide) f hf
    have hgot := signed_encode hint rm sat
    exact ⟨hgot .nan, hgot (.inf false), hgot (.inf true), fun neg m e => hgot (.fin neg m e)⟩

/-! ### Codes of the floating-point formats (R46, R47) -/

/-- The widths and the bias of a format, by name. -/
def expBits (f : Nat) : Nat := (fpShape f).1
def fracBits (f : Nat) : Nat := (fpShape f).2.1
def expBias (f : Nat) : Nat := (fpShape f).2.2

/-- The exponent and the fraction of a code. -/
def expOf (f v : Nat) : Nat := bits v (fracBits f) (expBits f)
def fracOf (f v : Nat) : Nat := bits v 0 (fracBits f)

/-- The sign bit in its place. -/
def signCode (f : Nat) (neg : Bool) : Nat := if neg then 2 ^ (expBits f + fracBits f) else 0

/-- An infinity of a format that has them (R46). -/
def infMag (f : Nat) : Nat := (2 ^ expBits f - 1) * 2 ^ fracBits f

theorem fmtBits_eq {f : Nat} (h : isFp f = true) : fmtBits f = expBits f + fracBits f + 1 := by
  have hf : f = 2 ∨ f = 3 ∨ f = 4 ∨ f = 5 ∨ f = 6 := by
    simp only [isFp, Bool.and_eq_true, decide_eq_true_eq] at h
    omega
  rcases hf with rfl | rfl | rfl | rfl | rfl <;> rfl

theorem one_le_expBias (f : Nat) : 1 ≤ expBias f := by
  unfold expBias fpShape
  repeat' split
  all_goals decide

/-- A code is its sign, its exponent and its fraction. -/
theorem code_split {f v : Nat} (hv : v < 2 ^ (expBits f + fracBits f + 1)) :
    v = signCode f (bitAt v (expBits f + fracBits f)) + (expOf f v * 2 ^ fracBits f + fracOf f v) := by
  have hmag : v % 2 ^ (expBits f + fracBits f) = expOf f v * 2 ^ fracBits f + fracOf f v := by
    rw [Nat.add_comm (expBits f), Nat.pow_add, Nat.mod_mul, expOf, fracOf, bits, bits, Nat.shiftRight_eq_div_pow, Nat.shiftRight_zero,
      Nat.add_comm, Nat.mul_comm (2 ^ fracBits f)]
  have hsign : v / 2 ^ (expBits f + fracBits f) < 2 := Nat.div_lt_of_lt_mul (by rwa [← Nat.pow_succ])
  rw [← hmag, signCode, bitAt, Nat.shiftRight_eq_div_pow, Nat.mod_eq_of_lt hsign]
  refine (Nat.div_add_mod v (2 ^ (expBits f + fracBits f))).symm.trans (congrArg (· + _) ?_)
  rcases Nat.le_one_iff_eq_zero_or_eq_one.1 (Nat.le_of_lt_succ hsign) with h | h <;> rw [h]
  · exact Nat.mul_zero _
  · exact Nat.mul_one _

theorem fpDecode_eq (f v : Nat) : fpDecode f v =
    let neg := bitAt v (expBits f + fracBits f)
    if expOf f v = 2 ^ expBits f - 1 then
      if f = fmtE4M3 then if fracOf f v = 7 then .nan else .fin neg (fracOf f v + 8) ((expOf f v : Int) - expBias f - 3)
      else if fracOf f v = 0 then .inf neg else .nan
    else if expOf f v = 0 then .fin neg (fracOf f v) (1 - (expBias f : Int) - fracBits f)
    else .fin neg (fracOf f v + 2 ^ fracBits f) ((expOf f v : Int) - expBias f - fracBits f) := rfl

/-- What a code with a finite value holds: subnormal with exponent 0, normal with any other. -/
theorem fpDecode_fin {f v m : Nat} {neg : Bool} {e : Int} (h : fpDecode f v = .fin neg m e) :
    neg = bitAt v (expBits f + fracBits f)
    ∧ (expOf f v = 0 ∧ m = fracOf f v ∧ e = 1 - (expBias f : Int) - fracBits f
      ∨ expOf f v ≠ 0 ∧ m = fracOf f v + 2 ^ fracBits f ∧ e = (expOf f v : Int) - expBias f - fracBits f) := by
  rw [fpDecode_eq] at h
  extract_lets at h
  by_cases htop : expOf f v = 2 ^ expBits f - 1
  · rw [if_pos htop] at h
    by_cases h43 : f = fmtE4M3
    · subst h43
      rw [if_pos rfl] at h
      have hE : expOf fmtE4M3 v ≠ 0 := by rw [htop]; decide
      split at h
      · cases h
      · injection h with hneg hm he
        exact ⟨hneg.symm, .inr ⟨hE, hm.symm, he.symm⟩⟩
    · rw [if_neg h43] at h
      split at h <;> cases h
  · rw [if_neg htop] at h
    by_cases hsub : expOf f v = 0
    · rw [if_pos hsub] at h
      injection h with hneg hm he
      exact ⟨hneg.symm, .inl ⟨hsub, hm.symm, he.symm⟩⟩
    · rw [if_neg hsub] at h
      injection h with hneg hm he
      exact ⟨hneg.symm, .inr ⟨hsub, hm.symm, he.symm⟩⟩

theorem fpDecode_inf {f v : Nat} {neg : Bool} (h : fpDecode f v = .inf neg) :
    f ≠ fmtE4M3 ∧ neg = bitAt v (expBits f + fracBits f) ∧ expOf f v * 2 ^ fracBits f + fracOf f v = infMag f := by
  rw [fpDecode_eq] at h
  extract_lets at h
  by_cases htop : expOf f v = 2 ^ expBits f - 1
  · rw [if_pos htop] at h
    by_cases h43 : f = fmtE4M3
    · rw [if_pos h43] at h
      split at h <;> cases h
    · rw [if_neg h43] at h
      by_cases hinf : fracOf f v = 0
      · rw [if_pos hinf] at h
        injection h with hneg
        exact ⟨h43, hneg.symm, by rw [htop, hinf, infMag, Nat.add_zero]⟩
      · rw [if_neg hinf] at h
        cases h
  · rw [if_neg htop] at h
    split at h <;> cases h

theorem maxFinite_of_ne {f : Nat} (hf : f ≠ fmtE4M3) : maxFinite f = infMag f - 1 := by
  simp [maxFinite, hf, infMag, expBits, fracBits]

theorem fpDecode_fin_le {f v m : Nat} {neg : Bool} {e : Int} (h : fpDecode f v = .fin neg m e) :
    expOf f v * 2 ^ fracBits f + fracOf f v ≤ maxFinite f := by
  have hE : expOf f v < 2 ^ expBits f := bits_lt ..
  have hF : fracOf f v < 2 ^ fracBits f := bits_lt ..
  rw [fpDecode_eq] at h
  extract_lets at h
  by_cases h43 : f = fmtE4M3
  · subst h43
    have hnan : expOf fmtE4M3 v = 2 ^ expBits fmtE4M3 - 1 → fracOf fmtE4M3 v ≠ 7 := by
      intro htop hnan
      rw [if_pos htop, if_pos rfl, if_pos hnan] at h
      cases h
    change _ < 16 at hE
    change _ < 8 at hF
    change _ = 15 → _ at hnan
    change _ * 8 + _ ≤ 126
    omega
  · have htop : expOf f v ≠ 2 ^ expBits f - 1 := by
      intro htop
      rw [if_pos htop, if_neg h43] at h
      split at h <;> cases h
    have hmul : (expOf f v + 1) * 2 ^ fracBits f ≤ infMag f := Nat.mul_le_mul_right _ (by omega)
    rw [Nat.add_mul, Nat.one_mul] at hmul
    rw [maxFinite_of_ne h43]
    omega

theorem fpDecode_exp_ge (f v : Nat) : 1 - (expBias f : Int) - fracBits f ≤ (fpDecode f v).exp := by
  have hb := one_le_expBias f
  cases hd : fpDecode f v with
  | nan => simp only [Num.exp]; omega
  | inf neg => simp only [Num.exp]; omega
  | fin neg m e =>
    obtain ⟨-, ⟨-, -, he⟩ | ⟨hE, -, he⟩⟩ := fpDecode_fin hd <;> simp only [Num.exp] <;> omega

/-! ### Conversion to a floating-point format (R60) -/

theorem roundUnits_self (rm : Nat) (neg : Bool) (m : Nat) (e : Int) : roundUnits rm neg m e e = m := by simp [roundUnits]

theorem fpEncode_nan (f rm : Nat) (sat : Bool) : fpEncode f rm sat .nan = nanCode f := rfl

theorem fpEncode_inf {f : Nat} (hf : f ≠ fmtE4M3) (rm : Nat) (neg : Bool) : fpEncode f rm false (.inf neg) = signCode f neg + infMag f := by
  simp [fpEncode, hf, signCode, infMag, expBits, fracBits]

theorem fpEncode_zero (f rm : Nat) (sat neg : Bool) (e : Int) : fpEncode f rm sat (.fin neg 0 e) = signCode f neg := rfl

/-- A value that the format holds exactly: its last place is the last place `e` of the format there, so nothing is rounded. -/
theorem fpEncode_exact {f m : Nat} {e : Int} (hm : m ≠ 0) (hlast : max ((Nat.log2 m : Int) + e) (1 - (expBias f : Int)) - fracBits f = e)
    (hlt : m < 2 ^ (fracBits f + 1)) (rm : Nat) (sat neg : Bool) {c : Nat}
    (hc : c = if m < 2 ^ fracBits f then m else (e + fracBits f + expBias f).toNat * 2 ^ fracBits f + (m - 2 ^ fracBits f))
    (hle : c ≤ maxFinite f) : fpEncode f rm sat (.fin neg m e) = signCode f neg + c := by
  subst hc
  unfold expBias fracBits at *
  unfold fpEncode signCode expBits fracBits
  obtain ⟨m, rfl⟩ := Nat.exists_eq_succ_of_ne_zero hm
  simp [hlast, roundUnits_self, Nat.ne_of_lt hlt, hle]

theorem fpEncode_fpDecode_fin {f v m : Nat} {neg : Bool} {e : Int} (hv : v < 2 ^ (expBits f + fracBits f + 1))
    (h : fpDecode f v = .fin neg m e) (rm : Nat) (sat : Bool) : fpEncode f rm sat (.fin neg m e) = v := by
  have hle := fpDecode_fin_le h
  have hfrac : fracOf f v < 2 ^ fracBits f := bits_lt ..
  obtain ⟨rfl, ⟨hE, rfl, rfl⟩ | ⟨hE, rfl, rfl⟩⟩ := fpDecode_fin h
  · refine Eq.trans ?_ (code_split hv).symm
    rw [hE, Nat.zero_mul, Nat.zero_add]
    by_cases hm : fracOf f v = 0
    · rw [hm, fpEncode_zero, Nat.add_zero]
    · have hlog : Nat.log2 (fracOf f v) < fracBits f := (Nat.log2_lt hm).2 hfrac
      exact fpEncode_exact hm (by omega) (by rw [Nat.pow_succ]; omega) _ _ _ (by rw [if_pos hfrac]) (by omega)
  · have hlog : Nat.log2 (fracOf f v + 2 ^ fracBits f) = fracBits f := by
      rw [Nat.log2_eq_iff (by omega), Nat.pow_succ]; omega
    refine Eq.trans ?_ (code_split hv).symm
    refine fpEncode_exact (by omega) (by rw [hlog]; omega) (by rw [Nat.pow_succ]; omega) _ _ _ ?_ hle
    rw [if_neg (by omega), Nat.add_sub_cancel]
    congr 2
    omega

/-- Settles O53: a finite code is split into sign, exponent and fraction, and its value has its last place where the format has it. -/
theorem formatsRoundTrip : Obligations.FormatsRoundTrip := by
  intro f hf v rm hv
  have hfp : isFp f = true := (show ∀ f ∈ [fmtE4M3, fmtE5M2, fmtFp16, fmtBf16, fmtFp32], isFp f = true by decide) f hf
  rw [fmtBits_eq hfp] at hv
  simp only [decode, encode, hfp, if_true]
  refine ⟨fun h sat => ?_, fun neg h => ?_, fun neg m e h sat => ?_⟩ <;> rw [h]
  · exact fpEncode_nan ..
  · obtain ⟨hne, rfl, hmag⟩ := fpDecode_inf h
    exact (fpEncode_inf hne rm _).trans ((congrArg (signCode f _ + ·) hmag).symm.trans (code_split hv).symm)
  · exact fpEncode_fpDecode_fin hv h rm sat

/-! ### What a chain of each kind adds, step by step (R52, R55) -/

/-- The element pairs of block `b` of a ZB chain (R48, R55). -/
def zbTerms (fa fb k : Nat) (x y : Nat → Nat) (b : Nat) : List (Int × Int) :=
  ((List.range 32).filter (fun i => 32 * b + i < k)).map
    (fun i => (signed (fmtBits fa) (x (32 * b + i)), signed (fmtBits fb) (y (32 * b + i))))

/-- Their dot product, and the dot product of their residues. -/
def dot (terms : List (Int × Int)) : Int := terms.foldl (fun a t => a + t.1 * t.2) 0
def dotResidue (terms : List (Int × Int)) : Nat := terms.foldl (fun a t => (a + mod127 t.1 * mod127 t.2) % 127) 0

section Chain

variable {fa fb : Nat}

theorem chain_blocks (hbf : pairBf16 fa fb = false) (hzb : pairZb fa fb = true) (k : Nat) (anchor : Int) (x y xs ys : Nat → Nat) (init : AccSt) :
    chain fa fb k anchor x y xs ys init = (List.range (ceilDiv k 32)).foldl (fun st b =>
      st.addBlock fa fb anchor (dot (zbTerms fa fb k x y b)) (dotResidue (zbTerms fa fb k x y b)) (xs b) (ys b)) init := by
  simp only [chain, hbf, hzb, Bool.false_eq_true, if_false, if_true, dot, dotResidue, zbTerms]

theorem chain_products (hbf : pairBf16 fa fb = false) (hzb : pairZb fa fb = false) (k : Nat) (anchor : Int) (x y xs ys : Nat → Nat)
    (init : AccSt) : chain fa fb k anchor x y xs ys init
      = (List.range k).foldl (fun st i => st.addProduct (weightOf fa fb anchor) (decode fa (x i)) (decode fb (y i))) init := by
  simp only [chain, hbf, hzb, Bool.false_eq_true, if_false]

end Chain

/-! ### Zero sums (R54) -/

theorem roundUnits_zero (rm : Nat) (neg : Bool) (e q : Int) : roundUnits rm neg 0 e q = 0 := by
  simp [roundUnits, roundMag_zero]

theorem encode_zero (f rm : Nat) (sat : Bool) (e : Int) : encode f rm sat (.fin false 0 e) = 0 := by
  cases hf : isFp f with
  | true => simp only [encode, hf, if_true]; rfl
  | false =>
    have hround : Num.round rm (.fin false 0 e) = 0 := by simp [Num.round, roundUnits_zero]
    obtain ⟨hlo, hhi⟩ := intRange_zero f
    have hval : intValue f rm (.fin false 0 e) = 0 := by
      rw [intValue, hround, clampInt, if_neg (by omega), if_neg (by omega)]
    rw [encode_int hf, hval, unsign_zero]

/-- Read-out of a sum of zero without flags (R57). -/
theorem AccSt.readOut_zero {st : AccSt} (hfp : st.fp = none) (hnan : st.flags.nan = false) (hrange : st.flags.range = false)
    (hpinf : st.flags.pinf = false) (hninf : st.flags.ninf = false) (hval : st.value = 0) (w : Int) : st.readOut w = .fin false 0 w := by
  simp [AccSt.readOut, hfp, hnan, hrange, hpinf, hninf, hval]

theorem Num.isZero_iff {v : Num} : v.isZero = true ↔ ∃ neg e, v = .fin neg 0 e := by
  match v with
  | .fin neg 0 e => simp [Num.isZero]
  | .fin neg (m + 1) e => simp [Num.isZero]
  | .inf neg => simp [Num.isZero]
  | .nan => simp [Num.isZero]

/-- A zero product, of either sign, adds nothing (R52). -/
theorem AccSt.addProduct_zero {x y : Num} (h : (x.mul y).isZero = true) (st : AccSt) (w : Int) : st.addProduct w x y = st := by
  obtain ⟨neg, e, hxy⟩ := Num.isZero_iff.1 h
  unfold AccSt.addProduct
  rw [hxy]
  rfl

theorem AccSt.fp32_exact {st : AccSt} (h : st.fp = none) (w : Int) : st.fp32 w = encode fmtFp32 0 false (st.readOut w) := by
  simp only [AccSt.fp32, h]
  rfl

theorem chain_zero_products {fa fb k : Nat} {x y : Nat → Nat} (hbf : pairBf16 fa fb = false) (hzb : pairZb fa fb = false)
    (h : ∀ i, i < k → ((decode fa (x i)).mul (decode fb (y i))).isZero = true) (anchor : Int) (xs ys : Nat → Nat) (init : AccSt) :
    chain fa fb k anchor x y xs ys init = init := by
  rw [chain_products hbf hzb]
  refine List.foldlRecOn (motive := (· = init)) _ _ rfl fun st hst i hi => ?_
  exact (AccSt.addProduct_zero (h i (List.mem_range.1 hi)) st _).trans hst

/-- Settles O51: the read-out is +0, whose code is 0 in every format; zero products leave the register at zero. -/
theorem zeroSumsReadPlusZero : Obligations.ZeroSumsReadPlusZero := by
  refine ⟨fun st w hfp hnan hrange hpinf hninf hval => ?_, fun fa fb k anchor w x y xs ys hbf hzb hprod f rm sat => ?_⟩
  · have hread := AccSt.readOut_zero hfp hnan hrange hpinf hninf hval w
    rw [AccSt.fp32_exact hfp, hread]
    exact ⟨encode_zero .., fun f rm sat => encode_zero ..⟩
  · rw [chain_zero_products hbf hzb hprod]
    exact encode_zero ..

/-! ### The residue plane (R52, R55, R83, R84)

Both sides are compared modulo 127, where 2^7 is 1: that is why the residue plane may shift by the exponent modulo 7. -/

/-- Two integers have the same residue. -/
def SameResidue (x y : Int) : Prop := x % 127 = y % 127

namespace SameResidue

variable {a b c d : Int}

theorem refl (a : Int) : SameResidue a a := rfl

theorem symm (h : SameResidue a b) : SameResidue b a := Eq.symm h

theorem trans (h : SameResidue a b) (h' : SameResidue b c) : SameResidue a c := Eq.trans h h'

theorem add (h : SameResidue a b) (h' : SameResidue c d) : SameResidue (a + c) (b + d) := by
  unfold SameResidue at *
  omega

theorem mul (h : SameResidue a b) (h' : SameResidue c d) : SameResidue (a * c) (b * d) := by
  unfold SameResidue at *
  rw [Int.mul_emod, h, h', ← Int.mul_emod]

end SameResidue

theorem sameResidue_mod127 (x : Int) : SameResidue (mod127 x) x := by
  unfold SameResidue mod127
  omega

theorem sameResidue_mod (n : Nat) : SameResidue (n % 127 : Nat) n := by
  unfold SameResidue
  omega

theorem mod127_eq_iff (x : Int) (n : Nat) : mod127 x = n % 127 ↔ SameResidue x n := by
  unfold SameResidue mod127
  omega

theorem sameResidue_two_pow_mod (n : Nat) : SameResidue (2 ^ n) (2 ^ (n % 7)) := by
  have hcycle (k : Nat) : SameResidue ((2 ^ 7) ^ k) 1 := by
    induction k with
    | zero => exact .refl 1
    | succ k ih => exact ih.mul (show SameResidue (2 ^ 7) 1 from rfl)
  have hsplit : (2 : Int) ^ n = (2 ^ 7) ^ (n / 7) * 2 ^ (n % 7) := by
    rw [← Int.pow_mul, ← Int.pow_add, Nat.div_add_mod]
  rw [hsplit]
  exact ((hcycle _).mul (.refl _)).trans (by rw [Int.one_mul]; exact .refl _)

theorem sameResidue_shift {t : Int} (ht : 0 ≤ t) : SameResidue (2 ^ t.toNat) (2 ^ (t % 7).toNat) := by
  rw [show (t % 7).toNat = t.toNat % 7 by omega]
  exact sameResidue_two_pow_mod _

/-- The residue plane's view of an exact accumulator is right: its sum is the register's residue, its flags are the register's. -/
structure AccSt.Agrees (st : AccSt) : Prop where
  isExact : st.fp = none
  sum : SameResidue st.value st.residue
  flags : st.flags = st.seen

namespace AccSt

variable {st : AccSt}

theorem checks_iff (h : st.fp = none) (inject : Bool) :
    st.checks inject = true ↔ SameResidue st.value (st.residue + ofBool inject : Nat) ∧ st.flags = st.seen := by
  simp only [checks, h, Option.isSome_none, Bool.false_or, Bool.and_eq_true, beq_iff_eq, mod127_eq_iff]

theorem agrees_iff_checks (h : st.fp = none) : st.Agrees ↔ st.checks false = true := by
  rw [checks_iff h]
  exact ⟨fun a => ⟨a.sum, a.flags⟩, fun ⟨hsum, hflags⟩ => ⟨h, hsum, hflags⟩⟩

/-- One too many in the residue sum is seen, since 1 is not 0 modulo 127. -/
theorem Agrees.fails_injected (h : st.Agrees) : st.checks true = false := by
  have hsum := h.sum
  rw [Bool.eq_false_iff, Ne, checks_iff h.isExact]
  rintro ⟨hinjected, -⟩
  simp only [SameResidue, ofBool, if_true] at hsum hinjected
  omega

theorem Agrees.flag (h : st.Agrees) (f : AccFlags) : (st.flag f).Agrees :=
  ⟨h.isExact, h.sum, congrArg (AccFlags.or · f) h.flags⟩

/-- The register takes a value and the residue plane its residue. -/
theorem Agrees.add (h : st.Agrees) {v : Int} {rho : Nat} (hv : SameResidue v rho) :
    ({ st with value := st.value + v, residue := (st.residue + rho) % 127 } : AccSt).Agrees :=
  ⟨h.isExact, (h.sum.add hv).trans (sameResidue_mod _).symm, h.flags⟩

/-- Only what a finite value adds asks for its residue: NaN and an infinity set flags in both (R52). -/
theorem Agrees.addNum (h : st.Agrees) {w : Int} {v : Num} {rho : Nat}
    (hv : ∀ neg m e, v = .fin neg m e → SameResidue (v.sig * 2 ^ (v.exp - w).toNat) rho) : (st.addNum w v rho).Agrees := by
  cases v with
  | nan => exact h.flag _
  | inf neg => exact h.flag _
  | fin neg m e =>
    have hcast : ((m * 2 ^ (e - w).toNat : Nat) : Int) = m * 2 ^ (e - w).toNat := by
      rw [Int.natCast_mul, Int.natCast_pow]
      rfl
    have hterm : (if Num.negative (.fin neg m e) then -1 else 1 : Int) * (m * 2 ^ (e - w).toNat : Nat)
        = Num.sig (.fin neg m e) * 2 ^ (Num.exp (.fin neg m e) - w).toNat := by
      rw [hcast]
      cases neg with
      | false => exact Int.one_mul _
      | true => exact ((Int.neg_mul ..).trans (congrArg Neg.neg (Int.one_mul _))).trans (Int.neg_mul ..).symm
    unfold AccSt.addNum
    dsimp only
    split
    · exact h
    · exact h.add (hterm ▸ hv neg m e rfl)

end AccSt

/-- A finite product is the product of two finite values: significands multiply and exponents add. -/
theorem Num.mul_fin {x y : Num} {neg : Bool} {m : Nat} {e : Int} (h : x.mul y = .fin neg m e) :
    (x.mul y).sig = x.sig * y.sig ∧ (x.mul y).exp = x.exp + y.exp := by
  cases x with
  | nan => cases h
  | inf a =>
    cases y with
    | nan => cases h
    | inf b => cases h
    | fin b n f => simp only [Num.mul] at h; split at h <;> cases h
  | fin a k d =>
    cases y with
    | nan => cases h
    | inf b => simp only [Num.mul] at h; split at h <;> cases h
    | fin b n f =>
      cases a with
      | false =>
        cases b with
        | false => exact ⟨rfl, rfl⟩
        | true => exact ⟨(Int.mul_neg (k : Int) n).symm, rfl⟩
      | true =>
        cases b with
        | false => exact ⟨(Int.neg_mul (k : Int) n).symm, rfl⟩
        | true => exact ⟨(Int.neg_mul_neg (k : Int) n).symm, rfl⟩

namespace AccSt

variable {st : AccSt}

/-- A product whose exponent the register reaches. -/
theorem Agrees.addProduct (h : st.Agrees) {w : Int} {x y : Num} (hw : w ≤ x.exp + y.exp) : (st.addProduct w x y).Agrees := by
  refine h.addNum fun neg m e hxy => ?_
  obtain ⟨hs, he⟩ := Num.mul_fin hxy
  rw [hs, he]
  have hsig := (sameResidue_mod127 x.sig).mul (sameResidue_mod127 y.sig)
  have hrho := (hsig.mul (sameResidue_shift (show 0 ≤ x.exp + y.exp - w by omega)).symm).symm
  refine hrho.trans (.trans ?_ (sameResidue_mod _).symm)
  rw [Int.natCast_mul, Int.natCast_mul, Int.natCast_pow]
  exact .refl _

theorem Agrees.addBlock (h : st.Agrees) {d : Int} {rho : Nat} (hd : SameResidue d rho) (fa fb : Nat) (anchor : Int) (xa xb : Nat) :
    (st.addBlock fa fb anchor d rho xa xb).Agrees := by
  unfold AccSt.addBlock
  split
  · exact h.flag _
  · split
    · exact h
    · extract_lets t
      split
      · exact h
      · split
        · next ht =>
          refine h.add ((hd.mul (sameResidue_shift ht.1)).trans ?_)
          rw [Int.natCast_mul, Int.natCast_pow]
          exact .refl _
        · exact h.flag _

end AccSt

/-! No product of an exact pair is finer than bit 0 of its register (R51). -/

/-- The exponent of the last place of a format's smallest values (R45, R46). -/
def leastExp (f : Nat) : Int := if isFp f then 1 - expBias f - fracBits f else 0

theorem leastExp_le (f v : Nat) : leastExp f ≤ (decode f v).exp := by
  unfold leastExp decode
  cases isFp f with
  | true => exact fpDecode_exp_ge f v
  | false => exact Int.le_refl 0

theorem weightOf_le_exp {fa fb : Nat} (hok : pairOk fa fb = true) (hbf : pairBf16 fa fb = false) (hzb : pairZb fa fb = false) (anchor : Int)
    (a b : Nat) : weightOf fa fb anchor ≤ (decode fa a).exp + (decode fb b).exp := by
  have hweight : weightOf fa fb anchor = weightOf fa fb 0 := by simp [weightOf, hzb]
  have hleast : weightOf fa fb 0 ≤ leastExp fa + leastExp fb := by
    simp only [pairOk, hbf, hzb, Bool.or_false, pairInt, pairFp8, pairFp16, Bool.and_eq_true, Bool.or_eq_true, beq_iff_eq] at hok
    rcases hok with (⟨rfl | rfl, rfl | rfl⟩ | ⟨rfl | rfl, rfl | rfl⟩) | ⟨rfl, rfl⟩ <;> decide
  exact hweight ▸ Int.le_trans hleast (Int.add_le_add (leastExp_le ..) (leastExp_le ..))

theorem sameResidue_dot (terms : List (Int × Int)) : SameResidue (dot terms) (dotResidue terms) := by
  have go (d : Int) (r : Nat) (h : SameResidue d r) : SameResidue (terms.foldl (fun a t => a + t.1 * t.2) d)
      (terms.foldl (fun a t => (a + mod127 t.1 * mod127 t.2) % 127) r : Nat) := by
    induction terms generalizing d r with
    | nil => exact h
    | cons t ts ih =>
      have hterm := ((sameResidue_mod127 t.1).mul (sameResidue_mod127 t.2)).symm
      exact ih _ _ ((h.add hterm).trans (sameResidue_mod (r + mod127 t.1 * mod127 t.2)).symm)
  exact go 0 0 (.refl 0)

theorem AccSt.Agrees.chain {fa fb : Nat} {init : AccSt} (h : init.Agrees) (hok : pairOk fa fb = true) (hbf : pairBf16 fa fb = false) (k : Nat)
    (anchor : Int) (x y xs ys : Nat → Nat) : (chain fa fb k anchor x y xs ys init).Agrees := by
  cases hzb : pairZb fa fb with
  | true =>
    rw [chain_blocks hbf hzb]
    exact List.foldlRecOn _ _ h fun st hst b _ => hst.addBlock (sameResidue_dot _) ..
  | false =>
    rw [chain_products hbf hzb]
    exact List.foldlRecOn _ _ h fun st hst i _ => hst.addProduct (weightOf_le_exp hok hbf hzb ..)

/-- Settles O50: every product, block and flag of the chain keeps the agreement, so the check passes, and fails by the one that is injected. -/
theorem residuePlaneAgrees : Obligations.ResiduePlaneAgrees := by
  intro fa fb k anchor x y xs ys init hok hbf hexact hinit
  have h := ((AccSt.agrees_iff_checks hexact).2 hinit).chain hok hbf k anchor x y xs ys
  exact ⟨(AccSt.agrees_iff_checks h.isExact).1 h, h.fails_injected⟩

end Sys2Proof.Machine

/-! PROOFS. The obligations on the Anvil engine: the engines of an Anvil, the instructions that every list may hold, the instructions of a Marmer list,
the register commands of compute units and streams, what an injection leaves alone. -/

namespace Sys2Proof.Machine

/-! ### Engines of an Anvil (R74, R75, R105, R161, R244) -/

/-- What a change makes of an Anvil depends on that Anvil alone. -/
theorem State.modAnvil_congr {s : State} {n : Nat} {f g : AnvSt → AnvSt} (h : f (s.anvil n) = g (s.anvil n)) : s.modAnvil n f = s.modAnvil n g :=
  congrArg (s.setAnvil n) h

/-- Settles O8: a fill completes, with or without a SWAP that waits for it; the oldest half drains once its pass has its pieces; of write buffer entries
and of STOREs the oldest leaves, of SENDs the oldest whose end is known. -/
theorem anvilEnginesComplete : Obligations.AnvilEnginesComplete := by
  intro n s
  refine ⟨fun hfill hwait => ?_, fun hfill hwait => ?_, fun w h g p q hz1 hold hpass hawait hold' hpass' => ?_, fun e rest hwb => ?_,
    fun x rest hstores => ?_, fun x hready => ?_⟩
  · exact (next_if_neg (by simp [hfill])).trans (congrArg Host.Outcome.next (State.modAnvil_congr (by simp [hwait])))
  · exact (next_if_neg (by simp [hfill])).trans (congrArg Host.Outcome.next (State.modAnvil_congr (by simp [hwait, AnvSt.exchange])))
  · have hz1' : ¬(s.marmer n && (s.anvil n).passes.isEmpty) = true := by simp [hz1]
    obtain ⟨v, p', run, hdrained⟩ : ∃ v p' run, g.elems.foldl (State.drainElem n g.elems) (w, q, none) = (v, p', run) := ⟨_, _, _, rfl⟩
    refine (next_if_neg hz1').trans (congrArg Host.Outcome.next ?_)
    cases run <;> simp only [State.drainBlock, hold, hpass, hawait, hold', hpass', Option.map_some, Option.getD_some, hdrained]
  · simp only [exec, execWriteBufferDrain, State.wbDrainOne, hwb]
  · simp only [exec, execStoreComplete, hstores]
  · simp only [exec, execSendComplete, hready]

/-! ### Instructions every list may hold (R127 to R132, R350) -/

section Shared

variable {s t v : State} {u : Nat} {d e : Ins}

/-! A command's instruction at the head of a list: what its meaning comes to is what the command does. -/

theorem next_issue_done {op : Nat} {f : Ins → State → Issue} (h : s.Heads u op d t) (hf : f d t = .done v) :
    (.next (s.issue u [op] f) : Host.Outcome State Fault Refusal) = .next (v.advance u) :=
  congrArg Host.Outcome.next (State.issue_done h (by simp) hf)

theorem next_issue_hold {op : Nat} {f : Ins → State → Issue} (h : s.Heads u op d t) (hf : f d t = .hold v) :
    (.next (s.issue u [op] f) : Host.Outcome State Fault Refusal) = .next v :=
  congrArg Host.Outcome.next (State.issue_hold h (by simp) hf)

theorem next_issue_refuse {op r i : Nat} {f : Ins → State → Issue} (h : s.Heads u op d t) (hf : f d t = .refuse v [r] i) :
    (.next (s.issue u [op] f) : Host.Outcome State Fault Refusal) = .next (v.refuseAt u r i) := by
  have hlowest : lowest [r] = r := Nat.min_self r
  exact congrArg Host.Outcome.next (hlowest ▸ State.issue_refuse h (by simp) hf)

theorem State.waitIssue_legal (hlegal : t.waitReasons (t.shared u d (m2Ins 8)) = []) :
    t.waitIssue u d = if t.waitMet u (t.shared u d (m2Ins 8)) then .done (t.waitTake u (t.shared u d (m2Ins 8)))
      else .hold (t.modUnit u (fun x => { x with waitFrom := some (x.waitFrom.getD t.nowNs) })) :=
  Issue.check_ok hlegal

theorem State.sigIssue_open (hform : t.sigForm u d 9 = (e, false)) (hgrowth : sigGrowth e = false) (hop : insFlag e 2 0 = false)
    (hnone : (t.unit u).sig = none) : t.sigIssue u d false = .done (t.modUnit u (fun x => { x with sig := some (sigWindow e, 0) })) := by
  have hreasons : why (false || sigGrowth e) 0x03 ++ why (t.unit u).sig.isSome 0x18 = [] := by simp [why, hgrowth, hnone]
  simp only [State.sigIssue, hform, hop]
  exact Issue.check_ok hreasons

theorem State.sigIssue_close (hform : t.sigForm u d 9 = (e, false)) (hgrowth : sigGrowth e = false) (hop : insFlag e 2 0 = true)
    (hnumber : t.openNumber u = some (sigWindow e)) (hdrained : t.windowDrained u = true) : t.sigIssue u d true = .done (t.sigClose u) := by
  have hreasons : why (false || sigGrowth e) 0x03 ++ why (t.openNumber u != some (sigWindow e)) 0x18 = [] := by simp [why, hgrowth, hnumber]
  simp only [State.sigIssue, hform, hop]
  exact (Issue.check_ok hreasons).trans (if_pos hdrained)

end Shared

/-- Settles O18: each is at the head of issue, and what its meaning comes to there is done, held or refused as claimed. -/
theorem sharedInstructionsComplete : Obligations.SharedInstructionsComplete := by
  intro u s t d
  refine ⟨fun h hlegal => ?_, fun start h hfrom htimeout hmet => ?_,
    fun e h hform hgrowth => ⟨fun hop hnone => ?_, fun hop hnumber hdrained => ?_⟩, fun e h hform hgrowth hnumber hdrained => ?_,
    fun h hz1 hzero => ?_, fun h hz1 hlegal hquiet => ?_⟩
  · have hissue := State.waitIssue_legal hlegal
    split
    · next hmet => exact next_issue_done h (hissue.trans (if_pos hmet))
    · next hmet => exact next_issue_hold h (hissue.trans (if_neg hmet))
  · simp only [exec, execWaitTimeout, hfrom]
    exact next_issue_refuse h ((if_neg htimeout).trans (if_neg (by simp [hmet])))
  · exact next_issue_done h (State.sigIssue_open hform hgrowth hop hnone)
  · exact next_issue_done h (State.sigIssue_close hform hgrowth hop hnumber hdrained)
  · have hreasons : why (false || goldGrowth e) 0x03 ++ why (t.openNumber u != some (sigWindow e)) 0x18 = [] := by simp [why, hgrowth, hnumber]
    refine next_issue_done h ?_
    simp only [hform]
    exact (Issue.check_ok hreasons).trans (if_pos hdrained)
  · have hreasons : why (!zeroAt d 2 30) 0x03 = [] := by simp [why, hzero]
    exact next_issue_done h ((ifZ1_ok hz1).trans (Issue.check_ok hreasons))
  · refine next_issue_done h ?_
    exact (ifZ1_ok hz1).trans ((Issue.check_ok hlegal).trans (if_neg (by simp [hquiet])))

/-! ### Instructions of a Marmer list (R99) -/

/-- Settles O20: M2_LDW and M2_MAC are at the head of issue with nothing to refuse them and no hazard ahead; M2_OUT drains by definition. -/
theorem marmerInstructionsComplete : Obligations.MarmerInstructionsComplete := by
  intro n s t d
  refine ⟨fun h hm2 hformat hlegal hnext hwait => ?_, fun h hm2 hop hlegal hwait => ?_, fun hm2 hpasses => ?_⟩
  · have hreasons : (if !m2Format (insBits (m2Load d) 8 0 4) then [0x11] else loadsReasons (m2Load d)) = [] :=
      (if_neg (by simp [hformat])).trans hlegal
    refine next_issue_done h ?_
    simp only [hm2, if_true, Bool.true_and]
    exact (Issue.check_ok hreasons).trans ((if_neg (by simp [hnext])).trans (if_neg (by simp [hwait])))
  · refine congrArg Host.Outcome.next (State.issue_done h (by simp) ((if_pos hm2).trans ((if_neg (by simp [hop])).trans ?_)))
    exact (Issue.check_ok hlegal).trans (if_neg (by simp [hwait]))
  · exact next_if_pos (by simp [hm2, hpasses])

/-! ### Register commands of compute units and streams (R88, R96, R163, R200, R231, R266, R412, R414) -/

/-- Settles O10: each command is a write of its field that reaches the register. -/
theorem unitRegisterCommandsComplete : Obligations.UnitRegisterCommandsComplete := fun _ _ =>
  ⟨execSoftReset_does, execUnitFence_does, execUnitFence_camera, execUnitFence_point, execPairRequest_does, execResidueInject_does,
    fun n hr => ⟨execInjPro_does n hr, execInjEpi_does n hr⟩, fun p hr => ⟨execInjRope_does p hr, execInjOut_does p hr⟩, execInjA_does,
    execInjB_does, execBsEccInject_does⟩

/-! ### What an injection leaves alone (R88, R163, R200, R231, R266 to R268) -/

/-- State `t` is `s` but for the register `own`, what is armed, and interrupt source `src`. -/
structure OnlyArms (own src : Nat) (s t : State) : Prop where
  mem : t.mem = s.mem
  poison : t.poison = s.poison
  damage : t.damage = s.damage
  anvils : t.anvils = s.anvils
  unit : ∀ v, { t.unit v with armed := [] } = { s.unit v with armed := [] }
  out : t.out = s.out
  jobs : t.jobs = s.jobs
  now : t.now = s.now
  rd : ∀ a, a ≠ own → a ≠ Reg.HIC_SRC_STATE src → t.rd a = s.rd a

section OnlyArms

variable {s t : State} {own src : Nat}

/-- Storing a field changes its register alone. -/
theorem OnlyArms.stored (f : FRef) (v : Nat) (hf : f.addr = own) : OnlyArms own src s (s.stored f v) :=
  ⟨rfl, rfl, rfl, rfl, fun _ => rfl, rfl, rfl, rfl, fun _ hown _ => State.rd_wr_ne _ (hf ▸ hown.symm)⟩

theorem State.unit_arm (hwf : SMap.wf t.units = true) (u k v : Nat) : { (t.arm u k).unit v with armed := [] } = { t.unit v with armed := [] } := by
  by_cases huv : u = v
  · subst huv
    have hunit : (t.arm u k).unit u = { t.unit u with armed := setInsert (t.unit u).armed k } := SMap.getD_put_same _ _ _ _ hwf
    rw [hunit]
  · have hunit : (t.arm u k).unit v = t.unit v := SMap.getD_put_ne _ _ _ _ huv
    rw [hunit]

/-- Arming an injection of a unit changes what is armed there alone. -/
theorem OnlyArms.arm (h : OnlyArms own src s t) (hwf : SMap.wf t.units = true) (u k : Nat) : OnlyArms own src s (t.arm u k) :=
  { h with unit := fun v => (State.unit_arm hwf u k v).trans (h.unit v) }

/-- Arming an injection of a memory. -/
theorem OnlyArms.arms (h : OnlyArms own src s t) (x : Arms) : OnlyArms own src s { t with arms := x } := { h with }

/-- Following a source changes its own state alone. -/
theorem OnlyArms.syncSrc (h : OnlyArms own src s t) : OnlyArms own src s (t.syncSrc src) where
  mem := (State.syncSrc_mem t src).trans h.mem
  poison := (State.syncSrc_poison t src).trans h.poison
  damage := (State.syncSrc_damage t src).trans h.damage
  anvils := (State.syncSrc_anvils t src).trans h.anvils
  unit v := by
    have hunit : (t.syncSrc src).unit v = t.unit v := by simp only [State.unit, State.syncSrc_units]
    rw [hunit]
    exact h.unit v
  out := (State.syncSrc_out t src).trans h.out
  jobs := (State.syncSrc_jobs t src).trans h.jobs
  now := (State.syncSrc_now t src).trans h.now
  rd a hown hsrc := (State.rd_syncSrc_ne (s := t) src hsrc.symm).trans (h.rd a hown hsrc)

/-- The three parts of an injection command of a unit: its bit, what it arms, the unit's source. -/
theorem OnlyArms.unitInjection (hwf : SMap.wf s.units = true) (f : FRef) (k : Nat) (hf : f.addr = own) (u : Nat) :
    OnlyArms own src s (((s.stored f 1).arm u k).syncSrc src) :=
  ((OnlyArms.stored f 1 hf).arm hwf u k).syncSrc

/-- A command that does no more than that leaves the rest. -/
theorem OnlyArms.leaves {c : Instr} (hexec : exec c s = .next t) (h : OnlyArms own src s t) :
    ∃ t, exec c s = .next t ∧ t.mem = s.mem ∧ t.poison = s.poison ∧ t.damage = s.damage ∧ t.anvils = s.anvils
      ∧ (∀ v, { t.unit v with armed := [] } = { s.unit v with armed := [] })
      ∧ t.out = s.out ∧ t.jobs = s.jobs ∧ t.now = s.now ∧ ∀ a, a ≠ own → a ≠ Reg.HIC_SRC_STATE src → t.rd a = s.rd a :=
  ⟨t, hexec, h.mem, h.poison, h.damage, h.anvils, h.unit, h.out, h.jobs, h.now, h.rd⟩

end OnlyArms

/-- Settles O59: an injection command stores its bit, arms the injection and, on a unit, follows the unit's source. -/
theorem injectionsLeaveTheRest : Obligations.InjectionsLeaveTheRest := by
  intro s who leaves
  refine ⟨fun u hu hr hwf => ?_, fun n => ⟨fun hr hwf => ?_, fun hr hwf => ?_, fun hr _ => ?_⟩,
    fun p => ⟨fun hr hwf => ?_, fun hr hwf => ?_⟩, fun u hr hwf => ?_, fun u hr hwf => ?_, fun hr _ => ?_,
    fun ch => ⟨fun hr _ => ?_, fun hr _ => ?_⟩⟩
  · exact OnlyArms.leaves (execResidueInject_does u hu hr) (.unitInjection hwf ⟨unitBase u + 0x40, 8, 1⟩ 0 rfl u)
  · exact OnlyArms.leaves (execInjPro_does n hr) (.unitInjection hwf (Reg.ANV_FUS_CTL.INJ_PRO n) 2 rfl n)
  · exact OnlyArms.leaves (execInjEpi_does n hr) (.unitInjection hwf (Reg.ANV_FUS_CTL.INJ_EPI n) 1 rfl n)
  · exact OnlyArms.leaves (execBsEccInject_does n hr) ((OnlyArms.stored (Reg.ANV_BS_ECC.INJECT n) 1 rfl).arms _).syncSrc
  · exact OnlyArms.leaves (execInjRope_does p hr) (.unitInjection hwf (Reg.DRW_DUP_CTL.INJ_ROPE p) 2 rfl (64 + p))
  · exact OnlyArms.leaves (execInjOut_does p hr) (.unitInjection hwf (Reg.DRW_DUP_CTL.INJ_OUT p) 1 rfl (64 + p))
  · exact OnlyArms.leaves (execInjA_does u hr) (.unitInjection hwf ⟨unitBase (68 + u) + 0xA0, 0, 1⟩ 1 rfl (68 + u))
  · exact OnlyArms.leaves (execInjB_does u hr) (.unitInjection hwf (Reg.PPU_DUP.INJ_B u) 2 rfl (76 + u))
  · exact OnlyArms.leaves (execCruInject_does hr) ((OnlyArms.stored Reg.CRU_CTL.INJECT 1 rfl).arms _)
  · exact OnlyArms.leaves (execMemCeInject_does ch hr) ((OnlyArms.stored (Reg.MEM_CH_INJECT.CE ch) 1 rfl).arms _)
  · exact OnlyArms.leaves (execMemUeInject_does ch hr) ((OnlyArms.stored (Reg.MEM_CH_INJECT.UE ch) 1 rfl).arms _)

end Sys2Proof.Machine

/-! PROOFS. The obligations on tile lists: the instructions of an Anvil's list, the exchange of the planes, the end of lists, increments of sync
counters. -/

namespace Sys2Proof.Machine

/-! ### Instructions of an Anvil's list (R119 to R133) -/

section Anvil

variable {t v : State} {n : Nat} {rs : List Nat} {go : Issue}

/-- Outside Marmer mode an instruction with no reason against it comes to what its work comes to. -/
theorem ifZ1_check_ok (hz1 : t.marmer n = false) (hlegal : rs = []) (hgo : go = .done v) : ifZ1 t n (Issue.check t n rs go) = .done v :=
  (ifZ1_ok hz1).trans ((Issue.check_ok hlegal).trans hgo)

/-- A reason against an instruction refuses it at its own index. -/
theorem Issue.check_refused {r : Nat} (hrefused : rs = [r]) : Issue.check t n rs go = .refuse t [r] (t.pc n) := by
  subst hrefused
  rfl

end Anvil

/-- Settles O6: each is at the head of issue of a Z1 list, with nothing to refuse it and no hazard ahead, so its work is done. -/
theorem anvilInstructionsComplete : Obligations.AnvilInstructionsComplete := by
  intro n s t d
  refine ⟨fun h hlegal hnext hwait => ?_, fun h hzero hfill => ?_, fun h => ?_, fun h hlegal hwait => ?_, fun h hlegal => ?_,
    fun h hlegal hwait => ?_, fun h hlegal hroom hwait => ?_, fun h hlegal hwait hwb => ?_⟩
  · refine next_issue_done h.toHeads ?_
    simp only [h.z1, Bool.false_eq_true, if_false, Bool.false_and]
    exact (Issue.check_ok hlegal).trans ((if_neg (by simp [hnext])).trans (if_neg (by simp [hwait])))
  · exact next_issue_done h.toHeads (ifZ1_check_ok h.z1 (by simp [why, hzero]) (if_neg (by simp [hfill])))
  · exact next_issue_done h.toHeads (ifZ1_ok h.z1)
  · have hop : insOp d = 3 := by simpa [State.opOf, h.z1] using h.op
    refine congrArg Host.Outcome.next (State.issue_done h.toHeads (by simp) ?_)
    exact (if_neg (by simp [h.z1])).trans <| (if_neg (by simp [hop])).trans <| (if_neg (by simp [hlegal])).trans <|
      if_neg (Bool.eq_false_iff.1 hwait)
  · exact next_issue_done h.toHeads (ifZ1_check_ok h.z1 hlegal rfl)
  · intro e
    obtain ⟨w, r, hmoved⟩ : ∃ w r, (e.spoil n (storeOwn n d)).storeAll n d = (w, r) := ⟨_, _, rfl⟩
    simp only [hmoved]
    refine next_issue_done h.toHeads (ifZ1_check_ok h.z1 hlegal ((if_neg (Bool.eq_false_iff.1 hwait)).trans ?_))
    by_cases hnone : (e.isChecker n || storeRows d = 0) = true
    · exact (if_pos hnone).trans (congrArg Issue.done (if_pos hnone).symm)
    · refine (if_neg hnone).trans ?_
      rw [if_neg hnone]
      simp only [e] at hmoved
      rw [hmoved]
  · intro e
    refine next_issue_done h.toHeads (ifZ1_check_ok h.z1 hlegal ((if_neg ?_).trans ?_))
    · rw [hwait]
      simp [hroom]
    · exact (apply_ite Issue.done _ _ _).symm
  · exact next_issue_done h.toHeads (ifZ1_check_ok h.z1 hlegal (if_neg (by simp [hwait, hwb])))

/-! ### SWAP and the planes (R74, R122) -/

section Swap

variable {s t : State} {n : Nat}

/-- While a SWAP waits for its fill, no instruction of the list comes to issue. -/
theorem next_issue_swapWait {ops : List Nat} {f : Ins → State → Issue} (hwait : (s.anvil n).swapWait = true) :
    (.next (s.issue n ops f) : Host.Outcome State Fault Refusal) = .next s :=
  next_if_pos (by simp [State.canIssue, hwait])

theorem State.anvil_modAnvil_same (hwf : SMap.wf t.anvils = true) (f : AnvSt → AnvSt) : (t.modAnvil n f).anvil n = f (t.anvil n) :=
  SMap.getD_put_same _ _ _ _ hwf

theorem State.anvil_modAnvil_ne {m : Nat} (f : AnvSt → AnvSt) (h : n ≠ m) : (t.modAnvil n f).anvil m = t.anvil m :=
  SMap.getD_put_ne _ _ _ _ h

/-- Of the registers, advancing a list writes the one that holds its program counter. -/
theorem State.rd_advance_ne {a : Nat} (h : a ≠ (unitPc n).addr) : (t.advance n).rd a = t.rd a := by
  show (t.setFld (unitPc n) (t.pc n + 1)).rd a = t.rd a
  exact State.rd_setFld_ne _ h.symm

end Swap

/-- Settles O7: the SWAP is issued and waits; while it does, the list may not issue. -/
theorem swapWaitsForTheFill : Obligations.SwapWaitsForTheFill := by
  intro n s t d
  refine ⟨fun h hzero hfill => ?_, fun hwait => ⟨?_, fun u hu => ?_⟩⟩
  · exact next_issue_done h.toHeads (ifZ1_check_ok h.z1 (by simp [why, hzero]) (if_pos hfill))
  · have stays {ops f} := next_issue_swapWait (ops := ops) (f := f) hwait
    simp only [List.forall_mem_cons]
    exact ⟨stays, stays, stays, stays, stays, stays, stays, stays, by simp⟩
  · have stays {ops f} := next_issue_swapWait (ops := ops) (f := f) (n := u) (hu ▸ hwait)
    simp only [List.forall_mem_cons]
    exact ⟨stays, stays, stays, stays, stays, stays, by simp⟩

/-- Settles O48: the exchange is a change of one Anvil's entry, and the advance after it writes the program counter. -/
theorem swapExchangesThePlanes : Obligations.SwapExchangesThePlanes := by
  intro n s t d h hwf
  refine ⟨fun hzero hfill => ?_, fun hnonzero => ?_⟩
  · obtain ⟨-, swaps, -⟩ := anvilInstructionsComplete n s t d
    exact ⟨_, swaps h hzero hfill, State.anvil_modAnvil_same hwf _, fun m hm => State.anvil_modAnvil_ne _ hm.symm, rfl, rfl, rfl,
      fun a ha => State.rd_advance_ne ha⟩
  · exact next_issue_refuse h.toHeads ((ifZ1_ok h.z1).trans (Issue.check_refused (by simp [why, hnonzero])))

/-! ### Ends of lists and increments (R105, R108, R110, R127, R197) -/

/-- A golden run is over when its effects are complete and it has stopped or issued its last instruction: the launch's list follows. -/
theorem execGoldenRunEnd_over {s : State} {u : Fin 78} (hbusy : s.flag (unitBusy u) = true) (hgold : (s.unit u).goldRun = true)
    (hquiet : s.quiet u = true) (hover : (s.unit u).stopping ≠ none ∨ s.pc u = s.listCount u) :
    exec (.goldenRunEnd u) s = .next ((if (s.unit u).goldTried then s
      else (s.setFld (unitCheckOk u) 1).modUnit u (fun x => { x with goldOk := true })).afterGolden u) := by
  have hended : ((s.unit u).stopping.isSome || s.pc u == s.listCount u) = true := by simpa [Option.isSome_iff_ne_none] using hover
  exact next_if_neg (by simp [hbusy, hgold, hquiet, hended])

/-- Settles O19: past the guards, which ask for a running unit whose effects are complete, the end is the one its list or golden run has come to. -/
theorem listEndsComplete : Obligations.ListEndsComplete := by
  refine ⟨fun u s hbusy hquiet => ⟨fun st hlist hstop => ?_, fun t hlist hstop hended => ?_, fun hgold hover htried => ?_,
    fun hgold hover htried => ?_⟩, fun s index i hi => ?_⟩
  · exact (next_if_neg (by simp [hbusy, hquiet, hlist])).trans (by simp only [hstop])
  · exact (next_if_neg (by simp [hbusy, hquiet, hlist])).trans (by simp only [hstop, hended, if_true])
  · exact (execGoldenRunEnd_over hbusy hgold hquiet hover).trans (by simp [htried])
  · exact (execGoldenRunEnd_over hbusy hgold hquiet hover).trans (by simp [htried])
  · simp only [exec, execSyncCounterIncrement, hi, State.incTurn]

section Counters

variable {s : State} {i : Inc} {u : Nat}

/-- The one increment on its way arrives, and none is left. -/
theorem execSyncCounterIncrement_only (h : s.incs = [i]) :
    exec (.syncCounterIncrement 0) s = .next (({ s with incs := [] } : State).applyInc i) := by
  simp [exec, execSyncCounterIncrement, State.incTurn, h]

/-- An idle unit discards an increment, a fault of the sender's context. -/
theorem State.applyInc_idle (hu : i.unit = some u) (hidle : s.flag (unitBusy u) = false) :
    s.applyInc i = s.report ⟨0x09, unitCode u, 1, some i.ctx, some (unitCode u), 0, 0⟩ := by
  simp [State.applyInc, hu, hidle]

/-- A busy unit that has no checker adds an increment to its own counter alone. -/
theorem State.applyInc_busy (hu : i.unit = some u) (hpresent : s.present u = true) (hbusy : s.flag (unitBusy u) = true)
    (halone : u % 2 = 1 ∨ (s.addSc u i.sc i.amount).isPaired u = false) : s.applyInc i = s.addSc u i.sc i.amount := by
  have hchecker : ¬(u % 2 = 0 && (s.addSc u i.sc i.amount).isPaired u && (s.addSc u i.sc i.amount).flag (unitBusy (u + 1))) = true := by
    rcases halone with hodd | hsingle
    · simp [hodd]
    · simp [hsingle]
  simp only [State.applyInc, hu, hpresent, hbusy, Bool.not_true, Bool.or_self, Bool.false_eq_true, if_false]
  exact if_neg hchecker

/-- The sum fits the counter. -/
theorem State.applyInc_fits (hu : i.unit = some u) (hpresent : s.present u = true) (hbusy : s.flag (unitBusy u) = true)
    (halone : u % 2 = 1 ∨ s.isPaired u = false) (hfits : (s.unit u).sc.getD i.sc 0 + i.amount ≤ 0xFFFF) :
    s.applyInc i = s.modUnit u (fun x => { x with sc := x.sc.set i.sc ((s.unit u).sc.getD i.sc 0 + i.amount) }) := by
  have hadd : s.addSc u i.sc i.amount = s.modUnit u (fun x => { x with sc := x.sc.set i.sc ((s.unit u).sc.getD i.sc 0 + i.amount) }) := by
    simp only [State.addSc, Nat.not_lt.2 hfits, if_false, Nat.min_eq_left hfits]
  exact (State.applyInc_busy hu hpresent hbusy (by rw [hadd]; exact halone)).trans hadd

/-- The sum would pass the counter's end: it stays there, a fault of the receiver's context. -/
theorem State.applyInc_saturates {r : State} (hu : i.unit = some u) (hpresent : s.present u = true) (hbusy : s.flag (unitBusy u) = true)
    (hr : r = (s.modUnit u (fun x => { x with sc := x.sc.set i.sc 0xFFFF })).report
      ⟨0x09, unitCode u, 1, some (s.unit u).ctx, some (unitCode u), 0, 0⟩)
    (halone : u % 2 = 1 ∨ r.isPaired u = false) (hpast : 0xFFFF < (s.unit u).sc.getD i.sc 0 + i.amount) : s.applyInc i = r := by
  have hadd : s.addSc u i.sc i.amount = r := by
    simp only [hr, State.addSc, hpast, if_true, Nat.min_eq_right (Nat.le_of_lt hpast)]
  exact (State.applyInc_busy hu hpresent hbusy (by rw [hadd]; exact halone)).trans hadd

theorem State.unit_modUnit_same (hwf : SMap.wf s.units = true) (f : UnitSt → UnitSt) : (s.modUnit u f).unit u = f (s.unit u) :=
  SMap.getD_put_same _ _ _ _ hwf

theorem State.unit_modUnit_ne {w : Nat} (f : UnitSt → UnitSt) (h : u ≠ w) : (s.modUnit u f).unit w = s.unit w :=
  SMap.getD_put_ne _ _ _ _ h

/-- Adding to one counter of a unit leaves the others. -/
theorem State.getD_sc_modUnit_add {sc n c : Nat} (hwf : SMap.wf s.units = true) (hsc : sc < (s.unit u).sc.length) :
    ((s.modUnit u (fun x => { x with sc := x.sc.set sc ((s.unit u).sc.getD sc 0 + n) })).unit u).sc.getD c 0
      = if c = sc then (s.unit u).sc.getD c 0 + n else (s.unit u).sc.getD c 0 := by
  rw [State.unit_modUnit_same hwf]
  split
  · next hsame => simp [hsame, hsc]
  · next hother => simp [Ne.symm hother]

end Counters

/-- Settles O55: the sum fits the counter, passes its end, or reaches a unit that is idle. -/
theorem syncIncrementsSaturate : Obligations.SyncIncrementsSaturate := by
  intro s i u honly hu hpresent hsc hlength hwf
  have hexec := execSyncCounterIncrement_only honly
  refine ⟨fun hbusy halone hfits => ?_, fun hbusy halone hpast => ?_, fun hidle => ?_⟩
  · have happly := State.applyInc_fits (s := { s with incs := [] }) hu hpresent hbusy halone hfits
    exact ⟨_, hexec.trans (congrArg Host.Outcome.next happly), rfl,
      fun c _ => State.getD_sc_modUnit_add (s := { s with incs := [] }) hwf (hlength ▸ hsc),
      fun w hw => State.unit_modUnit_ne _ hw.symm, rfl, rfl, rfl⟩
  · exact hexec.trans (congrArg Host.Outcome.next (State.applyInc_saturates hu hpresent hbusy rfl halone hpast))
  · exact hexec.trans (congrArg Host.Outcome.next (State.applyInc_idle hu hidle))

end Sys2Proof.Machine

/-! PROOFS. The obligations on Narultil messages: what arrives from a peer, and a SEND to a module that no port leads to. -/

namespace Sys2Proof.Machine

/-! ### Messages of a peer (R161, R301, R420, R435 to R438) -/

section Peers

variable {s t : State} {q ty : Nat} {m : LinkMsg} {run : State → State}

/-- A message that is heard is acknowledged, and its meaning runs on the state after that. -/
theorem next_inbound (h : s.hears q m ty = true) (hrun : run (s.linkGot q m) = t) :
    (.next (s.inbound q m ty run) : Host.Outcome State Fault Refusal) = .next t :=
  congrArg Host.Outcome.next ((State.inbound_ok h).trans hrun)

/-- A condition that a message has to meet, and meets, leaves what follows it. -/
theorem guard_met {c : Bool} (h : c = true) : (if !c then s else t) = t := by simp [h]

end Peers

/-- Settles O35: each message is heard, so its meaning runs on the acknowledged state; the conditions that a clause names, in the order in which the
meaning asks for them, let the message through. Where the clause itself spells out every branch (the codes of SEND_DATA and SEND_INC, the announcements, the
fabric manager's messages), the meaning is the claimed state as it stands. -/
theorem linkMessagesComplete : Obligations.LinkMessagesComplete := by
  intro s q m t
  refine ⟨fun hm => ?sendData, fun hm => ?sendInc, fun hm hcur => ?sendDone, fun hm hcur hallow => ?sync, fun hm hcur => ?memWr,
    fun hm hcur hctx hsome hten hwindow => ?memRd, fun hm hcur hwaits => ?memRdResp, fun hm hcur hctx hmay => ?doorbell,
    fun hm => ?genAnnounce, fun hm => ?resetNotice, fun hm hcur => ?ready, fun hm => ?fmBarCfg, fun hm => ?fmRelay⟩
  case sendData => exact next_inbound hm rfl
  case sendInc => exact next_inbound hm rfl
  case sendDone => exact next_inbound hm (guard_met hcur)
  case sync => exact next_inbound hm ((guard_met hcur).trans (guard_met hallow))
  case memWr => exact next_inbound hm (guard_met hcur)
  case memRd =>
    have hlegal : ¬(m.ctx != 0 || m.arg1 = 0 || 10 < m.arg1 || !t.inWindow q m.arg0 (32 * m.arg1)) = true := by
      simp [hctx, hsome, hten, hwindow]
    exact next_inbound hm ((guard_met hcur).trans (if_neg hlegal))
  case memRdResp =>
    have hawaited : ¬(!t.peerCurrent q m || !(t.link q).reads.contains m.tag) = true := by rw [hcur, hwaits]; decide
    exact next_inbound hm (if_neg hawaited)
  case doorbell =>
    have hzero : ¬(m.ctx != 0) = true := by simp [hctx]
    exact next_inbound hm ((guard_met hcur).trans ((if_neg hzero).trans (guard_met hmay)))
  case genAnnounce => exact next_inbound hm rfl
  case resetNotice => exact next_inbound hm rfl
  case ready => exact next_inbound hm (guard_met hcur)
  case fmBarCfg => exact next_inbound hm rfl
  case fmRelay => exact next_inbound hm rfl

/-! ### A SEND without a route (R161, R434) -/

section Unrouted

variable {s : State} {n : Nat} {d : Ins}

/-- A SEND in flight is no message yet. -/
@[simp] theorem State.pushSend_out (x : SendSt) : (s.pushSend n x).out = s.out := by
  simp only [State.pushSend, State.setFld_out, State.modAnvil_out]

/-- Without a port to the peer's module the SEND is over with code 1 as it is issued. -/
theorem State.sendPeer_unrouted (h : s.routeTo (insBits d 3 6 2) = none) :
    s.sendPeer n d = s.pushSend n ⟨none, 0, nextSend (s.anvil n).sends, insBits d 10 4 4, insB d 11, 1, true⟩ := by
  simp only [State.sendPeer, h]

end Unrouted

/-- Settles O56: it is issued as any SEND to a peer, which writes nothing of this Anvil's store, and ends there for want of a route; its completion is
that of any SEND, with code 1. -/
theorem unroutedSendFails : Obligations.UnroutedSendFails := by
  intro n s t d h hlegal hroom hpeer hwait e hmain hroute x
  obtain ⟨-, -, -, -, -, -, sends, -⟩ := anvilInstructionsComplete n s t d
  refine ⟨?_, State.pushSend_out x, fun v hready => ?_⟩
  · have hown : (!insFlag d 2 6 && sendDst d == n.val) = false := by simp [hpeer]
    refine (sends h hlegal hroom (by rwa [hown])).trans (congrArg (fun w : State => Host.Outcome.next (w.advance n)) ?_)
    exact (if_neg (Bool.eq_false_iff.1 hmain)).trans ((if_pos hpeer).trans (State.sendPeer_unrouted hroute))
  · obtain ⟨-, -, -, -, -, completes⟩ := anvilEnginesComplete n v
    exact completes x hready

end Sys2Proof.Machine

/-! PROOFS. The obligation on the instructions of a Draw pipe: ATTN, KVAPPEND and ROLLBACK. -/

namespace Sys2Proof.Machine

/-! ### Checks that find nothing (R110) -/

section Checks

variable {p : Pull} {u addr r : Nat} {rs : List Nat} {go : Issue} {c : Bool}

/-- With no reason against it an instruction goes on. -/
theorem Pull.check_ok (h : rs = []) : p.check u addr rs go = go := by
  subst h
  rfl

theorem why_eq_nil (h : c = false) : why c r = [] := by rw [why, h]; rfl

/-- A further reason that does not apply adds none. -/
theorem append_why_eq_nil (h : rs = []) (hc : c = false) : rs ++ why c r = [] := List.append_eq_nil_iff.2 ⟨h, why_eq_nil hc⟩

/-- The first check leaves CONFIG to the later ones where it would be the only reason (R188, R226). -/
theorem configLate_eq_nil (h : rs = []) : configLate rs c = [] := by
  subst h
  rfl

/-- ATTN's search for the first bad page entry finds none when every entry is good. -/
theorem firstReasons_eq_nil {α : Type} {l : List α} {f : α → List Nat} (h : ∀ e ∈ l, f e = []) :
    ((l.map f).find? (fun r => !r.isEmpty)).getD [] = [] := by
  have hnone : (l.map f).find? (fun r => !r.isEmpty) = none := List.find?_eq_none.2 (by simpa using h)
  rw [hnone, Option.getD_none]

/-- No slot that ROLLBACK moves has its rows outside the memories a cache may lie in. -/
theorem badPlace_eq_false {b : List Byte} {es : List PageEntry} {slots : List Nat} {ks vs : Nat}
    (h : ∀ m ∈ slots, cachePlace u (slotRows b es m).1 ks = true ∧ cachePlace u (slotRows b es m).2 vs = true) :
    slots.any (fun m => !cachePlace u (slotRows b es m).1 ks || !cachePlace u (slotRows b es m).2 vs) = false := by
  refine List.any_eq_false.2 fun m hm => ?_
  obtain ⟨hk, hv⟩ := h m hm
  simp [hk, hv]

end Checks

/-! ### Instructions of a Draw pipe (R168 to R192) -/

/-- Settles O21: each is at the head of issue, and each of its checks finds nothing: no reason against its block, its page entries or its record, and
no read that ended in an error. -/
theorem drawInstructionsComplete : Obligations.DrawInstructionsComplete := by
  intro n s t d q b hblock hne
  have hread : b.isEmpty = false := List.isEmpty_eq_false_iff.2 hne
  refine ⟨?attn, ?kvappend, ?rollback⟩
  case attn =>
    intro p1 p2 p3 p4 p5 p6 pos masks sq sk es x h hpos hmasks hhead hstop2 hentries hpages hstop3 hsegq hsegk hdata hstop6
    refine next_issue_done h ?_
    simp only [State.attnIssue, hblock, hread, hpos, hmasks, hentries, hsegq, hsegk, hdata, Bool.false_eq_true, if_false]
    have hblockOk := append_why_eq_nil (r := 0x31) hhead hstop2
    have hpagesOk := append_why_eq_nil (r := 0x31) (firstReasons_eq_nil hpages) hstop3
    exact (Pull.check_ok hblockOk).trans ((Pull.check_ok hpagesOk).trans (Pull.check_ok (why_eq_nil hstop6)))
  case kvappend =>
    intro p1 p2 p3 p4 p5 pos es kr vr kx v badK h hpos hhead hstop1 hentries hpages hstop2 hconfig hkr hvr hkx hstop5 hdup
    refine next_issue_done h ?_
    simp only [State.kvIssue, hblock, hread, hpos, hentries, hkr, hvr, hkx, hdup, Bool.false_eq_true, if_false]
    have hblockOk := configLate_eq_nil (c := t.kvConfig (64 + n) b) (append_why_eq_nil (r := 0x31) hhead hstop1)
    have hpagesOk := append_why_eq_nil (r := 0x34) (append_why_eq_nil (r := 0x31) (List.flatMap_eq_nil_iff.2 hpages) hstop2) hconfig
    exact (Pull.check_ok hblockOk).trans ((Pull.check_ok hpagesOk).trans (Pull.check_ok (why_eq_nil hstop5)))
  case rollback =>
    intro p1 p2 r es h hhead hstop hrec hlegal hstop1 hsafety hentries hstop2 hplaces
    refine next_issue_done h ?_
    simp only [State.rbIssue, hblock, hread, hrec, hentries, Bool.false_eq_true, if_false]
    have hblockOk := configLate_eq_nil (c := t.safetyWork (64 + n)) (append_why_eq_nil (r := 0x31) hhead hstop)
    have hrecordOk := append_why_eq_nil (r := 0x34) (append_why_eq_nil (r := 0x31) hlegal hstop1) hsafety
    have hplacesOk := append_why_eq_nil (r := 0x31) (why_eq_nil (r := 0x12) (badPlace_eq_false hplaces)) hstop2
    exact (Pull.check_ok hblockOk).trans ((Pull.check_ok hrecordOk).trans (Pull.check_ok hplacesOk))

end Sys2Proof.Machine

/-! PROOFS. The obligations on the instructions of a Swage and of a post-processing unit: ELT, NORM, RED, WIN, ACCEPT and DETECT. -/

namespace Sys2Proof.Machine

/-! ### Instructions of a Swage (R203 to R218) -/

section Swages

variable {s t : State} {p q : Pull} {u op : Nat} {d : Ins} {b par : List Byte} {reasons : List Byte → List Nat} {go : Pull → List Byte → Issue}

/-- The common end of a Swage's instruction refuses nothing and waits for nothing. -/
theorem Pull.vecDone_done (code : Nat → Nat → Nat → Nat) (ins : List (Nat × Nat)) : ∃ w, p.vecDone u b code ins = .done w := ⟨_, rfl⟩

theorem eltGo_done : ∃ w, eltGo u p b = .done w := Pull.vecDone_done _ _

/-- With the statistics as its output (R211) NORM has an end of its own. -/
theorem normGo_done : ∃ w, normGo u p b = .done w := by
  by_cases hstats : normStats b = true
  · exact ⟨_, if_pos hstats⟩
  · obtain ⟨w, hw⟩ := Pull.vecDone_done _ _
    exact ⟨w, (if_neg hstats).trans hw⟩

theorem redGo_done : ∃ w, redGo u p b = .done w := Pull.vecDone_done _ _

theorem winGo_done : ∃ w, winGo u p b = .done w := ⟨_, rfl⟩

/-- A block that is read and has no reason against it lets its instruction go on. -/
theorem State.vecIssue_legal (hblock : t.blockFetch u d = (q, b)) (hne : b ≠ []) (hword : blockWord u d 0 = []) (hlegal : reasons b = []) :
    t.vecIssue u d reasons go = go q b := by
  have hread : ¬b.isEmpty = true := by simpa using hne
  simp only [State.vecIssue, hblock]
  exact (if_neg hread).trans (Pull.check_ok (List.append_eq_nil_iff.2 ⟨hword, hlegal⟩))

/-- An instruction at the head that goes on to its end completes with it. -/
theorem next_vecIssue_done (h : s.Heads u op d t) (hgo : ∃ w, go q b = .done w) (hissue : t.vecIssue u d reasons go = go q b) :
    ∃ w, go q b = .done w
      ∧ (.next (s.issue u [op] (fun d s => s.vecIssue u d reasons go)) : Host.Outcome State Fault Refusal) = .next (w.advance u) := by
  obtain ⟨w, hw⟩ := hgo
  exact ⟨w, hw, next_issue_done h (hissue.trans hw)⟩

/-- No parent index breaks the tree when each is 0xFF or lies below its candidate (R218). -/
theorem badParent_eq_false (h : ∀ i < acC b, fieldAt par i 1 = 0xFF ∨ fieldAt par i 1 < i) :
    (List.range (acC b)).any (fun i => fieldAt par i 1 != 0xFF && i ≤ fieldAt par i 1) = false := by
  refine List.any_eq_false.2 fun i hi => ?_
  rcases h i (List.mem_range.1 hi) with hprior | hbelow
  · simp [hprior]
  · simp [Nat.not_le.2 hbelow]

end Swages

/-- Settles O22: each is at the head of issue and its block is read without a reason against it, so it goes on to its end; ACCEPT checks its parents
and its configuration on the way (R218, R226), and neither stops it. -/
theorem swageInstructionsComplete : Obligations.SwageInstructionsComplete := by
  intro v s t d q b hblock hne hword
  refine ⟨fun h hlegal => ?elt, fun h hlegal => ?norm, fun h hlegal => ?red, fun h hlegal => ?win, ?accept⟩
  case elt => exact next_vecIssue_done h eltGo_done (State.vecIssue_legal hblock hne hword hlegal)
  case norm => exact next_vecIssue_done h normGo_done (State.vecIssue_legal hblock hne hword hlegal)
  case red => exact next_vecIssue_done h redGo_done (State.vecIssue_legal hblock hne hword hlegal)
  case win => exact next_vecIssue_done h winGo_done (State.vecIssue_legal hblock hne hword hlegal)
  case accept =>
    intro p1 p2 p3 tok par path bonus w dup h hlegal hsafety htok hpar hparents hwalk hdup
    have htree := append_why_eq_nil (r := 0x34) (why_eq_nil (r := 0x32) (badParent_eq_false hparents)) hsafety
    refine next_issue_done h ((State.vecIssue_legal hblock hne hword (configLate_eq_nil hlegal)).trans ?_)
    simp only [htok, hpar, hwalk, hdup]
    exact Pull.check_ok htree

/-! ### DETECT (R220 to R226) -/

/-- Settles O23: DETECT is at the head of issue and its one check, of its word and its block, finds nothing. -/
theorem detectCompletes : Obligations.DetectCompletes := by
  intro n s t d q p1 p2 p3 b box score anchor h hblock hne hlegal hbox hscore hanchor
  have hread : ¬b.isEmpty = true := by simpa using hne
  refine next_issue_done h ?_
  simp only [State.dtIssue, hblock, hbox, hscore, hanchor]
  exact (if_neg hread).trans (Pull.check_ok hlegal)

end Sys2Proof.Machine

/-! PROOFS. The obligations on the memories and movers: the scrub of the tenant pool, maintenance of the memories, the Tongs' commands. -/

namespace Sys2Proof.Machine

/-! ### The scrub of the tenant pool (R258, R477) -/

section Scrub

variable {s : State} {a n : Nat}

/-- What is kept is found as before, and nothing else is found. -/
theorem SMap.find?_keep {α : Type} (p : Nat → Bool) (m : SMap α) (k : Nat) :
    SMap.find? (SMap.keep p m) k = if p k then SMap.find? m k else none := by
  induction m with
  | nil => exact (ite_self none).symm
  | cons e m ih =>
    obtain ⟨j, x⟩ := e
    have hkeep : SMap.keep p ((j, x) :: m) = if p j then (j, x) :: SMap.keep p m else SMap.keep p m := List.filter_cons
    by_cases hjk : j = k
    · subst hjk
      by_cases hp : p j = true
      · simp [hkeep, hp, SMap.find?]
      · simp [hkeep, hp, ih]
    · have hnext (l : SMap α) : SMap.find? ((j, x) :: l) k = SMap.find? l k := if_neg hjk
      rw [hkeep, hnext, ← ih]
      split
      · exact hnext _
      · rfl

/-- Zeroing a range leaves the bytes outside it. -/
theorem State.byte_zeroRange (b : Nat) : (s.zeroRange a n).byte b = if a ≤ b ∧ b < a + n then 0 else s.byte b := by
  simp only [State.byte, State.zeroRange, SMap.getD, SMap.find?_keep, Bool.or_eq_true, decide_eq_true_eq]
  by_cases hb : a ≤ b ∧ b < a + n
  · rw [if_pos hb, if_neg (by omega)]
    rfl
  · rw [if_neg hb, if_pos (by omega)]

/-- A unit that begins in a zeroed range has no poison. -/
theorem State.isPoisoned_zeroRange {b : Nat} (hlo : a ≤ b) (hhi : b < a + n) (hunit : b % 32 = 0) : (s.zeroRange a n).isPoisoned b = false := by
  have hstart : b / 32 * 32 = b := by omega
  rw [State.isPoisoned, Bool.eq_false_iff, Ne, List.contains_iff_mem, State.zeroRange, List.mem_filter, hstart]
  simp [hlo, hhi]

/-- The pool ends where usable DRAM does (R35). -/
theorem State.poolBase_le_usableTop : s.poolBase ≤ s.usableTop := Nat.sub_le ..

end Scrub

/-- Settles O58: the pool is one range, zeroed by one rule; the two flags are fields apart of one register. -/
theorem poolScrubZeroesThePool : Obligations.PoolScrubZeroesThePool := by
  intro s hc hscrub
  have hend : s.poolBase + (s.usableTop - s.poolBase) = s.usableTop := Nat.add_sub_cancel' State.poolBase_le_usableTop
  have hwf : SMap.wf (s.zeroRange s.poolBase (s.usableTop - s.poolBase)).regs = true := hc.regs
  have hclean := State.wf_setFld Reg.PRC_MODE.POOL_DIRTY 0 hwf
  refine ⟨_, next_if_neg (by simp [hscrub]), fun b => ?byte, fun b hlo hhi hunit => ?poison, ?dirty, ?scrub, fun a ha => ?rest⟩
  case byte => exact (State.byte_zeroRange b).trans (by rw [hend])
  case poison => exact State.isPoisoned_zeroRange hlo (hend.symm ▸ hhi) hunit
  case dirty =>
    have hapart := State.fld_setFld_apart (f := Reg.PRC_MODE.POOL_SCRUB) (g := Reg.PRC_MODE.POOL_DIRTY) 0 hclean (by decide) rfl (.inr (by decide))
    exact (congrArg (· == 1) hapart).trans (State.flag_setFld_same _ 0 hwf (by decide))
  case scrub => exact State.flag_setFld_same _ 0 hclean (by decide)
  case rest => exact (State.rd_setFld_ne 0 ha.symm).trans (State.rd_setFld_ne 0 ha.symm)

/-! ### Injections, patrols, the failure of a channel (R249, R252, R267, R268) -/

/-- Settles O11: an injection is a write of its bit; a patrol that is enabled, and a channel not yet failed, are past the guard. -/
theorem memoryMaintenanceCommandsComplete : Obligations.MemoryMaintenanceCommandsComplete := by
  intro s who ch
  refine ⟨execCruInject_does, fun hr => ⟨execMemCeInject_does ch hr, execMemUeInject_does ch hr⟩, fun hawake hpatrol => ?_,
    fun hpatrol hworks hawake => ?_, fun hworks => ?_⟩
  · exact next_if_pos (by simp [hawake, hpatrol])
  · exact next_if_pos (by simp [hpatrol, hworks, hawake])
  · exact next_if_neg (by simp [hworks])

/-! ### Tongs (R256 to R263, R306) -/

section Tongs

variable {s t u : State} {n o units : Nat} {d : List Byte} {idx : List (Nat × Bool × Bool)}

/-- The five commands are the mover's run, each with its OP (R258). -/
theorem exec_tongs {ch : Fin 32} {c : TongsRun → Instr}
    (h : (o, c) ∈ [(1, Instr.tongsCopy), (2, Instr.tongsTranspose), (3, Instr.tongsGather), (4, Instr.tongsFill), (5, Instr.tongsScrub)]) :
    exec (c ⟨ch, units⟩) s = .next (s.tongsRun ch o units) := by
  simp only [List.mem_cons, Prod.mk.injEq, List.not_mem_nil, or_false] at h
  obtain ⟨rfl, rfl⟩ | ⟨rfl, rfl⟩ | ⟨rfl, rfl⟩ | ⟨rfl, rfl⟩ | ⟨rfl, rfl⟩ := h <;> rfl

/-- The movement of a channel's descriptor, where it is not over. -/
def State.tongsMove (s : State) (n units : Nat) : State := if (s.chan n).moved then s else s.moveOn n units

/-- A descriptor of the command's OP is started where it has not been, and moved. -/
theorem State.tongsRun_taken (htake : s.chanTake n = (t, some (d, false))) (hop : fieldAt d 1 1 = o) :
    s.tongsRun n o units = (if (t.chan n).started then t else t.tongsStart n d false).tongsMove n units := by
  have hown : ¬(!false && fieldAt d 1 1 != o && decide (1 ≤ fieldAt d 1 1) && decide (fieldAt d 1 1 ≤ 5)) = true := by simp [hop]
  simp only [State.tongsRun, htake]
  exact if_neg hown

/-- A channel whose descriptor starts runs it, with the indices `idx`, from the state in which it read them. -/
def State.tongsOpened (u : State) (n : Nat) (d : List Byte) (idx : List (Nat × Bool × Bool)) : ChanSt :=
  { u.chan n with desc := d, gen := u.fld (chanGen n), lastWrite := u.nowNs, started := true, idx := idx }

/-- What a descriptor reads of its indices as it starts, for a GATHER whose index list lies in the map (R258). -/
def State.tongsIndices (t : State) (n : Nat) (d : List Byte) : State × List (Nat × Bool × Bool) :=
  let b := TDesc.ofBytes d
  if fieldAt d 1 1 == 3 && spanIn (mapRanges t.rawTop) b.aux (4 * b.len1) then t.gatherIndices (t.chanReq n) b else (t, [])

/-- They are what the start of a readable descriptor reads. -/
theorem State.tongsIndices_readable :
    (if !false && (TDesc.ofBytes d).op == 3 && spanIn (mapRanges t.rawTop) (TDesc.ofBytes d).aux (4 * (TDesc.ofBytes d).len1) then
      t.gatherIndices (t.chanReq n) (TDesc.ofBytes d) else (t, [])) = t.tongsIndices n d := rfl

/-- A refused descriptor waits for its completion, with its reason and status 3 (R259). -/
theorem State.tongsStart_refused {reason : Nat} (hidx : t.tongsIndices n d = (u, idx))
    (href : tongsRefusal (mapRanges (u.chanRunning n true).rawTop) d idx false = some reason) :
    t.tongsStart n d false
      = (u.chanRunning n true).setChan n { u.tongsOpened n d idx with reason := reason, status := 3, moved := true, idx := [] } := by
  simp only [State.tongsStart, State.tongsIndices_readable, hidx, href]
  rfl

/-- One that is accepted has its indices that name no row counted, and is ready to move (R258, R262). -/
theorem State.tongsStart_accepted (hidx : t.tongsIndices n d = (u, idx))
    (href : tongsRefusal (mapRanges (u.chanRunning n true).rawTop) d idx false = none) :
    t.tongsStart n d false = (u.chanRunning n true).setChan n
      { u.tongsOpened n d idx with zeroed := (idx.filter (fun i => !i.2.1 && !i.2.2 && (TDesc.ofBytes d).word ≤ i.1)).length } := by
  simp only [State.tongsStart, State.tongsIndices_readable, hidx, href]
  rfl

end Tongs

/-- Settles O24: the channel's descriptor has the command's OP, so it goes on, or starts with the indices it reads and is refused or moved (log 40); completion,
tail and abort are the claimed effects, past guards that they meet. -/
theorem tongsCommandsComplete : Obligations.TongsCommandsComplete := by
  intro s who ch
  refine ⟨fun t d o units c hc htake hop => ⟨fun hstarted hmoves => ?goesOn, fun hfresh => ?starts⟩, fun hdesc hover => ?completes,
    execTongsTailWrite_does ch, execTongsAbort_does ch⟩
  case goesOn =>
    rw [exec_tongs hc, State.tongsRun_taken htake hop, if_pos hstarted]
    exact next_if_neg (by simp [hmoves])
  case starts =>
    have hrun : exec (c ⟨ch, units⟩) s = .next ((t.tongsStart ch d false).tongsMove ch units) := by
      rw [exec_tongs hc, State.tongsRun_taken htake hop, if_neg (by simp [hfresh])]
    obtain ⟨u, idx, hidx⟩ : ∃ u idx, t.tongsIndices ch d = (u, idx) := ⟨_, _, rfl⟩
    have hread := hidx
    subst hop
    simp only [State.tongsIndices] at hread
    simp only [hread]
    refine ⟨fun reason href => ?_, fun href => ?_⟩
    · rw [hrun, State.tongsStart_refused hidx href]
      rfl
    · rw [hrun, State.tongsStart_accepted hidx href]
      rfl
  case completes => exact next_if_neg (by simp [hdesc, hover])

end Sys2Proof.Machine

/-! PROOFS. The obligations on Bellows: the record engine's commands, the commands of camera and point receivers and of the frame table. -/

namespace Sys2Proof.Machine

/-! ### Record channels (R286 to R291) -/

section Records

variable {s t u w : State} {r : Fin 4} {reason : Nat} {d : List Byte} {sc tab : Rd}

/-- A record channel runs the descriptor it has taken, which moves no unit by unit as a Tongs descriptor does (R291). -/
def State.recordOpened (t : State) (n : Nat) (d : List Byte) : State :=
  let v := t.chanRunning n true
  v.setChan n { v.chan n with desc := d, started := true, moved := true, gen := v.fld (chanGen n), lastWrite := v.nowNs }

/-- A refused descriptor waits for its completion with its reason and status 4 (R259, R291). -/
def State.recordRefuse (w : State) (n reason : Nat) : State := w.setChan n { w.chan n with reason := reason, status := 4 }

/-- The refusal of the descriptor, given the bytes of its schema and of its table of tensors (R287). -/
def State.recordChecks (t : State) (n : Nat) (d sc tab : List Byte) (poisoned : Bool) : Option Nat :=
  recordRefusal (mapRanges (t.chanRunning n true).rawTop) d sc tab poisoned

/-- What a run has come to is left in the channel, and poison that it ate is the descriptor's one fault (R242, R291). -/
def State.recordOver (n src : Nat) (p : State × RecSt) : State :=
  let (e, y) := p
  let x := e.chan n
  let eats := y.ate && !x.faulted
  let e := if eats then e.consumed (chanUnit n) (e.fld (chanCtx n)) src else e
  let used := (List.range y.pack.rows.length).countP (fun i => y.pack.samples i != 0)
  e.setChan n { x with status := y.status, faulted := x.faulted || eats, counts := [y.records, y.refused, y.consumed, used, y.firstBad] }

/-- A descriptor that its own fields refuse, for another reason than GEOMETRY (0x30), reads neither schema nor table. -/
theorem execRecordDecode_blind (htake : s.chanTake (32 + r.val) = (t, some (d, false)))
    (href : t.recordChecks (32 + r.val) d [] [] false = some reason) (hblind : reason ≠ 0x30) :
    execRecordDecode r s = .next ((t.recordOpened (32 + r.val) d).recordRefuse (32 + r.val) reason) := by
  have hearly : (some reason != some 0x30) = true := by simpa using hblind
  simp only [State.recordChecks] at href
  simp only [execRecordDecode, htake, href, hearly, Option.isSome_some, Bool.and_self, if_true, Rd.bad, Option.isSome_none, Bool.or_self]
  rfl

/-- Any other one has its schema and its table read, and is judged by them. -/
theorem execRecordDecode_read (htake : s.chanTake (32 + r.val) = (t, some (d, false)))
    (hearly : t.recordChecks (32 + r.val) d [] [] false = none ∨ t.recordChecks (32 + r.val) d [] [] false = some 0x30)
    {rq : Req} (hrq : rq = (t.chanRunning (32 + r.val) true).chanReq (32 + r.val))
    (hsc : ((t.recordOpened (32 + r.val) d).chargeOnce rq (RDesc.ofBytes d).schema 128 false).read rq (RDesc.ofBytes d).schema 128 false = (u, sc))
    (htab : (u.chargeOnce rq (RDesc.ofBytes d).outTab 256 false).read rq (RDesc.ofBytes d).outTab 256 false = (w, tab)) :
    execRecordDecode r s = .next (match t.recordChecks (32 + r.val) d sc.bytes tab.bytes (sc.bad || tab.bad) with
      | some reason => w.recordRefuse (32 + r.val) reason
      | none => State.recordOver (32 + r.val) (RDesc.ofBytes d).src (w.recordRun rq d sc.bytes tab.bytes)) := by
  subst hrq
  have hsighted : ((t.recordChecks (32 + r.val) d [] [] false).isSome && t.recordChecks (32 + r.val) d [] [] false != some 0x30) = false := by
    rcases hearly with h | h <;> rw [h] <;> rfl
  simp only [State.recordChecks] at hsighted
  simp only [State.recordOpened] at hsc
  simp only [execRecordDecode, htake, hsighted, Bool.false_eq_true, if_false, hsc, htab, Bool.false_or]
  rfl

end Records

/-- Settles O25: a descriptor is refused by its own fields, refused with its tables read, or run; completion, tail and abort are the claimed effects, past
guards that they meet. That a schema or table that reads poisoned refuses its descriptor with GROWTH, and that failed accesses count once, is the model's
reading (log 61). -/
theorem recordCommandsComplete : Obligations.RecordCommandsComplete := by
  intro s who r
  refine ⟨fun t d htake => ⟨fun reason href hblind => ?blind, fun u w sc tab hearly hsc htab => ⟨fun reason href => ?refused, fun href => ?runs⟩⟩,
    fun hdesc hover => ?completes, execRecordTailWrite_does r, execRecordAbort_does r⟩
  case blind => exact execRecordDecode_blind htake href hblind
  case refused => exact (execRecordDecode_read htake hearly rfl hsc htab).trans (by simp only [State.recordChecks, href]; rfl)
  case runs => exact (execRecordDecode_read htake hearly rfl hsc htab).trans (by simp only [State.recordChecks, href]; rfl)
  case completes => exact next_if_neg (by simp [hdesc, hover])

/-! ### Cameras (R270 to R278) -/

/-- A packet that reaches its receiver is acted on, after what its header does. -/
theorem next_camPacket {s t : State} {c dt : Nat} {pkt : CamPacket} {run : State → State} (h : s.Receives c pkt dt t) :
    (.next (s.camPacket c pkt dt run) : Host.Outcome State Fault Refusal) = .next (run t) :=
  congrArg Host.Outcome.next (State.camPacket_ok h)

/-! ### Point streams (R279 to R282) -/

section Points

variable {s t : State} {j : Nat} {e : PointDatagram}

/-- A stream's record after a change of it. -/
theorem State.stream_modStream_same {k : Nat} (hwf : SMap.wf s.intake = true) (f : IntakeSt → IntakeSt) : (s.modStream k f).stream k = f (s.stream k) :=
  SMap.getD_put_same _ _ _ _ hwf

/-- The stamp of a datagram is not later than R334 lets it be. -/
def State.stamped (s : State) (e : PointDatagram) : PointDatagram := { e with stamp := min e.stamp (s.nowNs + 4) }

/-- A datagram too short for its stream's template is dropped; the points of another go to the open sweep, or to one that a first datagram opens
(R279 to R281). -/
def State.takeDatagram (s : State) (j : Nat) (d : PointDatagram) (first : Bool) : State :=
  if d.payload.length < tmplNeeds (s.stream (16 + j)).tmpl d.payload (s.flag (Reg.BLW_PT_CTL.MODE j)) then s.badDatagram j
  else (if first then s.openSweep j d.stamp else s).sweepDatagram j d

/-- The first datagram of a sweep has the template read again, which has to let the stream start and to name the datagram's port (R280). -/
def State.datagramBy (s : State) (j : Nat) (d : PointDatagram) : State :=
  let first := (s.stream (16 + j)).sweep.isNone
  let (t, ok) := if first then s.readTemplate j else (s, true)
  if !ok || tmplPort (t.stream (16 + j)).tmpl != d.port then t else t.takeDatagram j d first

/-- A datagram belongs to the sweep that the strike closed: no sweep of its STRIKE stream is open, and its stamp lies in the strike's comparison cycle or
before it (R282). -/
def State.belated (s : State) (j : Nat) (d : PointDatagram) : Bool :=
  !s.flag (Reg.BLW_PT_CTL.MODE j) && (s.stream (16 + j)).sweep.isNone && s.time.live && decide (d.stamp ≤ s.strikeTime)

/-- That sweep is open again, if the strike closed one. -/
def State.reopened (s : State) (j : Nat) (d : PointDatagram) : State :=
  match (s.stream (16 + j)).closed with
  | some w => if s.belated j d then s.reopenSweep j w else s
  | none => s

section Heard

variable (hon : s.streamOn (16 + j) = true) (htmpl : (s.stream (16 + j)).tmpl ≠ []) (hport : tmplPort (s.stream (16 + j)).tmpl = e.port)
include hon htmpl hport

/-- A datagram of the stream's port is heard. -/
theorem State.pointDatagram_heard : s.pointDatagram j e = if s.belated j (s.stamped e)
    then ((s.reopened j (s.stamped e)).datagramBy j (s.stamped e)).closeAtStrike j
    else (s.reopened j (s.stamped e)).datagramBy j (s.stamped e) := by
  have hheard : ¬(!s.streamOn (16 + j) || (s.stream (16 + j)).tmpl.isEmpty || tmplPort (s.stream (16 + j)).tmpl != e.port) = true := by
    simp [hon, htmpl, hport]
  exact if_neg hheard

theorem State.pointDatagram_timely (h : s.belated j (s.stamped e) = false) : s.pointDatagram j e = s.datagramBy j (s.stamped e) := by
  have hstays : s.reopened j (s.stamped e) = s := by
    unfold State.reopened
    split
    · exact if_neg (by simp [h])
    · rfl
  rw [State.pointDatagram_heard hon htmpl hport, if_neg (by simp [h]), hstays]

/-- A belated one leaves its sweep closed again. -/
theorem State.pointDatagram_belated (h : s.belated j (s.stamped e) = true) :
    s.pointDatagram j e = ((s.reopened j (s.stamped e)).datagramBy j (s.stamped e)).closeAtStrike j :=
  (State.pointDatagram_heard hon htmpl hport).trans (if_pos h)

end Heard

variable {d : PointDatagram}

theorem State.datagramBy_open (hopen : (s.stream (16 + j)).sweep ≠ none) (hport : tmplPort (s.stream (16 + j)).tmpl = d.port) :
    s.datagramBy j d = s.takeDatagram j d false := by
  have hlater : (s.stream (16 + j)).sweep.isNone = false := by simpa [Option.isSome_iff_ne_none] using hopen
  simp [State.datagramBy, hlater, hport]

theorem State.datagramBy_first (hnone : (s.stream (16 + j)).sweep = none) (hread : s.readTemplate j = (t, true))
    (hport : tmplPort (t.stream (16 + j)).tmpl = d.port) : s.datagramBy j d = t.takeDatagram j d true := by
  simp [State.datagramBy, hnone, hread, hport]

theorem State.reopened_of_none (h : (s.stream (16 + j)).closed = none) : s.reopened j d = s := by
  simp only [State.reopened, h]

theorem State.reopened_of_belated {w : OpenSweep} (h : s.belated j d = true) (hw : (s.stream (16 + j)).closed = some w) :
    s.reopened j d = s.reopenSweep j w := by
  simp only [State.reopened, hw, h, if_true]

/-- The stream has that sweep open, and its template as before. -/
theorem State.stream_reopenSweep (hwf : SMap.wf s.intake = true) (w : OpenSweep) :
    ((s.reopenSweep j w).stream (16 + j)).sweep = some w ∧ ((s.reopenSweep j w).stream (16 + j)).tmpl = (s.stream (16 + j)).tmpl := by
  rw [State.reopenSweep, State.stream_modStream_same hwf]
  exact ⟨rfl, rfl⟩

theorem State.belated_iff (hnone : (s.stream (16 + j)).sweep = none) : s.belated j d = true
    ↔ s.flag (Reg.BLW_PT_CTL.MODE j) = false ∧ s.time.live = true ∧ d.stamp ≤ s.strikeTime := by
  simp [State.belated, hnone, and_assoc]

end Points

/-- Settles O26: a packet is acted on past its header; a point datagram goes to the open sweep, to one it opens, or to the one that the strike closed; the
rest is past the guards that its hypotheses meet. What a belated datagram reopens (log 55, 59), the header's place (log 60), the golden frame's read and
settings (log 56), slots with bad descriptors (log 54) and device time moved to half the period (log 3) are the model's choices. -/
theorem intakeCommandsComplete : Obligations.IntakeCommandsComplete := by
  intro s
  refine ⟨fun cam pkt t h => ?frameStart, fun cam pkt t f h hframe => ?linePacket,
    fun cam pkt t f h hframe => ⟨fun hshort => ?short, fun hlines hfaulty => ?faulty, fun hlines hsound => ?sound⟩,
    fun cam f rest hended => ?frameComplete,
    fun j e hon htmpl hport => ⟨fun hopen => ?running, fun t hnone hlate hread hport' => ?first, fun t hnone hlate hclosed hread hport' => ?afterStrike,
      fun w hnone hlate hclosed hwf => ?reopened⟩,
    fun j f rest hended => ?sweepComplete, fun n at_ hftab hbellows => ?publish, fun cam hon hwaits => ?golden⟩
  case frameStart => exact next_camPacket h
  case linePacket => exact (next_camPacket h).trans (by simp only [hframe, beq_iff_eq])
  case short => exact (next_camPacket h).trans (by simp [hframe, hshort])
  case faulty => exact (next_camPacket h).trans (by simp [hframe, hlines, hfaulty])
  case sound => exact (next_camPacket h).trans (by simp [hframe, hlines, hsound])
  case frameComplete => simp only [exec, execFrameComplete, hended]
  case running =>
    have htimely : s.belated j (s.stamped e) = false := by simp [State.belated, hopen]
    refine congrArg Host.Outcome.next ((State.pointDatagram_timely hon htmpl hport htimely).trans ?_)
    rw [State.datagramBy_open (d := s.stamped e) hopen hport]
    simp only [State.takeDatagram, State.stamped, hopen, Bool.false_eq_true, if_false]
  case first =>
    have htimely : s.belated j (s.stamped e) = false := Bool.eq_false_iff.2 (hlate ∘ (State.belated_iff hnone).1)
    refine congrArg Host.Outcome.next ((State.pointDatagram_timely hon htmpl hport htimely).trans ?_)
    rw [State.datagramBy_first (d := s.stamped e) hnone hread hport']
    simp only [State.takeDatagram, State.stamped, hnone, if_true]
  case afterStrike =>
    have hbelated : s.belated j (s.stamped e) = true := (State.belated_iff hnone).2 hlate
    refine congrArg Host.Outcome.next ((State.pointDatagram_belated hon htmpl hport hbelated).trans (congrArg (State.closeAtStrike · j) ?_))
    rw [State.reopened_of_none hclosed, State.datagramBy_first (d := s.stamped e) hnone hread hport']
    simp only [State.takeDatagram, State.stamped, hnone, if_true]
  case reopened =>
    have hbelated : s.belated j (s.stamped e) = true := (State.belated_iff hnone).2 hlate
    obtain ⟨hsweep, hsame⟩ := State.stream_reopenSweep (j := j) hwf w
    have hopen : ((s.reopenSweep j w).stream (16 + j)).sweep ≠ none := by simp [hsweep]
    refine congrArg Host.Outcome.next ((State.pointDatagram_belated hon htmpl hport hbelated).trans (congrArg (State.closeAtStrike · j) ?_))
    rw [State.reopened_of_belated hbelated hclosed, State.datagramBy_open (d := s.stamped e) hopen (hsame ▸ hport)]
    simp only [State.takeDatagram, State.stamped, Bool.false_eq_true, if_false]
  case sweepComplete => simp only [exec, execSweepComplete, hended]
  case publish => simp only [exec, execFrameTablePublish, hftab, hbellows]; rfl
  case golden => exact next_if_neg (by simp [hon, hwaits])

end Sys2Proof.Machine

/-! PROOFS. The obligations on rings and contexts: interrupts, the life of a context, doorbells and completion records, descriptors, the PCIe endpoint,
the values after reset. -/

namespace Sys2Proof.Machine

/-! ### Interrupts (R318 to R322, R442, R453) -/

section Claims

/-- Of those that may be taken, `b` has the highest priority, and the lowest number among its equals (R321). -/
structure IsTop (p : Nat → Prop) (prio : Nat → Nat) (b : Nat) : Prop where
  mine : p b
  above : ∀ o, p o → o ≠ b → prio o < prio b ∨ (prio o = prio b ∧ b < o)

theorem IsTop.unique {p : Nat → Prop} {prio : Nat → Nat} {a b : Nat} (ha : IsTop p prio a) (hb : IsTop p prio b) : a = b := by
  refine Decidable.byContradiction fun hne => ?_
  have hab := ha.above b hb.mine (Ne.symm hne)
  have hba := hb.above a ha.mine hne
  omega

/-- One number after the other: it takes the place of the one so far when it may be taken and is higher. -/
def topStep (mine : Nat → Bool) (prio : Nat → Nat) (best : Option Nat) (x : Nat) : Option Nat :=
  if mine x then
    match best with
    | some b => if prio b < prio x then some x else best
    | none => some x
  else best

section Choice

variable {mine : Nat → Bool} {prio : Nat → Nat} {n b : Nat}

theorem topStep_of_not {best : Option Nat} (h : mine n = false) : topStep mine prio best n = best := if_neg (by simp [h])

theorem topStep_none (h : mine n = true) : topStep mine prio none n = some n := if_pos h

theorem topStep_some (h : mine n = true) : topStep mine prio (some b) n = if prio b < prio n then some n else some b := if_pos h

/-- A number that may not be taken changes nothing. -/
theorem IsTop.succ_of_not (h : IsTop (fun x => x < n ∧ mine x = true) prio b) (hn : mine n = false) :
    IsTop (fun x => x < n + 1 ∧ mine x = true) prio b where
  mine := ⟨Nat.lt_succ_of_lt h.mine.1, h.mine.2⟩
  above o ho hne := by
    have hon : o ≠ n := by rintro rfl; simp [hn] at ho
    exact h.above o ⟨by omega, ho.2⟩ hne

/-- A number of higher priority than the one so far takes its place. -/
theorem IsTop.succ_higher (h : IsTop (fun x => x < n ∧ mine x = true) prio b) (hn : mine n = true) (hlt : prio b < prio n) :
    IsTop (fun x => x < n + 1 ∧ mine x = true) prio n where
  mine := ⟨Nat.lt_succ_self n, hn⟩
  above o ho hne := by
    by_cases hob : o = b
    · exact .inl (hob ▸ hlt)
    · have hbelow := h.above o ⟨by omega, ho.2⟩ hob
      omega

/-- One that is no higher leaves it there, since it is the later one. -/
theorem IsTop.succ_lower (h : IsTop (fun x => x < n ∧ mine x = true) prio b) (hle : ¬prio b < prio n) :
    IsTop (fun x => x < n + 1 ∧ mine x = true) prio b where
  mine := ⟨Nat.lt_succ_of_lt h.mine.1, h.mine.2⟩
  above o ho hne := by
    by_cases hon : o = n
    · have hfirst := h.mine.1
      subst hon
      omega
    · exact h.above o ⟨by omega, ho.2⟩ hne

/-- The choice among the numbers below `n`: none when none may be taken, otherwise the top one. -/
theorem foldl_topStep (mine : Nat → Bool) (prio : Nat → Nat) (n : Nat) :
    ((List.range n).foldl (topStep mine prio) none = none ∧ ∀ x < n, mine x = false)
      ∨ ∃ b, (List.range n).foldl (topStep mine prio) none = some b ∧ IsTop (fun x => x < n ∧ mine x = true) prio b := by
  induction n with
  | zero => exact .inl ⟨rfl, by simp⟩
  | succ n ih =>
    simp only [List.range_succ, List.foldl_append, List.foldl_cons, List.foldl_nil]
    rcases ih with ⟨hnone, hfree⟩ | ⟨b, hsome, htop⟩ <;> cases hn : mine n
    · exact .inl ⟨by rw [topStep_of_not hn, hnone], fun x hx => (Nat.lt_succ_iff_lt_or_eq.1 hx).elim (hfree x) (· ▸ hn)⟩
    · refine .inr ⟨n, by rw [hnone, topStep_none hn], ⟨Nat.lt_succ_self n, hn⟩, fun o ho hne => ?_⟩
      have hfreed := hfree o (by omega)
      simp [hfreed] at ho
    · exact .inr ⟨b, by rw [topStep_of_not hn, hsome], htop.succ_of_not hn⟩
    · rw [hsome, topStep_some hn]
      split
      · next hlt => exact .inr ⟨n, rfl, htop.succ_higher hn hlt⟩
      · next hle => exact .inr ⟨b, rfl, htop.succ_lower hle⟩

end Choice

variable {s : State} {core src : Nat}

/-- A source is pending, enabled and routed to the core (R319 to R321). -/
def State.mayClaim (s : State) (core src : Nat) : Bool :=
  s.deliverable src && s.fld (Reg.HIC_SRC_CFG.KIND src) == 0 && s.coreFor (s.fld (Reg.HIC_SRC_CFG.TARGET src)) == core

theorem State.mayClaim_iff : s.mayClaim core src = true ↔
    s.deliverable src = true ∧ s.fld (Reg.HIC_SRC_CFG.KIND src) = 0 ∧ s.coreFor (s.fld (Reg.HIC_SRC_CFG.TARGET src)) = core := by
  simp [State.mayClaim, and_assoc]

theorem State.topSource_eq_foldl :
    s.topSource core = (List.range 343).foldl (topStep (s.mayClaim core) (fun x => s.fld (Reg.HIC_SRC_CFG.PRIORITY x))) none := by
  unfold State.topSource
  congr 1

theorem State.topSource_eq_none (h : ∀ x < 343, s.mayClaim core x = false) : s.topSource core = none := by
  rcases foldl_topStep (s.mayClaim core) (fun x => s.fld (Reg.HIC_SRC_CFG.PRIORITY x)) 343 with ⟨hnone, -⟩ | ⟨b, -, htop⟩
  · exact hnone
  · have hfree := h b htop.mine.1
    simp [htop.mine.2] at hfree

theorem State.topSource_eq_some
    (h : IsTop (fun x => x < 343 ∧ s.mayClaim core x = true) (fun x => s.fld (Reg.HIC_SRC_CFG.PRIORITY x)) src) : s.topSource core = some src := by
  rcases foldl_topStep (s.mayClaim core) (fun x => s.fld (Reg.HIC_SRC_CFG.PRIORITY x)) 343 with ⟨-, hfree⟩ | ⟨b, hsome, htop⟩
  · have hfreed := hfree src h.mine.1
    simp [h.mine.2] at hfreed
  · exact hsome.trans (congrArg some (htop.unique h))

/-! What a claim's read comes to. -/

theorem State.claimRead_disabled (h : s.flag Reg.HIC_CTL.ENABLE = false) : s.claimRead core = (s, 0) := if_pos (by simp [h])

theorem State.claimRead_none (h : s.topSource core = none) : s.claimRead core = (s, 0) := by
  simp [State.claimRead, h]

theorem State.claimRead_some (hon : s.flag Reg.HIC_CTL.ENABLE = true) (hown : s.shadowed core = false) (h : s.topSource core = some src) :
    s.claimRead core = (s.claim src core, BitVec.ofNat 32 (2 ^ 31 + s.fld (Reg.HIC_SRC_STATE.COUNT src) * 2 ^ 16 + src)) := by
  simp [State.claimRead, hon, hown, h]

/-! What a claim leaves: the counter 0, the source active and its claimer named, every other register as it was. -/

theorem State.rd_claim (src k a : Nat) : (s.claim src k).rd a
    = (((s.setFld (Reg.HIC_SRC_STATE.COUNT src) 0).setFld (Reg.HIC_SRC_STATE.ACTIVE src) 1).setFld (Reg.HIC_SRC_STATE.PENDING src) 0).rd a := by
  have hregs : (s.claim src k).regs
      = (((s.setFld (Reg.HIC_SRC_STATE.COUNT src) 0).setFld (Reg.HIC_SRC_STATE.ACTIVE src) 1).setFld (Reg.HIC_SRC_STATE.PENDING src) 0).regs := rfl
  unfold State.rd
  rw [hregs]

theorem State.fld_claim (src k : Nat) (f : FRef) : (s.claim src k).fld f
    = (((s.setFld (Reg.HIC_SRC_STATE.COUNT src) 0).setFld (Reg.HIC_SRC_STATE.ACTIVE src) 1).setFld (Reg.HIC_SRC_STATE.PENDING src) 0).fld f := by
  simp only [State.fld, State.rd_claim]

theorem State.fld_count_claim (hwf : SMap.wf s.regs = true) (src k : Nat) : (s.claim src k).fld (Reg.HIC_SRC_STATE.COUNT src) = 0 := by
  have hwf' := State.wf_setFld (Reg.HIC_SRC_STATE.COUNT src) 0 hwf
  rw [State.fld_claim,
    State.fld_setFld_apart (f := Reg.HIC_SRC_STATE.PENDING src) (g := Reg.HIC_SRC_STATE.COUNT src) 0 (State.wf_setFld _ _ hwf')
      (by simp [Reg.HIC_SRC_STATE.PENDING]) rfl (by simp [Reg.HIC_SRC_STATE.PENDING, Reg.HIC_SRC_STATE.COUNT]),
    State.fld_setFld_apart (f := Reg.HIC_SRC_STATE.ACTIVE src) (g := Reg.HIC_SRC_STATE.COUNT src) 1 hwf'
      (by simp [Reg.HIC_SRC_STATE.ACTIVE]) rfl (by simp [Reg.HIC_SRC_STATE.ACTIVE, Reg.HIC_SRC_STATE.COUNT]),
    State.fld_setFld_same _ 0 hwf (by simp [Reg.HIC_SRC_STATE.COUNT]), Nat.zero_mod]

theorem State.flag_active_claim (hwf : SMap.wf s.regs = true) (src k : Nat) : (s.claim src k).flag (Reg.HIC_SRC_STATE.ACTIVE src) = true := by
  have hwf' := State.wf_setFld (Reg.HIC_SRC_STATE.COUNT src) 0 hwf
  unfold State.flag
  rw [State.fld_claim,
    State.fld_setFld_apart (f := Reg.HIC_SRC_STATE.PENDING src) (g := Reg.HIC_SRC_STATE.ACTIVE src) 0 (State.wf_setFld _ _ hwf')
      (by simp [Reg.HIC_SRC_STATE.PENDING]) rfl (by simp [Reg.HIC_SRC_STATE.PENDING, Reg.HIC_SRC_STATE.ACTIVE]),
    State.fld_setFld_same _ 1 hwf' (by simp [Reg.HIC_SRC_STATE.ACTIVE])]
  rfl

theorem State.out_send (m : OutMsg) : (s.send m).out = s.out ++ [m] := rfl

theorem State.fld_send (m : OutMsg) (f : FRef) : (s.send m).fld f = s.fld f := by simp only [State.fld, State.rd_send]

theorem State.flag_send (m : OutMsg) (f : FRef) : (s.send m).flag f = s.flag f := by simp only [State.flag, State.fld_send]

@[simp] theorem State.claim_out (src k : Nat) : (s.claim src k).out = s.out := by simp [State.claim]

@[simp] theorem State.claim_mem (src k : Nat) : (s.claim src k).mem = s.mem := by simp [State.claim]

theorem State.find?_hicClaimer_claim (src k : Nat) : SMap.find? (s.claim src k).hicClaimer src = some k :=
  SMap.find?_insert_same _ _ _

theorem State.rd_claim_ne (k : Nat) {a : Nat} (h : a ≠ Reg.HIC_SRC_STATE src) : (s.claim src k).rd a = s.rd a := by
  rw [State.rd_claim, State.rd_setFld_ne 0 h.symm, State.rd_setFld_ne 1 h.symm, State.rd_setFld_ne 0 h.symm]

end Claims

/-- Settles O54: going through the sources in the order of their numbers, and changing only to a higher priority, ends at the top one. -/
theorem claimTakesTheHighestPriority : Obligations.ClaimTakesTheHighestPriority := by
  intro s who core hgives hwf mine prio
  have hmine (x : Nat) : mine x ↔ x < 343 ∧ s.mayClaim core x = true := and_congr_right fun _ => State.mayClaim_iff.symm
  have hread : exec (.hicClaim who core) s = .next ((s.claimRead core).1.send (.readData (Reg.HIC_CLAIM core) (s.claimRead core).2)) :=
    execHicClaim_does core hgives
  refine ⟨fun hoff => ?off, fun hfree => ?none, fun hon hown src hsrc hbest => ?some⟩
  case off => rw [hread, State.claimRead_disabled hoff]
  case none =>
    have hnone : s.topSource core = none :=
      State.topSource_eq_none fun x hx => Bool.eq_false_iff.2 fun hx' => hfree x ((hmine x).2 ⟨hx, hx'⟩)
    rw [hread, State.claimRead_none hnone]
  case some =>
    have htop : s.topSource core = some src := State.topSource_eq_some ⟨(hmine src).1 hsrc, fun o ho => hbest o ((hmine o).2 ho)⟩
    have hclaim := hread.trans (congrArg (fun p : State × Word => Host.Outcome.next (p.1.send (.readData (Reg.HIC_CLAIM core) p.2)))
      (State.claimRead_some hon hown htop))
    refine ⟨_, hclaim, ?out, ?count, ?active, ?claimer, ?mem, fun a ha => ?frame⟩
    case out => rw [State.out_send, State.claim_out]
    case count => rw [State.fld_send, State.fld_count_claim hwf]
    case active => rw [State.flag_send, State.flag_active_claim hwf]
    case claimer => rw [State.send_hicClaimer, State.find?_hicClaimer_claim]
    case mem => rw [State.send_mem, State.claim_mem]
    case frame => rw [State.rd_send, State.rd_claim_ne core ha]

/-- Settles O12: claim, completions and HIC_SET are an access that reaches its register; MSIX_SEND and the gate's claim are past guards that their
hypotheses meet. That a message leaves the link in L0 (log 67), that a source which cannot be sent may wake the host (log 123) and what the gate makes of
a ring's records (log 116) are the model's choices. -/
theorem interruptCommandsComplete : Obligations.InterruptCommandsComplete := by
  intro s who core src
  refine ⟨execHicClaim_does core, execHicComplete_does core src, execHicXcomplete_does src, execHicSet_does src,
    fun hon hkind hpends hready => ?_, fun hon hkind hpends hready => ?_, fun t r hserved hon hkind hpends hroom => ?_⟩
  · exact (next_if_neg (by simp [hon, hkind, hpends])).trans (next_if_neg (by simp [hready]))
  · exact (next_if_neg (by simp [hon, hkind, hpends])).trans (next_if_pos (by simp [hready]))
  · exact next_if_neg (by simp [hserved, hon, hkind, hpends, hroom])

/-! ### Contexts (R296, R323, R324) -/

/-- Settles O13: CTX_ENABLE, TEARDOWN and SCRUB_DONE are writes that reach HRT_CTX_CTL (R325); the two ends of the wait are past guards that ask for a
DRAINING context. That QUIESCE_TIMEOUT ends the wait with nothing in flight too, what it drops (log 66) and that device time moves to 2 ms after the
advance (log 3) are the model's choices. -/
theorem contextCommandsComplete : Obligations.ContextCommandsComplete := by
  intro s who c
  refine ⟨execCtxEnable_does c, execTeardown_does c, fun hdraining hquiet => ?_, fun hdraining => ?_, execScrubDone_does c⟩
  · exact next_if_neg (by simp [hdraining, hquiet])
  · exact next_if_neg (by simp [hdraining])

/-! ### Rings (R301, R302, R308, R312, R313, R317, R387) -/

section Doorbells

variable {s ring : State} {who : Party} {c slot : Nat}

theorem State.ringBy_allowed (hon : s.partyOn who = true) (hmay : s.mayRing who c = true) : s.ringBy who c slot ring = ring := by
  simp [State.ringBy, hon, hmay]

theorem State.ringBy_refused (hon : s.partyOn who = true) (hmay : s.mayRing who c = false) (hpark : s.inParked = false) :
    s.ringBy who c slot ring = s.refuseReg who (0x3000180000 + c * 0x1000 + 8 * slot) true := by
  simp [State.ringBy, hon, hmay, hpark]

theorem State.ringBy_lost (h : s.partyOn who = false ∨ s.mayRing who c = false ∧ s.inParked = true) : s.ringBy who c slot ring = s := by
  rcases h with hoff | ⟨hmay, hpark⟩
  · simp [State.ringBy, hoff]
  · simp [State.ringBy, hmay, hpark]

end Doorbells

/-- Settles O27: a doorbell rings, is refused or is lost by who rings it; the rest is past guards that the hypotheses meet. Doorbells in PARKED and without
power (log 12), those of the gate outside DEPOT (log 176) and device time moved to the limit (log 3) are the model's choices. -/
theorem ringCommandsComplete : Obligations.RingCommandsComplete := by
  intro s who c r value
  refine ⟨fun hon hmay => ?rung, fun hon hmay hpark => ?refused, fun hlost => ?lost, fun x rest hwaits hready => ?record,
    fun htime hcount => ?moderation, fun job j hjob hdue => ?deadline⟩
  case rung => exact ⟨congrArg Host.Outcome.next (State.ringBy_allowed hon hmay), congrArg Host.Outcome.next (State.ringBy_allowed hon hmay)⟩
  case refused =>
    exact ⟨congrArg Host.Outcome.next (State.ringBy_refused hon hmay hpark), congrArg Host.Outcome.next (State.ringBy_refused hon hmay hpark)⟩
  case lost => exact ⟨congrArg Host.Outcome.next (State.ringBy_lost hlost), congrArg Host.Outcome.next (State.ringBy_lost hlost)⟩
  case record => simp only [exec, execCompletionRecordWrite, State.writeOneRec, hwaits, hready, if_true]
  case moderation => exact next_if_neg (by simp [htime, hcount])
  case deadline =>
    simp only [exec, execDeadlineExpire, hjob]
    exact next_if_neg (by simp [hdue])

/-! ### Descriptors (R303 to R307, R349, R392) -/

section Descriptors

variable {s t u v w : State} {c r : Nat} {d : List Byte} {x : Rd} {g : GraphImage} {bytes : List Byte} {input base : Nat} {pin : Bool} {j : Job}

theorem next_takeDesc {op : Nat} {run : State → List Byte → State} (h : s.Takes c r op d t) :
    (.next (s.takeDesc c r op run) : Host.Outcome State Fault Refusal) = .next (run t d) :=
  congrArg Host.Outcome.next (State.takeDesc_ok h)

/-! What a load comes to: its report, and its record (R306). -/

theorem State.loadFails_some {k un l i why status : Nat} : v.loadFails c j (some (k, un, l, i, why)) status
    = (v.write (v.req 0x60 c) j.output (loadReport 0 (some (k, un, l, i, why)))).1.enqueueRec c j.cq
        ((v.write (v.req 0x60 c) j.output (loadReport 0 (some (k, un, l, i, why)))).1.recordOf
          { j with detail := why, unitKind := k, index := i, unit := un } 2 status) := rfl

theorem State.loadFails_none {status : Nat} : v.loadFails c j none status
    = (v.write (v.req 0x60 c) j.output (loadReport 0 none)).1.enqueueRec c j.cq
        ((v.write (v.req 0x60 c) j.output (loadReport 0 none)).1.recordOf { j with detail := 0, unitKind := 0, index := 0, unit := 0 } 2 status) := rfl

theorem State.loadImage_refused {ref : Nat × Nat × Nat × Nat × Nat} (h : u.loadRefused g bytes = (v, some ref)) :
    u.loadImage c input pin j g bytes = v.loadFails c j (some ref) 2 := by
  simp only [State.loadImage, h]

/-- The instructions of a graph that asks for it are pinned (R101). -/
def pinsAsked (pin : Bool) (g : GraphImage) (base : Nat) (bytes : List Byte) : List (Nat × Nat × List Byte) :=
  if pin then graphPins g base bytes else []

theorem State.loadImage_noRoom (h : u.loadRefused g bytes = (v, none))
    (hfull : v.modelBase c input g = none ∨ ∃ base, v.modelBase c input g = some base ∧ v.noRoom c g (pinsAsked pin g base bytes) = true) :
    u.loadImage c input pin j g bytes = v.loadFails c j none 11 := by
  rcases hfull with hbase | ⟨base, hbase, hfull⟩
  · simp only [State.loadImage, h, hbase]
  · simp only [State.loadImage, h, hbase]
    exact if_pos hfull

theorem State.loadImage_room (h : u.loadRefused g bytes = (v, none)) (hbase : v.modelBase c input g = some base)
    (hroom : v.noRoom c g (pinsAsked pin g base bytes) = false) :
    u.loadImage c input pin j g bytes = v.loadGraph c base j g bytes (pinsAsked pin g base bytes) := by
  simp only [State.loadImage, h, hbase]
  exact if_neg (Bool.not_eq_true _ ▸ hroom)

variable {pins : List (Nat × Nat × List Byte)}

theorem State.loadGraph_unplaced {e : AccErr} (h : v.placeImage c base bytes = (w, some e)) :
    v.loadGraph c base j g bytes pins = w.enqueueRec c j.cq (w.recordOf j 2 8) := by
  simp only [State.loadGraph, h, Option.isSome_some, if_true]

theorem State.loadGraph_placed {y : State} {e : Option AccErr} {handle : Nat}
    (hhandle : handle = v.gen c * 2 ^ 48 + c * 2 ^ 44 + (SMap.getD v.serials c 0 + 1)) (h : v.placeImage c base bytes = (w, none))
    (hreport : w.write (w.req 0x60 c) j.output (loadReport handle none) = (y, e)) :
    v.loadGraph c base j g bytes pins = if e = none then
        (y.addModel c base handle g bytes pins).enqueueRec c j.cq ((y.addModel c base handle g bytes pins).recordOf j 0 0)
      else y.enqueueRec c j.cq (y.recordOf j 2 8) := by
  subst hhandle
  simp only [State.loadGraph, h, hreport, Option.isSome_none, Bool.false_eq_true, if_false]
  cases e <;> rfl

end Descriptors

section Load

variable {s t u : State} {c : Fin 16} {r : Fin 8} {d : List Byte} {x : Rd} {image : GraphImage}

/-- The image at INPUT is read whole (R306, R307). -/
theorem execLoadModel_read (h : s.Takes c r 2 d t) (hread : t.read (t.req 0x60 c) (fieldAt d 16 5) image.bytes = (u, x)) :
    exec (.loadModel c r image) s = .next (if x.bad then
        let v := if x.poison && x.err.isNone then u.consumed 0x60 c (fieldAt d 16 5) else u
        v.enqueueRec c (t.jobOf c r d .loadModel).cq (v.recordOf (t.jobOf c r d .loadModel) 2 8)
      else u.loadImage c (fieldAt d 16 5) (bitAt (fieldAt d 2 2) 4) (t.jobOf c r d .loadModel) image x.bytes) := by
  refine (next_takeDesc h).trans ?_
  simp only [hread]

/-- One that could be read is judged. -/
theorem execLoadModel_judged (h : s.Takes c r 2 d t) (hread : t.read (t.req 0x60 c) (fieldAt d 16 5) image.bytes = (u, x)) (hgood : x.bad = false) :
    exec (.loadModel c r image) s
      = .next (u.loadImage c (fieldAt d 16 5) (bitAt (fieldAt d 2 2) 4) (t.jobOf c r d .loadModel) image x.bytes) :=
  (execLoadModel_read h hread).trans (next_if_neg (by simp [hgood]))

end Load

/-- Settles O28: each descriptor is taken at the head of its ring, so its meaning runs on the state past it; LOAD_MODEL goes on by what reading and judging
its image come to. A load within one command (log 64), a report or image write that fails (log 157), a BARRIER launched at acceptance (log 77) and a
descriptor that cannot be read (log 65) are the model's choices. -/
theorem descriptorsComplete : Obligations.DescriptorsComplete := by
  intro s c r d t
  refine ⟨fun h => ?nop, fun h => ?runGraph, fun image u x h hread => ⟨fun hbad => ?unread, fun v k un l i reason hgood href => ?refused,
      fun v hgood href => ⟨fun hfull => ?noRoom, fun base w y e hbase hroom hplace hreport => ?placed, fun base w e hbase hroom hplace => ?unplaced⟩⟩,
    fun h => ?unload, fun ch u x hctx hidle hon h hread => ?copy, fun h => ?fence, fun hnone h => ?barrier, fun u x hfetches hread hbad => ?readError⟩
  case nop => exact next_takeDesc h
  case runGraph => exact next_takeDesc h
  case unread => exact (execLoadModel_read h hread).trans (next_if_pos hbad)
  case refused => rw [execLoadModel_judged h hread hgood, State.loadImage_refused href, State.loadFails_some]
  case noRoom => rw [execLoadModel_judged h hread hgood, State.loadImage_noRoom href hfull, State.loadFails_none]
  case placed =>
    rw [execLoadModel_judged h hread hgood, State.loadImage_room href hbase hroom, State.loadGraph_placed rfl hplace hreport]
    rfl
  case unplaced => rw [execLoadModel_judged h hread hgood, State.loadImage_room href hbase hroom, State.loadGraph_unplaced hplace]
  case unload => exact next_takeDesc h
  case copy =>
    refine (next_if_neg (by simp [hctx, hidle, hon])).trans ((next_takeDesc h).trans ?_)
    simp only [hread]
  case fence => exact next_takeDesc h
  case barrier =>
    refine (next_if_neg ?_).trans (next_takeDesc h)
    intro hany
    obtain ⟨j, hj, hkind⟩ := List.any_eq_true.1 hany
    split at hkind
    · next hbarrier => exact hnone j hj _ _ hbarrier
    · cases hkind
  case readError =>
    refine (next_if_neg (by simp [hfetches])).trans ?_
    simp only [hread, hbad, Bool.not_true, Bool.false_eq_true, if_false]

/-! ### PCIe (R318, R440, R442, R480) -/

section Pcie

variable {s : State} {bar : Bar} {off len a : Nat}

/-- An offset that has a device address lies outside BAR2, which is the MSI-X table and no window (R440). -/
theorem inBar2_of_barAddress (h : s.barAddress bar off len = some a) : inBar2 bar off len = false := by
  cases bar with
  | bar0 => rfl
  | bar2 => cases h
  | bar4 => rfl

/-- An access in operation, outside PARKED, to an offset that has a device address is not one to the table, and goes to that address. -/
theorem State.inbound_at (hop : s.operates = true) (hpark : s.inParked = false) (h : s.barAddress bar off len = some a) :
    (inBar2 bar off len && s.operates && !s.inParked) = false
      ∧ (if s.operates && !s.inParked then s.barAddress bar off len else none) = some a := by
  simp [inBar2_of_barAddress h, hop, hpark, h]

end Pcie

/-- Settles O38: a request with a device address goes there, one within BAR2 to the MSI-X table (R442); an event of the endpoint is past its guards. What a
low PCIE_PERST_n keeps from a configuration write and the link (log 122), when a pending source sends PME (log 123) and what the BARs refuse (log 124) are
the model's choices. -/
theorem pcieCommandsComplete : Obligations.PcieCommandsComplete := by
  intro s hop hpark
  refine ⟨fun bar off len a haddr hregs => ?readReg, fun bar off len a t r haddr hmem hread => ?readMem, fun bar off a data haddr hregs => ?writeReg,
    fun bar off a data t e haddr hmem hwrite => ?writeMem, fun off len hlen => ?readTable, fun off data hlen => ?writeTable, fun hhigh => ?perst,
    fun d3 hother => ?dstate, fun link speed width hlink => ?link, fun w hhigh => ?config⟩
  case readReg =>
    obtain ⟨htable, hat⟩ := State.inbound_at hop hpark haddr
    simp only [exec, execPcieMemRead, htable, hat, hregs, Bool.false_eq_true, if_false, if_true]
  case readMem =>
    obtain ⟨htable, hat⟩ := State.inbound_at hop hpark haddr
    simp only [exec, execPcieMemRead, htable, hat, hmem, hread, Bool.false_eq_true, if_false]
  case writeReg =>
    obtain ⟨htable, hat⟩ := State.inbound_at hop hpark haddr
    simp only [exec, execPcieMemWrite, htable, hat, hregs, Bool.false_eq_true, if_true, if_false]
  case writeMem =>
    obtain ⟨htable, hat⟩ := State.inbound_at hop hpark haddr
    simp only [exec, execPcieMemWrite, htable, hat, hmem, hwrite, Bool.false_eq_true, if_false]
  case readTable => exact next_if_pos (by simp [inBar2, hlen, hop, hpark])
  case writeTable => exact next_if_pos (by simp [inBar2, hlen, hop, hpark])
  case perst =>
    have hop' : (s.modModes (fun m => { m with perst := false })).operates = true := (State.operates_modModes (fun _ => rfl) (fun _ => rfl)).trans hop
    exact (next_if_neg (by simp [hop'])).trans <| (next_if_pos rfl).trans <| next_if_neg (by simp [hpark, hhigh])
  case dstate => exact next_if_neg (by simp [hop, hpark, hother])
  case link => exact next_if_neg (by rcases hlink with h | h <;> simp [hop, hpark, h])
  case config => exact next_if_neg (by simp [hop, hpark, hhigh])

/-! ### Reset (R295 to R297, R339, R414) -/

/-- Settles O46: at reset all registers but four words of the fuses hold their reset values, in which each claim is read off. -/
theorem resetValues : Obligations.ResetValues := by
  refine ⟨rfl, ?strikes, ?mode, ?island, ?lock, ?contexts, ?units⟩
  case strikes => decide +kernel
  case mode => decide +kernel
  case island => decide +kernel
  case lock => decide +kernel
  case contexts => decide +kernel
  case units => decide +kernel

end Sys2Proof.Machine

/-! PROOFS. The obligations on time and strikes: gPTP, strikes with their table entries and stage windows, marks and barriers between modules. -/

namespace Sys2Proof.Machine

/-! ### gPTP (R333 to R338) -/

/-- A slave port takes Sync and Follow_Up of domain 0 while gPTP runs (R333, R335, R336). -/
theorem State.takesSync_iff {s : State} {p : Fin 2} {m : SyncMsg} (hon : s.gptpOn = true) :
    s.takesSync p m = true ↔ s.portRole p = 1 ∧ m.domain = 0 := by
  simp [State.takesSync, hon]

/-- Settles O29: a message that the port takes, an exchange on a port with a role, the grandmaster's Sync and the timeout of a measured time are past their
guards; a Sync goes on by whether the other port relays it. The stamps and the relay's egress, and when an exchange or a Sync is first due (log 70), device
time moved to the due time (log 3) and the next exchange a second later (log 149) are the model's choices. -/
theorem timeProtocolCommandsComplete : Obligations.TimeProtocolCommandsComplete := by
  intro s p hon
  refine ⟨fun m t ingress hrole hdomain hstamp => ?sync, fun m y hrole hdomain hwaits hseq => ?followUp, fun m hnot => ?untaken, fun m hrole => ?pdelay,
    fun hgm => ?gmSync, fun hstate => ?timeout⟩
  case sync =>
    have htakes : s.takesSync p m = true := (State.takesSync_iff hon).2 ⟨hrole, hdomain⟩
    cases hrelay : t.relayPort p <;> exact (next_if_neg (by simp [htakes])).trans (by simp only [hstamp, hrelay])
  case followUp =>
    have htakes : s.takesSync p m = true := (State.takesSync_iff hon).2 ⟨hrole, hdomain⟩
    refine (next_if_neg (by simp [htakes])).trans ?_
    simp only [hwaits]
    exact next_if_neg (by simp [hseq])
  case untaken =>
    have hleft : ¬s.takesSync p m = true := fun h => by
      obtain ⟨hrole, hdomain⟩ := (State.takesSync_iff hon).1 h
      exact hnot.elim (· hrole) (· hdomain)
    exact ⟨next_if_pos (by simp [hleft]), next_if_pos (by simp [hleft])⟩
  case pdelay => exact next_if_neg (by simp [hon, hrole])
  case gmSync => exact next_if_neg (by simp [hon, hgm])
  case timeout => exact next_if_neg (by rcases hstate with h | h <;> simp [hon, h])

/-! ### Strikes (R339 to R344, R373 to R375) -/

/-- Settles O30: RUN is written 1 or 0; a strike, an entry, a window (R373, R374) and the read of the frame table (R375) that are due are past their guards.
Entries of one offset that fire together (log 75), what RUN written 0 leaves (log 76) and device time moved to the due time (log 3) are the model's
choices. -/
theorem strikeCommandsComplete : Obligations.StrikeCommandsComplete := by
  intro s who
  refine ⟨execStrikeRunStart_does, execStrikeRunStop_does, fun due hdue => ?strike, fun e hready hpark => ?fire, fun w hopen hclose => ?close,
    fun n hdue => ?age⟩
  case strike => simp only [exec, execStrike, hdue]
  case fire => exact next_if_neg (by simp [hready, hpark])
  case close => exact next_if_pos (by simpa [hclose] using hopen)
  case age => simp only [exec, execAgeFrameTableRead, hdue]

/-! ### Marks and barriers (R345 to R349) -/

/-- Settles O31: a mark that is due before the next strike, one that the follower hears, the two limits of the time without marks and an ARRIVE at the
master are past their guards. Marks on every port that is up (log 73) and device time moved to the mark or the limit (log 3) are the model's choices. -/
theorem markCommandsComplete : Obligations.MarkCommandsComplete := by
  intro s
  refine ⟨fun k due hk hdue hmaster hlive hbefore => ?timer, fun q m hfollower hport hrun hpark => ?mark, fun hlocked => ?coast, fun hstate => ?lost,
    fun module id mask hmaster => ?arrive, fun id strike => rfl⟩
  case timer =>
    subst hk hdue
    exact (next_if_neg (by simp [hmaster, hlive])).trans (next_if_neg (Nat.not_le.2 hbefore))
  case mark => exact next_if_neg (by simp [hfollower, hport, hrun, hpark])
  case coast => exact next_if_neg (by simp [hlocked])
  case lost => exact next_if_neg (by rcases hstate with h | h <;> simp [h])
  case arrive => exact next_if_neg (by simp [hmaster])

end Sys2Proof.Machine

/-! PROOFS. The obligations on safety: comparators and arming, Ember and the safe-state frame, Hearth cores. -/

namespace Sys2Proof.Machine

/-! ### Comparators and arming (R359, R361, R363, R365, R390) -/

/-- Settles O14: a self-test, an injection and ARM are writes that reach their registers; the end of a self-test is past the guard that one runs. -/
theorem comparisonCommandsComplete : Obligations.ComparisonCommandsComplete := by
  intro s who
  refine ⟨fun slot checker => rfl, fun hr => ⟨execComparatorSelftest_does hr, execComparatorInject_does hr⟩, fun hruns hwhole => ?selftest,
    execArm_does⟩
  case selftest =>
    constructor <;> exact (next_if_neg (by simp [hruns])).trans (by simp [hwhole])

/-! ### Ember and the safe-state frame (R378 to R380) -/

/-- Settles O32: a run starts once in a strike, ends, or is late; a frame that waits leaves on a bus that is not off. What counts as the inputs and as their
failure (log 86), the outcome of the network as an operand (log 92), the frames that a quench leaves (log 91) and the deadline no later than the next strike,
with device time moved there (log 3, 4), are the model's choices. -/
theorem islandCommandsComplete : Obligations.IslandCommandsComplete := by
  intro s
  refine ⟨fun goldenOk hon hidle hfresh start u old noInput bad hstart hinputs => ?start, fun run hruns => ?complete, fun due hdue hwaits => ?deadline,
    fun k f hframe hbus => ?frame⟩
  case start =>
    subst hstart
    refine (next_if_neg (by simp [hon, hidle, hfresh])).trans ?_
    -- Only what the reads come to counts; under a name of their own the kernel does not run them.
    obtain ⟨reads, hreads⟩ : ∃ reads, reads = State.embInputs := ⟨_, rfl⟩
    rw [← hreads] at hinputs ⊢
    simp only [hinputs]
  case complete => exact next_if_neg (by simp [hruns])
  case deadline =>
    subst hdue
    have hlate : s.embDue = true := by simpa [State.embDue] using hwaits
    refine ⟨fun hlast => ?_, fun next hnext => ?_⟩
    · exact (next_if_neg (by simp [hlate])).trans (by simp only [hlast])
    · exact (next_if_neg (by simp [hlate])).trans (by simp only [hnext])
  case frame =>
    simp only [exec, execSafeStateFrameSent, hframe]
    exact next_if_neg hbus

/-! ### Hearth cores (R367, R368, R382) -/

/-- Settles O33: a join that has begun ends; the debugger reaches main cores, whose numbers are even, and of those a halted one is written and resumed. A
join that times out being over (log 89), registers being those that a debugger wrote (log 90) and device time moved to the limit (log 3) are the model's
choices. -/
theorem hearthCommandsComplete : Obligations.HearthCommandsComplete := by
  intro s
  refine ⟨fun j at_ hjoin => ⟨?joined, ?timedOut⟩, fun core hmain => ?halt, fun core reg value step hodd => ?odd, rfl, ⟨rfl, rfl⟩,
    fun core reg value hmain hhalted => ?write, fun core step hmain hhalted => ?resume⟩
  case joined => exact next_if_neg (by simp [hjoin])
  case timedOut => simp only [exec, execHearthJoinTimeout, hjoin]
  case halt => exact next_if_pos (by simp [mainCore, hmain])
  case odd => exact ⟨next_if_neg (by simp [mainCore, hodd]), next_if_pos (by simp [mainCore, hodd]), next_if_neg (by simp [mainCore, hodd])⟩
  case write => exact next_if_neg (by simpa [mainCore, hmain] using hhalted)
  case resume => exact (next_if_pos (by simp [mainCore, hmain])).trans (next_if_neg (by simpa using hhalted))

end Sys2Proof.Machine

/-! PROOFS. The obligations on faults and recovery: the fault collector, hang monitors and resets, the log, the event recorder and snapshots. -/

namespace Sys2Proof.Machine

/-! ### Reports, fences, hangs, resets (R398 to R416) -/

section Reports

variable {s : State} {src : BitVec 16} {ctx : Option (Fin 16)} {safety : Bool} {op : Byte} {d0 d1 : DWord}

/-- A group that R398 does not list reports nothing. -/
theorem execFaultReport_unknown (h : knownGroup (src.toNat / 256) = false) : execFaultReport src ctx safety op d0 d1 s = .next s :=
  next_if_pos (by simp [h])

/-- Group 0x22: a pair of Hearth cores failed its comparison (R366). -/
theorem execFaultReport_hearth (h : src.toNat / 256 = 0x22) :
    execFaultReport src ctx safety op d0 d1 s = .next (s.hearthFailed (src.toNat % 256 % 4) false) :=
  (next_if_neg (by rw [h]; decide)).trans (next_if_pos h)

/-- Group 0x48: a proof kernel failed (R407). -/
theorem execFaultReport_proof (h : src.toNat / 256 = 0x48) :
    execFaultReport src ctx safety op d0 d1 s = .next (s.proofFailed (src.toNat % 256) op.toNat d0.toNat d1.toNat) :=
  (next_if_neg (by rw [h]; decide)).trans <| (next_if_neg (by rw [h]; decide)).trans (next_if_pos h)

/-- Any other group: what the detector does, what its source spoils, and the fault in its class. -/
theorem execFaultReport_detector (hknown : knownGroup (src.toNat / 256) = true) (hhearth : src.toNat / 256 ≠ 0x22) (hproof : src.toNat / 256 ≠ 0x48) :
    execFaultReport src ctx safety op d0 d1 s
      = .next (((s.detector (src.toNat / 256) (src.toNat % 256)).harmSource (src.toNat / 256) (src.toNat % 256) safety).fault (src.toNat / 256)
          (src.toNat % 256) safety (ctx.map (·.val)) (sourceUnit (src.toNat / 256) (src.toNat % 256)) d0.toNat d1.toNat) :=
  (next_if_neg (by simp [hknown])).trans <| (next_if_neg hhearth).trans (next_if_neg hproof)

end Reports

/-- Settles O15: clears, injections, kicks, the fence list and PRC_RESET are writes that reach their registers; a report goes by its group; a hang that is
due, a reset that AUTO lets the island request (R415) and the release of a reset are past their guards. What unknown groups do (log 93), class S as C in
DEPOT (log 170), a hang found once (log 96) and device time moved to the limit (log 3) are the model's choices. -/
theorem faultCommandsComplete : Obligations.FaultCommandsComplete := by
  intro s who
  refine ⟨execFclClearFirst_does, execFclInject_does, execFclCtxNClear_does, execHangKick_does, fun w f => execFenceListAdd_does w,
    fun w f => execFenceListClear_does w, fun src ctx safety op d0 d1 => execFaultReport_detector,
    fun src ctx safety op d0 d1 => ⟨execFaultReport_unknown, execFaultReport_hearth, execFaultReport_proof⟩, fun core hdue hmissed hfresh => ?hearthHang,
    fun u hbusy hwindow hlive hstrikes => ?unitHang, fun ch hruns => ?channelHang, fun hr hz => ?reset, fun hauto hhang => ?afterHang,
    fun hauto hhang hquenched hclass hdelay => ?afterQuench, fun hheld hserves => ?release⟩
  case hearthHang => exact next_if_neg (by simpa [hdue] using And.intro hmissed hfresh)
  case unitHang => exact next_if_pos (by simp [hbusy, hwindow, hlive, hstrikes])
  case channelHang => exact next_if_neg (by simp [hruns])
  case reset => exact ⟨execPrcResetCompute_does hr hz, execPrcResetSys_does hr hz, fun key hkey => execPrcReset_unkeyed hkey hr hz⟩
  case afterHang => exact (next_if_neg (by simp [hauto])).trans (next_if_pos hhang)
  case afterQuench =>
    exact (next_if_neg (by simp [hauto])).trans <| (next_if_neg (by simp [hhang])).trans (next_if_pos (by simp [hquenched, hclass, hdelay]))
  case release => exact next_if_neg (by simp [hheld, hserves])

/-! ### The log, the event recorder, snapshots (R418, R421 to R428) -/

/-- Settles O16: the windows are reads and the commands writes that reach their registers (R422, R423, R426 to R428); the recorder's timer and sample are
past the guard that the device runs outside PARKED. Mode hours in 1/16 h and the first sample of an extreme (log 97) and device time moved to the next
period (log 149) are the model's choices. -/
theorem recorderCommandsComplete : Obligations.RecorderCommandsComplete := by
  intro s who
  refine ⟨execFclLogWindowRead_does, execEvrWindowRead_does, execSnpWindowRead_does, execSnpDumpStart_does, execSnpTrigger_does, execEvrCommit_does,
    execEvrClear_does, fun hpark hop => ?timer, fun x hpark hop => ?sample⟩
  case timer => exact next_if_neg (by simp [hpark, hop])
  case sample => exact next_if_neg (by simp [hpark, hop])

end Sys2Proof.Machine

/-! PROOFS. The obligations on the depot gate and the networks: datagrams and the gate's housekeeping, the tenants' messages, Ethernet and CAN. -/

namespace Sys2Proof.Machine

/-! ### What reaches the gate from outside its messages (R447, R448, R450, R452, R460) -/

/-- Settles O36: a datagram for the gate goes by what the reassembly makes of it, which the claim spells out; the rest is past guards that its hypotheses
meet, and a key word is a write that reaches its register. The 65th reassembly refused (log 115), the forms of the answers (log 117), device time moved to
the limit (log 3) and the periods of hints and credits (log 149) are the model's choices. -/
theorem gateIntakeCommandsComplete : Obligations.GateIntakeCommandsComplete := by
  intro s who
  refine ⟨fun f hgate => ?datagram, fun key r hpart => ?timeout, fun mac ip target hon hown htarget => ?arp, fun mac ip hon => ?neighbor,
    fun hdepot => ?hint, fun t hserved => ?creditTimer, execTenantKeyWrite_does, fun up hdepot hchange => ?link⟩
  case datagram => exact next_if_neg (by simp [hgate])
  case timeout => simp only [exec, execReassemblyTimeout, hpart]
  case arp => exact next_if_neg (by simp [hon, hown, htarget])
  case neighbor => exact next_if_neg (by simp [hon])
  case hint => exact next_if_neg (by simp [hdepot])
  case creditTimer => exact next_if_pos hserved
  case link => exact next_if_neg (by simp [hdepot, hchange])

/-! ### The tenants' messages and the gate's own (R452 to R454) -/

/-- A message at the front of the tenant's buffer is taken, and its meaning runs on the state without it. -/
theorem next_gateTake {s u v : State} {n cls : Nat} {b : List Byte} {run : State → List Byte → State} (h : s.Holds n cls b u) (hrun : run u b = v) :
    (.next (s.gateTake n cls run) : Host.Outcome State Fault Refusal) = .next v :=
  congrArg Host.Outcome.next ((State.gateTake_ok h).trans hrun)

/-- Settles O37: a message is at the front, so its meaning runs on the state without it; the gate's own sending is past guards that its hypotheses meet.
Results found by ring and tag, messages kept until acknowledged and nothing sent without a peer (log 116), and device time moved to the limit (log 3), are
the model's choices. -/
theorem gateMessagesComplete : Obligations.GateMessagesComplete := by
  intro s t b u
  refine ⟨fun h hready => ?submit, fun h => ?put, fun h hready => ?drop, fun h => ?query, fun h hack => ?credit, fun w rest hloads hon hroom => ?written,
    fun e hfirst hon hpeer hwindow => ?send, fun e hfirst hon hflows => ?resend, fun hany hon hflows => ?stall⟩
  case submit => exact (next_if_neg (by simp [hready])).trans (next_gateTake h rfl)
  case put => exact next_gateTake h rfl
  case drop => exact (next_if_neg (by simp [hready])).trans (next_gateTake h rfl)
  case query => exact next_gateTake h rfl
  case credit => exact next_gateTake h (if_neg (Int.not_lt.2 hack))
  case written =>
    simp only [exec, execModelPutWriteComplete, hloads]
    exact next_if_neg (by simp [hon, hroom])
  case send =>
    simp only [exec, execGateOutboundSend, hfirst]
    exact next_if_neg (by simp [hon, hpeer, hwindow])
  case resend =>
    simp only [exec, execRtoResend, hfirst]
    exact next_if_neg (by simp [hon, hflows])
  case stall => exact next_if_neg (by simp [hon, hany, hflows])

/-! ### Ethernet and CAN (R443 to R446, R459, R476) -/

section Ethernet

variable {s : State} {p : Fin 2} {e : EthFrame}

/-- A frame that arrives whole, and no longer than a port takes, is counted. -/
def State.ethCounted (s : State) (p : Fin 2) : State := { s with ethRx := s.ethRx.set p (s.ethRx.getD p 0 + 1) }

/-- Where the bridge sends a frame: a gPTP message nowhere (R333), any other one to the other port, to E2, or nowhere for want of an entry (R443). -/
def State.ethBridged (s : State) (p : Fin 2) (bytes : List Byte) : State :=
  let l := parseEth bytes
  if l.type = 0x88F7 ∧ l.dest = 0x0180C200000E then s
  else
    match s.forwardPorts l with
    | some m =>
      let t := if bitAt m (1 - p.val) then s.ethTransmit (1 - p.val) bytes else s
      if bitAt m 2 || l.dest == t.ethMac then t.toE2 l else t
    | none =>
      if l.dest = s.ethMac then s.toE2 l
      else (s.count Reg.ETH_DROP.NOFWD_CNT 1).event Reg.ETH_EVT_STATUS.NOFWD 298

section Enabled

variable (hop : s.operates = true) (hpark : s.inParked = false) (hport : s.flag (Reg.ETH_PORT_CTL.ENABLE p) = true)
include hop hpark hport

theorem execEthFrameReceived_damaged (hbad : e.fcsOk = false) :
    execEthFrameReceived p e s = .next (s.count (Reg.ETH_PORT_STATUS.CRC_CNT p) 1) :=
  (next_if_neg (by simp [hop, hpark, hport])).trans (next_if_pos (by simp [hbad]))

theorem execEthFrameReceived_whole (hgood : e.fcsOk = true) (hlen : e.bytes.length + 4 ≤ 1522) :
    execEthFrameReceived p e s = .next ((s.ethCounted p).ethBridged p e.bytes) :=
  (next_if_neg (by simp [hop, hpark, hport])).trans <| (next_if_neg (by simp [hgood])).trans (next_if_neg (Nat.not_lt.2 hlen))

end Enabled

/-- Counting a frame changes no entry of the bridge. -/
theorem State.forwardPorts_ethCounted (l : Layer2) : (s.ethCounted p).forwardPorts l = s.forwardPorts l := rfl

end Ethernet

/-- Settles O39: a frame goes by its check, its type and where its destination leads; the events of ports and buses and the confirmation's timeout are past
their guards. Matching entries together and never back to the port of entry (log 119), frames counted at arrival (log 114), the confirmation's counter
(log 121) and device time moved to the limit (log 3) are the model's choices. -/
theorem networkCommandsComplete : Obligations.NetworkCommandsComplete := by
  intro s p k f
  refine ⟨fun e hop hpark hport => ⟨fun hbad => ?damaged, fun hgood hlen => ⟨fun htype hdest => ?gptp, fun hother => ⟨fun m hfwd => ?forwarded,
      fun hfwd => ?unknown⟩⟩⟩, fun up hop hpark hlink => ?link, fun hon => ⟨?can, ?confirmation, ?busOff⟩, fun hoff => ?recovery,
    fun hvalid hpark => ?confirmationLost⟩
  case damaged => exact execEthFrameReceived_damaged hop hpark hport hbad
  case gptp => exact (execEthFrameReceived_whole hop hpark hport hgood hlen).trans (next_if_pos ⟨htype, hdest⟩)
  case forwarded =>
    refine (execEthFrameReceived_whole hop hpark hport hgood hlen).trans ((next_if_neg hother).trans ?_)
    simp only [State.forwardPorts_ethCounted, hfwd]
    rfl
  case unknown =>
    refine (execEthFrameReceived_whole hop hpark hport hgood hlen).trans ((next_if_neg hother).trans ?_)
    simp only [State.forwardPorts_ethCounted, hfwd]
    rfl
  case link => exact next_if_neg (by rcases hlink with h | h <;> simp [hop, hpark, h])
  case can => exact next_if_pos hon
  case confirmation => exact next_if_neg (by simp [hon])
  case busOff => exact next_if_pos hon
  case recovery => exact next_if_pos hoff
  case confirmationLost => exact next_if_neg (by simp [hvalid, hpark])

end Sys2Proof.Machine

/-! PROOFS. The obligations on boot, power and modes: the processor control block's commands, power, the supply monitors, service images. -/

namespace Sys2Proof.Machine

/-! ### The processor control block (R465, R471, R475 to R477, R481) -/

/-- Settles O17: each command is a write of its field that reaches the register; the end of a pool scrub is past the guard that one runs. CONFIRM without
effect for a service image is the model's choice (log 133). -/
theorem controlCommandsComplete : Obligations.ControlCommandsComplete := by
  intro s who
  refine ⟨execTopLockSet_does, fun slots => execKeySlotRevoke_does, execBootConfirm_does, execBootPending_does, execParkRequest_does, execDepotRequest_does,
    execLeaveDepotRequest_does, execPoolScrub_does, fun hscrub => ?scrubbed⟩
  case scrubbed => exact next_if_neg (by simp [hscrub])

/-! ### Power and service images (R461 to R470, R494 to R497) -/

section ServiceImage

variable {s : State} {image : List Byte} {img : Image}

/-- A service image whose header is accepted and whose body has the digest of the header runs, after what ends the image that ran before it (R464, R466). -/
theorem execServiceImageBoot_accepted (hlock : s.locked = false) (hop : s.operates = true) (hpark : s.inParked = false)
    (hhead : s.acceptImage 2 (image.take 256) (image.drop 256) = some img) (hbody : sha384 img.body = img.digest) :
    execServiceImageBoot image s = .next ((if s.boot.waiting then s.setFld Reg.PRC_MODE.MODE 0 else
      (((((s.evrCommit.logWrite 3 0xFF 0xFF 0 0xFF 0 (2 + 256 * 4) 0).evrCounter 2).sysState).setFld Reg.TOP_BOOT.CAUSE 2).dramState 0)).runImage
        img none 0) := by
  refine (next_if_neg (by simp [hlock, hop, hpark])).trans ?_
  simp only [hhead]
  exact next_if_neg (fun hother => hother hbody)

end ServiceImage

/-- Settles O41: power that comes or goes, PORST_n, a sample and a monitor's trip are past guards that their hypotheses meet; an accepted image runs by
whether the device waits for one. A service image taken while another runs (log 134), the over count and the throttling by the sample (log 143), what a loss
of power clears (log 146) and device time moved to the due time (log 3) are the model's choices. -/
theorem powerCommandsComplete : Obligations.PowerCommandsComplete := by
  intro s
  refine ⟨fun hoff => ?start, fun hon => ⟨?loss, fun o => ?porst⟩, fun x hop hpark => ?sample, fun monitor hop hpark hmonitor => ?trip,
    fun image img hlock hop hpark hhead hbody => ⟨fun hwaits => ?first, fun hruns => ?again⟩, fun hwaits hop => ?frame⟩
  case start => exact next_if_neg (by simp [hoff])
  case loss => exact next_if_neg (by simp [hon])
  case porst => exact next_if_neg (by simp [hon])
  case sample => exact next_if_neg (by simp [hop, hpark])
  case trip =>
    refine next_if_neg ?_
    rcases hmonitor with h | ⟨h, hdepot⟩
    · have hle : ¬7 < monitor.toNat := by omega
      have hne : monitor.toNat ≠ 7 := by omega
      simp [hop, hpark, hle, hne]
    · simp [hop, hpark, h, hdepot]
  case first => exact (execServiceImageBoot_accepted hlock hop hpark hhead hbody).trans (by rw [if_pos hwaits])
  case again => exact (execServiceImageBoot_accepted hlock hop hpark hhead hbody).trans (by rw [if_neg (by simp [hruns])])
  case frame => exact next_if_neg (by simp [hwaits, hop])

end Sys2Proof.Machine

/-! PROOFS. The obligations on the block as a whole: a step, an idle step, every command, the state after reset. -/

namespace Sys2Proof.Machine

/-- Settles O1: a step looks at the queue first. -/
theorem stepRunsFrontCommand : Obligations.StepRunsFrontCommand := by
  intro s c rest hqueue
  simp only [step, hqueue]

section Idle

variable {s : State}

theorem step_of_empty (h : s.pending = []) : step s = .next s.idle := by
  simp only [step, h]

theorem State.idle_of_off (h : s.operates = false) : s.idle = s := if_pos (by simp [h])

/-- In PARKED the sentinel's count alone goes on (R331). -/
theorem State.idle_of_parked (hop : s.operates = true) (hpark : s.inParked = true) :
    s.idle = s.modModes (fun m => { m with sentinel := m.sentinel + 1 }) :=
  (if_neg (by simp [hop])).trans (if_pos hpark)

end Idle

/-- Settles O2: with no command waiting a step is the idle one (log 1), which does nothing without power or in PORST and counts a cycle of the sentinel in
PARKED (R331). -/
theorem emptyQueueIdles : Obligations.EmptyQueueIdles := by
  intro s hqueue
  have hstep : step s = .next s.idle := step_of_empty hqueue
  refine ⟨hstep, fun hoff => ?_, fun hop hpark => ?_⟩
  · rw [hstep, State.idle_of_off hoff]
  · rw [hstep, State.idle_of_parked hop hpark]
    rfl

/-- Settles O3: each command completes, and `Kept` names the queue, the output and the canonical form. That a command whose event cannot occur completes
too, and changes nothing, is the model's choice (log 2). -/
theorem everyCommandCompletes : Obligations.EveryCommandCompletes := by
  intro c s
  obtain ⟨t, hexec, kept⟩ := exec_completes s c
  exact ⟨t, hexec, kept.queue, kept.sent, kept.canon⟩

/-- After reset the registers hold the fuses' words, and every memory is empty (R414, log 5). -/
theorem State.reset_canonical : State.reset.Canonical where
  mem := CellsWf.nil
  mram := CellsWf.nil
  flash := CellsWf.nil
  regs := by decide
  poison := rfl
  damage := rfl

/-- Settles O5: empty memories, an empty queue and nothing sent are the model's choice of the state after reset (log 5, 147, 148). -/
theorem resetIsCanonical : Obligations.ResetIsCanonical :=
  ⟨State.reset_canonical, rfl, rfl, rfl, rfl, rfl⟩

end Sys2Proof.Machine
